-- ==== Sys2Proof/Word.lean ====
section
/-! DEFINITION. The word types of the machine (spec/00 R7, R9; spec/03 R56). -/

namespace Sys2Proof

/-- A 64-bit value: a scalar register, an address while it is computed (R56). -/
abbrev Word := BitVec 64

/-- A 32-bit value: an instruction word, a vector element (R59, R79). -/
abbrev W32 := BitVec 32

/-- One byte of memory. -/
abbrev Byte := BitVec 8

/-- A 7-bit register or code field of an instruction word (R84). -/
abbrev Field := BitVec 7

/-- A mask register: bit `i` is lane `i` (R30). -/
abbrev Mask := BitVec 1024

end Sys2Proof
end

