-- ==== Sys2Proof/Syntax.lean ====
section
/-! DEFINITION. The instructions: one constructor per row of the opcode table. The 245 encoded
instructions carry the fields of their words (spec/04 R80); the device steps, host register
writes and mailbox requests name their subject in the state. -/

namespace Sys2Proof

/-- What a host register write names: an offset of BAR0 (R311), or a control register by number,
context and die (R341, Table 19.9). -/
inductive RegTarget where
  | bar (off : Nat)
  | csr (num : Nat) (ctx die : Nat)
  deriving DecidableEq, Repr

/-- The instructions and device steps of `spec/opcode_table.json`, in its order but for those
without fields, which stand last. A device step takes its subject (a core, a team, a queue, a
sensed value) from the state's field `arg`. -/
inductive Instr where
  /-- R103. ADD: Writes the sum of two scalar operands at 64 or 32 bits. -/
  | add (d : Field) (a : Field) (b : Field) (w : BitVec 1)
  /-- R103. SUB: Writes the difference of two scalar operands. -/
  | sub (d : Field) (a : Field) (b : Field) (w : BitVec 1)
  /-- R103. MUL: Writes the low w bits of the product of two scalar operands. -/
  | mul (d : Field) (a : Field) (b : Field) (w : BitVec 1)
  /-- R103. MULH: Writes the high half of the signed product. -/
  | mulh (d : Field) (a : Field) (b : Field) (w : BitVec 1)
  /-- R103. MULHN: Writes the high half of the unsigned product. -/
  | mulhn (d : Field) (a : Field) (b : Field) (w : BitVec 1)
  /-- R104. DIV: Writes the signed quotient rounded towards zero, with defined results for zero and overflow. -/
  | div (d : Field) (a : Field) (b : Field) (w : BitVec 1)
  /-- R104. DIVN: Writes the unsigned quotient. -/
  | divn (d : Field) (a : Field) (b : Field) (w : BitVec 1)
  /-- R104. REM: Writes the signed remainder. -/
  | rem (d : Field) (a : Field) (b : Field) (w : BitVec 1)
  /-- R104. REMN: Writes the unsigned remainder. -/
  | remn (d : Field) (a : Field) (b : Field) (w : BitVec 1)
  /-- R103. AND: Writes the bitwise AND of two scalar operands. -/
  | and (d : Field) (a : Field) (b : Field) (w : BitVec 1)
  /-- R103. OR: Writes the bitwise OR of two scalar operands. -/
  | or (d : Field) (a : Field) (b : Field) (w : BitVec 1)
  /-- R103. XOR: Writes the bitwise XOR of two scalar operands. -/
  | xor (d : Field) (a : Field) (b : Field) (w : BitVec 1)
  /-- R103. ANDN: Writes a AND NOT b. -/
  | andn (d : Field) (a : Field) (b : Field) (w : BitVec 1)
  /-- R103. SHL: Shifts left by b mod w. -/
  | shl (d : Field) (a : Field) (b : Field) (w : BitVec 1)
  /-- R103. SHR: Shifts right logically by b mod w. -/
  | shr (d : Field) (a : Field) (b : Field) (w : BitVec 1)
  /-- R103. SRA: Shifts right arithmetically by b mod w. -/
  | sra (d : Field) (a : Field) (b : Field) (w : BitVec 1)
  /-- R103. ROTL: Rotates left within w bits. -/
  | rotl (d : Field) (a : Field) (b : Field) (w : BitVec 1)
  /-- R103. MIN: Writes the signed minimum. -/
  | min (d : Field) (a : Field) (b : Field) (w : BitVec 1)
  /-- R103. MAX: Writes the signed maximum. -/
  | max (d : Field) (a : Field) (b : Field) (w : BitVec 1)
  /-- R103. MINN: Writes the unsigned minimum. -/
  | minn (d : Field) (a : Field) (b : Field) (w : BitVec 1)
  /-- R103. MAXN: Writes the unsigned maximum. -/
  | maxn (d : Field) (a : Field) (b : Field) (w : BitVec 1)
  /-- R102. CMP: Compares signed and writes all four CC flags. -/
  | cmp (a : Field) (b : Field) (w : BitVec 1)
  /-- R102. CMPN: Compares unsigned and writes all four CC flags. -/
  | cmpn (a : Field) (b : Field) (w : BitVec 1)
  /-- R103. SEL: Selects a if the old destination is non-zero, otherwise b. -/
  | sel (d : Field) (a : Field) (b : Field) (w : BitVec 1)
  /-- R103. CLZ: Counts leading zero bits. -/
  | clz (d : Field) (a : Field) (w : BitVec 1)
  /-- R103. CTZ: Counts trailing zero bits. -/
  | ctz (d : Field) (a : Field) (w : BitVec 1)
  /-- R103. POPC: Counts set bits. -/
  | popc (d : Field) (a : Field) (w : BitVec 1)
  /-- R103. BREV: Reverses the bits within w. -/
  | brev (d : Field) (a : Field) (w : BitVec 1)
  /-- R105. BFX: Extracts a bit field. -/
  | bfx (d : Field) (a : Field) (b : Field) (w : BitVec 1)
  /-- R105. BFI: Inserts a bit field into the old destination. -/
  | bfi (d : Field) (a : Field) (b : Field) (w : BitVec 1)
  /-- R103. MOV: Copies a scalar operand. -/
  | mov (d : Field) (a : Field) (w : BitVec 1)
  /-- R106. ADDI: Adds a sign-extended 9-bit immediate. -/
  | addi (d : Field) (a : Field) (i : BitVec 9)
  /-- R106. ANDI: ANDs with a sign-extended immediate. -/
  | andi (d : Field) (a : Field) (i : BitVec 9)
  /-- R106. ORI: ORs with a sign-extended immediate. -/
  | ori (d : Field) (a : Field) (i : BitVec 9)
  /-- R106. XORI: XORs with a sign-extended immediate. -/
  | xori (d : Field) (a : Field) (i : BitVec 9)
  /-- R106. SHLI: Shifts left by an immediate amount. -/
  | shli (d : Field) (a : Field) (i : BitVec 6)
  /-- R106. SHRI: Shifts right logically by an immediate amount. -/
  | shri (d : Field) (a : Field) (i : BitVec 6)
  /-- R106. SRAI: Shifts right arithmetically by an immediate amount. -/
  | srai (d : Field) (a : Field) (i : BitVec 6)
  /-- R106. CMPI: Compares signed with an immediate and writes CC. -/
  | cmpi (a : Field) (i : BitVec 9)
  /-- R106. CMPNI: Compares unsigned with an immediate and writes CC. -/
  | cmpni (a : Field) (i : BitVec 9)
  /-- R106. MOVI: Writes a sign-extended 16-bit immediate. -/
  | movi (d : Field) (i : BitVec 16)
  /-- R106. MOVHI: Writes bits [31:16] of a scalar register. -/
  | movhi (d : Field) (i : BitVec 16)
  /-- R106. MOVXI: Writes bits [47:32] of a scalar register. -/
  | movxi (d : Field) (i : BitVec 16)
  /-- R106. MOVTI: Writes bits [63:48] of a scalar register. -/
  | movti (d : Field) (i : BitVec 16)
  /-- R106. LDLIT: Writes the zero-extended 32-bit literal that follows the instruction word. -/
  | ldlit (d : Field) (lit : W32)
  /-- R106. LEA: Writes sA plus sB scaled by 2^Q. -/
  | lea (d : Field) (a : Field) (b : Field) (s : BitVec 2)
  /-- R107. GETS: Writes a condition's truth value or a loop counter's remaining count. -/
  | gets (d : Field) (k : Field)
  /-- R108. FADD: Adds two scalar floating-point values with one rounding. -/
  | fadd (d : Field) (a : Field) (b : Field) (f : BitVec 1)
  /-- R108. FSUB: Subtracts two scalar floating-point values. -/
  | fsub (d : Field) (a : Field) (b : Field) (f : BitVec 1)
  /-- R108. FMUL: Multiplies two scalar floating-point values. -/
  | fmul (d : Field) (a : Field) (b : Field) (f : BitVec 1)
  /-- R108. FFMA: Fused multiply-add into the old destination with one rounding. -/
  | ffma (d : Field) (a : Field) (b : Field) (f : BitVec 1)
  /-- R108. FDIV: Divides with correct rounding on the shared divider. -/
  | fdiv (d : Field) (a : Field) (b : Field) (f : BitVec 1)
  /-- R108. FSQRT: Takes the correctly rounded square root. -/
  | fsqrt (d : Field) (a : Field) (f : BitVec 1)
  /-- R109. FMIN: Returns the lesser operand, NaN-avoiding. -/
  | fmin (d : Field) (a : Field) (b : Field) (f : BitVec 1)
  /-- R109. FMAX: Returns the greater operand, NaN-avoiding. -/
  | fmax (d : Field) (a : Field) (b : Field) (f : BitVec 1)
  /-- R108. FABS: Clears the sign bit. -/
  | fabs (d : Field) (a : Field) (f : BitVec 1)
  /-- R108. FNEG: Inverts the sign bit. -/
  | fneg (d : Field) (a : Field) (f : BitVec 1)
  /-- R110. FCMP: Compares floating-point values and writes CC. -/
  | fcmp (a : Field) (b : Field) (f : BitVec 1)
  /-- R111. FCVT: Converts between F32 and F64. -/
  | fcvt (d : Field) (a : Field) (f : BitVec 1)
  /-- R111. FTOI: Converts to a saturated I64. -/
  | ftoi (d : Field) (a : Field) (f : BitVec 1)
  /-- R111. ITOF: Converts a signed 64-bit integer to floating point. -/
  | itof (d : Field) (a : Field) (f : BitVec 1)
  /-- R112. FCLASS: Writes a one-hot class of the operand. -/
  | fclass (d : Field) (a : Field) (f : BitVec 1)
  /-- R111. FRND: Rounds to an integer value in the same format. -/
  | frnd (d : Field) (a : Field) (f : BitVec 1)
  /-- R113. BR: Branches always. -/
  | br (o : BitVec 19)
  /-- R113. BCC: Branches when the condition holds on CC. -/
  | bcc (c : BitVec 4) (o : BitVec 19)
  /-- R113. BMZ: Branches when the mask has no set bit. -/
  | bmz (m : BitVec 4) (o : BitVec 19)
  /-- R113. BMNZ: Branches when the mask has a set bit. -/
  | bmnz (m : BitVec 4) (o : BitVec 19)
  /-- R113. CALL: Writes the return address to s63 and branches. -/
  | call (o : BitVec 19)
  /-- R113. CALLR: Writes the return address to sD and jumps to sA. -/
  | callr (d : Field) (a : Field)
  /-- R113. RET: Jumps to sA, marked as a return. -/
  | ret (a : Field)
  /-- R113. JMPR: Jumps to sA. -/
  | jmpr (a : Field)
  /-- R114. LOOP: Starts a hardware loop with its count from a scalar register. -/
  | loop (a : Field) (l : BitVec 8) (n : BitVec 2)
  /-- R114. LOOPI: Starts a hardware loop with an immediate count. -/
  | loopi (k : Field) (l : BitVec 8) (n : BitVec 2)
  /-- R116. LBRK: Ends the named loop and its nested loops and jumps past the body. -/
  | lbrk (d : Field)
  /-- R120. WAITC: Continues if a completion counter is at or below a value, otherwise yields and arms the wait. -/
  | waitc (a : Field) (b : Field)
  /-- R121. WATCH: Reads a word at its home and yields until it differs from a value. -/
  | watch (a : Field) (b : Field)
  /-- R122. TRAPI: Takes the precise trap TRAP_SOFT with its immediate code. -/
  | trapi (i : BitVec 16)
  /-- R123. MSET: Writes MODE[15:0] from an immediate. -/
  | mset (i : BitVec 16)
  /-- R123. MSETR: Writes MODE[15:0] from a scalar register, checking its value. -/
  | msetr (a : Field)
  /-- R123. MGET: Reads MODE into a scalar register. -/
  | mget (d : Field)
  /-- R125. MPUSH: Pushes the guard and MODE and sets a narrowed guard. -/
  | mpush (d : Field) (a : Field)
  /-- R125. MELSE: Sets the else-branch guard from the top stack entry. -/
  | melse (d : Field) (a : Field)
  /-- R126. MAND: Writes the AND of two masks. -/
  | mand (d : Field) (a : Field) (b : Field)
  /-- R126. MOR: Writes the OR of two masks. -/
  | mor (d : Field) (a : Field) (b : Field)
  /-- R126. MXOR: Writes the XOR of two masks. -/
  | mxor (d : Field) (a : Field) (b : Field)
  /-- R126. MANDN: Writes mA AND NOT mB. -/
  | mandn (d : Field) (a : Field) (b : Field)
  /-- R126. MNOT: Writes the complement of a mask. -/
  | mnot (d : Field) (a : Field)
  /-- R126. MMOV: Copies a mask. -/
  | mmov (d : Field) (a : Field)
  /-- R126. MCNT: Counts the set bits of a mask. -/
  | mcnt (d : Field) (a : Field)
  /-- R126. MFFS: Finds the lowest set bit of a mask. -/
  | mffs (d : Field) (a : Field)
  /-- R126. MTOS: Reads a 64-bit chunk of a mask into a scalar. -/
  | mtos (d : Field) (a : Field) (b : Field)
  /-- R126. MFRS: Writes a 64-bit chunk of a mask from a scalar. -/
  | mfrs (d : Field) (a : Field) (b : Field)
  /-- R126. MLEN: Sets the low min(n, E) bits of a mask. -/
  | mlen (d : Field) (a : Field)
  /-- R126. MALL: Reads the group summary of a mask. -/
  | mall (d : Field) (a : Field)
  /-- R134. VADD: Adds per sub-element under MODE. -/
  | vadd (d : Field) (a : Field) (b : Field) (c : BitVec 1)
  /-- R134. VSUB: Subtracts per sub-element under MODE. -/
  | vsub (d : Field) (a : Field) (b : Field) (c : BitVec 1)
  /-- R134. VMUL: Multiplies per sub-element under MODE. -/
  | vmul (d : Field) (a : Field) (b : Field) (c : BitVec 1)
  /-- R134. VFMA: Computes a × b + d with one rounding. -/
  | vfma (d : Field) (a : Field) (b : Field) (c : BitVec 1)
  /-- R134. VFMS: Computes a × b − d with one rounding. -/
  | vfms (d : Field) (a : Field) (b : Field) (c : BitVec 1)
  /-- R135. VMIN: Writes the per-sub-element minimum. -/
  | vmin (d : Field) (a : Field) (b : Field) (c : BitVec 1)
  /-- R135. VMAX: Writes the per-sub-element maximum. -/
  | vmax (d : Field) (a : Field) (b : Field) (c : BitVec 1)
  /-- R135. VABS: Writes the absolute value. -/
  | vabs (d : Field) (a : Field) (c : BitVec 1)
  /-- R135. VNEG: Writes the negation. -/
  | vneg (d : Field) (a : Field) (c : BitVec 1)
  /-- R136. VAND: Writes the bitwise AND of whole words. -/
  | vand (d : Field) (a : Field) (b : Field) (c : BitVec 1)
  /-- R136. VOR: Writes the bitwise OR of whole words. -/
  | vor (d : Field) (a : Field) (b : Field) (c : BitVec 1)
  /-- R136. VXOR: Writes the bitwise XOR of whole words. -/
  | vxor (d : Field) (a : Field) (b : Field) (c : BitVec 1)
  /-- R136. VNOT: Writes the bitwise complement. -/
  | vnot (d : Field) (a : Field) (c : BitVec 1)
  /-- R137. VSHL: Shifts each integer sub-element left. -/
  | vshl (d : Field) (a : Field) (b : Field) (c : BitVec 1)
  /-- R137. VSHR: Shifts each integer sub-element right logically. -/
  | vshr (d : Field) (a : Field) (b : Field) (c : BitVec 1)
  /-- R137. VSRA: Shifts each integer sub-element right arithmetically. -/
  | vsra (d : Field) (a : Field) (b : Field) (c : BitVec 1)
  /-- R138. VCMPEQ: Sets mask bits where the operands are equal. -/
  | vcmpeq (d : Field) (a : Field) (b : Field)
  /-- R138. VCMPNE: Sets mask bits where the operands differ. -/
  | vcmpne (d : Field) (a : Field) (b : Field)
  /-- R138. VCMPLT: Sets mask bits where a < b. -/
  | vcmplt (d : Field) (a : Field) (b : Field)
  /-- R138. VCMPLE: Sets mask bits where a ≤ b. -/
  | vcmple (d : Field) (a : Field) (b : Field)
  /-- R139. VSEL: Selects vA in guarded lanes and vB elsewhere. -/
  | vsel (d : Field) (a : Field) (b : Field) (c : BitVec 1)
  /-- R139. VMOV: Copies vA element-wise. -/
  | vmov (d : Field) (a : Field) (c : BitVec 1)
  /-- R140. VBCAST: Broadcasts a scalar word and sets the length. -/
  | vbcast (d : Field) (a : Field) (b : Field) (c : BitVec 1)
  /-- R140. VIDX: Writes base plus lane times step and sets the length to E. -/
  | vidx (d : Field) (a : Field) (b : Field) (c : BitVec 1)
  /-- R135. VCLAMP: Clamps the old destination between a and b. -/
  | vclamp (d : Field) (a : Field) (b : Field) (c : BitVec 1)
  /-- R141. VMULP: Multiplies by P8 weights with one rounding. -/
  | vmulp (d : Field) (a : Field) (b : Field) (c : BitVec 1)
  /-- R142. VDOTP: Accumulates an exact packed dot product into a 32-bit accumulator. -/
  | vdotp (d : Field) (a : Field) (b : Field) (c : BitVec 1)
  /-- R143. VCVT: Converts each sub-element from a coded type to ETYPE. -/
  | vcvt (d : Field) (a : Field) (t : BitVec 5) (c : BitVec 1)
  /-- R144. VPACK: Narrows two wide sources into one packed result. -/
  | vpack (d : Field) (a : Field) (b : Field) (c : BitVec 1)
  /-- R144. VUNPK: Widens one half of a packed source exactly. -/
  | vunpk (d : Field) (a : Field) (h : BitVec 1) (c : BitVec 1)
  /-- R146. VRCP: Writes the correctly rounded reciprocal. -/
  | vrcp (d : Field) (a : Field) (c : BitVec 1)
  /-- R146. VRSQ: Writes the correctly rounded reciprocal square root. -/
  | vrsq (d : Field) (a : Field) (c : BitVec 1)
  /-- R146. VSQRT: Writes the correctly rounded square root. -/
  | vsqrt (d : Field) (a : Field) (c : BitVec 1)
  /-- R146. VDIV: Writes the correctly rounded quotient. -/
  | vdiv (d : Field) (a : Field) (b : Field) (c : BitVec 1)
  /-- R146. VEXP2: Writes the correctly rounded 2^a. -/
  | vexp2 (d : Field) (a : Field) (c : BitVec 1)
  /-- R146. VLOG2: Writes the correctly rounded log2 a. -/
  | vlog2 (d : Field) (a : Field) (c : BitVec 1)
  /-- R146. VSIN: Writes the correctly rounded sin(π a). -/
  | vsin (d : Field) (a : Field) (c : BitVec 1)
  /-- R146. VCOS: Writes the correctly rounded cos(π a). -/
  | vcos (d : Field) (a : Field) (c : BitVec 1)
  /-- R146. VTANH: Writes the correctly rounded tanh a. -/
  | vtanh (d : Field) (a : Field) (c : BitVec 1)
  /-- R146. VFLOOR: Writes floor a. -/
  | vfloor (d : Field) (a : Field) (c : BitVec 1)
  /-- R146. VFRAC: Writes the rounded a − floor a. -/
  | vfrac (d : Field) (a : Field) (c : BitVec 1)
  /-- R148. VCOMPACT: Packs the guarded lanes of vA into a new register. -/
  | vcompact (d : Field) (a : Field) (c : BitVec 1)
  /-- R148. VEXPAND: Spreads vA's lanes into the guarded lanes. -/
  | vexpand (d : Field) (a : Field) (c : BitVec 1)
  /-- R149. VSHFL: Permutes vA by indices in vB. -/
  | vshfl (d : Field) (a : Field) (b : Field) (c : BitVec 1)
  /-- R149. VROTL: Rotates vA's lanes by a scalar amount. -/
  | vrotl (d : Field) (a : Field) (b : Field) (c : BitVec 1)
  /-- R150. VEXTR: Extracts one lane into a scalar. -/
  | vextr (d : Field) (a : Field) (b : Field)
  /-- R150. VINS: Inserts a scalar word into one lane. -/
  | vins (d : Field) (a : Field) (b : Field) (c : BitVec 1)
  /-- R152. RCOAL: Writes vA coalesced, keeping its length. -/
  | rcoal (d : Field) (a : Field) (c : BitVec 1)
  /-- R152. RCNT: Reads a register's length and run count. -/
  | rcnt (d : Field) (a : Field)
  /-- R153. RALLOT: Changes the vector allotment, granting or releasing registers. -/
  | rallot (d : Field) (n : BitVec 9)
  /-- R154. RPOOL: Requests a new run budget from the scheduler's run file. -/
  | rpool (d : Field) (a : Field)
  /-- R155. RSAVE: Stores a register's run image to memory. -/
  | rsave (d : Field) (a : Field) (b : Field)
  /-- R155. RLOAD: Loads a run image from memory into a register. -/
  | rload (d : Field) (a : Field) (c : BitVec 1)
  /-- R156. VREDADD: Reduces the guarded lanes by an exact sum. -/
  | vredadd (d : Field) (a : Field)
  /-- R156. VREDMIN: Reduces the guarded lanes to their minimum. -/
  | vredmin (d : Field) (a : Field)
  /-- R156. VREDMAX: Reduces the guarded lanes to their maximum. -/
  | vredmax (d : Field) (a : Field)
  /-- R156. VREDAND: Reduces the guarded lanes by AND. -/
  | vredand (d : Field) (a : Field)
  /-- R156. VREDOR: Reduces the guarded lanes by OR. -/
  | vredor (d : Field) (a : Field)
  /-- R157. VSCAN: Writes inclusive prefix sums of the guarded lanes. -/
  | vscan (d : Field) (a : Field) (c : BitVec 1)
  /-- R162. VRNG: Writes random values drawn per lane from the generator. -/
  | vrng (d : Field) (a : Field) (c : BitVec 1)
  /-- R158. RNGSEED: Writes the generator's KEY and CTR. -/
  | rngseed (a : Field) (b : Field)
  /-- R158. RNGGET: Reads KEY or CTR. -/
  | rngget (d : Field) (s : Field)
  /-- R195. LD: Loads n bytes from memory into a scalar. -/
  | ld (d : Field) (a : Field) (b : Field) (z : BitVec 2)
  /-- R195. LDX: Loads with a 32-bit literal offset. -/
  | ldx (d : Field) (a : Field) (z : BitVec 2) (lit : W32)
  /-- R195. ST: Stores n bytes of a scalar to memory. -/
  | st (d : Field) (a : Field) (b : Field) (z : BitVec 2)
  /-- R184. LDA: Loads with acquire ordering. -/
  | lda (d : Field) (a : Field) (b : Field) (z : BitVec 2)
  /-- R184. STL: Stores with release ordering at a scope. -/
  | stl (d : Field) (a : Field) (s : Field) (z : BitVec 2)
  /-- R196. ATADD: Atomically adds and returns the old value. -/
  | atadd (d : Field) (a : Field) (b : Field) (z : BitVec 1)
  /-- R196. ATMIN: Atomic signed minimum. -/
  | atmin (d : Field) (a : Field) (b : Field) (z : BitVec 1)
  /-- R196. ATMAX: Atomic signed maximum. -/
  | atmax (d : Field) (a : Field) (b : Field) (z : BitVec 1)
  /-- R196. ATMINN: Atomic unsigned minimum. -/
  | atminn (d : Field) (a : Field) (b : Field) (z : BitVec 1)
  /-- R196. ATMAXN: Atomic unsigned maximum. -/
  | atmaxn (d : Field) (a : Field) (b : Field) (z : BitVec 1)
  /-- R196. ATAND: Atomic AND. -/
  | atand (d : Field) (a : Field) (b : Field) (z : BitVec 1)
  /-- R196. ATOR: Atomic OR. -/
  | ator (d : Field) (a : Field) (b : Field) (z : BitVec 1)
  /-- R196. ATXOR: Atomic XOR. -/
  | atxor (d : Field) (a : Field) (b : Field) (z : BitVec 1)
  /-- R196. ATXCH: Atomic exchange. -/
  | atxch (d : Field) (a : Field) (b : Field) (z : BitVec 1)
  /-- R196. ATCAS: Atomic compare and swap. -/
  | atcas (d : Field) (a : Field) (b : Field) (z : BitVec 1)
  /-- R198. FENCE: Waits until the conditions of its scope hold. -/
  | fence (s : Field)
  /-- R199. LINV: Ends the core's L1 leases on a range of lines. -/
  | linv (a : Field) (b : Field)
  /-- R201. VLD: Loads consecutive words into the guarded lanes. -/
  | vld (d : Field) (a : Field) (b : Field) (c : BitVec 1)
  /-- R201. VLDS: Loads strided words into the guarded lanes. -/
  | vlds (d : Field) (a : Field) (b : Field) (c : BitVec 1)
  /-- R201. VST: Stores the guarded lanes to consecutive words. -/
  | vst (d : Field) (a : Field) (b : Field)
  /-- R201. VSTS: Stores the guarded lanes with a stride. -/
  | vsts (d : Field) (a : Field) (b : Field)
  /-- R201. VLDB: Loads one word into every guarded lane. -/
  | vldb (d : Field) (a : Field) (b : Field) (c : BitVec 1)
  /-- R203. PREQ: Appends a page request to the context's ring and raises the interrupt. -/
  | preq (d : Field) (a : Field) (b : Field)
  /-- R204. SLD: Loads a scratchpad word. -/
  | sld (d : Field) (a : Field) (b : Field)
  /-- R204. SST: Stores a scratchpad word. -/
  | sst (d : Field) (a : Field) (b : Field)
  /-- R206. SGATH: Gathers scratchpad words by lane offsets. -/
  | sgath (d : Field) (a : Field) (b : Field) (c : BitVec 1)
  /-- R206. SSCAT: Scatters lane words to scratchpad offsets, highest lane winning. -/
  | sscat (d : Field) (a : Field) (b : Field)
  /-- R207. SLDT: Loads a 16-row scratchpad matrix transposed. -/
  | sldt (d : Field) (a : Field) (b : Field) (c : BitVec 1)
  /-- R208. SLDC: Loads a run image from scratchpad. -/
  | sldc (d : Field) (a : Field) (c : BitVec 1)
  /-- R208. SSTC: Stores a run image to scratchpad. -/
  | sstc (d : Field) (a : Field) (b : Field)
  /-- R209. CLDS: Loads a word from a cluster peer's scratchpad. -/
  | clds (d : Field) (a : Field) (b : Field)
  /-- R209. CSTS: Stores a word into a cluster peer's scratchpad. -/
  | csts (d : Field) (a : Field) (b : Field)
  /-- R210. UPD: Emits indexed update pairs into the stream buffer. -/
  | upd (d : Field) (a : Field) (b : Field)
  /-- R210. UPDS: Emits consecutive update pairs into the stream buffer. -/
  | upds (d : Field) (a : Field)
  /-- R212. UFLUSH: Sends buffered pairs, waits for acceptance and applies bins over a range. -/
  | uflush (a : Field) (b : Field)
  /-- R213. TDEC: Releases and decrements a task record's DEPCNT. -/
  | tdec (a : Field)
  /-- R213. TINC: Releases and increments a task record's DEPCNT. -/
  | tinc (a : Field)
  /-- R213. TSPAWN: Submits a task record to its queue. -/
  | tspawn (a : Field)
  /-- R215. CSET: Writes a completion counter with release ordering. -/
  | cset (a : Field) (b : Field)
  /-- R215. CADD: Adds to a completion counter with release ordering. -/
  | cadd (a : Field) (b : Field)
  /-- R215. CGET: Reads a completion counter with acquire ordering. -/
  | cget (d : Field) (a : Field)
  /-- R216. CBAR: Arrives at and/or waits on a cluster barrier word. -/
  | cbar (d : Field) (a : Field) (b : Field)
  /-- R217. DSMOP: Applies an operation to DSM words per guarded lane. -/
  | dsmop (d : Field) (a : Field) (b : Field)
  /-- R218. DSMRED: Reduces consecutive DSM words at the bank ALUs. -/
  | dsmred (d : Field) (a : Field) (b : Field)
  /-- R241. CPY: Issues a copy-engine operation that copies rows unchanged. -/
  | cpy (d : Field) (a : Field) (b : Field)
  /-- R243. CPYG: Issues a first-fault row gather by index. -/
  | cpyg (d : Field) (a : Field) (b : Field)
  /-- R247. CPYX: Issues an expansion to BF16 or FP16 with scales and inverse rotation. -/
  | cpyx (d : Field) (a : Field) (b : Field)
  /-- R248. CPYQ: Issues a block quantisation to a narrow format. -/
  | cpyq (d : Field) (a : Field) (b : Field)
  /-- R249. CPYT: Issues a compression of rows into run images with an offset table. -/
  | cpyt (d : Field) (a : Field) (b : Field)
  /-- R250. DISCARD: Issues a drop of the lines of a dead range. -/
  | discard (d : Field) (a : Field) (b : Field)
  /-- R251. PREFETCH: Issues fills of the shared cache. -/
  | prefetch (d : Field) (a : Field) (b : Field)
  /-- R242. CPYA: Issues additions of rows into F32 words at their homes. -/
  | cpya (d : Field) (a : Field) (b : Field)
  /-- R244. CWALK: Issues an expansion of page numbers into row indices. -/
  | cwalk (d : Field) (a : Field) (b : Field)
  /-- R271. MCFG: Packs and checks a matrix shape word. -/
  | mcfg (d : Field) (a : Field) (b : Field)
  /-- R275. MZERO: Queues a zeroing of the guarded rows of a tile. -/
  | mzero (d : Field) (a : Field)
  /-- R272. MMA: Queues a dense matrix multiply-accumulate into a tile. -/
  | mma (d : Field) (a : Field)
  /-- R272. MMAG: Queues a multiply-accumulate with gathered A rows. -/
  | mmag (d : Field) (a : Field) (b : Field)
  /-- R273. MMAS: Queues a bitmap-sparse multiply-accumulate. -/
  | mmas (d : Field) (a : Field) (b : Field)
  /-- R272. MMAD: Queues a multiply-accumulate with A stored transposed. -/
  | mmad (d : Field) (a : Field)
  /-- R274. MLDA: Queues a load of a scratchpad matrix into a tile. -/
  | mlda (d : Field) (a : Field)
  /-- R274. MSTA: Queues a store of a tile into scratchpad. -/
  | msta (d : Field) (a : Field)
  /-- R276. MTOV: Moves a tile column into a vector register. -/
  | mtov (d : Field) (a : Field) (b : Field) (c : BitVec 1)
  /-- R277. MALLOC: Releases and acquires accumulator tile names. -/
  | malloc (d : Field) (a : Field)
  /-- R255. XHAD: Queues a block Hadamard rotation on the transform pipe. -/
  | xhad (d : Field) (a : Field) (b : Field) (c : BitVec 1)
  /-- R256. XQNT: Queues a block quantisation with scales to two registers. -/
  | xqnt (d : Field) (a : Field) (b : Field) (c : BitVec 1)
  /-- R257. XACT: Queues a table activation with the bound bank. -/
  | xact (d : Field) (a : Field) (c : BitVec 1)
  /-- R258. XTLD: Loads an activation table bank from scratchpad. -/
  | xtld (a : Field) (k : Field)
  /-- R258. XTBIND: Binds the team to a bank or releases its binding. -/
  | xtbind (k : Field)
  /-- R259. XTOPK: Queues a top-k index selection. -/
  | xtopk (d : Field) (a : Field) (b : Field) (c : BitVec 1)
  /-- R261. XTRN: Queues a matrix transpose of lanes. -/
  | xtrn (d : Field) (a : Field) (b : Field) (c : BitVec 1)
  /-- R260. XSORT: Queues a stable sort with source indices. -/
  | xsort (d : Field) (a : Field) (b : Field) (c : BitVec 1)
  /-- R303. TRACE: Writes masked record words and sends each held ray to traversal. -/
  | trace (d : Field) (a : Field)
  /-- R304. SPAWN: Reserves pool records and creates new rays. -/
  | spawn (d : Field) (a : Field) (b : Field)
  /-- R305. RETIRE: Emits radiance pairs and frees the held rays. -/
  | retire (d : Field) (a : Field)
  /-- R303. DEFER: Writes masked record words and sends each held ray to its hit shader's bin. -/
  | defer (d : Field) (a : Field)
  /-- R307. POOLQ: Reads a ray pool quantity. -/
  | poolq (d : Field) (k : Field)
  /-- R367. CSRR: Reads a control register. -/
  | csrr (d : Field) (i : BitVec 16)
  /-- R367. CSRW: Writes a control register under its own rules. -/
  | csrw (d : Field) (i : BitVec 16)
  /-- R368. TLBINV: Fences, then shoots down the context's TLB entries over a range. -/
  | tlbinv (a : Field) (b : Field)
  /-- R369. HALT: Halts the context with a record carrying an operand. -/
  | halt (a : Field)
  /-- R370. MONR: Reads one word of a monitor record. -/
  | monr (d : Field) (a : Field) (b : Field)
  /-- R371. MARK: Appends a marker to the context log when recording. -/
  | mark (i : BitVec 16)
  /-- R371. BKPT: Raises BREAKPOINT when debugging is enabled. -/
  | bkpt (i : BitVec 16)
  /-- R87. ILLEGAL_INSTR: A fetched word whose OP names an illegal column raises the precise trap ILLEGAL_INSTR with cause 1. -/
  | illegalInstr (w : W32)
  /-- R119. YIELD: Yields the issue slot until the next cycle. -/
  | yield
  /-- R122. EXIT: Ends the team. -/
  | exit
  /-- R122. NOP: Changes nothing except the PC. -/
  | nop
  /-- R125. MPOP: Pops the mask stack and restores MODE and the guard. -/
  | mpop
  /-- R306. EPEND: Frees the wave's remaining rays and ends the wave. -/
  | epend
  /-- R354. ERET: Returns from the trap handler. -/
  | eret
  /-- R429. RECORD_INTERVAL_CLOSE: At the end of a rate-limit interval, appends one closing record with the suppressed count. -/
  | recordIntervalClose
  /-- R313. QUEUE_DOORBELL: A QDB write resumes an idle enabled queue or is discarded. -/
  | queueDoorbell
  /-- R315. COMPLETION_DOORBELL: A CDB write decrements a completion counter on a named core and die. -/
  | completionDoorbell
  /-- R367. REGISTER_WRITE: Writes a register that has no behaviour of its own, leaving it unchanged on an invalid value. -/
  | registerWrite
  /-- R360. CTXINSTALL: Mailbox request that installs a context descriptor. -/
  | ctxinstall
  /-- R430. CTXRESET: Mailbox request that resets a context, freeing its resources and removing its tasks. -/
  | ctxreset
  /-- R340. CTXREMOVE: Mailbox request that uninstalls an idle context. -/
  | ctxremove
  /-- R341. CSRREAD: Mailbox request that reads a context or die control register. -/
  | csrread
  /-- R341. CSRWRITE: Mailbox request that writes a control register and invalidates the context's TLB after a context register change. -/
  | csrwrite
  /-- R359. ERRRING: Mailbox request that sets SYS.ERRRING and initialises the ring header with the lost count. -/
  | errring
  /-- R405. PEERTO: Mailbox request that sets the peer timeout. -/
  | peerto
  /-- R342. ATTEST: Mailbox request that returns a signed attestation report. -/
  | attest
  /-- R342. CERT: Mailbox request that returns one certificate of a die's chain. -/
  | cert
  /-- R340. FWLOAD: Mailbox request that delivers a firmware chunk and verifies the image on the last chunk. -/
  | fwload
  /-- R337. MONREAD: Mailbox request that returns a monitor record. -/
  | monread
  /-- R422. SETTHR: Mailbox request that sets a monitor's alarm thresholds. -/
  | setthr
  /-- R424. REPLAY: Mailbox request that installs a context in replay mode from a log. -/
  | replay
  /-- R22. SLICECFG_WRITE: A valid SYS.SLICECFG write is held pending until no live ray, treelet fetch or DSM operation remains. -/
  | slicecfgWrite
  /-- R22. SLICECFG_APPLY: All slices apply the pending way split, writing back, invalidating and emptying the pool. -/
  | slicecfgApply
  /-- R328. STITCH_WRITE: A valid SYS.STITCHn write is held until the affected cores drain. -/
  | stitchWrite
  /-- R329. STITCH_APPLY: The partition manager rewires the rectangle's links and resumes placement. -/
  | stitchApply
  /-- R230. SORUSCFG_WRITE: Sets BINBLK and spills bins oldest first until the blocks in use fit. -/
  | soruscfgWrite
  /-- R415. SCENE_WRITE: Sets SYS.SCENE once no ray of the context is in traversal, invalidating treelets and hints. -/
  | sceneWrite
  /-- R286. POOLRSV_WRITE: Sets the wave reserve and resumes waiters that can no longer be granted. -/
  | poolrsvWrite
  /-- R190. MIGRATION_START: A GO write checks the page, marks it migrating, holds requests and recalls write leases. -/
  | migrationStart
  /-- R190. MIGRATION_COPY: Once leases and bins are settled, copies the page, rewrites the leaf and starts the shootdown. -/
  | migrationCopy
  /-- R190. MIGRATION_FINISH: After every shootdown acknowledgement, forwards held requests and waits to the destination and sets STATUS done. -/
  | migrationFinish
  /-- R334. POWER_ON: Power-up: the boot ROM verifies firmware and the firmware initialises the device. -/
  | powerOn
  /-- R335. D3HOT_ENTRY: Entry to D3hot powers off every core and puts GDDR7 in self-refresh. -/
  | d3hotEntry
  /-- R335. CORE_CLOCK_GATE: After 1,000 cycles without issue, a core becomes IDLE. -/
  | coreClockGate
  /-- R335. CORE_POWER_GATE: After 1 ms without residents, allocations or engine work, a core becomes OFF. -/
  | corePowerGate
  /-- R335. CORE_WAKE: A core's wake-up completes and it returns to RUN. -/
  | coreWake
  /-- R36. TASK_READY: A task whose DEPCNT reached 0 is marked ready and placed on its queue's ready or local list. -/
  | taskReady
  /-- R36. DEPCNT_UPDATE: The home bank ALU applies a decrement or increment to a task record's DEPCNT. -/
  | depcntUpdate
  /-- R313. QUEUE_CONSUME: The distributor reads a ring entry, submits its record and advances CONS. -/
  | queueConsume
  /-- R313. QUEUE_IDLE_RECHECK: After IDLE's GWCT plus 2 ticks, re-reads PROD and resumes or stops. -/
  | queueIdleRecheck
  /-- R317. PLACEMENT_ATTEMPT: At a placement point, the distributor starts the first candidate that fits. -/
  | placementAttempt
  /-- R38. TEAM_EXITED: Once EXIT and all its engine operations have completed, a team's resources return. -/
  | teamExited
  /-- R39. SUCCESSOR_DECREMENT: After the time and bin conditions hold, decrements each listed successor's DEPCNT. -/
  | successorDecrement
  /-- R321. PREEMPT_FOR_CANDIDATE: After 10,000 ticks unplaced, pre-empts lower-class teams on a chosen core for the first candidate. -/
  | preemptForCandidate
  /-- R52. TEAM_PREEMPTED: A team reaches a boundary, saves its context to a frame and releases its slot, granules and tiles. -/
  | teamPreempted
  /-- R55. DONATION_START: After 50,000 ticks of watching higher-class teams, restores the pre-empted lock holder in a donated slot. -/
  | donationStart
  /-- R55. DONATION_END: On a watched-word change, exit or yield, pre-empts the donee and restores the displaced teams. -/
  | donationEnd
  /-- R323. STEAL_REQUEST: An idle core sends a steal request to the next victim. -/
  | stealRequest
  /-- R323. STEAL_CLAIM: The victim claims a TEAMID from a local task or refuses. -/
  | stealClaim
  /-- R323. STEAL_REPLY: The thief starts the claimed team or goes on to the next victim. -/
  | stealReply
  /-- R318. DERATE_SAMPLE: Every 1,000 ticks, recomputes each core's thermal and droop derating level. -/
  | derateSample
  /-- R421. THERMAL_TRIP: A core reaching T3 + 10 °C halts its contexts and powers off. -/
  | thermalTrip
  /-- R45. TEAM_WAKE: A yielded team whose resumption condition was met becomes ready at its continuation PC. -/
  | teamWake
  /-- R336. CLOCK_LOOP: Every 1 µs, adjusts a core's clock from droop, temperature and derating. -/
  | clockLoop
  /-- R336. GDDR7_EQUALISATION: Every 100 ms, retrains a GDDR7 channel during refresh. -/
  | gddr7Equalisation
  /-- R336. WAVE_AGE_LOOP: Every 10 µs, adapts the effective shader bin age limit. -/
  | waveAgeLoop
  /-- R336. PREFETCH_THRESHOLD_LOOP: Every 10 µs, adapts the effective prefetch threshold. -/
  | prefetchThresholdLoop
  /-- R337. MONITOR_SAMPLE: A monitor takes a sample into its record and tests the thresholds. -/
  | monitorSample
  /-- R177. HOME_READ: The home applies pending bins, grants a lease and returns the line. -/
  | homeRead
  /-- R177. LOAD_REPLY: A home reply fills the L1 under its lease and performs the load. -/
  | loadReply
  /-- R177. HOME_STORE: The home writes a store or application into its copy and returns the GWCT. -/
  | homeStore
  /-- R177. STORE_ACK: The issuing core receives a GWCT, updates its L1 copy and its greatest GWCT. -/
  | storeAck
  /-- R197. HOME_ATOMIC: The home bank ALU performs a scalar atomic and replies with CONT. -/
  | homeAtomic
  /-- R197. WRITE_LEASE_GRANT: The home grants a write lease once no other core holds one. -/
  | writeLeaseGrant
  /-- R197. LEASE_RECALL: A holder finishes begun operations and releases its write lease with the line's contents. -/
  | leaseRecall
  /-- R197. WRITE_LEASE_EXPIRY: A write lease expires 256 ticks after grant and its line returns to the home. -/
  | writeLeaseExpiry
  /-- R228. PAIR_INJECT: A stream buffer sends its next pair once an intake slot is reserved. -/
  | pairInject
  /-- R228. HOME_ACCEPT_PAIR: The Sorus unit accepts a pair, returns a GWCT and combines it into its line's bin. -/
  | homeAcceptPair
  /-- R231. BIN_APPLY: The home applies a bin to its line as one store, updating any FXADD shadow. -/
  | binApply
  /-- R217. DSM_ELEMENT_OP: A DSM bank ALU performs one element operation. -/
  | dsmElementOp
  /-- R216. CBAR_ARRIVAL: The home bank ALU counts an arrival and advances GEN when the target is reached. -/
  | cbarArrival
  /-- R167. HOST_READ: A CXL.mem host read is served at the home after applying bins. -/
  | hostRead
  /-- R167. HOST_WRITE: A CXL.mem host write is completed only after TIME passes its GWCT plus 2. -/
  | hostWrite
  /-- R398. FABRIC_WRITE_ARRIVAL: A target port performs an incoming fabric write and reports window slips. -/
  | fabricWriteArrival
  /-- R391. SHOOTDOWN: A unit removes TLB entries and acknowledges once their accesses are settled. -/
  | shootdown
  /-- R327. MULTICAST_DELIVER: A multicast injects after holding every landing slot and lands at all destinations. -/
  | multicastDeliver
  /-- R186. COPY_START: A copy operation's fork conditions hold and it begins its accesses. -/
  | copyStart
  /-- R238. COPY_COMPLETE: A copy operation writes NDONE and STATUS and decrements its counter after the join. -/
  | copyComplete
  /-- R278. MATRIX_OP_START: A matrix operation reaches the queue head and begins after 4 cycles. -/
  | matrixOpStart
  /-- R269. MATRIX_STEP: The matrix engine performs one step of the current operation. -/
  | matrixStep
  /-- R279. MATRIX_COMPLETE: The tile is written, the interlock released and the counter decremented if enabled. -/
  | matrixComplete
  /-- R253. TRANSFORM_START: The transform pipe copies sources to its buffer and releases their scoreboard. -/
  | transformStart
  /-- R380. TRANSFORM_COMPLETE: The final step writes the result with its occupancy check. -/
  | transformComplete
  /-- R161. NOISE_WORD: The physical noise source delivers a conditioned word into the core buffer. -/
  | noiseWord
  /-- R286. POOL_GRANT: When FREE or the reserve changes, grants queued SPAWN waiters head first. -/
  | poolGrant
  /-- R290. RAY_ENTERS_BIN: A ray is keyed and joins or takes a bin in its slice. -/
  | rayEntersBin
  /-- R291. TRAVERSAL_BIN_AGE: A traversal bin reaching its age limit forms a batch. -/
  | traversalBinAge
  /-- R292. SHADER_BIN_AGE: A shader bin reaching its age limit forms a wave. -/
  | shaderBinAge
  /-- R300. TRAVERSAL_STEP: A traversal unit takes a batch and traverses each ray. -/
  | traversalStep
  /-- R298. TREELET_LINE_ARRIVAL: A fetched treelet line arrives and the waiting ray resumes. -/
  | treeletLineArrival
  /-- R301. TRAVERSAL_RESULT: A finished step writes hit fields and routes the ray to its shader bin or frees it. -/
  | traversalResult
  /-- R287. DONE_DECREMENT: When LRC reaches 0 and waves and GWCT allow, decrements the DONE task record. -/
  | doneDecrement
  /-- R412. POOL_PRESSURE: After 100,000 ticks of a full wave queue or blocked bin reservation, appends a record. -/
  | poolPressure
  /-- R403. INBOUND_PEER_ACCESS: A target core serves a peer scratchpad access or replies with a syndrome. -/
  | inboundPeerAccess
  /-- R404. PEER_REPLY: The initiator receives the peer reply and completes or traps. -/
  | peerReply
  /-- R405. PEER_TIMEOUT: A peer access without a reply in time raises REMOTE_TIMEOUT. -/
  | peerTimeout
  /-- R417. RESERVATION_TIMEOUT: A reservation ungranted for 1,000,000 ticks is a die-wide machine check. -/
  | reservationTimeout
  /-- R418. MESH_LINK_FAIL: A failed mesh link is rerouted around with held packets kept in order. -/
  | meshLinkFail
  /-- R396. TIME_CHECK: Every 1,024 ticks a tile compares TIME with the reference and resynchronises on excess skew. -/
  | timeCheck
  /-- R397. CLOCK_CHECK: Every 64 ticks die 1 checks the forwarded clock and the pair link. -/
  | clockCheck
  /-- R397. PAIR_LINK_RESTORE: After retraining, die 1 slews TIME and releases held cross-die requests. -/
  | pairLinkRestore
  /-- R397. PAIR_LINK_RESTORE_TIMEOUT: Without restoration in 1,000,000 ticks, contexts with held cross-die requests halt. -/
  | pairLinkRestoreTimeout
  /-- R333. PTP_SYNC: A PTP sync adjusts TIME and updates PTPLOCK. -/
  | ptpSync
  /-- R400. SCALEOUT_PORT_DOWN: A scale-out port down beyond the timeout ends waiting operations as engine faults. -/
  | scaleoutPortDown
  /-- R425. REPLAY_DIVERGENCE: Replay halts the context when an input does not match or a logged event is not possible in time. -/
  | replayDivergence
  /-- R374. INSTRUCTION_FETCH_FAULT: A fetch at a non-canonical PC, or through a failing leaf, traps before any word is decoded. -/
  | instructionFetchFault
  /-- R197. DEVICE_RESET: A device reset clears the contention predictors, the completion counters and the hint tables, and starts any newly loaded firmware. -/
  | deviceReset
  /-- R335. D3HOT_EXIT: On leaving D3hot, GDDR7 leaves self-refresh and the cores can wake with their contents kept. -/
  | d3hotExit
  /-- R336. SERDES_ADAPTATION: The continuous SerDes equalisation on CXL and Keresh Link lanes adapts, and it raises alarm 3 when a lane's error rate stays too high. -/
  | serdesAdaptation
  /-- R250. SHARED_CACHE_WRITE_BACK: A queued write-back of a dirty shared-cache line completes into GDDR7. -/
  | sharedCacheWriteBack
  /-- R330. CXL_LINK_TRAINING: The CXL link trains, or falls back to a narrower width or a lower rate, and the device becomes ready for enumeration. -/
  | cxlLinkTraining
  deriving DecidableEq, Repr

end Sys2Proof
end

