-- ==== Sys2Proof/Machine/State.lean ====
section
/-! DEFINITION. The state of the device as plain data: teams (spec/03 R56), cores (spec/01 R16),
dies (spec/01 R19), contexts (spec/19 R360), the host side (spec/13 R311), and the model's own
schedule (log entries 6, 7, 8). Times and addresses that only index are natural numbers. -/

namespace Sys2Proof.Machine

/-- Bytes by address, strictly rising, none equal to what an unlisted byte reads as. -/
abbrev Memory := List Host.Cell

/-- What a byte that nothing has written reads as (log entry 3). -/
def unlistedByte : Byte := 0#8

/-- R1: the two product forms. -/
inductive Product where
  /-- VSX1-M: one die -/
  | m
  /-- VSX1-W2: two dies joined by the pair link -/
  | w2
  deriving DecidableEq, Repr

/-- One run of a vector register: a value and the number of lanes it covers (R59). -/
structure Run where
  val : W32
  cnt : Nat
  deriving DecidableEq, Repr

/-- A vector register: its runs in lane order; its logical length is the sum of the counts. -/
abbrev VReg := List Run

/-- R114: a loop counter with its loop-buffer bounds S and E. -/
structure LoopCounter where
  count : W32
  start : Word
  stop : Word
  deriving DecidableEq, Repr

/-- R67: one entry of the mask stack. -/
structure StackEntry where
  mask : Mask
  mode : BitVec 16
  deriving DecidableEq, Repr

/-- R352: the trap registers of a team. -/
structure TrapRegs where
  tpc : Word
  tcause : Word
  taddr : Word
  tinfo : Word
  tmode : Word
  ts60 : Word
  ts61 : Word
  ts62 : Word
  ts63 : Word
  deriving DecidableEq, Repr

/-- Where a physical byte lives: a die's GDDR7 as its homes hold it, a die's DSM, host memory, or
the memory of another fabric node (Table 7.1). -/
inductive PhysSpace where
  | gddr
  | dsm
  | host
  | fabric
  deriving DecidableEq, Repr

/-- A physical location: the space, the die or fabric node, and the byte address in it. -/
structure Phys where
  space : PhysSpace
  unit : Nat
  addr : Nat
  deriving DecidableEq, Repr

/-- What a yielded team waits for (R44, Table 2.5, R258, R286). -/
inductive WaitKind where
  /-- WAITC: counter `k` at or below the bound -/
  | counter (k : Nat) (bound : Word)
  /-- WATCH: the word at `loc` differs from `value` -/
  | watch (loc : Phys) (value : Word)
  /-- CBAR: the generation at `loc` differs from `gen` -/
  | barrier (loc : Phys) (gen : W32)
  /-- a SPAWN that waits for `p` records -/
  | pool (p : Nat)
  /-- an XTLD that waits for the release of a bank -/
  | bank (b : Nat)
  deriving DecidableEq, Repr

/-- An armed wait; `fired` once its condition has held or its line was written (R44, R46). -/
structure Wait where
  kind : WaitKind
  fired : Bool
  deriving DecidableEq, Repr

/-- Where a team stands (R38, R51). -/
inductive Place where
  | resident
  /-- pre-empted, with its place in the order of pre-emption -/
  | preempted (order : Nat)
  /-- EXIT executed; its resources return under R38 -/
  | exiting
  /-- its slot, runs and tiles have returned; its scratchpad granules have not (R38) -/
  | left
  deriving DecidableEq, Repr

/-- A scalar access that waits for its reply (R179, R182, R190, R397), or a peer access (R404): the team
issues nothing until it completes, but that a load that is no LDA holds only what may not overtake it. -/
inductive Pend where
  /-- a scalar load of `n` bytes into register `d`; `acquire` for LDA, which performs before any later
  access of the team (R184) -/
  | load (d n : Nat) (loc : Phys) (acquire : Bool)
  /-- a scalar atomic whose old value goes to register `d` -/
  | atomic (d n : Nat) (loc : Phys)
  /-- a CBAR arrival in the given mode -/
  | barrier (d mode : Nat) (loc : Phys)
  /-- a peer access: its rank, offset, the load's destination, the deadline -/
  | peer (dest : Option Nat) (rank offset core : Nat) (since : Nat)
  deriving DecidableEq, Repr

/-- The identity of a team (Table 4.4). -/
structure Ident where
  teamid : Nat
  nteams : Nat
  lanes : Nat
  elanes : Nat
  die : Nat
  core : Nat
  sched : Nat
  slot : Nat
  clw : Nat
  clh : Nat
  rank : Nat
  isWave : Bool
  waveid : Nat
  shader : Nat
  /-- virtual address of the task record; 0 for a wave -/
  task : Word
  /-- where the record lies -/
  taskAt : Phys
  prio : Nat
  scrBase : Nat
  scrG : Nat
  deriving DecidableEq, Repr

/-- The matrix operations of the engine (Table 11.3). -/
inductive MatKind where
  | mma
  | mmag
  | mmas
  | mmad
  | mlda
  | msta
  | mzero
  deriving DecidableEq, Repr

/-- A matrix operation in the queue, with its step state (R265, R280). -/
structure MatOp where
  uid : Nat
  kind : MatKind
  tile : Nat
  desc : List Word
  guard : Mask
  rnd : Nat
  sat : Bool
  idx : List W32
  step : Nat
  started : Bool
  dest : Nat
  row0 : Nat
  scrBase : Nat
  ctr : Option Nat
  deriving DecidableEq, Repr

/-- The instructions of the transform pipe (Table 10.6). -/
inductive XfKind where
  | xhad
  | xqnt
  | xact
  | xtld
  | xtbind
  | xtopk
  | xtrn
  | xsort
  deriving DecidableEq, Repr

/-- A transform instruction in the pipe (R253); `reserved` is R380's reservation, absent while
the instruction holds its team until the final step. -/
structure XfOp where
  uid : Nat
  kind : XfKind
  dst : Nat
  src : Nat
  coal : Bool
  mode : BitVec 16
  sb : Word
  bank : Nat
  offset : Nat
  pc : Word
  buffer : List W32
  started : Bool
  reserved : Option Nat
  deriving DecidableEq, Repr

/-- The copy instructions of row 0xB (Table 10.1). -/
inductive CopyKind where
  | cpy
  | cpyg
  | cpyx
  | cpyq
  | cpyt
  | discard
  | prefetch
  | cpya
  | cwalk
  deriving DecidableEq, Repr

/-- A shape record as read at issue (Table 10.2). -/
structure Shape where
  src : Word
  dst : Word
  aux : Word
  rows : Nat
  cols : Nat
  sstr : Int
  dstr : Int
  /-- DSTR read unsigned: the capacity of CPYT -/
  cap : Nat
  sat : Bool
  rnd : Nat
  rot : Bool
  scf : Nat
  blk : Nat
  drank : Nat
  srank : Nat
  dsp : Nat
  ssp : Nat
  dfmt : Nat
  sfmt : Nat
  /-- whether every reserved bit is zero -/
  clean : Bool
  deriving DecidableEq, Repr

/-- What a copy operation has done (R238): rows, fault code, RFLAG, its greatest GWCT, whether it
wrote a line of the other die, and when its fabric writes are complete (R186, R175). -/
structure CopyResult where
  ndone : Nat
  ecode : Nat
  rflag : Bool
  g : Nat
  far : Bool
  until_ : Nat
  deriving DecidableEq, Repr

/-- A copy operation in flight (R238); `pins` are the local pages it holds pinned (R172). -/
structure CopyOp where
  id : Nat
  uid : Nat
  ctx : Nat
  kind : CopyKind
  shape : Shape
  srcOff : Word
  dstOff : Word
  recAt : Nat
  ctr : Nat
  /-- absent until the operation has made its accesses -/
  result : Option CopyResult
  pins : List Nat
  scrBase : Nat
  scrG : Nat
  clw : Nat
  clh : Nat
  cluster : Nat
  rank : Nat
  task : Phys
  wave : Bool
  /-- when it was issued (R417) -/
  since : Nat
  deriving DecidableEq, Repr

/-- An update pair on its way to a bin (R210, R222). -/
structure Pair where
  uid : Nat
  core : Nat
  ctx : Nat
  die : Nat
  addr : Nat
  op : Nat
  fxf : Nat
  shadow : Nat
  /-- the region offset of the pair's line (R225) -/
  off : Nat
  val : W32
  /-- the ray that is freed when this pair is accepted (R305) -/
  ray : Option (Nat × Nat)
  /-- its place in the order of arrival of a migrated page's requests; absent for one that no migration
  has forwarded (R190) -/
  seq : Option Nat
  deriving DecidableEq, Repr

/-- The contributions one word of a bin has received, in its combining order, with the exact
FXADD sum and flags NAN, PINF, NINF, OVF (R223, R226). -/
structure BinWord where
  idx : Nat
  vals : List W32
  sum : Int
  flags : BitVec 4
  deriving DecidableEq, Repr

/-- The pairs of a RETIRE that have not yet entered their stream buffer, by group of lanes (R305). -/
structure Entering where
  uid : Nat
  sched : Nat
  groups : List (List Pair)
  deriving DecidableEq, Repr

/-- The bin of a line (R229), oldest first in its die's list. -/
structure Bin where
  line : Nat
  op : Nat
  fxf : Nat
  shadow : Nat
  off : Nat
  ctx : Nat
  words : List BinWord
  mismatch : Bool
  deriving DecidableEq, Repr

/-- A line in a core's L1 under a read lease (R177). -/
structure L1Line where
  die : Nat
  line : Nat
  data : Memory
  exp : Nat
  deriving DecidableEq, Repr

/-- A line in a die's shared cache with the class of service that filled it (R187, R188). -/
structure CacheLine where
  line : Nat
  cls : Nat
  deriving DecidableEq, Repr

/-- A write lease (R197). -/
structure WLease where
  line : Nat
  core : Nat
  g0 : Nat
  expiry : Nat
  deriving DecidableEq, Repr

/-- A TLB entry: the leaf from which it was built and where that leaf lies (R170, R190). -/
structure TlbEntry where
  ctx : Nat
  vpn : Nat
  leaf : Word
  leafDie : Nat
  leafAddr : Nat
  deriving DecidableEq, Repr

/-- A region entry as a core caches it: its four 8-byte words (R220, Table 9.2). -/
structure RegionEntry where
  vbase : Word
  size : Word
  opw : Word
  shadow : Word
  deriving DecidableEq, Repr

/-- A monitor record with its alarm state (R337, R422). -/
structure MonRec where
  mon : Nat
  unit : Nat
  min : Int
  max : Int
  count : Nat
  bins : List Nat
  /-- samples within the pair still needed before the alarm is armed again -/
  rearm : Nat
  deriving DecidableEq, Repr

/-- The power states of a core (R335). -/
inductive Power where
  | run
  | idle
  | off
  deriving DecidableEq, Repr

/-- The resources that a thief holds for a claimed team until the victim's answer lands (R323,
R326): a scheduler, a slot and granules of it, tiles and scratchpad. -/
structure Reserve where
  sched : Nat
  slot : Nat
  budget : Nat
  acc : Nat
  scrBase : Nat
  scrG : Nat
  deriving DecidableEq, Repr

/-- The free resources that a steal request carries (R323): by scheduler its free slots and granules,
the core's free tiles, and the scratchpad allocations that stand, as first granule and count. -/
structure Carried where
  scheds : List (Nat × Nat)
  tiles : Nat
  scratch : List (Nat × Nat)
  deriving DecidableEq, Repr

/-- The state of an idle core's steal (R323). -/
structure Steal where
  /-- victims asked in this round -/
  tried : List Nat
  /-- the victim of the outstanding request -/
  victim : Option Nat
  /-- the claimed team: task, its record, context and TEAMID -/
  claimed : Option (Phys × Word × Nat × Nat)
  /-- what the outstanding request carries -/
  carries : Option Carried
  /-- what is held for the claimed team -/
  reserve : Option Reserve
  /-- whether the victim has answered -/
  answered : Bool
  /-- no request before this time -/
  retry : Nat
  deriving DecidableEq, Repr

/-- A peer scratchpad request at its target core (R209, R403). -/
structure PeerReq where
  uid : Nat
  ctx : Nat
  cluster : Nat
  rank : Nat
  offset : Nat
  write : Option W32
  since : Nat
  /-- the initiator's task record, its own number if it is a wave, and its core -/
  task : Phys
  wave : Option Nat
  back : Nat
  deriving DecidableEq, Repr

/-- A peer reply: the word read, or the syndrome (Table 21.4). -/
structure PeerReply where
  uid : Nat
  /-- the core that served the access -/
  from_ : Nat
  since : Nat
  word : W32
  failed : Bool
  syndrome : Word
  deriving DecidableEq, Repr

/-- A home's reply to a scalar load on its way to the core (R177): the line's bytes and the lease's
expiry; `fills` until a store of the core, a later read of the line or an LINV has overtaken it (R177, R180,
R185). -/
structure LoadReply where
  uid : Nat
  d : Nat
  n : Nat
  loc : Phys
  nc : Bool
  data : Memory
  exp : Nat
  fills : Bool
  /-- its place in the order in which replies were injected (R325) -/
  sent : Nat
  deriving DecidableEq, Repr

/-- The acknowledgement of a store of a core on its way back from the home of `loc`, with the GWCT (R177);
`sent` is its place in the order in which replies were injected (R325). -/
structure Ack where
  uid : Nat
  core : Nat
  loc : Phys
  gwct : Nat
  sent : Nat
  deriving DecidableEq, Repr

/-- A batch of rays for a traversal unit (R291). -/
structure Batch where
  key : Nat
  ctx : Nat
  rays : List Nat
  deriving DecidableEq, Repr

/-- A compute core (R16). -/
structure Core where
  counters : List (Nat × W32)
  scratch : Memory
  /-- the scratchpad words that are uncorrectable (R365, R403, R411) -/
  badScratch : List Nat
  l1 : List L1Line
  predictor : List (Nat × Nat)
  tlb : List TlbEntry
  regions : List (Nat × List RegionEntry)
  bank0 : Memory
  bank1 : Memory
  copies : List CopyOp
  mats : List MatOp
  xfs : List XfOp
  noise : List Word
  noiseFailAt : Option Nat
  noiseFailed : Bool
  /-- the four stream buffers -/
  streams : List (Nat × List Pair)
  /-- the pairs of RETIREs that wait for room in their stream buffers (R305) -/
  entering : List Entering
  /-- by stream buffer: since when its oldest pair has waited (R417) -/
  streamSince : List (Nat × Nat)
  /-- by scheduler and class: the residency order of the team that last issued -/
  lastIssued : List (Nat × Nat)
  cycles : Nat
  /-- 64ths of a cycle of the core's own clock (R18) -/
  cycleFrac : Nat
  power : Power
  clock : Nat
  clockFloorSince : Option Nat
  thermal : Nat
  droop : Nat
  /-- for levels 1 to 3: how many periods in a row have stayed below the level (R318) -/
  coolPeriods : List Nat
  droopCount : Nat
  droopSince : Nat
  temp : Int
  tripped : Bool
  lastIssueAt : Nat
  emptySince : Nat
  idleSince : Option Nat
  wakeAt : Option Nat
  batches : List Batch
  steal : Steal
  inbound : List PeerReq
  replies : List LoadReply
  peerReplies : List PeerReply
  cut : Bool
  deriving DecidableEq, Repr

/-- A task as a list of the distributor names it: its record, the address that named it and the
context under which it became ready (R214). -/
structure TaskRef where
  loc : Phys
  va : Word
  ctx : Nat
  queue : Nat
  prio : Nat
  deriving DecidableEq, Repr

/-- A started task: the greatest GWCT of its stores (R39) and whether it holds LRC (R287). -/
structure TaskState where
  loc : Phys
  ctx : Nat
  gwct : Nat
  hold : Bool
  deriving DecidableEq, Repr

/-- An operation on its way to a task record's home bank (R36, R213). -/
inductive DepKind where
  | dec
  | inc
  | spawn
  deriving DecidableEq, Repr

/-- A request at a record's home bank ALU: `checked` when the issuer's ownership of the queue is
tested (R384), `from_` the core it came from; `host` when HOMECORE serves a LOCAL queue. -/
structure DepOp where
  kind : DepKind
  loc : Phys
  va : Word
  ctx : Nat
  core : Nat
  checked : Bool
  host : Bool
  deriving DecidableEq, Repr

/-- A task that has become ready and is not yet on a list (R36). -/
structure ReadyOp where
  loc : Phys
  va : Word
  ctx : Nat
  core : Nat
  host : Bool
  deriving DecidableEq, Repr

/-- The successor decrements that a complete task still owes (R35, R39); `held` where the task held LRC, so
that its stores hold back the DONE decrement too (R287). -/
structure SuccOp where
  loc : Phys
  ctx : Nat
  die : Nat
  core : Nat
  succ : Word
  gwct : Nat
  held : Bool
  deriving DecidableEq, Repr

/-- The stores and DSM elements of a team that has exited before their replies (R38, R39): whose they are, and
how many replies are to come. -/
structure Leftover where
  uid : Nat
  ctx : Nat
  core : Nat
  task : Phys
  wave : Bool
  count : Nat
  deriving DecidableEq, Repr

/-- What a ray is doing (R283). -/
inductive RayState where
  /-- placed for the SPAWN of team `uid` when its records were granted, not yet written (R286) -/
  | reserved (uid : Nat)
  /-- about to enter a bin: a shader bin for the given shader, else a traversal bin -/
  | entering (shader : Option Nat)
  | traversalBin
  | batched
  /-- its step has ended: the hit's fields, absent for a miss -/
  | traversed (hit : Option (W32 × W32 × W32 × W32 × W32 × Nat))
  | shaderBin
  | inWave
  | held (uid lane : Nat)
  /-- retired; so many pairs are not yet accepted -/
  | retiring (left : Nat)
  deriving DecidableEq, Repr

/-- A live ray of the pool (R282, R284). -/
structure Ray where
  num : Nat
  ctx : Nat
  words : List W32
  state : RayState
  /-- the traversal key under which it was batched (R299) -/
  key : Nat
  /-- since when it has been about to enter its bin -/
  since : Nat
  /-- the team whose instruction enters it in a bin; absent for the traversal unit (R414) -/
  src : Option Nat
  deriving DecidableEq, Repr

/-- What a slice's control loops hold: the effective AGE and PF, what they have counted in the
period, and when the slice last reported pressure (R285, R336, R412). -/
structure SliceLoop where
  age : Nat
  pf : Nat
  byAge : Nat
  formed : Nat
  reads : Nat
  misses : Nat
  pressed : Nat
  deriving DecidableEq, Repr

/-- A bin of the coherence engine: rays in arrival order with their arrival times (R290). -/
structure SkBin where
  slice : Nat
  key : Nat
  ctx : Nat
  rays : List (Nat × Nat)
  prefetched : Bool
  deriving DecidableEq, Repr

/-- A treelet in the carve-out, most recently used first in its die's list; `lines` are the lines
still to arrive, fetched for the context `ctx` (R298). -/
structure Treelet where
  base : Nat
  ctx : Nat
  data : Memory
  lines : List Nat
  deriving DecidableEq, Repr

/-- A wave in the distributor's wave queue (R292). -/
structure Wave where
  waveid : Nat
  ctx : Nat
  shader : Nat
  key : Nat
  rays : List Nat
  prio : Nat
  since : Nat
  /-- the entry, parameters and shape words of its shader (Table 4.11) -/
  entry : Word
  params : Word
  w20 : Nat
  w24 : Nat
  deriving DecidableEq, Repr

/-- What a queued request asks of a home (R177, R179, R216). -/
inductive ReqKind where
  /-- a scalar load into register `d` of `n` bytes -/
  | load (d n : Nat)
  /-- a store of bytes -/
  | store (bytes : List Byte)
  /-- a write of an error record by the device itself -/
  | device (bytes : List Byte)
  /-- a read of the host -/
  | read
  /-- a write of the host -/
  | host (bytes : List Byte)
  /-- a scalar atomic: the operation, operand, compare value and destination -/
  | atomic (op n : Nat) (b c : Word) (d : Nat)
  /-- a CBAR arrival: mode, target and destination -/
  | barrier (mode : Nat) (target : W32) (d : Nat)
  deriving DecidableEq, Repr

/-- A request that waits for its home; `uid` 0 is the device itself. -/
structure MeshReq where
  kind : ReqKind
  uid : Nat
  ctx : Nat
  core : Nat
  loc : Phys
  nc : Bool
  since : Nat
  /-- its place in the order of arrival of a migrated page's requests (R190) -/
  seq : Option Nat
  deriving DecidableEq, Repr

/-- A pending DSM element operation (R217). -/
structure DsmReq where
  uid : Nat
  die : Nat
  addr : Nat
  op : Nat
  etype : Nat
  mode : BitVec 16
  val : W32
  deriving DecidableEq, Repr

/-- A multicast (R327): its destinations in the order of acquisition, cores by number (0–127), then
slices (128 and up), and how many of their landing slots it holds. -/
structure Multicast where
  dests : List Nat
  held : Nat
  leafDie : Nat
  leafAddr : Nat
  since : Nat
  deriving DecidableEq, Repr

/-- The steps of the migration engine (Table 7.11). -/
inductive MigStep where
  | idle
  /-- steps 2 and 3: held, waiting for leases and bins -/
  | holding
  /-- step 5: the leaf is rewritten and the shootdown runs -/
  | shooting
  deriving DecidableEq, Repr

/-- The migration in progress. -/
structure Migration where
  step : MigStep
  /-- when requests to the page began to be held (R417) -/
  since : Nat
  leafAddr : Nat
  leaf : Word
  srcPage : Nat
  dstPage : Nat
  deriving DecidableEq, Repr

/-- An open rate-limit interval with its suppressed count and the last event's record (R429). -/
structure Interval where
  kind : Nat
  code : Nat
  /-- the structure of a corrected error (R359); 0 otherwise -/
  struct : Nat
  sl : Bool
  unit : Nat
  opened : Nat
  count : Nat
  counted : Bool
  record : List Word
  deriving DecidableEq, Repr

/-- A candidate of the distributor (R317). -/
inductive Candidate where
  | team (uid : Nat)
  | wave (waveid : Nat)
  | queued (queue : Nat)
  | listed (core : Nat)
  deriving DecidableEq, Repr

/-- The resources that a pre-emption has freed on one core: tiles, and granules by scheduler. -/
structure HoldPart where
  core : Nat
  tiles : Nat
  granules : List (Nat × Nat)
  deriving DecidableEq, Repr

/-- The cores on which a pre-emption frees resources for a candidate (R321, R349). -/
structure PreHold where
  cand : Candidate
  parts : List HoldPart
  deriving DecidableEq, Repr

/-- A scale-out port that is down (R400). -/
structure PortDown where
  port : Nat
  since : Nat
  reported : Bool
  deriving DecidableEq, Repr

/-- The die registers of Table 19.9. -/
structure DieRegs where
  slicecfg : Word
  pltbase : Word
  vwin : Word
  lease : Word
  closq : Word
  migpte : Word
  migdst : Word
  migctl : Word
  soruscfg : Word
  poolrsv : Word
  skcfg : Word
  derate : Word
  fnode : Word
  frtab : Word
  errring : Word
  stitch : List Word
  deriving DecidableEq, Repr

/-- The registers right after reset (R20, R175, R176, R187, R189, R229, Table 12.2, Table 13.4,
Table 13.6, R359; FNODE and FRTAB by log entry 2). -/
def DieRegs.atReset : DieRegs :=
  { slicecfg := 0x43#64, pltbase := 0#64, vwin := 0xC#64, lease := 0x200#64, closq := 0xFFFF#64,
    migpte := 0#64, migdst := 0#64, migctl := 0#64, soruscfg := 0x800#64, poolrsv := 16384#64,
    skcfg := 0x0C10020008000020#64, derate := 0x000540100469645F#64, fnode := 0#64,
    frtab := 0#64, errring := 0#64, stitch := List.replicate 8 0#64 }

/-- One die (R19, R27) with everything its slices, distributor and managers hold. -/
structure Die where
  time : Nat
  /-- by tile, cores from 0 and slices from 64: the TIME that a tile holds until the die's reference
  passes it (R396) -/
  held : List (Nat × Nat)
  regs : DieRegs
  pendSlice : Option Word
  pendStitch : List (Nat × Word)
  mem : Memory
  dram : Memory
  dirty : List Nat
  /-- the lines of the shared cache, the most recently used first (R19, R188) -/
  cache : List CacheLine
  /-- by set of the shared cache: the greatest EXP of a line that left it (R176) -/
  evictExp : List (Nat × Nat)
  /-- the words whose copy in the shared cache is uncorrectable (Table 19.7, STRUCT 3) -/
  poison : List Nat
  /-- the words that are uncorrectable in GDDR7 itself (STRUCT 10, R395) -/
  dramPoison : List Nat
  dsmPoison : List Nat
  dsm : Memory
  exp : List (Nat × Nat)
  wleases : List WLease
  recent : List (Nat × Nat × Nat)
  bins : List Bin
  accepted : List (Nat × Nat)
  flight : List Pair
  /-- the FXADD lines the homes know of: the context whose region it is, FXF and the shadow address of the line
  (R225, R232) -/
  fxLines : List (Nat × (Nat × Nat × Nat))
  rays : List Ray
  poolPtr : Nat
  skBins : List SkBin
  loops : List (Nat × SliceLoop)
  /-- by 512 * slice + key[8:0]: the treelet of the hint entry (R299) -/
  hints : List (Nat × Phys)
  treelets : List Treelet
  waves : List Wave
  waveCount : Nat
  waveFullSince : Option Nat
  waiters : List Nat
  /-- by team: since when it has waited for records (R417) -/
  waiterSince : List (Nat × Nat)
  ready : List TaskRef
  locals : List (Nat × TaskRef)
  served : List (Nat × Nat)
  placeDue : Bool
  /-- the main-clock cycle after that of the last placement attempt; 0 before any (R316, R343) -/
  attemptAt : Nat
  first : Option (Candidate × Nat)
  hold : Option PreHold
  migration : Migration
  intervals : List Interval
  mesh : List MeshReq
  acks : List Ack
  dsmQ : List DsmReq
  multicasts : List Multicast
  shoot : List (Nat × Nat × Nat)
  linkFails : List (Nat × Nat)
  ports : List PortDown
  ptpOffset : Int
  ptpGood : Nat
  ptpSince : Nat
  ptpLast : Nat
  monitors : List MonRec
  logSeq : Nat
  queueStop : List (Nat × Nat)
  badQueues : List Nat
  deriving DecidableEq, Repr

/-- The context registers that take effect only at TLBINV or by their own rule (R170, R220,
R285). -/
structure CtxRegs where
  ptroot : Word
  rgntab : Word
  rgncnt : Word
  scene : Word
  shdtab : Word
  shdcnt : Word
  deriving DecidableEq, Repr

/-- An installed context (Table 19.5). -/
structure Ctx where
  id : Nat
  /-- as written -/
  regs : CtxRegs
  /-- as in effect -/
  eff : CtxRegs
  /-- a SCENE value that waits until no ray is in traversal (R415) -/
  scenePend : Option Word
  tvec : Word
  ctxctl : Word
  prlog2n : Nat
  prbase : Word
  save : Word
  nframe : Nat
  rlbase : Word
  rlsize : Word
  halted : Bool
  lrc : Nat
  /-- the dies whose pools owe a DONE decrement (R287) -/
  doneDue : List Nat
  doneG : Nat
  logPos : Nat
  /-- the entries of device events that wait for the log's page, oldest first: die, TYPE, TIME and
  payload (R190, R363, R397) -/
  logWait : List (Nat × Nat × Nat × List Word)
  replay : Option (Word × Nat)
  replayPos : List (Nat × Nat)
  /-- by kind of entry and die: since when replay has waited for the next one (R425) -/
  replaySince : List (Nat × Nat)
  deriving DecidableEq, Repr

/-- The host-visible side of the device (R311, R340, R338). -/
structure HostIf where
  status : Word
  qtbase : Word
  mbox : Memory
  msix : List Nat
  mem : Memory
  /-- TIME at which the writes made so far by the host are complete (R167) -/
  writeDone : Nat
  /-- whether a context has run since device reset (R333) -/
  ranOnce : Bool
  peerTimeout : Nat
  preRingCount : Nat
  fwStored : List Byte
  fwRunning : List Byte
  fwChunks : List Byte
  /-- the programmed HDM decoders: number, first byte and size of device memory (R330, R334) -/
  hdm : List (Nat × Nat × Nat)
  d3hot : Bool
  cxlLanes : Nat
  cxlRate : Nat
  thresholds : List (Nat × Int × Int)
  linkUp : Bool
  clockOk : Bool
  linkDownAt : Nat
  linkCode : Nat
  /-- whether the time of R397 has run out -/
  linkTimedOut : Bool
  deriving DecidableEq, Repr

/-- The subject of a device step, as the schedule names it (log entry 6). -/
structure EventArg where
  die : Nat
  core : Nat
  n : Nat
  m : Nat
  k : Nat
  l : Nat
  v : Int
  w : Word
  ok : Bool
  bytes : List Byte
  target : RegTarget
  deriving DecidableEq, Repr

/-- The argument of a device step that needs none. -/
def EventArg.none : EventArg :=
  { die := 0, core := 0, n := 0, m := 0, k := 0, l := 0, v := 0, w := 0#64, ok := false,
    bytes := [], target := .bar 0 }

/-- An error that shows in an SRAM, a datapath or a GDDR7 word (R365): its structure (Table 19.7),
the tile, the line or word or number it strikes (in DSM where `dsm` says so), the context that owns
it, and whether it was corrected. -/
structure Upset where
  struct : Nat
  die : Nat
  isSlice : Bool
  tile : Nat
  at_ : Nat
  dsm : Bool
  ctx : Nat
  corrected : Bool
  deriving DecidableEq, Repr

/-- One turn of the environment's schedule (log entry 6). -/
inductive Turn where
  /-- a device step with its subject -/
  | event (e : Instr) (a : EventArg)
  /-- the scheduler of a core that issues next, if it has a ready team; `late` when the accesses of
  its instruction wait in the mesh, so that later ones may overtake them (R182) -/
  | issue (core sched : Nat) (late : Bool)
  /-- an error shows (R365) -/
  | upset (u : Upset)
  /-- the host programs one of the two HDM decoders, as the CXL specification gives (R330, R334) -/
  | hdm (decoder base size : Nat)
  deriving DecidableEq, Repr

/-- A team (R28, R56). -/
structure Team where
  uid : Nat
  ctx : Nat
  place : Place
  pc : Word
  sregs : Vector Word 64
  cc : BitVec 4
  vregs : List VReg
  masks : Vector Mask 16
  /-- MODE[15:0]; MODE[31:16] is always zero (R66, R123) -/
  mode : BitVec 16
  /-- the mask stack, top first -/
  stack : List StackEntry
  loops : Vector LoopCounter 3
  /-- the active loops, innermost first -/
  active : List Nat
  key : Word
  ctr : Word
  budget : Nat
  /-- the owned tiles, each with its words that are not zero -/
  tiles : List (Nat × List (Nat × W32))
  trap : TrapRegs
  inHandler : Bool
  nlog : Word
  nlend : Word
  gwct : Nat
  outstanding : Nat
  wait : Option Wait
  pend : Option Pend
  yielded : Bool
  ident : Ident
  order : Nat
  lastIssue : Nat
  readySince : Nat
  binding : Option Nat
  /-- the lanes that hold rays, with their ray numbers (R294) -/
  rays : List (Nat × Nat)
  /-- records that the pool has granted to the team's pending SPAWN (R286) -/
  granted : Nat
  /-- where those records lie, as ray numbers (R284, R286) -/
  placed : List Nat
  donated : Bool
  /-- whether a donee came to its donated slot with an armed wait, which is no yield (R55) -/
  cameWaiting : Bool
  /-- whether an event that ends the donation has happened (R55) -/
  donationOver : Bool
  displacedBy : Option Nat
  preemptReq : Bool
  timeReads : Nat
  /-- how many MARKs the team has matched in replay (R424) -/
  marks : Nat
  savedMat : Option MatOp
  savedXf : List XfOp
  /-- the save frame that the team holds or is to take (R361) -/
  frame : Option Nat
  /-- which words stand for its step state in the frame (log entry 8) -/
  stepBase : Nat
  deriving DecidableEq, Repr

/-- Why the machine stops. -/
inductive Fault where
  /-- Raised by an encoded instruction executed while no team is issuing: no team of the device
  is in that state, so no run reaches it. Safe. -/
  | noIssuingTeam
  deriving DecidableEq, Repr

/-- Why the model does not go on. -/
inductive Refusal where
  /-- An instruction that the model does not give a meaning. Safe. -/
  | notModelled (mnemonic : String)
  /-- Raised by a device step whose condition does not hold in this state: the device does not
  take that step there. Safe. -/
  | notEnabled (step : String)
  /-- Raised by a schedule that names an encoded instruction as a device step. Safe. -/
  | notAnEvent
  deriving DecidableEq, Repr

/-- The whole device. -/
structure State where
  product : Product
  teams : List Team
  cores : List (Nat × Core)
  /-- CYCLES of a core that `cores` does not list -/
  baseCycles : Nat
  die0 : Die
  die1 : Die
  ctxs : List Ctx
  host : HostIf
  fabric : List (Nat × Memory)
  tasks : List TaskState
  depQ : List DepOp
  readyQ : List ReadyOp
  succQ : List SuccOp
  /-- the stores of exited teams that are not yet acknowledged (R38, R39) -/
  leftovers : List Leftover
  /-- the issuing team, set by the step -/
  cur : Nat
  /-- unique numbers for teams, operations and pre-emptions -/
  nextUid : Nat
  /-- how many free values have been taken (log entry 8) -/
  free : Nat
  /-- the schedule of turns to come (log entry 6) -/
  agenda : List Turn
  /-- the ticks and cycles that the steps to come take (log entry 7) -/
  elapsed : List (Nat × Nat)
  /-- the subject of the device step in progress (log entry 6) -/
  arg : EventArg
  /-- the class of service of the accesses in progress, set by the step (R187) -/
  clos : Nat
  /-- whether the instruction just tried is held under R42 (log entry 6) -/
  stalled : Bool
  /-- whether the accesses of the instruction in progress wait in the mesh (R182, log entry 6) -/
  late : Bool
  /-- how many requests the intake of a unit takes (R326, log entry 52) -/
  intakeCap : Nat
  /-- how many replies a core, and how many fabric requests a port, has landing buffers for (R326, log
  entry 52) -/
  landingCap : Nat
  /-- by core + 128 * context: since when the condition of R55 has held -/
  watchSince : List (Nat × Nat)
  deriving DecidableEq, Repr

/-- A slice's loops right after device reset: the programmed AGE and PF apply. -/
def SliceLoop.atReset : SliceLoop :=
  { age := 2048, pf := 16, byAge := 0, formed := 0, reads := 0, misses := 0, pressed := 0 }

/-- A core right after device reset (R197, R257, log entry 2). -/
def Core.atReset : Core :=
  { counters := [], scratch := [], badScratch := [], l1 := [], predictor := [], tlb := [], regions := [],
    bank0 := [], bank1 := [], copies := [], mats := [], xfs := [], noise := [],
    noiseFailAt := none, noiseFailed := false, streams := [], entering := [], streamSince := [],
    lastIssued := [], cycles := 0, cycleFrac := 0,
    power := .run, clock := 64, clockFloorSince := none, thermal := 0, droop := 0,
    coolPeriods := [0, 0, 0], droopCount := 0, droopSince := 0, temp := 0, tripped := false,
    lastIssueAt := 0, emptySince := 0, idleSince := none, wakeAt := none, batches := [],
    steal := { tried := [], victim := none, claimed := none, carries := none, reserve := none,
               answered := false, retry := 0 },
    inbound := [], replies := [], peerReplies := [], cut := false }

/-- A die right after device reset (R174, R176, R348, log entry 2). -/
def Die.atReset : Die :=
  { time := 0, held := [], regs := DieRegs.atReset, pendSlice := none, pendStitch := [], mem := [],
    dram := [], dirty := [], cache := [], evictExp := [], poison := [], dramPoison := [],
    dsmPoison := [], dsm := [], exp := [], wleases := [], recent := [],
    bins := [], accepted := [], flight := [], fxLines := [], rays := [], poolPtr := 0, skBins := [],
    loops := [], hints := [], treelets := [], waves := [],
    waveCount := 0, waveFullSince := none, waiters := [], waiterSince := [], ready := [], locals := [],
    served := [], placeDue := false, attemptAt := 0, first := none, hold := none,
    migration := { step := .idle, since := 0, leafAddr := 0, leaf := 0#64, srcPage := 0, dstPage := 0 },
    intervals := [], mesh := [], acks := [], dsmQ := [], multicasts := [], shoot := [],
    linkFails := [], ports := [], ptpOffset := 0, ptpGood := 0, ptpSince := 0, ptpLast := 0, monitors := [],
    logSeq := 0, queueStop := [], badQueues := [] }

/-- The host side right after device reset (Table 13.1, R405, log entry 2). -/
def HostIf.atReset : HostIf :=
  { status := 0#64, qtbase := 0#64, mbox := [], msix := [], mem := [], writeDone := 0,
    ranOnce := false, peerTimeout := 100000,
    preRingCount := 0, fwStored := [], fwRunning := [], fwChunks := [], hdm := [], d3hot := false,
    cxlLanes := 0, cxlRate := 0, thresholds := [], linkUp := true, clockOk := true,
    linkDownAt := 0, linkCode := 0, linkTimedOut := false }

/-- The machine right after reset: no context, no team, every register at its reset value
(log entries 1, 2, 3). -/
def State.reset : State :=
  { product := .m, teams := [], cores := [], baseCycles := 0, die0 := Die.atReset, die1 := Die.atReset,
    ctxs := [], host := HostIf.atReset, fabric := [], tasks := [], depQ := [], readyQ := [],
    succQ := [], leftovers := [], cur := 0, nextUid := 1, free := 0, agenda := [], elapsed := [],
    arg := EventArg.none, clos := 0, stalled := false, late := false, intakeCap := 256,
    landingCap := 64, watchSince := [] }

end Sys2Proof.Machine
end

