-- ==== Sys2Proof/Machine/Bits.lean ====
section
/-! DEFINITION. Tables by number, memory in canonical form, bit fields and byte order (spec/00 R7).
Every wider access is built from bytes here, little-endian. -/

namespace Sys2Proof.Machine

/-! ### Tables by number -/

/-- The entry of key `k`, or `d` when the table lists none. -/
def lookup {α : Type} (d : α) (k : Nat) : List (Nat × α) → α
  | [] => d
  | (j, v) :: rest => if j = k then v else lookup d k rest

/-- The table with `v` at key `k`. -/
def insertAt {α : Type} (k : Nat) (v : α) : List (Nat × α) → List (Nat × α)
  | [] => [(k, v)]
  | (j, w) :: rest => if j = k then (k, v) :: rest else (j, w) :: insertAt k v rest

/-- The table without key `k`. -/
def removeAt {α : Type} (k : Nat) : List (Nat × α) → List (Nat × α)
  | [] => []
  | (j, w) :: rest => if j = k then rest else (j, w) :: removeAt k rest

/-- Replaces every element that satisfies `p` by its image. -/
def mapWhere {α : Type} (p : α → Bool) (f : α → α) : List α → List α
  | [] => []
  | x :: rest => (if p x then f x else x) :: mapWhere p f rest

/-- The list without its first element that satisfies `p`. -/
def eraseFirst {α : Type} (p : α → Bool) : List α → List α
  | [] => []
  | x :: rest => if p x then rest else x :: eraseFirst p rest

/-- The least element under a key, the first among equals. -/
def leastBy {α : Type} (key : α → Nat) : List α → Option α
  | [] => none
  | x :: rest => match leastBy key rest with
    | none => some x
    | some y => if key y < key x then some y else some x

/-! ### Memory -/

/-- The byte at address `a`. -/
def Memory.byte : Memory → Nat → Byte
  | [], _ => unlistedByte
  | (k, v) :: rest, a => if k = a then v else Memory.byte rest a

/-- Memory with byte `v` at address `a`; the canonical form is kept. -/
def Memory.setByte : Memory → Nat → Byte → Memory
  | [], a, v => if v = unlistedByte then [] else [(a, v)]
  | (k, w) :: rest, a, v =>
    if a < k then (if v = unlistedByte then (k, w) :: rest else (a, v) :: (k, w) :: rest)
    else if a = k then (if v = unlistedByte then rest else (a, v) :: rest)
    else (k, w) :: Memory.setByte rest a v

/-- The canonical form above a lower bound: addresses strictly rise, and no entry holds what an
unlisted byte reads as. -/
def Memory.wfFrom : Nat → Memory → Bool
  | _, [] => true
  | lo, (k, v) :: rest => decide (lo ≤ k) && v != unlistedByte && Memory.wfFrom (k + 1) rest

/-- The canonical form of a memory. -/
def Memory.wf (m : Memory) : Bool := Memory.wfFrom 0 m

/-- The bytes from `a` on, lowest address first. -/
def Memory.bytes (m : Memory) (a : Nat) : Nat → List Byte
  | 0 => []
  | n + 1 => m.byte a :: Memory.bytes m (a + 1) n

/-- Memory with the given bytes from `a` on. -/
def Memory.setBytes (m : Memory) (a : Nat) : List Byte → Memory
  | [] => m
  | b :: rest => Memory.setBytes (m.setByte a b) (a + 1) rest

/-- The value of bytes in little-endian order (R7). -/
def leNat : List Byte → Nat
  | [] => 0
  | b :: rest => b.toNat + 256 * leNat rest

/-- The `n` low bytes of a number in little-endian order (R7). -/
def leBytes : Nat → Nat → List Byte
  | 0, _ => []
  | n + 1, v => BitVec.ofNat 8 v :: leBytes n (v / 256)

/-- The `n`-byte little-endian value at `a`. -/
def Memory.read (m : Memory) (a n : Nat) : Nat := leNat (m.bytes a n)

/-- Memory with the `n` low bytes of `v` at `a`. -/
def Memory.write (m : Memory) (a n v : Nat) : Memory := m.setBytes a (leBytes n v)

/-- The cells of `m` that lie in [a, a + n). -/
def Memory.slice (m : Memory) (a n : Nat) : Memory :=
  m.filter (fun c => decide (a ≤ c.1) && decide (c.1 < a + n))

/-- Memory whose bytes in [a, a + n) are those of `src`. -/
def Memory.copyRange (m src : Memory) (a : Nat) : Nat → Memory
  | 0 => m
  | n + 1 => Memory.copyRange (m.setByte a (src.byte a)) src (a + 1) n

/-- Memory whose bytes from `d` on are those of `src` from `a` on. -/
def Memory.moveRange (m src : Memory) (d a : Nat) : Nat → Memory
  | 0 => m
  | n + 1 => Memory.moveRange (m.setByte d (src.byte a)) src (d + 1) (a + 1) n

/-! ### Bits -/

/-- Bits `lo + n - 1` down to `lo` of a number. -/
def bitsOf (v lo n : Nat) : Nat := v / 2 ^ lo % 2 ^ n

/-- A number with bits `lo + n - 1` down to `lo` replaced by `x`. -/
def setBitsOf (v lo n x : Nat) : Nat :=
  v % 2 ^ lo + 2 ^ lo * (x % 2 ^ n) + 2 ^ (lo + n) * (v / 2 ^ (lo + n))

/-- Bit `i` of a number. -/
def bitOf (v i : Nat) : Bool := v / 2 ^ i % 2 == 1

/-- A field of a 64-bit word as a number. -/
def wordBits (w : Word) (lo n : Nat) : Nat := bitsOf w.toNat lo n

/-- A `w`-bit number read as two's complement. -/
def signedOf (w v : Nat) : Int :=
  let u := v % 2 ^ w
  if 2 * u < 2 ^ w then (u : Int) else (u : Int) - 2 ^ w

/-- The low `w` bits of an integer. -/
def wrapInt (w : Nat) (x : Int) : Nat := (x % 2 ^ w).toNat

/-- Two's complement sign extension of an immediate to 64 bits (R81). -/
def sext64 {n : Nat} (i : BitVec n) : Word := i.signExtend 64

/-- Ceiling division. -/
def ceilDiv (a b : Nat) : Nat := (a + b - 1) / b

/-- The number of set bits among the low `n` bits. -/
def popcount : Nat → Nat → Nat
  | 0, _ => 0
  | n + 1, v => v % 2 + popcount n (v / 2)

/-- The index of the lowest set bit among the low `n` bits. -/
def lowestSet : Nat → Nat → Option Nat
  | 0, _ => none
  | n + 1, v => if v % 2 = 1 then some 0 else (lowestSet n (v / 2)).map (· + 1)

/-- The `n` low bits in reverse order. -/
def reverseBits : Nat → Nat → Nat
  | 0, _ => 0
  | n + 1, v => (v % 2) * 2 ^ n + reverseBits n (v / 2)

/-- The least number of bits that hold `v`: 0 for 0. -/
def bitLength (v : Nat) : Nat := if v = 0 then 0 else Nat.log2 v + 1

/-- Base-2 logarithm rounded up; 0 for 0 and 1. -/
def clog2 (v : Nat) : Nat := bitLength (v - 1)

/-- The numbers from `a` on, `n` of them. -/
def rangeFrom (a n : Nat) : List Nat := List.range' a n

/-- Integer square root: the greatest `r` with `r * r ≤ v`, found bit by bit from bit `n - 1`. -/
def isqrtFrom (v : Nat) : Nat → Nat → Nat
  | 0, r => r
  | n + 1, r =>
    let c := r + 2 ^ n
    isqrtFrom v n (if c * c ≤ v then c else r)

/-- Integer square root, rounded down. -/
def isqrt (v : Nat) : Nat := isqrtFrom v (bitLength v / 2 + 1) 0

end Sys2Proof.Machine
end

