-- ==== Sys2Proof/Machine/Real.lean ====
section
/-! DEFINITION. Exact values and the number formats (spec/03 R68 to R78): extended reals as
fractions, decoding, `round_to`, `sat_to`, P8. Nothing is lost before the one rounding. -/

namespace Sys2Proof.Machine

/-- An exact extended real (R77): a finite non-zero value is `num / den` with `den` positive. -/
inductive XReal where
  | nan
  | inf (neg : Bool)
  | zero (neg : Bool)
  | fin (num : Int) (den : Nat)
  deriving DecidableEq, Repr

/-- The value `num / den`, with the sign of a zero given. -/
def XReal.ofRat (num : Int) (den : Nat) (negZero : Bool) : XReal :=
  if num = 0 then .zero negZero else .fin num den

/-- An exact integer. -/
def XReal.ofInt (n : Int) : XReal := .ofRat n 1 false

/-- Whether the sign is negative; a NaN has none. -/
def XReal.isNeg : XReal → Bool
  | .nan => false
  | .inf s | .zero s => s
  | .fin n _ => decide (n < 0)

/-- The value with its sign inverted. -/
def XReal.neg : XReal → XReal
  | .nan => .nan
  | .inf s => .inf !s
  | .zero s => .zero !s
  | .fin n d => .fin (-n) d

/-- Sum under R69: an exact zero of mixed sign is +0, or -0 when `rdn`. -/
def XReal.add (rdn : Bool) : XReal → XReal → XReal
  | .nan, _ | _, .nan => .nan
  | .inf s, .inf t => if s = t then .inf s else .nan
  | .inf s, _ | _, .inf s => .inf s
  | .zero s, .zero t => .zero (if s = t then s else rdn)
  | .zero _, x | x, .zero _ => x
  | .fin n d, .fin m e =>
    if d = e then .ofRat (n + m) d rdn else .ofRat (n * e + m * d) (d * e) rdn

/-- Product, with IEEE 754 signs (R69). -/
def XReal.mul : XReal → XReal → XReal
  | .nan, _ | _, .nan => .nan
  | .inf _, .zero _ | .zero _, .inf _ => .nan
  | .inf s, y => .inf (s != y.isNeg)
  | x, .inf t => .inf (x.isNeg != t)
  | .zero s, y => .zero (s != y.isNeg)
  | x, .zero t => .zero (x.isNeg != t)
  | .fin n d, .fin m e => .fin (n * m) (d * e)

/-- Quotient (Table 5.5): a finite non-zero value over zero is an infinity. -/
def XReal.div : XReal → XReal → XReal
  | .nan, _ | _, .nan => .nan
  | .inf _, .inf _ | .zero _, .zero _ => .nan
  | .inf s, y => .inf (s != y.isNeg)
  | x, .inf t => .zero (x.isNeg != t)
  | .zero s, y => .zero (s != y.isNeg)
  | x, .zero t => .inf (x.isNeg != t)
  | .fin n d, .fin m e => if m < 0 then .fin (-n * e) (d * m.natAbs) else .fin (n * e) (d * m.natAbs)

/-- Order of two values that are not NaN, +0 equal to -0: whether the first is less. -/
def XReal.lt : XReal → XReal → Bool
  | .nan, _ | _, .nan => false
  | .inf s, .inf t => s && !t
  | .inf s, _ => s
  | _, .inf t => !t
  | .zero _, .zero _ => false
  | .zero _, .fin m _ => decide (0 < m)
  | .fin n _, .zero _ => decide (n < 0)
  | .fin n d, .fin m e => decide (n * e < m * d)

/-- Equality of values, +0 equal to -0; false for a NaN. -/
def XReal.eqv (x y : XReal) : Bool :=
  x != .nan && y != .nan && !x.lt y && !y.lt x

/-- The order of R109, in which -0 is below +0. -/
def XReal.ltZ (x y : XReal) : Bool :=
  match x, y with
  | .zero s, .zero t => s && !t
  | _, _ => x.lt y

/-- The greatest integer not above a fraction. -/
def floorDiv (n : Int) (d : Nat) : Int := n / (d : Int)

/-! ### Floating-point formats (R68, Table 3.6) -/

/-- A binary format: exponent width and fraction width. -/
structure Fmt where
  ew : Nat
  fw : Nat
  deriving DecidableEq, Repr

/-- binary64 -/
def Fmt.f64 : Fmt := ⟨11, 52⟩
/-- binary32 -/
def Fmt.f32 : Fmt := ⟨8, 23⟩
/-- binary16 -/
def Fmt.f16 : Fmt := ⟨5, 10⟩
/-- the upper half of F32 -/
def Fmt.bf16 : Fmt := ⟨8, 7⟩

/-- The exponent bias. -/
def Fmt.bias (f : Fmt) : Nat := 2 ^ (f.ew - 1) - 1

/-- The width in bits. -/
def Fmt.width (f : Fmt) : Nat := 1 + f.ew + f.fw

/-- The encoding of an infinity. -/
def Fmt.infinity (f : Fmt) (neg : Bool) : Nat :=
  (if neg then 2 ^ (f.ew + f.fw) else 0) + (2 ^ f.ew - 1) * 2 ^ f.fw

/-- The encoding of the largest finite value. -/
def Fmt.largest (f : Fmt) (neg : Bool) : Nat := f.infinity neg - 1

/-- The canonical NaN (R69): sign 0. -/
def Fmt.canonicalNan (f : Fmt) : Nat := f.infinity false + 2 ^ (f.fw - 1)

/-- The encoding of a zero. -/
def Fmt.zero (f : Fmt) (neg : Bool) : Nat := if neg then 2 ^ (f.ew + f.fw) else 0

/-- The fraction `m * 2 ^ e` with its sign. -/
def scaled (neg : Bool) (m : Nat) (e : Int) : XReal :=
  let n : Int := if neg then -(m : Int) else m
  if m = 0 then .zero neg
  else if 0 ≤ e then .fin (n * 2 ^ e.toNat) 1 else .fin n (2 ^ (-e).toNat)

/-- The value of an encoding (R68); with `dnz` a subnormal reads as zero (R70). -/
def Fmt.decode (f : Fmt) (dnz : Bool) (bits : Nat) : XReal :=
  let neg := bitOf bits (f.ew + f.fw)
  let e := bitsOf bits f.fw f.ew
  let m := bitsOf bits 0 f.fw
  if e = 2 ^ f.ew - 1 then (if m = 0 then .inf neg else .nan)
  else if e = 0 then
    (if m = 0 || dnz then .zero neg else scaled neg m (1 - (f.bias : Int) - f.fw))
  else scaled neg (m + 2 ^ f.fw) ((e : Int) - f.bias - f.fw)

/-- Whether an encoding is a subnormal. -/
def Fmt.isSubnormal (f : Fmt) (bits : Nat) : Bool :=
  bitsOf bits f.fw f.ew == 0 && bitsOf bits 0 f.fw != 0

/-! ### Rounding (R76, R77) -/

/-- What a rounding takes from MODE: RND (R76), SAT, DNZ, and the 16-bit draw of RSR. -/
structure Rounding where
  rnd : Nat
  sat : Bool
  dnz : Bool
  draw : Nat
  deriving DecidableEq, Repr

/-- Rounding to nearest even with SAT and DNZ clear. -/
def Rounding.rne : Rounding := { rnd := 0, sat := false, dnz := false, draw := 0 }

/-- Whether a magnitude rounds away from zero (R76): `odd` for the lower magnitude's parity, and
the remainder `r / d` of the step between the two neighbours. -/
def roundsAway (z : Rounding) (neg odd : Bool) (r d : Nat) : Bool :=
  if r = 0 then false
  else match z.rnd with
    | 0 => decide (d < 2 * r) || (decide (2 * r = d) && odd)
    | 1 => false
    | 2 => neg
    | 3 => !neg
    | 4 => decide (d ≤ 2 * r)
    | _ => if neg then !decide (z.draw < (d - r) * 65536 / d) else decide (z.draw < r * 65536 / d)

/-- Table 3.9: the encoding of an overflowed value, before MODE.SAT. -/
def overflowBits (f : Fmt) (neg : Bool) (rnd : Nat) : Nat :=
  match rnd with
  | 1 => f.largest neg
  | 2 => if neg then f.infinity true else f.largest false
  | 3 => if neg then f.largest true else f.infinity false
  | _ => f.infinity neg

/-- `floor(log2(n / d))` for positive `n` and `d`. -/
def ilog2 (n d : Nat) : Int :=
  let k : Int := (Nat.log2 n : Int) - Nat.log2 d
  if 0 ≤ k then (if n < d * 2 ^ k.toNat then k - 1 else k)
  else (if n * 2 ^ (-k).toNat < d then k - 1 else k)

/-- The significand `a / 2 ^ q` of a magnitude `n / d` as quotient, remainder and divisor. -/
def significand (n d : Nat) (q : Int) : Nat × Nat × Nat :=
  let n' := if 0 ≤ q then n else n * 2 ^ (-q).toNat
  let d' := if 0 ≤ q then d * 2 ^ q.toNat else d
  (n' / d', n' % d', d')

/-- round_to for a finite non-zero value (R77). -/
def roundFinite (f : Fmt) (z : Rounding) (num : Int) (den : Nat) : Nat :=
  let neg := decide (num < 0)
  let n := num.natAbs
  let e := ilog2 n den
  let emin : Int := 1 - (f.bias : Int)
  let raw :=
    if (f.bias : Int) + 1 ≤ e then overflowBits f neg z.rnd
    else
      let e' := max e emin
      let (m, r, d) := significand n den (e' - f.fw)
      let m' := if roundsAway z neg (m % 2 == 1) r d then m + 1 else m
      f.zero neg + ((e' + f.bias - 1).toNat * 2 ^ f.fw + m')
  let y := if raw = f.infinity neg && z.sat then f.largest neg else raw
  if z.dnz && f.isSubnormal y then f.zero neg else y

/-- round_to a floating-point format (R77). -/
def roundFmt (f : Fmt) (z : Rounding) : XReal → Nat
  | .nan => f.canonicalNan
  | .inf neg => f.infinity neg
  | .zero neg => f.zero neg
  | .fin n d => roundFinite f z n d

/-- The integer that round_to's integer branch chooses (R77), before saturation. -/
def roundInt (z : Rounding) (num : Int) (den : Nat) : Int :=
  let n := floorDiv num den
  let r := (num - n * den).toNat
  let up := match z.rnd with
    | 0 => decide (den < 2 * r) || (decide (2 * r = den) && n % 2 != 0)
    | 1 => decide (num < 0) && decide (0 < r)
    | 2 => false
    | 3 => decide (0 < r)
    | 4 => decide (den < 2 * r) || (decide (2 * r = den) && decide (0 < num))
    | _ => decide (z.draw < r * 65536 / den)
  if up then n + 1 else n

/-- The least value of an integer type. -/
def intMin (signed : Bool) (w : Nat) : Int := if signed then -(2 ^ (w - 1)) else 0

/-- The greatest value of an integer type. -/
def intMax (signed : Bool) (w : Nat) : Int := if signed then 2 ^ (w - 1) - 1 else 2 ^ w - 1

/-- sat_to (R77): the bits of an exact integer clamped to its type. -/
def satTo (signed : Bool) (w : Nat) (x : Int) : Nat :=
  wrapInt w (min (max x (intMin signed w)) (intMax signed w))

/-- An exact integer result under R71. -/
def intResult (signed : Bool) (w : Nat) (sat : Bool) (x : Int) : Nat :=
  if sat then satTo signed w x else wrapInt w x

/-- round_to an integer type (R77): it saturates. -/
def roundToInt (signed : Bool) (w : Nat) (z : Rounding) : XReal → Nat
  | .nan => 0
  | .inf neg => satTo signed w (if neg then -(2 ^ 64) else 2 ^ 64)
  | .zero _ => 0
  | .fin n d => satTo signed w (roundInt z n d)

/-! ### P8 (R73, R74) -/

/-- A P8 term in units of 1/64: 0 for shift 7. -/
def p8Term (neg : Bool) (k : Nat) : Int :=
  if k = 7 then 0 else if neg then -(2 ^ (6 - k) : Int) else 2 ^ (6 - k)

/-- The value of a P8 byte in units of 1/64 (R73). -/
def p8Units (b : Nat) : Int :=
  p8Term (bitOf b 7) (bitsOf b 4 3) + p8Term (bitOf b 3) (bitsOf b 0 3)

/-- The P8 byte of signs and shifts. -/
def p8Byte (sa : Bool) (ka : Nat) (sb : Bool) (kb : Nat) : Nat :=
  (if sa then 128 else 0) + 16 * ka + (if sb then 8 else 0) + kb

/-- The candidates of R74 in order: the largest kb first, then the smallest ka. -/
def p8Candidates : List Nat :=
  [7, 6, 5, 4, 3, 2, 1, 0].flatMap fun kb =>
    [0, 1, 2, 3, 4, 5, 6, 7].flatMap fun ka =>
      [(false, false), (true, false), (false, true), (true, true)].filterMap fun (sa, sb) =>
        if (kb == 7 && sb) || (ka == 7 && sa) then none else some (p8Byte sa ka sb kb)

/-- The canonical encoding of a value in units of 1/64, when P8 has that value (R74). -/
def p8Canonical (v : Int) : Option Nat := p8Candidates.find? (fun b => p8Units b == v)

/-- The greatest P8 value not above `u`, searched down from it. -/
def p8Below : Nat → Int → Int
  | 0, u => u
  | fuel + 1, u => if (p8Canonical u).isSome then u else p8Below fuel (u - 1)

/-- The least P8 value not below `u`, searched up from it. -/
def p8Above : Nat → Int → Int
  | 0, u => u
  | fuel + 1, u => if (p8Canonical u).isSome then u else p8Above fuel (u + 1)

/-- round_p8 of a finite value within [-2, 2] (R77). -/
def roundP8Fin (z : Rounding) (num : Int) (den : Nat) : Nat :=
  let u := floorDiv (64 * num) den
  let exact := decide (u * den = 64 * num)
  let lo := p8Below 130 u
  let hi := if exact && lo == u then u else p8Above 130 (u + 1)
  let r := 64 * num - lo * den
  let d := (hi - lo) * den
  let up :=
    if lo = hi then false
    else match z.rnd with
      | 0 => decide (d < 2 * r) || (decide (2 * r = d) && decide (hi.natAbs < lo.natAbs))
      | 1 => decide (hi.natAbs < lo.natAbs)
      | 2 => false
      | 3 => true
      | 4 => decide (d < 2 * r) || (decide (2 * r = d) && decide (lo.natAbs < hi.natAbs))
      | _ => decide ((z.draw : Int) < r * 65536 / d)
  (p8Canonical (if up then hi else lo)).getD 0x77

/-- round_p8 (R77). -/
def roundP8 (z : Rounding) : XReal → Nat
  | .nan => 0x77
  | .inf neg => if neg then 0x88 else 0x00
  | .zero _ => 0x77
  | .fin n d =>
    if (2 * d : Int) < n then 0x00 else if n < -(2 * d : Int) then 0x88 else roundP8Fin z n d

/-! ### Element types (R72, Table 3.7) -/

/-- The type of a sub-element. -/
inductive SubTy where
  | flt (f : Fmt)
  | int (signed : Bool) (w : Nat)
  | p8
  deriving DecidableEq, Repr

/-- The width of a sub-element in bits. -/
def SubTy.width : SubTy → Nat
  | .flt f => f.width
  | .int _ w => w
  | .p8 => 8

/-- The sub-element type and count of an ETYPE (Table 3.7). -/
def elemType (t : Nat) : SubTy × Nat :=
  match t with
  | 0 => (.flt .f32, 1)
  | 1 => (.flt .bf16, 2)
  | 2 => (.flt .f16, 2)
  | 3 => (.int true 32, 1)
  | 4 => (.int false 32, 1)
  | 5 => (.int true 16, 2)
  | 6 => (.int false 16, 2)
  | 7 => (.int true 8, 4)
  | 8 => (.int false 8, 4)
  | 9 => (.int true 6, 5)
  | 10 => (.int true 4, 8)
  | 11 => (.int false 4, 8)
  | _ => (.p8, 4)

/-- Sub-element `j` of a 32-bit element as bits. -/
def subBits (ty : SubTy) (w : W32) (j : Nat) : Nat := bitsOf w.toNat (ty.width * j) ty.width

/-- The exact value of a sub-element (R68, R70, R71, R73). -/
def subVal (ty : SubTy) (dnz : Bool) (bits : Nat) : XReal :=
  match ty with
  | .flt f => f.decode dnz bits
  | .int true w => .ofInt (signedOf w bits)
  | .int false w => .ofInt (bits % 2 ^ w)
  | .p8 => .ofRat (p8Units bits) 64 false

/-- The element whose sub-elements are the given bits, unused bits zero (R72). -/
def packSubs (ty : SubTy) : Nat → List Nat → Nat
  | _, [] => 0
  | j, b :: rest => (b % 2 ^ ty.width) * 2 ^ (ty.width * j) + packSubs ty (j + 1) rest

/-- An element from the bits of its sub-elements. -/
def packElem (ty : SubTy) (subs : List Nat) : W32 := BitVec.ofNat 32 (packSubs ty 0 subs)

/-- The integer of an exact value that is one; 0 for the rest. -/
def XReal.toInt : XReal → Int
  | .fin n d => floorDiv n d
  | _ => 0

/-- An arithmetic result in its type (R134): rounded for F and P8, R71 for integers. -/
def subResult (ty : SubTy) (z : Rounding) (x : XReal) : Nat :=
  match ty with
  | .flt f => roundFmt f z x
  | .p8 => roundP8 z x
  | .int s w => intResult s w z.sat x.toInt

/-- round_to a sub-element type, saturating integers (R77). -/
def subRound (ty : SubTy) (z : Rounding) (x : XReal) : Nat :=
  match ty with
  | .flt f => roundFmt f z x
  | .p8 => roundP8 z x
  | .int s w => roundToInt s w z x

end Sys2Proof.Machine
end

