-- ==== Sys2Proof/Machine/Blocks.lean ====
section
/-! DEFINITION. Arithmetic on blocks that the copy engine and the transform pipe share: the Hadamard
rotation (spec/10 R246) and block quantisation (spec/10 R248). Exact until the one rounding. -/

namespace Sys2Proof.Machine

/-- The parity of `i AND k`. -/
def andParity (i k : Nat) : Bool := popcount 16 (i &&& k) % 2 == 1

/-- The exact sum of some values (R69). -/
def sumExact (rdn : Bool) : List XReal → XReal
  | [] => .zero false
  | x :: rest => rest.foldl (XReal.add rdn) x

/-- y := H·v, or (1 ÷ n) × H·v for the inverse (R246). -/
def hadamard (rdn inverse : Bool) (v : List XReal) : List XReal :=
  let n := v.length
  let scale : XReal := .fin 1 (if inverse then n else 1)
  (List.range n).map fun i =>
    (sumExact rdn ((v.zipIdx).map (fun p => if andParity i p.2 then p.1.neg else p.1))).mul scale

/-- A list of exactly `n` values, padded with zeros (R245). -/
def padZeros (n : Nat) (v : List XReal) : List XReal :=
  v ++ List.replicate (n - v.length) (.zero false)

/-- The magnitude of a finite value as a fraction. -/
def XReal.magnitude : XReal → Nat × Nat
  | .fin n d => (n.natAbs, d)
  | _ => (0, 1)

/-- The greater of two fractions. -/
def maxFrac (a b : Nat × Nat) : Nat × Nat := if a.1 * b.2 < b.1 * a.2 then b else a

/-- `ceil(log2(n / d))` for positive `n` and `d`. -/
def clog2Frac (n d : Nat) : Int :=
  let e := ilog2 n d
  let exact := if 0 ≤ e then n == d * 2 ^ e.toNat else n * 2 ^ (-e).toNat == d
  if exact then e else e + 1

/-- A power of two. -/
def pow2 (e : Int) : XReal := if 0 ≤ e then .fin (2 ^ e.toNat) 1 else .fin 1 (2 ^ (-e).toNat)

/-- The value of a block scale code (Table 3.8). -/
def scaleValue (sf16 : Bool) (code : Nat) : XReal :=
  if sf16 then Fmt.f16.decode false code
  else if code = 255 then .nan
  else pow2 ((code : Int) - 127)

/-- qmax of a destination type (R248). -/
def qmax (ty : SubTy) : Nat :=
  match ty with
  | .int true w => 2 ^ (w - 1) - 1
  | .int false w => 2 ^ w - 1
  | _ => 2

/-- The scale code of a block whose greatest magnitude is `m` (R248). -/
def blockScale (sf16 : Bool) (ty : SubTy) (m : Nat × Nat) : Nat :=
  let q := m.2 * qmax ty
  if sf16 then
    roundFmt .f16 { rnd := 3, sat := true, dnz := false, draw := 0 } (.ofRat m.1 q false)
  else
    let e : Int := if m.1 = 0 then -127 else min 127 (max (-127) (clog2Frac m.1 q))
    (e + 127).toNat

/-- R248 for one padded block: the scale code and the encoding of each element. -/
def quantBlock (ty : SubTy) (rot sf16 : Bool) (z : Rounding) (v : List XReal) : Nat × List Nat :=
  let y := if rot then hadamard (z.rnd == 2) false v else v
  let bad := y.any (fun x => match x with | .nan | .inf _ => true | _ => false)
  if bad then
    (if sf16 then 0x7E00 else 0xFF, y.map (fun _ => if ty = .p8 then 0x77 else 0))
  else
    let m := (y.map XReal.magnitude).foldl maxFrac (0, 1)
    let code := blockScale sf16 ty m
    let scale := scaleValue sf16 code
    let q := fun (x : XReal) => match scale with
      | .zero _ => XReal.zero false
      | k => x.div k
    (code, y.map (fun x => subRound ty z (q x)))

end Sys2Proof.Machine
end

