-- ==== Sys2Proof/Config.lean ====
section
/-! DEFINITION. What an implementation fixes and the spec leaves open: free values, opaque
constants that nothing in Lean can evaluate (log entry 8). Each is applied to the free-value
counter of the state, so that every use is a fresh value. -/

namespace Sys2Proof.Config

/-- R161: the word that the physical noise source delivers. -/
opaque noiseWord : Nat → Word

/-- R224: whether the bin keeps the new value (true) of an ANY word instead of the one held. -/
opaque anyKeepsNew : Nat → Bool

/-- R224: where a new FADD contribution stands in the bin's combining order. -/
opaque faddPlace : Nat → Nat

/-- R361: the words of a step state in a save frame, in the device's own form. -/
opaque stepStateWord : Nat → Word

/-- R361: the kind of an armed wait in a save frame, in the device's own numbering. -/
opaque waitCode : Nat → Word

/-- R342: SHAKE256 with 64 bytes of output over a byte string; byte `n` of the digest. The spec
names the function and does not define it. -/
opaque shake256 : List Byte → Nat → Byte

/-- R339, R342: byte `n` of the ML-DSA-65 signature by a die's identity key over a byte string. -/
opaque signature : Nat → List Byte → Nat → Byte

/-- R342: the DER certificates of a die's chain, identity key first. -/
opaque certificates : Nat → List (List Byte)

/-- R32: the queue link that the device writes into a queued record, in the device's own form. -/
opaque queueLink : Nat → Word

/-- R177: which line of a full set the L1 gives up for a new one. -/
opaque l1Victim : Nat → Nat

/-- R22: which of a set's lines lies in a way that leaves the shared cache. -/
opaque leavingWay : Nat → Nat

/-- R338: whether the boot ROM finds the ML-DSA-65 signature of a firmware image valid. -/
opaque firmwareValid : List Byte → Bool

/-- R334: the STAGE count that the firmware's bring-up steps leave in STATUS. -/
opaque bringUpStage : BitVec 4

/-- R146: the correctly rounded result of a special function where the model's interval does not
decide between two neighbours; true takes the upper one. -/
opaque roundsUp : Nat → Bool

/-- R400, R405: whether a write in flight at a failure was performed at its target. -/
opaque inFlightPerformed : Nat → Bool

/-- R258, R386: FIELD and TINFO of an OPERAND_VALUE trap that no register's value causes. -/
opaque openRecord : Nat → Word

/-- R257: the segment of an activation table whose XLO or XHI is infinite. -/
opaque openSegment : Nat → Nat

/-- R288: the value of a scene or record byte that no rule states. -/
opaque openByte : Nat → Byte

/-- R288: the BVH's base where BVHBASE is not a multiple of 16,384. -/
opaque openBase : Nat → Word

end Sys2Proof.Config
end

