-- ==== Sys2Proof/WellFormed.lean ====
section
/-! DEFINITION. Well-formed instructions: the decoding checks 3 to 6 of Table 4.6 (spec/04 R84,
R88) as functions of the instruction's own fields, and which instructions are privileged. -/

namespace Sys2Proof

/-- The class of a register operand (Table 4.3), in the order of R373. -/
inductive Operand where
  /-- a scalar source: s0 to s63 or a special -/
  | scalarSrc (f : Field)
  /-- a scalar destination -/
  | scalarDst (f : Field)
  /-- a vector source -/
  | vectorSrc (f : Field)
  /-- a vector destination -/
  | vectorDst (f : Field)
  /-- a vector register that the instruction implies beyond its fields -/
  | vectorImplied (n : Nat)
  /-- a mask source -/
  | maskSrc (f : Field)
  /-- a mask destination -/
  | maskDst (f : Field)
  /-- an accumulator tile -/
  | tile (f : Field)
  /-- a field that must lie at or below a limit of its row -/
  | limited (f : Field) (most : Nat)
  /-- a copy instruction's B field: 0 to 62, or 64 (R234) -/
  | offsetPair (f : Field)
  /-- RETIRE's D field: 0 to 93, or 96 (Table 12.9) -/
  | retireBase (f : Field)
  deriving DecidableEq, Repr

/-- Check 4 of Table 4.6: the field lies in a reserved range of its class, or above a limit that
its row gives. -/
def Operand.reserved : Operand → Bool
  | .scalarSrc f | .scalarDst f => decide (93 ≤ f.toNat)
  | .vectorSrc f | .vectorDst f => decide (99 ≤ f.toNat)
  | .vectorImplied _ => false
  | .maskSrc f | .maskDst f => decide (16 ≤ f.toNat)
  | .tile f => decide (8 ≤ f.toNat)
  | .limited f most => decide (most < f.toNat)
  | .offsetPair f => !(decide (f.toNat ≤ 62) || decide (f.toNat = 64))
  | .retireBase f => !(decide (f.toNat ≤ 93) || decide (f.toNat = 96))

/-- Check 5 of Table 4.6: a destination names a read-only register. -/
def Operand.readOnly : Operand → Bool
  | .scalarDst f => decide (64 ≤ f.toNat)
  | .vectorDst f => decide (96 ≤ f.toNat)
  | .maskDst f => decide (f.toNat = 0)
  | _ => false

/-- Check 6 of Table 4.6: the vector register number to hold against the allotment. -/
def Operand.vectorNumber : Operand → Option Nat
  | .vectorSrc f | .vectorDst f => if f.toNat ≤ 95 then some f.toNat else none
  | .vectorImplied n => some n
  | .retireBase f => if f.toNat ≤ 95 then some f.toNat else none
  | _ => none

/-- Whether MODE[15:0] holds a reserved RND or ETYPE (Table 3.5). -/
def modeReserved (m : BitVec 16) : Bool :=
  decide (6 ≤ (m.extractLsb' 9 3).toNat) || decide (13 ≤ (m.extractLsb' 4 5).toNat)

/-- The control register numbers that Table 19.9 assigns. -/
def csrAssigned (n : Nat) : Bool :=
  decide (n ≤ 0x00A) || decide (0x100 ≤ n ∧ n ≤ 0x107) || decide (0x200 ≤ n ∧ n ≤ 0x20E) ||
    decide (0x210 ≤ n ∧ n ≤ 0x217)

/-- The opcode columns each row assigns (Table 4.5). -/
def assignedColumns (row : Nat) : Nat :=
  match row with
  | 0 => 31
  | 1 => 16
  | 2 => 16
  | 3 => 17
  | 4 => 18
  | 5 => 30
  | 6 => 17
  | 7 => 15
  | 8 => 17
  | 9 => 15
  | 10 => 12
  | 11 => 9
  | 12 => 10
  | 13 => 8
  | 14 => 6
  | 15 => 8
  | _ => 0

/-- R87: the word's opcode names a column that Table 4.5 lists as illegal. -/
def illegalColumn (w : W32) : Bool :=
  decide (assignedColumns (w.extractLsb' 28 4).toNat ≤ (w.extractLsb' 23 5).toNat)

/-- Check 3 of Table 4.6 on the instruction's code fields: a value that its description
reserves. -/
def Instr.codeReserved : Instr → Bool
  | .gets _ k => !(decide (k.toNat ≤ 12) || decide (16 ≤ k.toNat ∧ k.toNat ≤ 18))
  | .bcc c _ => decide (13 ≤ c.toNat)
  | .loop _ l n => n == 3#2 || l == 0#8
  | .loopi k l n => n == 3#2 || l == 0#8 || k == 0#7
  | .lbrk d => decide (3 ≤ d.toNat)
  | .mset i => modeReserved i
  | .vcvt _ _ t _ => decide (13 ≤ t.toNat)
  | .rallot _ n => decide (n.toNat = 0 ∨ 96 < n.toNat)
  | .rngget _ s => decide (1 < s.toNat)
  | .stl _ _ s _ => decide (3 < s.toNat)
  | .fence s => decide (3 < s.toNat)
  | .xtld _ k => decide (1 < k.toNat)
  | .xtbind k => decide (2 < k.toNat)
  | .poolq _ k => decide (3 < k.toNat)
  | .csrr _ i => !csrAssigned i.toNat
  | .csrw _ i => !csrAssigned i.toNat
  | .add _ _ _ _ => false
  | .sub _ _ _ _ => false
  | .mul _ _ _ _ => false
  | .mulh _ _ _ _ => false
  | .mulhn _ _ _ _ => false
  | .div _ _ _ _ => false
  | .divn _ _ _ _ => false
  | .rem _ _ _ _ => false
  | .remn _ _ _ _ => false
  | .and _ _ _ _ => false
  | .or _ _ _ _ => false
  | .xor _ _ _ _ => false
  | .andn _ _ _ _ => false
  | .shl _ _ _ _ => false
  | .shr _ _ _ _ => false
  | .sra _ _ _ _ => false
  | .rotl _ _ _ _ => false
  | .min _ _ _ _ => false
  | .max _ _ _ _ => false
  | .minn _ _ _ _ => false
  | .maxn _ _ _ _ => false
  | .cmp _ _ _ => false
  | .cmpn _ _ _ => false
  | .sel _ _ _ _ => false
  | .clz _ _ _ => false
  | .ctz _ _ _ => false
  | .popc _ _ _ => false
  | .brev _ _ _ => false
  | .bfx _ _ _ _ => false
  | .bfi _ _ _ _ => false
  | .mov _ _ _ => false
  | .addi _ _ _ => false
  | .andi _ _ _ => false
  | .ori _ _ _ => false
  | .xori _ _ _ => false
  | .shli _ _ _ => false
  | .shri _ _ _ => false
  | .srai _ _ _ => false
  | .cmpi _ _ => false
  | .cmpni _ _ => false
  | .movi _ _ => false
  | .movhi _ _ => false
  | .movxi _ _ => false
  | .movti _ _ => false
  | .ldlit _ _ => false
  | .lea _ _ _ _ => false
  | .fadd _ _ _ _ => false
  | .fsub _ _ _ _ => false
  | .fmul _ _ _ _ => false
  | .ffma _ _ _ _ => false
  | .fdiv _ _ _ _ => false
  | .fsqrt _ _ _ => false
  | .fmin _ _ _ _ => false
  | .fmax _ _ _ _ => false
  | .fabs _ _ _ => false
  | .fneg _ _ _ => false
  | .fcmp _ _ _ => false
  | .fcvt _ _ _ => false
  | .ftoi _ _ _ => false
  | .itof _ _ _ => false
  | .fclass _ _ _ => false
  | .frnd _ _ _ => false
  | .br _ => false
  | .bmz _ _ => false
  | .bmnz _ _ => false
  | .call _ => false
  | .callr _ _ => false
  | .ret _ => false
  | .jmpr _ => false
  | .yield => false
  | .waitc _ _ => false
  | .watch _ _ => false
  | .exit => false
  | .nop => false
  | .trapi _ => false
  | .msetr _ => false
  | .mget _ => false
  | .mpush _ _ => false
  | .melse _ _ => false
  | .mpop => false
  | .mand _ _ _ => false
  | .mor _ _ _ => false
  | .mxor _ _ _ => false
  | .mandn _ _ _ => false
  | .mnot _ _ => false
  | .mmov _ _ => false
  | .mcnt _ _ => false
  | .mffs _ _ => false
  | .mtos _ _ _ => false
  | .mfrs _ _ _ => false
  | .mlen _ _ => false
  | .mall _ _ => false
  | .vadd _ _ _ _ => false
  | .vsub _ _ _ _ => false
  | .vmul _ _ _ _ => false
  | .vfma _ _ _ _ => false
  | .vfms _ _ _ _ => false
  | .vmin _ _ _ _ => false
  | .vmax _ _ _ _ => false
  | .vabs _ _ _ => false
  | .vneg _ _ _ => false
  | .vand _ _ _ _ => false
  | .vor _ _ _ _ => false
  | .vxor _ _ _ _ => false
  | .vnot _ _ _ => false
  | .vshl _ _ _ _ => false
  | .vshr _ _ _ _ => false
  | .vsra _ _ _ _ => false
  | .vcmpeq _ _ _ => false
  | .vcmpne _ _ _ => false
  | .vcmplt _ _ _ => false
  | .vcmple _ _ _ => false
  | .vsel _ _ _ _ => false
  | .vmov _ _ _ => false
  | .vbcast _ _ _ _ => false
  | .vidx _ _ _ _ => false
  | .vclamp _ _ _ _ => false
  | .vmulp _ _ _ _ => false
  | .vdotp _ _ _ _ => false
  | .vpack _ _ _ _ => false
  | .vunpk _ _ _ _ => false
  | .vrcp _ _ _ => false
  | .vrsq _ _ _ => false
  | .vsqrt _ _ _ => false
  | .vdiv _ _ _ _ => false
  | .vexp2 _ _ _ => false
  | .vlog2 _ _ _ => false
  | .vsin _ _ _ => false
  | .vcos _ _ _ => false
  | .vtanh _ _ _ => false
  | .vfloor _ _ _ => false
  | .vfrac _ _ _ => false
  | .vcompact _ _ _ => false
  | .vexpand _ _ _ => false
  | .vshfl _ _ _ _ => false
  | .vrotl _ _ _ _ => false
  | .vextr _ _ _ => false
  | .vins _ _ _ _ => false
  | .rcoal _ _ _ => false
  | .rcnt _ _ => false
  | .rpool _ _ => false
  | .rsave _ _ _ => false
  | .rload _ _ _ => false
  | .vredadd _ _ => false
  | .vredmin _ _ => false
  | .vredmax _ _ => false
  | .vredand _ _ => false
  | .vredor _ _ => false
  | .vscan _ _ _ => false
  | .vrng _ _ _ => false
  | .rngseed _ _ => false
  | .ld _ _ _ _ => false
  | .ldx _ _ _ _ => false
  | .st _ _ _ _ => false
  | .lda _ _ _ _ => false
  | .atadd _ _ _ _ => false
  | .atmin _ _ _ _ => false
  | .atmax _ _ _ _ => false
  | .atminn _ _ _ _ => false
  | .atmaxn _ _ _ _ => false
  | .atand _ _ _ _ => false
  | .ator _ _ _ _ => false
  | .atxor _ _ _ _ => false
  | .atxch _ _ _ _ => false
  | .atcas _ _ _ _ => false
  | .linv _ _ => false
  | .vld _ _ _ _ => false
  | .vlds _ _ _ _ => false
  | .vst _ _ _ => false
  | .vsts _ _ _ => false
  | .vldb _ _ _ _ => false
  | .preq _ _ _ => false
  | .sld _ _ _ => false
  | .sst _ _ _ => false
  | .sgath _ _ _ _ => false
  | .sscat _ _ _ => false
  | .sldt _ _ _ _ => false
  | .sldc _ _ _ => false
  | .sstc _ _ _ => false
  | .clds _ _ _ => false
  | .csts _ _ _ => false
  | .upd _ _ _ => false
  | .upds _ _ => false
  | .uflush _ _ => false
  | .tdec _ => false
  | .tinc _ => false
  | .tspawn _ => false
  | .cset _ _ => false
  | .cadd _ _ => false
  | .cget _ _ => false
  | .cbar _ _ _ => false
  | .dsmop _ _ _ => false
  | .dsmred _ _ _ => false
  | .cpy _ _ _ => false
  | .cpyg _ _ _ => false
  | .cpyx _ _ _ => false
  | .cpyq _ _ _ => false
  | .cpyt _ _ _ => false
  | .discard _ _ _ => false
  | .prefetch _ _ _ => false
  | .cpya _ _ _ => false
  | .cwalk _ _ _ => false
  | .mcfg _ _ _ => false
  | .mzero _ _ => false
  | .mma _ _ => false
  | .mmag _ _ _ => false
  | .mmas _ _ _ => false
  | .mmad _ _ => false
  | .mlda _ _ => false
  | .msta _ _ => false
  | .mtov _ _ _ _ => false
  | .malloc _ _ => false
  | .xhad _ _ _ _ => false
  | .xqnt _ _ _ _ => false
  | .xact _ _ _ => false
  | .xtopk _ _ _ _ => false
  | .xtrn _ _ _ _ => false
  | .xsort _ _ _ _ => false
  | .trace _ _ => false
  | .spawn _ _ _ => false
  | .retire _ _ => false
  | .defer _ _ => false
  | .epend => false
  | .eret => false
  | .tlbinv _ _ => false
  | .halt _ => false
  | .monr _ _ _ => false
  | .mark _ => false
  | .bkpt _ => false
  | .recordIntervalClose => false
  | .queueDoorbell => false
  | .completionDoorbell => false
  | .registerWrite => false
  | .ctxinstall => false
  | .ctxreset => false
  | .ctxremove => false
  | .csrread => false
  | .csrwrite => false
  | .errring => false
  | .peerto => false
  | .attest => false
  | .cert => false
  | .fwload => false
  | .monread => false
  | .setthr => false
  | .replay => false
  | .slicecfgWrite => false
  | .slicecfgApply => false
  | .stitchWrite => false
  | .stitchApply => false
  | .soruscfgWrite => false
  | .sceneWrite => false
  | .poolrsvWrite => false
  | .migrationStart => false
  | .migrationCopy => false
  | .migrationFinish => false
  | .powerOn => false
  | .d3hotEntry => false
  | .coreClockGate => false
  | .corePowerGate => false
  | .coreWake => false
  | .taskReady => false
  | .depcntUpdate => false
  | .queueConsume => false
  | .queueIdleRecheck => false
  | .placementAttempt => false
  | .teamExited => false
  | .successorDecrement => false
  | .preemptForCandidate => false
  | .teamPreempted => false
  | .donationStart => false
  | .donationEnd => false
  | .stealRequest => false
  | .stealClaim => false
  | .stealReply => false
  | .derateSample => false
  | .thermalTrip => false
  | .teamWake => false
  | .clockLoop => false
  | .gddr7Equalisation => false
  | .waveAgeLoop => false
  | .prefetchThresholdLoop => false
  | .monitorSample => false
  | .homeRead => false
  | .loadReply => false
  | .homeStore => false
  | .storeAck => false
  | .homeAtomic => false
  | .writeLeaseGrant => false
  | .leaseRecall => false
  | .writeLeaseExpiry => false
  | .pairInject => false
  | .homeAcceptPair => false
  | .binApply => false
  | .dsmElementOp => false
  | .cbarArrival => false
  | .hostRead => false
  | .hostWrite => false
  | .fabricWriteArrival => false
  | .shootdown => false
  | .multicastDeliver => false
  | .copyStart => false
  | .copyComplete => false
  | .matrixOpStart => false
  | .matrixStep => false
  | .matrixComplete => false
  | .transformStart => false
  | .transformComplete => false
  | .noiseWord => false
  | .poolGrant => false
  | .rayEntersBin => false
  | .traversalBinAge => false
  | .shaderBinAge => false
  | .traversalStep => false
  | .treeletLineArrival => false
  | .traversalResult => false
  | .doneDecrement => false
  | .poolPressure => false
  | .inboundPeerAccess => false
  | .peerReply => false
  | .peerTimeout => false
  | .reservationTimeout => false
  | .meshLinkFail => false
  | .timeCheck => false
  | .clockCheck => false
  | .pairLinkRestore => false
  | .pairLinkRestoreTimeout => false
  | .ptpSync => false
  | .scaleoutPortDown => false
  | .replayDivergence => false
  | .illegalInstr w => !illegalColumn w
  | .instructionFetchFault => false
  | .deviceReset => false
  | .d3hotExit => false
  | .serdesAdaptation => false
  | .sharedCacheWriteBack => false
  | .cxlLinkTraining => false

/-- The register operands of an instruction in the order of R373: the fields D, A, B, then the
registers it implies. -/
def Instr.operands : Instr → List Operand
  | .add d a b _ => [.scalarDst d, .scalarSrc a, .scalarSrc b]
  | .sub d a b _ => [.scalarDst d, .scalarSrc a, .scalarSrc b]
  | .mul d a b _ => [.scalarDst d, .scalarSrc a, .scalarSrc b]
  | .mulh d a b _ => [.scalarDst d, .scalarSrc a, .scalarSrc b]
  | .mulhn d a b _ => [.scalarDst d, .scalarSrc a, .scalarSrc b]
  | .div d a b _ => [.scalarDst d, .scalarSrc a, .scalarSrc b]
  | .divn d a b _ => [.scalarDst d, .scalarSrc a, .scalarSrc b]
  | .rem d a b _ => [.scalarDst d, .scalarSrc a, .scalarSrc b]
  | .remn d a b _ => [.scalarDst d, .scalarSrc a, .scalarSrc b]
  | .and d a b _ => [.scalarDst d, .scalarSrc a, .scalarSrc b]
  | .or d a b _ => [.scalarDst d, .scalarSrc a, .scalarSrc b]
  | .xor d a b _ => [.scalarDst d, .scalarSrc a, .scalarSrc b]
  | .andn d a b _ => [.scalarDst d, .scalarSrc a, .scalarSrc b]
  | .shl d a b _ => [.scalarDst d, .scalarSrc a, .scalarSrc b]
  | .shr d a b _ => [.scalarDst d, .scalarSrc a, .scalarSrc b]
  | .sra d a b _ => [.scalarDst d, .scalarSrc a, .scalarSrc b]
  | .rotl d a b _ => [.scalarDst d, .scalarSrc a, .scalarSrc b]
  | .min d a b _ => [.scalarDst d, .scalarSrc a, .scalarSrc b]
  | .max d a b _ => [.scalarDst d, .scalarSrc a, .scalarSrc b]
  | .minn d a b _ => [.scalarDst d, .scalarSrc a, .scalarSrc b]
  | .maxn d a b _ => [.scalarDst d, .scalarSrc a, .scalarSrc b]
  | .cmp a b _ => [.scalarSrc a, .scalarSrc b]
  | .cmpn a b _ => [.scalarSrc a, .scalarSrc b]
  | .sel d a b _ => [.scalarDst d, .scalarSrc a, .scalarSrc b]
  | .clz d a _ => [.scalarDst d, .scalarSrc a]
  | .ctz d a _ => [.scalarDst d, .scalarSrc a]
  | .popc d a _ => [.scalarDst d, .scalarSrc a]
  | .brev d a _ => [.scalarDst d, .scalarSrc a]
  | .bfx d a b _ => [.scalarDst d, .scalarSrc a, .scalarSrc b]
  | .bfi d a b _ => [.scalarDst d, .scalarSrc a, .scalarSrc b]
  | .mov d a _ => [.scalarDst d, .scalarSrc a]
  | .addi d a _ => [.scalarDst d, .scalarSrc a]
  | .andi d a _ => [.scalarDst d, .scalarSrc a]
  | .ori d a _ => [.scalarDst d, .scalarSrc a]
  | .xori d a _ => [.scalarDst d, .scalarSrc a]
  | .shli d a _ => [.scalarDst d, .scalarSrc a]
  | .shri d a _ => [.scalarDst d, .scalarSrc a]
  | .srai d a _ => [.scalarDst d, .scalarSrc a]
  | .cmpi a _ => [.scalarSrc a]
  | .cmpni a _ => [.scalarSrc a]
  | .movi d _ => [.scalarDst d]
  | .movhi d _ => [.scalarDst d]
  | .movxi d _ => [.scalarDst d]
  | .movti d _ => [.scalarDst d]
  | .ldlit d _ => [.scalarDst d]
  | .lea d a b _ => [.scalarDst d, .scalarSrc a, .scalarSrc b]
  | .gets d _ => [.scalarDst d]
  | .fadd d a b _ => [.scalarDst d, .scalarSrc a, .scalarSrc b]
  | .fsub d a b _ => [.scalarDst d, .scalarSrc a, .scalarSrc b]
  | .fmul d a b _ => [.scalarDst d, .scalarSrc a, .scalarSrc b]
  | .ffma d a b _ => [.scalarDst d, .scalarSrc a, .scalarSrc b]
  | .fdiv d a b _ => [.scalarDst d, .scalarSrc a, .scalarSrc b]
  | .fsqrt d a _ => [.scalarDst d, .scalarSrc a]
  | .fmin d a b _ => [.scalarDst d, .scalarSrc a, .scalarSrc b]
  | .fmax d a b _ => [.scalarDst d, .scalarSrc a, .scalarSrc b]
  | .fabs d a _ => [.scalarDst d, .scalarSrc a]
  | .fneg d a _ => [.scalarDst d, .scalarSrc a]
  | .fcmp a b _ => [.scalarSrc a, .scalarSrc b]
  | .fcvt d a _ => [.scalarDst d, .scalarSrc a]
  | .ftoi d a _ => [.scalarDst d, .scalarSrc a]
  | .itof d a _ => [.scalarDst d, .scalarSrc a]
  | .fclass d a _ => [.scalarDst d, .scalarSrc a]
  | .frnd d a _ => [.scalarDst d, .scalarSrc a]
  | .br _ => []
  | .bcc _ _ => []
  | .bmz _ _ => []
  | .bmnz _ _ => []
  | .call _ => []
  | .callr d a => [.scalarDst d, .scalarSrc a]
  | .ret a => [.scalarSrc a]
  | .jmpr a => [.scalarSrc a]
  | .loop a _ _ => [.scalarSrc a]
  | .loopi _ _ _ => []
  | .lbrk _ => []
  | .yield => []
  | .waitc a b => [.scalarSrc a, .scalarSrc b]
  | .watch a b => [.scalarSrc a, .scalarSrc b]
  | .exit => []
  | .nop => []
  | .trapi _ => []
  | .mset _ => []
  | .msetr a => [.scalarSrc a]
  | .mget d => [.scalarDst d]
  | .mpush d a => [.maskDst d, .maskSrc a]
  | .melse d a => [.maskDst d, .maskSrc a]
  | .mpop => []
  | .mand d a b => [.maskDst d, .maskSrc a, .maskSrc b]
  | .mor d a b => [.maskDst d, .maskSrc a, .maskSrc b]
  | .mxor d a b => [.maskDst d, .maskSrc a, .maskSrc b]
  | .mandn d a b => [.maskDst d, .maskSrc a, .maskSrc b]
  | .mnot d a => [.maskDst d, .maskSrc a]
  | .mmov d a => [.maskDst d, .maskSrc a]
  | .mcnt d a => [.scalarDst d, .maskSrc a]
  | .mffs d a => [.scalarDst d, .maskSrc a]
  | .mtos d a b => [.scalarDst d, .maskSrc a, .scalarSrc b]
  | .mfrs d a b => [.maskDst d, .scalarSrc a, .scalarSrc b]
  | .mlen d a => [.maskDst d, .scalarSrc a]
  | .mall d a => [.scalarDst d, .maskSrc a]
  | .vadd d a b _ => [.vectorDst d, .vectorSrc a, .vectorSrc b]
  | .vsub d a b _ => [.vectorDst d, .vectorSrc a, .vectorSrc b]
  | .vmul d a b _ => [.vectorDst d, .vectorSrc a, .vectorSrc b]
  | .vfma d a b _ => [.vectorDst d, .vectorSrc a, .vectorSrc b]
  | .vfms d a b _ => [.vectorDst d, .vectorSrc a, .vectorSrc b]
  | .vmin d a b _ => [.vectorDst d, .vectorSrc a, .vectorSrc b]
  | .vmax d a b _ => [.vectorDst d, .vectorSrc a, .vectorSrc b]
  | .vabs d a _ => [.vectorDst d, .vectorSrc a]
  | .vneg d a _ => [.vectorDst d, .vectorSrc a]
  | .vand d a b _ => [.vectorDst d, .vectorSrc a, .vectorSrc b]
  | .vor d a b _ => [.vectorDst d, .vectorSrc a, .vectorSrc b]
  | .vxor d a b _ => [.vectorDst d, .vectorSrc a, .vectorSrc b]
  | .vnot d a _ => [.vectorDst d, .vectorSrc a]
  | .vshl d a b _ => [.vectorDst d, .vectorSrc a, .vectorSrc b]
  | .vshr d a b _ => [.vectorDst d, .vectorSrc a, .vectorSrc b]
  | .vsra d a b _ => [.vectorDst d, .vectorSrc a, .vectorSrc b]
  | .vcmpeq d a b => [.maskDst d, .vectorSrc a, .vectorSrc b]
  | .vcmpne d a b => [.maskDst d, .vectorSrc a, .vectorSrc b]
  | .vcmplt d a b => [.maskDst d, .vectorSrc a, .vectorSrc b]
  | .vcmple d a b => [.maskDst d, .vectorSrc a, .vectorSrc b]
  | .vsel d a b _ => [.vectorDst d, .vectorSrc a, .vectorSrc b]
  | .vmov d a _ => [.vectorDst d, .vectorSrc a]
  | .vbcast d a b _ => [.vectorDst d, .scalarSrc a, .scalarSrc b]
  | .vidx d a b _ => [.vectorDst d, .scalarSrc a, .scalarSrc b]
  | .vclamp d a b _ => [.vectorDst d, .vectorSrc a, .vectorSrc b]
  | .vmulp d a b _ => [.vectorDst d, .vectorSrc a, .vectorSrc b]
  | .vdotp d a b _ => [.vectorDst d, .vectorSrc a, .vectorSrc b]
  | .vcvt d a _ _ => [.vectorDst d, .vectorSrc a]
  | .vpack d a b _ => [.vectorDst d, .vectorSrc a, .vectorSrc b]
  | .vunpk d a _ _ => [.vectorDst d, .vectorSrc a]
  | .vrcp d a _ => [.vectorDst d, .vectorSrc a]
  | .vrsq d a _ => [.vectorDst d, .vectorSrc a]
  | .vsqrt d a _ => [.vectorDst d, .vectorSrc a]
  | .vdiv d a b _ => [.vectorDst d, .vectorSrc a, .vectorSrc b]
  | .vexp2 d a _ => [.vectorDst d, .vectorSrc a]
  | .vlog2 d a _ => [.vectorDst d, .vectorSrc a]
  | .vsin d a _ => [.vectorDst d, .vectorSrc a]
  | .vcos d a _ => [.vectorDst d, .vectorSrc a]
  | .vtanh d a _ => [.vectorDst d, .vectorSrc a]
  | .vfloor d a _ => [.vectorDst d, .vectorSrc a]
  | .vfrac d a _ => [.vectorDst d, .vectorSrc a]
  | .vcompact d a _ => [.vectorDst d, .vectorSrc a]
  | .vexpand d a _ => [.vectorDst d, .vectorSrc a]
  | .vshfl d a b _ => [.vectorDst d, .vectorSrc a, .vectorSrc b]
  | .vrotl d a b _ => [.vectorDst d, .vectorSrc a, .scalarSrc b]
  | .vextr d a b => [.scalarDst d, .vectorSrc a, .scalarSrc b]
  | .vins d a b _ => [.vectorDst d, .scalarSrc a, .scalarSrc b]
  | .rcoal d a _ => [.vectorDst d, .vectorSrc a]
  | .rcnt d a => [.scalarDst d, .vectorSrc a]
  | .rallot d _ => [.scalarDst d]
  | .rpool d a => [.scalarDst d, .scalarSrc a]
  | .rsave d a b => [.scalarDst d, .vectorSrc a, .scalarSrc b]
  | .rload d a _ => [.vectorDst d, .scalarSrc a]
  | .vredadd d a => [.scalarDst d, .vectorSrc a]
  | .vredmin d a => [.scalarDst d, .vectorSrc a]
  | .vredmax d a => [.scalarDst d, .vectorSrc a]
  | .vredand d a => [.scalarDst d, .vectorSrc a]
  | .vredor d a => [.scalarDst d, .vectorSrc a]
  | .vscan d a _ => [.vectorDst d, .vectorSrc a]
  | .vrng d a _ => [.vectorDst d, .vectorSrc a]
  | .rngseed a b => [.scalarSrc a, .scalarSrc b]
  | .rngget d _ => [.scalarDst d]
  | .ld d a b _ => [.scalarDst d, .scalarSrc a, .scalarSrc b]
  | .ldx d a _ _ => [.scalarDst d, .scalarSrc a]
  | .st d a b _ => [.scalarSrc d, .scalarSrc a, .scalarSrc b]
  | .lda d a b _ => [.scalarDst d, .scalarSrc a, .scalarSrc b]
  | .stl d a _ _ => [.scalarSrc d, .scalarSrc a]
  | .atadd d a b _ => [.scalarDst d, .scalarSrc a, .scalarSrc b]
  | .atmin d a b _ => [.scalarDst d, .scalarSrc a, .scalarSrc b]
  | .atmax d a b _ => [.scalarDst d, .scalarSrc a, .scalarSrc b]
  | .atminn d a b _ => [.scalarDst d, .scalarSrc a, .scalarSrc b]
  | .atmaxn d a b _ => [.scalarDst d, .scalarSrc a, .scalarSrc b]
  | .atand d a b _ => [.scalarDst d, .scalarSrc a, .scalarSrc b]
  | .ator d a b _ => [.scalarDst d, .scalarSrc a, .scalarSrc b]
  | .atxor d a b _ => [.scalarDst d, .scalarSrc a, .scalarSrc b]
  | .atxch d a b _ => [.scalarDst d, .scalarSrc a, .scalarSrc b]
  | .atcas d a b _ => [.scalarDst d, .scalarSrc a, .scalarSrc b]
  | .fence _ => []
  | .linv a b => [.scalarSrc a, .scalarSrc b]
  | .vld d a b _ => [.vectorDst d, .scalarSrc a, .maskSrc b]
  | .vlds d a b _ => [.vectorDst d, .limited a 62, .maskSrc b]
  | .vst d a b => [.vectorSrc d, .scalarSrc a, .maskSrc b]
  | .vsts d a b => [.vectorSrc d, .limited a 62, .maskSrc b]
  | .vldb d a b _ => [.vectorDst d, .scalarSrc a, .maskSrc b]
  | .preq d a b => [.scalarSrc d, .scalarSrc a, .scalarSrc b]
  | .sld d a b => [.scalarDst d, .scalarSrc a, .scalarSrc b]
  | .sst d a b => [.scalarSrc d, .scalarSrc a, .scalarSrc b]
  | .sgath d a b _ => [.vectorDst d, .vectorSrc a, .scalarSrc b]
  | .sscat d a b => [.vectorSrc d, .vectorSrc a, .scalarSrc b]
  | .sldt d a b _ => [.vectorDst d, .scalarSrc a, .scalarSrc b]
  | .sldc d a _ => [.vectorDst d, .scalarSrc a]
  | .sstc d a b => [.scalarDst d, .vectorSrc a, .scalarSrc b]
  | .clds d a b => [.scalarDst d, .scalarSrc a, .scalarSrc b]
  | .csts d a b => [.scalarSrc d, .scalarSrc a, .scalarSrc b]
  | .upd d a b => [.vectorSrc d, .scalarSrc a, .vectorSrc b]
  | .upds d a => [.vectorSrc d, .scalarSrc a]
  | .uflush a b => [.scalarSrc a, .scalarSrc b]
  | .tdec a => [.scalarSrc a]
  | .tinc a => [.scalarSrc a]
  | .tspawn a => [.scalarSrc a]
  | .cset a b => [.scalarSrc a, .scalarSrc b]
  | .cadd a b => [.scalarSrc a, .scalarSrc b]
  | .cget d a => [.scalarDst d, .scalarSrc a]
  | .cbar d a b => [.scalarDst d, .scalarSrc a, .scalarSrc b]
  | .dsmop d a b => [.vectorSrc d, .scalarSrc a, .scalarSrc b]
  | .dsmred d a b => [.scalarDst d, .scalarSrc a, .scalarSrc b]
  | .cpy d a b => [.scalarSrc d, .scalarSrc a, .offsetPair b]
  | .cpyg d a b => [.scalarSrc d, .scalarSrc a, .offsetPair b]
  | .cpyx d a b => [.scalarSrc d, .scalarSrc a, .offsetPair b]
  | .cpyq d a b => [.scalarSrc d, .scalarSrc a, .offsetPair b]
  | .cpyt d a b => [.scalarSrc d, .scalarSrc a, .offsetPair b]
  | .discard d a b => [.scalarSrc d, .scalarSrc a, .offsetPair b]
  | .prefetch d a b => [.scalarSrc d, .scalarSrc a, .offsetPair b]
  | .cpya d a b => [.scalarSrc d, .scalarSrc a, .offsetPair b]
  | .cwalk d a b => [.scalarSrc d, .scalarSrc a, .offsetPair b]
  | .mcfg d a b => [.scalarDst d, .scalarSrc a, .scalarSrc b]
  | .mzero d a => [.tile d, .scalarSrc a]
  | .mma d a => [.tile d, .limited a 60]
  | .mmag d a b => [.tile d, .limited a 60, .vectorSrc b]
  | .mmas d a b => [.tile d, .limited a 60, .scalarDst b]
  | .mmad d a => [.tile d, .limited a 60]
  | .mlda d a => [.tile d, .limited a 60]
  | .msta d a => [.tile d, .limited a 60]
  | .mtov d a b _ => [.vectorDst d, .tile a, .scalarSrc b]
  | .malloc d a => [.scalarDst d, .scalarSrc a]
  | .xhad d a b _ => [.vectorDst d, .vectorSrc a, .scalarSrc b]
  | .xqnt d a b _ => [.vectorDst d, .vectorSrc a, .scalarSrc b, .vectorImplied (d.toNat + 1)]
  | .xact d a _ => [.vectorDst d, .vectorSrc a]
  | .xtld a _ => [.scalarSrc a]
  | .xtbind _ => []
  | .xtopk d a b _ => [.vectorDst d, .vectorSrc a, .scalarSrc b]
  | .xtrn d a b _ => [.vectorDst d, .vectorSrc a, .scalarSrc b]
  | .xsort d a b _ => [.vectorDst d, .vectorSrc a, .scalarSrc b, .vectorImplied (d.toNat + 1)]
  | .trace d a => [.scalarDst d, .scalarSrc a]
  | .spawn d a b => [.scalarDst d, .limited a 64, .scalarSrc b]
  | .retire d a => [.retireBase d, .scalarSrc a] ++
      (if d.toNat = 96 then [] else [.vectorImplied (d.toNat + 1), .vectorImplied (d.toNat + 2)])
  | .defer d a => [.scalarDst d, .scalarSrc a]
  | .epend => []
  | .poolq d _ => [.scalarDst d]
  | .csrr d _ => [.scalarDst d]
  | .csrw d _ => [.scalarSrc d]
  | .eret => []
  | .tlbinv a b => [.scalarSrc a, .scalarSrc b]
  | .halt a => [.scalarSrc a]
  | .monr d a b => [.scalarDst d, .scalarSrc a, .scalarSrc b]
  | .mark _ => []
  | .bkpt _ => []
  | .recordIntervalClose => []
  | .queueDoorbell => []
  | .completionDoorbell => []
  | .registerWrite => []
  | .ctxinstall => []
  | .ctxreset => []
  | .ctxremove => []
  | .csrread => []
  | .csrwrite => []
  | .errring => []
  | .peerto => []
  | .attest => []
  | .cert => []
  | .fwload => []
  | .monread => []
  | .setthr => []
  | .replay => []
  | .slicecfgWrite => []
  | .slicecfgApply => []
  | .stitchWrite => []
  | .stitchApply => []
  | .soruscfgWrite => []
  | .sceneWrite => []
  | .poolrsvWrite => []
  | .migrationStart => []
  | .migrationCopy => []
  | .migrationFinish => []
  | .powerOn => []
  | .d3hotEntry => []
  | .coreClockGate => []
  | .corePowerGate => []
  | .coreWake => []
  | .taskReady => []
  | .depcntUpdate => []
  | .queueConsume => []
  | .queueIdleRecheck => []
  | .placementAttempt => []
  | .teamExited => []
  | .successorDecrement => []
  | .preemptForCandidate => []
  | .teamPreempted => []
  | .donationStart => []
  | .donationEnd => []
  | .stealRequest => []
  | .stealClaim => []
  | .stealReply => []
  | .derateSample => []
  | .thermalTrip => []
  | .teamWake => []
  | .clockLoop => []
  | .gddr7Equalisation => []
  | .waveAgeLoop => []
  | .prefetchThresholdLoop => []
  | .monitorSample => []
  | .homeRead => []
  | .loadReply => []
  | .homeStore => []
  | .storeAck => []
  | .homeAtomic => []
  | .writeLeaseGrant => []
  | .leaseRecall => []
  | .writeLeaseExpiry => []
  | .pairInject => []
  | .homeAcceptPair => []
  | .binApply => []
  | .dsmElementOp => []
  | .cbarArrival => []
  | .hostRead => []
  | .hostWrite => []
  | .fabricWriteArrival => []
  | .shootdown => []
  | .multicastDeliver => []
  | .copyStart => []
  | .copyComplete => []
  | .matrixOpStart => []
  | .matrixStep => []
  | .matrixComplete => []
  | .transformStart => []
  | .transformComplete => []
  | .noiseWord => []
  | .poolGrant => []
  | .rayEntersBin => []
  | .traversalBinAge => []
  | .shaderBinAge => []
  | .traversalStep => []
  | .treeletLineArrival => []
  | .traversalResult => []
  | .doneDecrement => []
  | .poolPressure => []
  | .inboundPeerAccess => []
  | .peerReply => []
  | .peerTimeout => []
  | .reservationTimeout => []
  | .meshLinkFail => []
  | .timeCheck => []
  | .clockCheck => []
  | .pairLinkRestore => []
  | .pairLinkRestoreTimeout => []
  | .ptpSync => []
  | .scaleoutPortDown => []
  | .replayDivergence => []
  | .illegalInstr _ => []
  | .instructionFetchFault => []
  | .deviceReset => []
  | .d3hotExit => []
  | .serdesAdaptation => []
  | .sharedCacheWriteBack => []
  | .cxlLinkTraining => []

/-- The first of checks 3 to 5 of Table 4.6 that the instruction's fields fail, if any. -/
def Instr.illegalCause (i : Instr) : Option Nat :=
  if i.codeReserved then some 3
  else if i.operands.any Operand.reserved then some 4
  else if i.operands.any Operand.readOnly then some 5
  else none

/-- A well-formed instruction passes checks 3 to 5 of Table 4.6. -/
def Instr.wellFormed (i : Instr) : Bool := i.illegalCause == none

/-- The vector registers that check 6 of Table 4.6 holds against the allotment, in order. -/
def Instr.vectorNumbers (i : Instr) : List Nat := i.operands.filterMap Operand.vectorNumber

/-- R366: the privileged instructions (check 2 of Table 4.6). -/
def Instr.privileged : Instr → Bool
  | .eret | .tlbinv _ _ | .halt _ => true
  | _ => false

/-- Whether the opcode of a word is that of a privileged instruction (R366): ERET, TLBINV or
HALT. -/
def privilegedWord (w : W32) : Bool :=
  let op := w.extractLsb' 23 9
  op == 0x1E2#9 || op == 0x1E3#9 || op == 0x1E4#9

end Sys2Proof
end

