-- ==== Sys2Proof/Decode.lean ====
section
/-! DEFINITION. Reading instruction words (spec/04 R79 to R88), and after it the encoder, written
from the same tables (Tables 4.1, 4.5). Decoding is total: it answers an instruction or a
rejection by name. -/

namespace Sys2Proof

/-- Why a word is no instruction (R87, R88). -/
inductive Reject where
  /-- a reserved bit of the word is set (check 3) -/
  | reservedBit
  /-- a field of the word fails check 3, 4 or 5, whose number this is -/
  | illFormed (check : Nat)
  /-- fewer bytes than the instruction has (R79) -/
  | truncated
  deriving DecidableEq, Repr

/-- Bits `lo + n - 1` down to `lo` of a word (R7). -/
def fieldAt (lo n : Nat) (w : W32) : BitVec n := w.extractLsb' lo n

/-- The word of opcode `op` with the fields of layout DABq (Table 4.1); every other bit is zero. -/
def encDABq (op : BitVec 9) (x0 : BitVec 7) (x1 : BitVec 7) (x2 : BitVec 7) (x3 : BitVec 1) : W32 :=
  op ++ x0 ++ x1 ++ x2 ++ 0#1 ++ x3

/-- The fields of layout DABq, when every reserved bit of the word is zero (R5, R88 check 3). -/
def decDABq (w : W32) (k : BitVec 7 → BitVec 7 → BitVec 7 → BitVec 1 → Instr) : Except Reject Instr :=
  if fieldAt 1 1 w == 0#1 then .ok (k (fieldAt 16 7 w) (fieldAt 9 7 w) (fieldAt 2 7 w) (fieldAt 0 1 w)) else .error .reservedBit

/-- The word of opcode `op` with the fields of layout ABq (Table 4.1); every other bit is zero. -/
def encABq (op : BitVec 9) (x0 : BitVec 7) (x1 : BitVec 7) (x2 : BitVec 1) : W32 :=
  op ++ 0#7 ++ x0 ++ x1 ++ 0#1 ++ x2

/-- The fields of layout ABq, when every reserved bit of the word is zero (R5, R88 check 3). -/
def decABq (w : W32) (k : BitVec 7 → BitVec 7 → BitVec 1 → Instr) : Except Reject Instr :=
  if fieldAt 16 7 w == 0#7 && fieldAt 1 1 w == 0#1 then .ok (k (fieldAt 9 7 w) (fieldAt 2 7 w) (fieldAt 0 1 w)) else .error .reservedBit

/-- The word of opcode `op` with the fields of layout DAq (Table 4.1); every other bit is zero. -/
def encDAq (op : BitVec 9) (x0 : BitVec 7) (x1 : BitVec 7) (x2 : BitVec 1) : W32 :=
  op ++ x0 ++ x1 ++ 0#8 ++ x2

/-- The fields of layout DAq, when every reserved bit of the word is zero (R5, R88 check 3). -/
def decDAq (w : W32) (k : BitVec 7 → BitVec 7 → BitVec 1 → Instr) : Except Reject Instr :=
  if fieldAt 1 8 w == 0#8 then .ok (k (fieldAt 16 7 w) (fieldAt 9 7 w) (fieldAt 0 1 w)) else .error .reservedBit

/-- The word of opcode `op` with the fields of layout DAI9 (Table 4.1); every other bit is zero. -/
def encDAI9 (op : BitVec 9) (x0 : BitVec 7) (x1 : BitVec 7) (x2 : BitVec 9) : W32 :=
  op ++ x0 ++ x1 ++ x2

/-- The fields of layout DAI9, when every reserved bit of the word is zero (R5, R88 check 3). -/
def decDAI9 (w : W32) (k : BitVec 7 → BitVec 7 → BitVec 9 → Instr) : Except Reject Instr :=
  .ok (k (fieldAt 16 7 w) (fieldAt 9 7 w) (fieldAt 0 9 w))

/-- The word of opcode `op` with the fields of layout DAI6 (Table 4.1); every other bit is zero. -/
def encDAI6 (op : BitVec 9) (x0 : BitVec 7) (x1 : BitVec 7) (x2 : BitVec 6) : W32 :=
  op ++ x0 ++ x1 ++ 0#3 ++ x2

/-- The fields of layout DAI6, when every reserved bit of the word is zero (R5, R88 check 3). -/
def decDAI6 (w : W32) (k : BitVec 7 → BitVec 7 → BitVec 6 → Instr) : Except Reject Instr :=
  if fieldAt 6 3 w == 0#3 then .ok (k (fieldAt 16 7 w) (fieldAt 9 7 w) (fieldAt 0 6 w)) else .error .reservedBit

/-- The word of opcode `op` with the fields of layout AI9 (Table 4.1); every other bit is zero. -/
def encAI9 (op : BitVec 9) (x0 : BitVec 7) (x1 : BitVec 9) : W32 :=
  op ++ 0#7 ++ x0 ++ x1

/-- The fields of layout AI9, when every reserved bit of the word is zero (R5, R88 check 3). -/
def decAI9 (w : W32) (k : BitVec 7 → BitVec 9 → Instr) : Except Reject Instr :=
  if fieldAt 16 7 w == 0#7 then .ok (k (fieldAt 9 7 w) (fieldAt 0 9 w)) else .error .reservedBit

/-- The word of opcode `op` with the fields of layout DI16 (Table 4.1); every other bit is zero. -/
def encDI16 (op : BitVec 9) (x0 : BitVec 7) (x1 : BitVec 16) : W32 :=
  op ++ x0 ++ x1

/-- The fields of layout DI16, when every reserved bit of the word is zero (R5, R88 check 3). -/
def decDI16 (w : W32) (k : BitVec 7 → BitVec 16 → Instr) : Except Reject Instr :=
  .ok (k (fieldAt 16 7 w) (fieldAt 0 16 w))

/-- The word of opcode `op` with the fields of layout D (Table 4.1); every other bit is zero. -/
def encD (op : BitVec 9) (x0 : BitVec 7) : W32 :=
  op ++ x0 ++ 0#16

/-- The fields of layout D, when every reserved bit of the word is zero (R5, R88 check 3). -/
def decD (w : W32) (k : BitVec 7 → Instr) : Except Reject Instr :=
  if fieldAt 0 16 w == 0#16 then .ok (k (fieldAt 16 7 w)) else .error .reservedBit

/-- The word of opcode `op` with the fields of layout DABQ (Table 4.1); every other bit is zero. -/
def encDABQ (op : BitVec 9) (x0 : BitVec 7) (x1 : BitVec 7) (x2 : BitVec 7) (x3 : BitVec 2) : W32 :=
  op ++ x0 ++ x1 ++ x2 ++ x3

/-- The fields of layout DABQ, when every reserved bit of the word is zero (R5, R88 check 3). -/
def decDABQ (w : W32) (k : BitVec 7 → BitVec 7 → BitVec 7 → BitVec 2 → Instr) : Except Reject Instr :=
  .ok (k (fieldAt 16 7 w) (fieldAt 9 7 w) (fieldAt 2 7 w) (fieldAt 0 2 w))

/-- The word of opcode `op` with the fields of layout DA (Table 4.1); every other bit is zero. -/
def encDA (op : BitVec 9) (x0 : BitVec 7) (x1 : BitVec 7) : W32 :=
  op ++ x0 ++ x1 ++ 0#9

/-- The fields of layout DA, when every reserved bit of the word is zero (R5, R88 check 3). -/
def decDA (w : W32) (k : BitVec 7 → BitVec 7 → Instr) : Except Reject Instr :=
  if fieldAt 0 9 w == 0#9 then .ok (k (fieldAt 16 7 w) (fieldAt 9 7 w)) else .error .reservedBit

/-- The word of opcode `op` with the fields of layout O (Table 4.1); every other bit is zero. -/
def encO (op : BitVec 9) (x0 : BitVec 19) : W32 :=
  op ++ 0#4 ++ x0

/-- The fields of layout O, when every reserved bit of the word is zero (R5, R88 check 3). -/
def decO (w : W32) (k : BitVec 19 → Instr) : Except Reject Instr :=
  if fieldAt 19 4 w == 0#4 then .ok (k (fieldAt 0 19 w)) else .error .reservedBit

/-- The word of opcode `op` with the fields of layout CO (Table 4.1); every other bit is zero. -/
def encCO (op : BitVec 9) (x0 : BitVec 4) (x1 : BitVec 19) : W32 :=
  op ++ x0 ++ x1

/-- The fields of layout CO, when every reserved bit of the word is zero (R5, R88 check 3). -/
def decCO (w : W32) (k : BitVec 4 → BitVec 19 → Instr) : Except Reject Instr :=
  .ok (k (fieldAt 19 4 w) (fieldAt 0 19 w))

/-- The word of opcode `op` with the fields of layout A (Table 4.1); every other bit is zero. -/
def encA (op : BitVec 9) (x0 : BitVec 7) : W32 :=
  op ++ 0#7 ++ x0 ++ 0#9

/-- The fields of layout A, when every reserved bit of the word is zero (R5, R88 check 3). -/
def decA (w : W32) (k : BitVec 7 → Instr) : Except Reject Instr :=
  if fieldAt 16 7 w == 0#7 && fieldAt 0 9 w == 0#9 then .ok (k (fieldAt 9 7 w)) else .error .reservedBit

/-- The word of opcode `op` with the fields of layout L (Table 4.1); every other bit is zero. -/
def encL (op : BitVec 9) (x0 : BitVec 7) (x1 : BitVec 8) (x2 : BitVec 2) : W32 :=
  op ++ x0 ++ x1 ++ x2 ++ 0#6

/-- The fields of layout L, when every reserved bit of the word is zero (R5, R88 check 3). -/
def decL (w : W32) (k : BitVec 7 → BitVec 8 → BitVec 2 → Instr) : Except Reject Instr :=
  if fieldAt 0 6 w == 0#6 then .ok (k (fieldAt 16 7 w) (fieldAt 8 8 w) (fieldAt 6 2 w)) else .error .reservedBit

/-- The word of opcode `op` with the fields of layout N (Table 4.1); every other bit is zero. -/
def encN (op : BitVec 9)  : W32 :=
  op ++ 0#23

/-- The fields of layout N, when every reserved bit of the word is zero (R5, R88 check 3). -/
def decN (w : W32) (k : Instr) : Except Reject Instr :=
  if fieldAt 0 23 w == 0#23 then .ok (k) else .error .reservedBit

/-- The word of opcode `op` with the fields of layout AB (Table 4.1); every other bit is zero. -/
def encAB (op : BitVec 9) (x0 : BitVec 7) (x1 : BitVec 7) : W32 :=
  op ++ 0#7 ++ x0 ++ x1 ++ 0#2

/-- The fields of layout AB, when every reserved bit of the word is zero (R5, R88 check 3). -/
def decAB (w : W32) (k : BitVec 7 → BitVec 7 → Instr) : Except Reject Instr :=
  if fieldAt 16 7 w == 0#7 && fieldAt 0 2 w == 0#2 then .ok (k (fieldAt 9 7 w) (fieldAt 2 7 w)) else .error .reservedBit

/-- The word of opcode `op` with the fields of layout I16 (Table 4.1); every other bit is zero. -/
def encI16 (op : BitVec 9) (x0 : BitVec 16) : W32 :=
  op ++ 0#7 ++ x0

/-- The fields of layout I16, when every reserved bit of the word is zero (R5, R88 check 3). -/
def decI16 (w : W32) (k : BitVec 16 → Instr) : Except Reject Instr :=
  if fieldAt 16 7 w == 0#7 then .ok (k (fieldAt 0 16 w)) else .error .reservedBit

/-- The word of opcode `op` with the fields of layout DAB (Table 4.1); every other bit is zero. -/
def encDAB (op : BitVec 9) (x0 : BitVec 7) (x1 : BitVec 7) (x2 : BitVec 7) : W32 :=
  op ++ x0 ++ x1 ++ x2 ++ 0#2

/-- The fields of layout DAB, when every reserved bit of the word is zero (R5, R88 check 3). -/
def decDAB (w : W32) (k : BitVec 7 → BitVec 7 → BitVec 7 → Instr) : Except Reject Instr :=
  if fieldAt 0 2 w == 0#2 then .ok (k (fieldAt 16 7 w) (fieldAt 9 7 w) (fieldAt 2 7 w)) else .error .reservedBit

/-- The word of opcode `op` with the fields of layout DATq (Table 4.1); every other bit is zero. -/
def encDATq (op : BitVec 9) (x0 : BitVec 7) (x1 : BitVec 7) (x2 : BitVec 5) (x3 : BitVec 1) : W32 :=
  op ++ x0 ++ x1 ++ 0#2 ++ x2 ++ 0#1 ++ x3

/-- The fields of layout DATq, when every reserved bit of the word is zero (R5, R88 check 3). -/
def decDATq (w : W32) (k : BitVec 7 → BitVec 7 → BitVec 5 → BitVec 1 → Instr) : Except Reject Instr :=
  if fieldAt 7 2 w == 0#2 && fieldAt 1 1 w == 0#1 then .ok (k (fieldAt 16 7 w) (fieldAt 9 7 w) (fieldAt 2 5 w) (fieldAt 0 1 w)) else .error .reservedBit

/-- The word of opcode `op` with the fields of layout DAHq (Table 4.1); every other bit is zero. -/
def encDAHq (op : BitVec 9) (x0 : BitVec 7) (x1 : BitVec 7) (x2 : BitVec 1) (x3 : BitVec 1) : W32 :=
  op ++ x0 ++ x1 ++ 0#6 ++ x2 ++ 0#1 ++ x3

/-- The fields of layout DAHq, when every reserved bit of the word is zero (R5, R88 check 3). -/
def decDAHq (w : W32) (k : BitVec 7 → BitVec 7 → BitVec 1 → BitVec 1 → Instr) : Except Reject Instr :=
  if fieldAt 3 6 w == 0#6 && fieldAt 1 1 w == 0#1 then .ok (k (fieldAt 16 7 w) (fieldAt 9 7 w) (fieldAt 2 1 w) (fieldAt 0 1 w)) else .error .reservedBit

/-- The word of opcode `op` with the fields of layout DN9 (Table 4.1); every other bit is zero. -/
def encDN9 (op : BitVec 9) (x0 : BitVec 7) (x1 : BitVec 9) : W32 :=
  op ++ x0 ++ 0#7 ++ x1

/-- The fields of layout DN9, when every reserved bit of the word is zero (R5, R88 check 3). -/
def decDN9 (w : W32) (k : BitVec 7 → BitVec 9 → Instr) : Except Reject Instr :=
  if fieldAt 9 7 w == 0#7 then .ok (k (fieldAt 16 7 w) (fieldAt 0 9 w)) else .error .reservedBit

/-- The word of opcode `op` with the fields of layout DAQ (Table 4.1); every other bit is zero. -/
def encDAQ (op : BitVec 9) (x0 : BitVec 7) (x1 : BitVec 7) (x2 : BitVec 2) : W32 :=
  op ++ x0 ++ x1 ++ 0#7 ++ x2

/-- The fields of layout DAQ, when every reserved bit of the word is zero (R5, R88 check 3). -/
def decDAQ (w : W32) (k : BitVec 7 → BitVec 7 → BitVec 2 → Instr) : Except Reject Instr :=
  if fieldAt 2 7 w == 0#7 then .ok (k (fieldAt 16 7 w) (fieldAt 9 7 w) (fieldAt 0 2 w)) else .error .reservedBit

/-- The word of opcode `op` with the fields of layout B (Table 4.1); every other bit is zero. -/
def encB (op : BitVec 9) (x0 : BitVec 7) : W32 :=
  op ++ 0#14 ++ x0 ++ 0#2

/-- The fields of layout B, when every reserved bit of the word is zero (R5, R88 check 3). -/
def decB (w : W32) (k : BitVec 7 → Instr) : Except Reject Instr :=
  if fieldAt 9 14 w == 0#14 && fieldAt 0 2 w == 0#2 then .ok (k (fieldAt 2 7 w)) else .error .reservedBit

/-- Row 0x0 of the opcode map (Table 4.5): the instruction of column `col` of word `w`. A column that the row does not assign is illegal (R87). -/
def decodeRow0 (col : Nat) (w : W32) : Except Reject Instr :=
  match col with
  | 0 => decDABq w .add
  | 1 => decDABq w .sub
  | 2 => decDABq w .mul
  | 3 => decDABq w .mulh
  | 4 => decDABq w .mulhn
  | 5 => decDABq w .div
  | 6 => decDABq w .divn
  | 7 => decDABq w .rem
  | 8 => decDABq w .remn
  | 9 => decDABq w .and
  | 10 => decDABq w .or
  | 11 => decDABq w .xor
  | 12 => decDABq w .andn
  | 13 => decDABq w .shl
  | 14 => decDABq w .shr
  | 15 => decDABq w .sra
  | 16 => decDABq w .rotl
  | 17 => decDABq w .min
  | 18 => decDABq w .max
  | 19 => decDABq w .minn
  | 20 => decDABq w .maxn
  | 21 => decABq w .cmp
  | 22 => decABq w .cmpn
  | 23 => decDABq w .sel
  | 24 => decDAq w .clz
  | 25 => decDAq w .ctz
  | 26 => decDAq w .popc
  | 27 => decDAq w .brev
  | 28 => decDABq w .bfx
  | 29 => decDABq w .bfi
  | 30 => decDAq w .mov
  | _ => .ok (.illegalInstr w)

/-- Row 0x1 of the opcode map (Table 4.5): the instruction of column `col` of word `w` with literal `lit`. A column that the row does not assign is illegal (R87). -/
def decodeRow1 (col : Nat) (w lit : W32) : Except Reject Instr :=
  match col with
  | 0 => decDAI9 w .addi
  | 1 => decDAI9 w .andi
  | 2 => decDAI9 w .ori
  | 3 => decDAI9 w .xori
  | 4 => decDAI6 w .shli
  | 5 => decDAI6 w .shri
  | 6 => decDAI6 w .srai
  | 7 => decAI9 w .cmpi
  | 8 => decAI9 w .cmpni
  | 9 => decDI16 w .movi
  | 10 => decDI16 w .movhi
  | 11 => decDI16 w .movxi
  | 12 => decDI16 w .movti
  | 13 => decD w (fun x0 => .ldlit x0 lit)
  | 14 => decDABQ w .lea
  | 15 => decDA w .gets
  | _ => .ok (.illegalInstr w)

/-- Row 0x2 of the opcode map (Table 4.5): the instruction of column `col` of word `w`. A column that the row does not assign is illegal (R87). -/
def decodeRow2 (col : Nat) (w : W32) : Except Reject Instr :=
  match col with
  | 0 => decDABq w .fadd
  | 1 => decDABq w .fsub
  | 2 => decDABq w .fmul
  | 3 => decDABq w .ffma
  | 4 => decDABq w .fdiv
  | 5 => decDAq w .fsqrt
  | 6 => decDABq w .fmin
  | 7 => decDABq w .fmax
  | 8 => decDAq w .fabs
  | 9 => decDAq w .fneg
  | 10 => decABq w .fcmp
  | 11 => decDAq w .fcvt
  | 12 => decDAq w .ftoi
  | 13 => decDAq w .itof
  | 14 => decDAq w .fclass
  | 15 => decDAq w .frnd
  | _ => .ok (.illegalInstr w)

/-- Row 0x3 of the opcode map (Table 4.5): the instruction of column `col` of word `w`. A column that the row does not assign is illegal (R87). -/
def decodeRow3 (col : Nat) (w : W32) : Except Reject Instr :=
  match col with
  | 0 => decO w .br
  | 1 => decCO w .bcc
  | 2 => decCO w .bmz
  | 3 => decCO w .bmnz
  | 4 => decO w .call
  | 5 => decDA w .callr
  | 6 => decA w .ret
  | 7 => decA w .jmpr
  | 8 => decL w .loop
  | 9 => decL w .loopi
  | 10 => decD w .lbrk
  | 11 => decN w .yield
  | 12 => decAB w .waitc
  | 13 => decAB w .watch
  | 14 => decN w .exit
  | 15 => decN w .nop
  | 16 => decI16 w .trapi
  | _ => .ok (.illegalInstr w)

/-- Row 0x4 of the opcode map (Table 4.5): the instruction of column `col` of word `w`. A column that the row does not assign is illegal (R87). -/
def decodeRow4 (col : Nat) (w : W32) : Except Reject Instr :=
  match col with
  | 0 => decI16 w .mset
  | 1 => decA w .msetr
  | 2 => decD w .mget
  | 3 => decDA w .mpush
  | 4 => decDA w .melse
  | 5 => decN w .mpop
  | 6 => decDAB w .mand
  | 7 => decDAB w .mor
  | 8 => decDAB w .mxor
  | 9 => decDAB w .mandn
  | 10 => decDA w .mnot
  | 11 => decDA w .mmov
  | 12 => decDA w .mcnt
  | 13 => decDA w .mffs
  | 14 => decDAB w .mtos
  | 15 => decDAB w .mfrs
  | 16 => decDA w .mlen
  | 17 => decDA w .mall
  | _ => .ok (.illegalInstr w)

/-- Row 0x5 of the opcode map (Table 4.5): the instruction of column `col` of word `w`. A column that the row does not assign is illegal (R87). -/
def decodeRow5 (col : Nat) (w : W32) : Except Reject Instr :=
  match col with
  | 0 => decDABq w .vadd
  | 1 => decDABq w .vsub
  | 2 => decDABq w .vmul
  | 3 => decDABq w .vfma
  | 4 => decDABq w .vfms
  | 5 => decDABq w .vmin
  | 6 => decDABq w .vmax
  | 7 => decDAq w .vabs
  | 8 => decDAq w .vneg
  | 9 => decDABq w .vand
  | 10 => decDABq w .vor
  | 11 => decDABq w .vxor
  | 12 => decDAq w .vnot
  | 13 => decDABq w .vshl
  | 14 => decDABq w .vshr
  | 15 => decDABq w .vsra
  | 16 => decDAB w .vcmpeq
  | 17 => decDAB w .vcmpne
  | 18 => decDAB w .vcmplt
  | 19 => decDAB w .vcmple
  | 20 => decDABq w .vsel
  | 21 => decDAq w .vmov
  | 22 => decDABq w .vbcast
  | 23 => decDABq w .vidx
  | 24 => decDABq w .vclamp
  | 25 => decDABq w .vmulp
  | 26 => decDABq w .vdotp
  | 27 => decDATq w .vcvt
  | 28 => decDABq w .vpack
  | 29 => decDAHq w .vunpk
  | _ => .ok (.illegalInstr w)

/-- Row 0x6 of the opcode map (Table 4.5): the instruction of column `col` of word `w`. A column that the row does not assign is illegal (R87). -/
def decodeRow6 (col : Nat) (w : W32) : Except Reject Instr :=
  match col with
  | 0 => decDAq w .vrcp
  | 1 => decDAq w .vrsq
  | 2 => decDAq w .vsqrt
  | 3 => decDABq w .vdiv
  | 4 => decDAq w .vexp2
  | 5 => decDAq w .vlog2
  | 6 => decDAq w .vsin
  | 7 => decDAq w .vcos
  | 8 => decDAq w .vtanh
  | 9 => decDAq w .vfloor
  | 10 => decDAq w .vfrac
  | 11 => decDAq w .vcompact
  | 12 => decDAq w .vexpand
  | 13 => decDABq w .vshfl
  | 14 => decDABq w .vrotl
  | 15 => decDAB w .vextr
  | 16 => decDABq w .vins
  | _ => .ok (.illegalInstr w)

/-- Row 0x7 of the opcode map (Table 4.5): the instruction of column `col` of word `w`. A column that the row does not assign is illegal (R87). -/
def decodeRow7 (col : Nat) (w : W32) : Except Reject Instr :=
  match col with
  | 0 => decDAq w .rcoal
  | 1 => decDA w .rcnt
  | 2 => decDN9 w .rallot
  | 3 => decDA w .rpool
  | 4 => decDAB w .rsave
  | 5 => decDAq w .rload
  | 6 => decDA w .vredadd
  | 7 => decDA w .vredmin
  | 8 => decDA w .vredmax
  | 9 => decDA w .vredand
  | 10 => decDA w .vredor
  | 11 => decDAq w .vscan
  | 12 => decDAq w .vrng
  | 13 => decAB w .rngseed
  | 14 => decDA w .rngget
  | _ => .ok (.illegalInstr w)

/-- Row 0x8 of the opcode map (Table 4.5): the instruction of column `col` of word `w` with literal `lit`. A column that the row does not assign is illegal (R87). -/
def decodeRow8 (col : Nat) (w lit : W32) : Except Reject Instr :=
  match col with
  | 0 => decDABQ w .ld
  | 1 => decDAQ w (fun x0 x1 x2 => .ldx x0 x1 x2 lit)
  | 2 => decDABQ w .st
  | 3 => decDABQ w .lda
  | 4 => decDABQ w .stl
  | 5 => decDABq w .atadd
  | 6 => decDABq w .atmin
  | 7 => decDABq w .atmax
  | 8 => decDABq w .atminn
  | 9 => decDABq w .atmaxn
  | 10 => decDABq w .atand
  | 11 => decDABq w .ator
  | 12 => decDABq w .atxor
  | 13 => decDABq w .atxch
  | 14 => decDABq w .atcas
  | 15 => decB w .fence
  | 16 => decAB w .linv
  | _ => .ok (.illegalInstr w)

/-- Row 0x9 of the opcode map (Table 4.5): the instruction of column `col` of word `w`. A column that the row does not assign is illegal (R87). -/
def decodeRow9 (col : Nat) (w : W32) : Except Reject Instr :=
  match col with
  | 0 => decDABq w .vld
  | 1 => decDABq w .vlds
  | 2 => decDAB w .vst
  | 3 => decDAB w .vsts
  | 4 => decDABq w .vldb
  | 5 => decDAB w .preq
  | 6 => decDAB w .sld
  | 7 => decDAB w .sst
  | 8 => decDABq w .sgath
  | 9 => decDAB w .sscat
  | 10 => decDABq w .sldt
  | 11 => decDAq w .sldc
  | 12 => decDAB w .sstc
  | 13 => decDAB w .clds
  | 14 => decDAB w .csts
  | _ => .ok (.illegalInstr w)

/-- Row 0xA of the opcode map (Table 4.5): the instruction of column `col` of word `w`. A column that the row does not assign is illegal (R87). -/
def decodeRowA (col : Nat) (w : W32) : Except Reject Instr :=
  match col with
  | 0 => decDAB w .upd
  | 1 => decDA w .upds
  | 2 => decAB w .uflush
  | 3 => decA w .tdec
  | 4 => decA w .tinc
  | 5 => decA w .tspawn
  | 6 => decAB w .cset
  | 7 => decAB w .cadd
  | 8 => decDA w .cget
  | 9 => decDAB w .cbar
  | 10 => decDAB w .dsmop
  | 11 => decDAB w .dsmred
  | _ => .ok (.illegalInstr w)

/-- Row 0xB of the opcode map (Table 4.5): the instruction of column `col` of word `w`. A column that the row does not assign is illegal (R87). -/
def decodeRowB (col : Nat) (w : W32) : Except Reject Instr :=
  match col with
  | 0 => decDAB w .cpy
  | 1 => decDAB w .cpyg
  | 2 => decDAB w .cpyx
  | 3 => decDAB w .cpyq
  | 4 => decDAB w .cpyt
  | 5 => decDAB w .discard
  | 6 => decDAB w .prefetch
  | 7 => decDAB w .cpya
  | 8 => decDAB w .cwalk
  | _ => .ok (.illegalInstr w)

/-- Row 0xC of the opcode map (Table 4.5): the instruction of column `col` of word `w`. A column that the row does not assign is illegal (R87). -/
def decodeRowC (col : Nat) (w : W32) : Except Reject Instr :=
  match col with
  | 0 => decDAB w .mcfg
  | 1 => decDA w .mzero
  | 2 => decDA w .mma
  | 3 => decDAB w .mmag
  | 4 => decDAB w .mmas
  | 5 => decDA w .mmad
  | 6 => decDA w .mlda
  | 7 => decDA w .msta
  | 8 => decDABq w .mtov
  | 9 => decDA w .malloc
  | _ => .ok (.illegalInstr w)

/-- Row 0xD of the opcode map (Table 4.5): the instruction of column `col` of word `w`. A column that the row does not assign is illegal (R87). -/
def decodeRowD (col : Nat) (w : W32) : Except Reject Instr :=
  match col with
  | 0 => decDABq w .xhad
  | 1 => decDABq w .xqnt
  | 2 => decDAq w .xact
  | 3 => decAB w .xtld
  | 4 => decB w .xtbind
  | 5 => decDABq w .xtopk
  | 6 => decDABq w .xtrn
  | 7 => decDABq w .xsort
  | _ => .ok (.illegalInstr w)

/-- Row 0xE of the opcode map (Table 4.5): the instruction of column `col` of word `w`. A column that the row does not assign is illegal (R87). -/
def decodeRowE (col : Nat) (w : W32) : Except Reject Instr :=
  match col with
  | 0 => decDA w .trace
  | 1 => decDAB w .spawn
  | 2 => decDA w .retire
  | 3 => decDA w .defer
  | 4 => decN w .epend
  | 5 => decDA w .poolq
  | _ => .ok (.illegalInstr w)

/-- Row 0xF of the opcode map (Table 4.5): the instruction of column `col` of word `w`. A column that the row does not assign is illegal (R87). -/
def decodeRowF (col : Nat) (w : W32) : Except Reject Instr :=
  match col with
  | 0 => decDI16 w .csrr
  | 1 => decDI16 w .csrw
  | 2 => decN w .eret
  | 3 => decAB w .tlbinv
  | 4 => decA w .halt
  | 5 => decDAB w .monr
  | 6 => decI16 w .mark
  | 7 => decI16 w .bkpt
  | _ => .ok (.illegalInstr w)

/-- The opcode field OP[31:23] (R79). -/
def opOf (w : W32) : BitVec 9 := fieldAt 23 9 w

/-- The instruction of word `w` with literal `lit`, before the checks of register fields: the
row is OP[8:5] and the column OP[4:0] (R86). -/
def decodeRaw (w lit : W32) : Except Reject Instr :=
  let col := ((opOf w).extractLsb' 0 5).toNat
  match ((opOf w).extractLsb' 5 4).toNat with
  | 0 => decodeRow0 col w
  | 1 => decodeRow1 col w lit
  | 2 => decodeRow2 col w
  | 3 => decodeRow3 col w
  | 4 => decodeRow4 col w
  | 5 => decodeRow5 col w
  | 6 => decodeRow6 col w
  | 7 => decodeRow7 col w
  | 8 => decodeRow8 col w lit
  | 9 => decodeRow9 col w
  | 10 => decodeRowA col w
  | 11 => decodeRowB col w
  | 12 => decodeRowC col w
  | 13 => decodeRowD col w
  | 14 => decodeRowE col w
  | _ => decodeRowF col w

/-- The instruction of word `w` with literal `lit`: `decodeRaw`, and then the checks 3 to 5 of
Table 4.6 on its fields. -/
def decodeWord (w lit : W32) : Except Reject Instr :=
  match decodeRaw w lit with
  | .error r => .error r
  | .ok i => match i.illegalCause with
    | none => .ok i
    | some c => .error (.illFormed c)

/-- Whether a word is the first of an X-format instruction: LDLIT or LDX (R79, Table 4.5). -/
def isXFormat (w : W32) : Bool := opOf w == 45#9 || opOf w == 257#9

/-- The little-endian 32-bit word of four bytes (R7, R79). -/
def wordOfBytes (b0 b1 b2 b3 : Byte) : W32 := b3 ++ b2 ++ b1 ++ b0

/-- Reads one instruction from bytes in address order, with the bytes that follow it (R79). -/
def decode : List Byte → Except Reject (Instr × List Byte)
  | b0 :: b1 :: b2 :: b3 :: rest =>
    let w := wordOfBytes b0 b1 b2 b3
    if isXFormat w then
      match rest with
      | c0 :: c1 :: c2 :: c3 :: rest' =>
        (decodeWord w (wordOfBytes c0 c1 c2 c3)).map (·, rest')
      | _ => .error .truncated
    else (decodeWord w 0#32).map (·, rest)
  | _ => .error .truncated

/-- The words of an instruction: one, or two for format X (R79, R80). A device step has none. -/
def encodeWords : Instr → Option (W32 × Option W32)
  | .add d a b w => some (encDABq 0#9 d a b w, none)
  | .sub d a b w => some (encDABq 1#9 d a b w, none)
  | .mul d a b w => some (encDABq 2#9 d a b w, none)
  | .mulh d a b w => some (encDABq 3#9 d a b w, none)
  | .mulhn d a b w => some (encDABq 4#9 d a b w, none)
  | .div d a b w => some (encDABq 5#9 d a b w, none)
  | .divn d a b w => some (encDABq 6#9 d a b w, none)
  | .rem d a b w => some (encDABq 7#9 d a b w, none)
  | .remn d a b w => some (encDABq 8#9 d a b w, none)
  | .and d a b w => some (encDABq 9#9 d a b w, none)
  | .or d a b w => some (encDABq 10#9 d a b w, none)
  | .xor d a b w => some (encDABq 11#9 d a b w, none)
  | .andn d a b w => some (encDABq 12#9 d a b w, none)
  | .shl d a b w => some (encDABq 13#9 d a b w, none)
  | .shr d a b w => some (encDABq 14#9 d a b w, none)
  | .sra d a b w => some (encDABq 15#9 d a b w, none)
  | .rotl d a b w => some (encDABq 16#9 d a b w, none)
  | .min d a b w => some (encDABq 17#9 d a b w, none)
  | .max d a b w => some (encDABq 18#9 d a b w, none)
  | .minn d a b w => some (encDABq 19#9 d a b w, none)
  | .maxn d a b w => some (encDABq 20#9 d a b w, none)
  | .cmp a b w => some (encABq 21#9 a b w, none)
  | .cmpn a b w => some (encABq 22#9 a b w, none)
  | .sel d a b w => some (encDABq 23#9 d a b w, none)
  | .clz d a w => some (encDAq 24#9 d a w, none)
  | .ctz d a w => some (encDAq 25#9 d a w, none)
  | .popc d a w => some (encDAq 26#9 d a w, none)
  | .brev d a w => some (encDAq 27#9 d a w, none)
  | .bfx d a b w => some (encDABq 28#9 d a b w, none)
  | .bfi d a b w => some (encDABq 29#9 d a b w, none)
  | .mov d a w => some (encDAq 30#9 d a w, none)
  | .addi d a i => some (encDAI9 32#9 d a i, none)
  | .andi d a i => some (encDAI9 33#9 d a i, none)
  | .ori d a i => some (encDAI9 34#9 d a i, none)
  | .xori d a i => some (encDAI9 35#9 d a i, none)
  | .shli d a i => some (encDAI6 36#9 d a i, none)
  | .shri d a i => some (encDAI6 37#9 d a i, none)
  | .srai d a i => some (encDAI6 38#9 d a i, none)
  | .cmpi a i => some (encAI9 39#9 a i, none)
  | .cmpni a i => some (encAI9 40#9 a i, none)
  | .movi d i => some (encDI16 41#9 d i, none)
  | .movhi d i => some (encDI16 42#9 d i, none)
  | .movxi d i => some (encDI16 43#9 d i, none)
  | .movti d i => some (encDI16 44#9 d i, none)
  | .ldlit d lit => some (encD 45#9 d, some lit)
  | .lea d a b s => some (encDABQ 46#9 d a b s, none)
  | .gets d k => some (encDA 47#9 d k, none)
  | .fadd d a b f => some (encDABq 64#9 d a b f, none)
  | .fsub d a b f => some (encDABq 65#9 d a b f, none)
  | .fmul d a b f => some (encDABq 66#9 d a b f, none)
  | .ffma d a b f => some (encDABq 67#9 d a b f, none)
  | .fdiv d a b f => some (encDABq 68#9 d a b f, none)
  | .fsqrt d a f => some (encDAq 69#9 d a f, none)
  | .fmin d a b f => some (encDABq 70#9 d a b f, none)
  | .fmax d a b f => some (encDABq 71#9 d a b f, none)
  | .fabs d a f => some (encDAq 72#9 d a f, none)
  | .fneg d a f => some (encDAq 73#9 d a f, none)
  | .fcmp a b f => some (encABq 74#9 a b f, none)
  | .fcvt d a f => some (encDAq 75#9 d a f, none)
  | .ftoi d a f => some (encDAq 76#9 d a f, none)
  | .itof d a f => some (encDAq 77#9 d a f, none)
  | .fclass d a f => some (encDAq 78#9 d a f, none)
  | .frnd d a f => some (encDAq 79#9 d a f, none)
  | .br o => some (encO 96#9 o, none)
  | .bcc c o => some (encCO 97#9 c o, none)
  | .bmz m o => some (encCO 98#9 m o, none)
  | .bmnz m o => some (encCO 99#9 m o, none)
  | .call o => some (encO 100#9 o, none)
  | .callr d a => some (encDA 101#9 d a, none)
  | .ret a => some (encA 102#9 a, none)
  | .jmpr a => some (encA 103#9 a, none)
  | .loop a l n => some (encL 104#9 a l n, none)
  | .loopi k l n => some (encL 105#9 k l n, none)
  | .lbrk d => some (encD 106#9 d, none)
  | .yield => some (encN 107#9, none)
  | .waitc a b => some (encAB 108#9 a b, none)
  | .watch a b => some (encAB 109#9 a b, none)
  | .exit => some (encN 110#9, none)
  | .nop => some (encN 111#9, none)
  | .trapi i => some (encI16 112#9 i, none)
  | .mset i => some (encI16 128#9 i, none)
  | .msetr a => some (encA 129#9 a, none)
  | .mget d => some (encD 130#9 d, none)
  | .mpush d a => some (encDA 131#9 d a, none)
  | .melse d a => some (encDA 132#9 d a, none)
  | .mpop => some (encN 133#9, none)
  | .mand d a b => some (encDAB 134#9 d a b, none)
  | .mor d a b => some (encDAB 135#9 d a b, none)
  | .mxor d a b => some (encDAB 136#9 d a b, none)
  | .mandn d a b => some (encDAB 137#9 d a b, none)
  | .mnot d a => some (encDA 138#9 d a, none)
  | .mmov d a => some (encDA 139#9 d a, none)
  | .mcnt d a => some (encDA 140#9 d a, none)
  | .mffs d a => some (encDA 141#9 d a, none)
  | .mtos d a b => some (encDAB 142#9 d a b, none)
  | .mfrs d a b => some (encDAB 143#9 d a b, none)
  | .mlen d a => some (encDA 144#9 d a, none)
  | .mall d a => some (encDA 145#9 d a, none)
  | .vadd d a b c => some (encDABq 160#9 d a b c, none)
  | .vsub d a b c => some (encDABq 161#9 d a b c, none)
  | .vmul d a b c => some (encDABq 162#9 d a b c, none)
  | .vfma d a b c => some (encDABq 163#9 d a b c, none)
  | .vfms d a b c => some (encDABq 164#9 d a b c, none)
  | .vmin d a b c => some (encDABq 165#9 d a b c, none)
  | .vmax d a b c => some (encDABq 166#9 d a b c, none)
  | .vabs d a c => some (encDAq 167#9 d a c, none)
  | .vneg d a c => some (encDAq 168#9 d a c, none)
  | .vand d a b c => some (encDABq 169#9 d a b c, none)
  | .vor d a b c => some (encDABq 170#9 d a b c, none)
  | .vxor d a b c => some (encDABq 171#9 d a b c, none)
  | .vnot d a c => some (encDAq 172#9 d a c, none)
  | .vshl d a b c => some (encDABq 173#9 d a b c, none)
  | .vshr d a b c => some (encDABq 174#9 d a b c, none)
  | .vsra d a b c => some (encDABq 175#9 d a b c, none)
  | .vcmpeq d a b => some (encDAB 176#9 d a b, none)
  | .vcmpne d a b => some (encDAB 177#9 d a b, none)
  | .vcmplt d a b => some (encDAB 178#9 d a b, none)
  | .vcmple d a b => some (encDAB 179#9 d a b, none)
  | .vsel d a b c => some (encDABq 180#9 d a b c, none)
  | .vmov d a c => some (encDAq 181#9 d a c, none)
  | .vbcast d a b c => some (encDABq 182#9 d a b c, none)
  | .vidx d a b c => some (encDABq 183#9 d a b c, none)
  | .vclamp d a b c => some (encDABq 184#9 d a b c, none)
  | .vmulp d a b c => some (encDABq 185#9 d a b c, none)
  | .vdotp d a b c => some (encDABq 186#9 d a b c, none)
  | .vcvt d a t c => some (encDATq 187#9 d a t c, none)
  | .vpack d a b c => some (encDABq 188#9 d a b c, none)
  | .vunpk d a h c => some (encDAHq 189#9 d a h c, none)
  | .vrcp d a c => some (encDAq 192#9 d a c, none)
  | .vrsq d a c => some (encDAq 193#9 d a c, none)
  | .vsqrt d a c => some (encDAq 194#9 d a c, none)
  | .vdiv d a b c => some (encDABq 195#9 d a b c, none)
  | .vexp2 d a c => some (encDAq 196#9 d a c, none)
  | .vlog2 d a c => some (encDAq 197#9 d a c, none)
  | .vsin d a c => some (encDAq 198#9 d a c, none)
  | .vcos d a c => some (encDAq 199#9 d a c, none)
  | .vtanh d a c => some (encDAq 200#9 d a c, none)
  | .vfloor d a c => some (encDAq 201#9 d a c, none)
  | .vfrac d a c => some (encDAq 202#9 d a c, none)
  | .vcompact d a c => some (encDAq 203#9 d a c, none)
  | .vexpand d a c => some (encDAq 204#9 d a c, none)
  | .vshfl d a b c => some (encDABq 205#9 d a b c, none)
  | .vrotl d a b c => some (encDABq 206#9 d a b c, none)
  | .vextr d a b => some (encDAB 207#9 d a b, none)
  | .vins d a b c => some (encDABq 208#9 d a b c, none)
  | .rcoal d a c => some (encDAq 224#9 d a c, none)
  | .rcnt d a => some (encDA 225#9 d a, none)
  | .rallot d n => some (encDN9 226#9 d n, none)
  | .rpool d a => some (encDA 227#9 d a, none)
  | .rsave d a b => some (encDAB 228#9 d a b, none)
  | .rload d a c => some (encDAq 229#9 d a c, none)
  | .vredadd d a => some (encDA 230#9 d a, none)
  | .vredmin d a => some (encDA 231#9 d a, none)
  | .vredmax d a => some (encDA 232#9 d a, none)
  | .vredand d a => some (encDA 233#9 d a, none)
  | .vredor d a => some (encDA 234#9 d a, none)
  | .vscan d a c => some (encDAq 235#9 d a c, none)
  | .vrng d a c => some (encDAq 236#9 d a c, none)
  | .rngseed a b => some (encAB 237#9 a b, none)
  | .rngget d s => some (encDA 238#9 d s, none)
  | .ld d a b z => some (encDABQ 256#9 d a b z, none)
  | .ldx d a z lit => some (encDAQ 257#9 d a z, some lit)
  | .st d a b z => some (encDABQ 258#9 d a b z, none)
  | .lda d a b z => some (encDABQ 259#9 d a b z, none)
  | .stl d a s z => some (encDABQ 260#9 d a s z, none)
  | .atadd d a b z => some (encDABq 261#9 d a b z, none)
  | .atmin d a b z => some (encDABq 262#9 d a b z, none)
  | .atmax d a b z => some (encDABq 263#9 d a b z, none)
  | .atminn d a b z => some (encDABq 264#9 d a b z, none)
  | .atmaxn d a b z => some (encDABq 265#9 d a b z, none)
  | .atand d a b z => some (encDABq 266#9 d a b z, none)
  | .ator d a b z => some (encDABq 267#9 d a b z, none)
  | .atxor d a b z => some (encDABq 268#9 d a b z, none)
  | .atxch d a b z => some (encDABq 269#9 d a b z, none)
  | .atcas d a b z => some (encDABq 270#9 d a b z, none)
  | .fence s => some (encB 271#9 s, none)
  | .linv a b => some (encAB 272#9 a b, none)
  | .vld d a b c => some (encDABq 288#9 d a b c, none)
  | .vlds d a b c => some (encDABq 289#9 d a b c, none)
  | .vst d a b => some (encDAB 290#9 d a b, none)
  | .vsts d a b => some (encDAB 291#9 d a b, none)
  | .vldb d a b c => some (encDABq 292#9 d a b c, none)
  | .preq d a b => some (encDAB 293#9 d a b, none)
  | .sld d a b => some (encDAB 294#9 d a b, none)
  | .sst d a b => some (encDAB 295#9 d a b, none)
  | .sgath d a b c => some (encDABq 296#9 d a b c, none)
  | .sscat d a b => some (encDAB 297#9 d a b, none)
  | .sldt d a b c => some (encDABq 298#9 d a b c, none)
  | .sldc d a c => some (encDAq 299#9 d a c, none)
  | .sstc d a b => some (encDAB 300#9 d a b, none)
  | .clds d a b => some (encDAB 301#9 d a b, none)
  | .csts d a b => some (encDAB 302#9 d a b, none)
  | .upd d a b => some (encDAB 320#9 d a b, none)
  | .upds d a => some (encDA 321#9 d a, none)
  | .uflush a b => some (encAB 322#9 a b, none)
  | .tdec a => some (encA 323#9 a, none)
  | .tinc a => some (encA 324#9 a, none)
  | .tspawn a => some (encA 325#9 a, none)
  | .cset a b => some (encAB 326#9 a b, none)
  | .cadd a b => some (encAB 327#9 a b, none)
  | .cget d a => some (encDA 328#9 d a, none)
  | .cbar d a b => some (encDAB 329#9 d a b, none)
  | .dsmop d a b => some (encDAB 330#9 d a b, none)
  | .dsmred d a b => some (encDAB 331#9 d a b, none)
  | .cpy d a b => some (encDAB 352#9 d a b, none)
  | .cpyg d a b => some (encDAB 353#9 d a b, none)
  | .cpyx d a b => some (encDAB 354#9 d a b, none)
  | .cpyq d a b => some (encDAB 355#9 d a b, none)
  | .cpyt d a b => some (encDAB 356#9 d a b, none)
  | .discard d a b => some (encDAB 357#9 d a b, none)
  | .prefetch d a b => some (encDAB 358#9 d a b, none)
  | .cpya d a b => some (encDAB 359#9 d a b, none)
  | .cwalk d a b => some (encDAB 360#9 d a b, none)
  | .mcfg d a b => some (encDAB 384#9 d a b, none)
  | .mzero d a => some (encDA 385#9 d a, none)
  | .mma d a => some (encDA 386#9 d a, none)
  | .mmag d a b => some (encDAB 387#9 d a b, none)
  | .mmas d a b => some (encDAB 388#9 d a b, none)
  | .mmad d a => some (encDA 389#9 d a, none)
  | .mlda d a => some (encDA 390#9 d a, none)
  | .msta d a => some (encDA 391#9 d a, none)
  | .mtov d a b c => some (encDABq 392#9 d a b c, none)
  | .malloc d a => some (encDA 393#9 d a, none)
  | .xhad d a b c => some (encDABq 416#9 d a b c, none)
  | .xqnt d a b c => some (encDABq 417#9 d a b c, none)
  | .xact d a c => some (encDAq 418#9 d a c, none)
  | .xtld a k => some (encAB 419#9 a k, none)
  | .xtbind k => some (encB 420#9 k, none)
  | .xtopk d a b c => some (encDABq 421#9 d a b c, none)
  | .xtrn d a b c => some (encDABq 422#9 d a b c, none)
  | .xsort d a b c => some (encDABq 423#9 d a b c, none)
  | .trace d a => some (encDA 448#9 d a, none)
  | .spawn d a b => some (encDAB 449#9 d a b, none)
  | .retire d a => some (encDA 450#9 d a, none)
  | .defer d a => some (encDA 451#9 d a, none)
  | .epend => some (encN 452#9, none)
  | .poolq d k => some (encDA 453#9 d k, none)
  | .csrr d i => some (encDI16 480#9 d i, none)
  | .csrw d i => some (encDI16 481#9 d i, none)
  | .eret => some (encN 482#9, none)
  | .tlbinv a b => some (encAB 483#9 a b, none)
  | .halt a => some (encA 484#9 a, none)
  | .monr d a b => some (encDAB 485#9 d a b, none)
  | .mark i => some (encI16 486#9 i, none)
  | .bkpt i => some (encI16 487#9 i, none)
  | .recordIntervalClose => none
  | .queueDoorbell => none
  | .completionDoorbell => none
  | .registerWrite => none
  | .ctxinstall => none
  | .ctxreset => none
  | .ctxremove => none
  | .csrread => none
  | .csrwrite => none
  | .errring => none
  | .peerto => none
  | .attest => none
  | .cert => none
  | .fwload => none
  | .monread => none
  | .setthr => none
  | .replay => none
  | .slicecfgWrite => none
  | .slicecfgApply => none
  | .stitchWrite => none
  | .stitchApply => none
  | .soruscfgWrite => none
  | .sceneWrite => none
  | .poolrsvWrite => none
  | .migrationStart => none
  | .migrationCopy => none
  | .migrationFinish => none
  | .powerOn => none
  | .d3hotEntry => none
  | .coreClockGate => none
  | .corePowerGate => none
  | .coreWake => none
  | .taskReady => none
  | .depcntUpdate => none
  | .queueConsume => none
  | .queueIdleRecheck => none
  | .placementAttempt => none
  | .teamExited => none
  | .successorDecrement => none
  | .preemptForCandidate => none
  | .teamPreempted => none
  | .donationStart => none
  | .donationEnd => none
  | .stealRequest => none
  | .stealClaim => none
  | .stealReply => none
  | .derateSample => none
  | .thermalTrip => none
  | .teamWake => none
  | .clockLoop => none
  | .gddr7Equalisation => none
  | .waveAgeLoop => none
  | .prefetchThresholdLoop => none
  | .monitorSample => none
  | .homeRead => none
  | .loadReply => none
  | .homeStore => none
  | .storeAck => none
  | .homeAtomic => none
  | .writeLeaseGrant => none
  | .leaseRecall => none
  | .writeLeaseExpiry => none
  | .pairInject => none
  | .homeAcceptPair => none
  | .binApply => none
  | .dsmElementOp => none
  | .cbarArrival => none
  | .hostRead => none
  | .hostWrite => none
  | .fabricWriteArrival => none
  | .shootdown => none
  | .multicastDeliver => none
  | .copyStart => none
  | .copyComplete => none
  | .matrixOpStart => none
  | .matrixStep => none
  | .matrixComplete => none
  | .transformStart => none
  | .transformComplete => none
  | .noiseWord => none
  | .poolGrant => none
  | .rayEntersBin => none
  | .traversalBinAge => none
  | .shaderBinAge => none
  | .traversalStep => none
  | .treeletLineArrival => none
  | .traversalResult => none
  | .doneDecrement => none
  | .poolPressure => none
  | .inboundPeerAccess => none
  | .peerReply => none
  | .peerTimeout => none
  | .reservationTimeout => none
  | .meshLinkFail => none
  | .timeCheck => none
  | .clockCheck => none
  | .pairLinkRestore => none
  | .pairLinkRestoreTimeout => none
  | .ptpSync => none
  | .scaleoutPortDown => none
  | .replayDivergence => none
  | .illegalInstr w => some (w, none)
  | .instructionFetchFault => none
  | .deviceReset => none
  | .d3hotExit => none
  | .serdesAdaptation => none
  | .sharedCacheWriteBack => none
  | .cxlLinkTraining => none

/-- The four bytes of a word, lowest address first (R7). -/
def bytesOfWord (w : W32) : List Byte :=
  [w.extractLsb' 0 8, w.extractLsb' 8 8, w.extractLsb' 16 8, w.extractLsb' 24 8]

/-- The bytes of an instruction in address order; a device step has none (R79). -/
def encode (i : Instr) : List Byte :=
  match encodeWords i with
  | none => []
  | some (w, none) => bytesOfWord w
  | some (w, some lit) => bytesOfWord w ++ bytesOfWord lit

/-- The word that TINFO holds for an instruction: its first word (Table 19.2). -/
def Instr.firstWord (i : Instr) : Word :=
  match encodeWords i with
  | some (w, _) => w.setWidth 64
  | none => 0#64

/-- The instruction read from the bits `w`, numbered from the least significant bit of the first
word; the bits above `nbits` are zero. A word rejected by a check of Table 4.6 is none. -/
def decodeTableWord (nbits w : Nat) : Option Instr :=
  let v := w % 2 ^ nbits
  match decode (bytesOfWord (BitVec.ofNat 32 v) ++ bytesOfWord (BitVec.ofNat 32 (v / 2 ^ 32))) with
  | .ok (i, _) => some i
  | .error _ => none

end Sys2Proof
end

