-- ==== Sys2Proof/Machine/Ops.lean ====
section
/-! DEFINITION. The named operations over the state: its parts, the registers of a team, error
records (spec/19 R359, R429), the shared cache (spec/07 R176, R187, R188), the context halt (R358),
taking a precise trap (R353, R355) and returning from one (R354), and how an instruction ends
(loop-end events, spec/05 R115). -/

namespace Sys2Proof.Machine

/-! ### Parts of the state -/

/-- The core numbered `64 * die + core`. -/
def State.core (s : State) (c : Nat) : Core :=
  lookup { Core.atReset with cycles := s.baseCycles } c s.cores

/-- The state with core `c` replaced. -/
def State.setCore (s : State) (c : Nat) (k : Core) : State :=
  { s with cores := insertAt c k s.cores }

/-- The die numbered `d`. -/
def State.die (s : State) (d : Nat) : Die := if d = 1 then s.die1 else s.die0

/-- The state with die `d` replaced. -/
def State.setDie (s : State) (d : Nat) (k : Die) : State :=
  if d = 1 then { s with die1 := k } else { s with die0 := k }

/-- The number of dies of the product form (R1). -/
def State.nDies (s : State) : Nat := match s.product with | .m => 1 | .w2 => 2

/-- The bytes of GDDR7 of one die (Table 0.1). -/
def State.gddrSize (s : State) : Nat := match s.product with | .m => 2 ^ 38 | .w2 => 2 ^ 37

/-- The team of a number. -/
def State.team? (s : State) (uid : Nat) : Option Team := s.teams.find? (fun t => t.uid == uid)

/-- The state with a team replaced by its new self. -/
def State.putTeam (s : State) (t : Team) : State :=
  { s with teams := mapWhere (fun x => x.uid == t.uid) (fun _ => t) s.teams }

/-- Applies a change to the team of a number. -/
def State.modTeam (s : State) (uid : Nat) (f : Team → Team) : State :=
  { s with teams := mapWhere (fun x => x.uid == uid) f s.teams }

/-- Applies a change to a core. -/
def State.modCore (s : State) (c : Nat) (f : Core → Core) : State := s.setCore c (f (s.core c))

/-- Applies a change to a die. -/
def State.modDie (s : State) (d : Nat) (f : Die → Die) : State := s.setDie d (f (s.die d))

/-- The installed context of a number. -/
def State.ctx? (s : State) (id : Nat) : Option Ctx := s.ctxs.find? (fun c => c.id == id)

/-- Applies a change to a context. -/
def State.modCtx (s : State) (id : Nat) (f : Ctx → Ctx) : State :=
  { s with ctxs := mapWhere (fun x => x.id == id) f s.ctxs }

/-- The core a team stands on, numbered `64 * die + core`. -/
def Team.coreId (t : Team) : Nat := 64 * t.ident.die + t.ident.core

/-- Whether a team holds a slot: resident, or exiting with its resources (R38). -/
def Team.onCore (t : Team) : Bool :=
  match t.place with
  | .resident | .exiting => true
  | .preempted _ | .left => false

/-- Whether a place is that of a pre-empted team. -/
def Place.isOut : Place → Bool
  | .preempted _ => true
  | _ => false

/-- The place of a pre-empted team in the order of pre-emption. -/
def Place.orderOut : Place → Nat
  | .preempted n => n
  | _ => 0

/-- Whether a team is resident and may issue (R42). -/
def Team.isResident (t : Team) : Bool := t.place == .resident

/-- CTXCTL bits (Table 19.5): SYS. -/
def Ctx.sys (c : Ctx) : Bool := bitOf c.ctxctl.toNat 4
/-- CTXCTL.DBG -/
def Ctx.dbg (c : Ctx) : Bool := bitOf c.ctxctl.toNat 3
/-- CTXCTL.REC -/
def Ctx.recording (c : Ctx) : Bool := bitOf c.ctxctl.toNat 2
/-- CTXCTL.CLOS: the context's class of service (R187) -/
def Ctx.clos (c : Ctx) : Nat := bitsOf c.ctxctl.toNat 0 2

/-- Privilege: in a handler, or CTXCTL.SYS of the team's context (R355). -/
def State.privileged (s : State) (t : Team) : Bool :=
  t.inHandler || (match s.ctx? t.ctx with | some c => c.sys | none => false)

/-- Takes one free value: its number, and the state that has counted it (log entry 8). -/
def State.takeFree (s : State) : Nat × State := (s.free, { s with free := s.free + 1 })

/-- TIME of a die (R174). -/
def State.time (s : State) (d : Nat) : Nat := (s.die d).time

/-- TIME of a tile of a die: the die's, or the one that the tile holds until the die's passes it (R396).
Cores are tiles 0 to 63, slices 64 and up. -/
def State.tileTime (s : State) (d tile : Nat) : Nat := max (s.time d) (lookup 0 tile (s.die d).held)

/-- TIME of a core (R174, R396). -/
def State.coreClock (s : State) (core : Nat) : Nat := s.tileTime (core / 64) (core % 64)

/-! ### Fields of the die registers -/

/-- DSMW, TRLW and POOLW of SYS.SLICECFG (Table 1.5). -/
def Die.dsmw (d : Die) : Nat := wordBits d.regs.slicecfg 8 4
/-- TRLW -/
def Die.trlw (d : Die) : Nat := wordBits d.regs.slicecfg 4 4
/-- POOLW -/
def Die.poolw (d : Die) : Nat := wordBits d.regs.slicecfg 0 4
/-- The DSM size in bytes (R20). -/
def Die.dsmSize (d : Die) : Nat := d.dsmw * 32 * 524288
/-- The ray pool's capacity (R284). -/
def Die.poolCapacity (d : Die) : Nat := 131072 * d.poolw
/-- The lease length in ticks (Table 7.7). -/
def Die.leaseLength (d : Die) : Nat := wordBits d.regs.lease 0 14
/-- The records kept for waves (Table 12.2). -/
def Die.poolRsv (d : Die) : Nat := wordBits d.regs.poolrsv 0 20

/-- R23: the home slice of a physical address: its nine 5-bit chunks from bit 7, combined. -/
def homeSlice (pa : Nat) : Nat :=
  (List.range 9).foldl (fun x i => x ^^^ bitsOf pa (7 + 5 * i) 5) 0

/-- The address of the 128-byte line of an address. -/
def lineOf (pa : Nat) : Nat := pa / 128 * 128

/-- R23: the bank of the home slice that serves a physical address. -/
def homeBank (pa : Nat) : Nat := bitsOf pa 12 4

/-- R23: the GDDR7 channel of a physical address: the one of its home slice. -/
def homeChannel (pa : Nat) : Nat := homeSlice pa

/-- R24: the home slice of a DSM offset. -/
def dsmSlice (o : Nat) : Nat := bitsOf o 7 5

/-- R24: the bank that serves a DSM offset in its home slice. -/
def dsmBank (o : Nat) : Nat := bitsOf o 12 4

/-- R24: the byte of a DSM offset within its slice's DSM ways. -/
def dsmByte (o : Nat) : Nat := o / 4096 * 128 + o % 128

/-! ### The shared cache (R19, R20, R176, R187, R188) -/

/-- The ways that form the shared cache of each slice (R20). -/
def Die.cacheWays (d : Die) : Nat := 16 - d.poolw - d.trlw - d.dsmw

/-- The set of a line: its home slice, and 4,096 sets by address [23:12] (log entry 46). -/
def cacheSet (line : Nat) : Nat := 4096 * homeSlice line + bitsOf line 12 12

/-- MAXk of SYS.CLOSQ (Table 7.9). -/
def Die.closMax (d : Die) (k : Nat) : Nat := wordBits d.regs.closq (4 * k) 4

/-- The ways of a set that class `k` keeps: minima apply in class order, each limited to what the
lower classes have left (R187). -/
def Die.closMin (d : Die) (k : Nat) : Nat :=
  let left := (List.range k).foldl (fun w j => w - wordBits d.regs.closq (16 + 4 * j) 4) d.cacheWays
  min left (wordBits d.regs.closq (16 + 4 * k) 4)

/-- What a fill does in its set (R188). -/
inductive Fill where
  /-- a way is invalid, and is used -/
  | place
  /-- the line of this address is the victim -/
  | evict (line : Nat)
  /-- no line qualifies: the access is served without a fill -/
  | bypass
  deriving DecidableEq, Repr

/-- How many of a set's lines class `k` holds. -/
def classHolds (set : List CacheLine) (k : Nat) : Nat := (set.filter (fun l => l.cls == k)).length

/-- The victim among the lines of a set that satisfy `p`: the least recently used, which is the last. -/
def lruVictim (set : List CacheLine) (p : CacheLine → Bool) : Fill :=
  match (set.filter p).getLast? with
  | some l => .evict l.line
  | none => .bypass

/-- R188: what a fill of class `k` does in a set, whose lines come most recently used first. -/
def Die.fillOf (d : Die) (set : List CacheLine) (k : Nat) : Fill :=
  if d.closMax k ≤ classHolds set k then lruVictim set fun l => l.cls == k
  else if set.length < d.cacheWays then .place
  else lruVictim set fun l => decide (d.closMin l.cls < classHolds set l.cls)

/-- Whether the shared cache holds a line. -/
def Die.caches (d : Die) (line : Nat) : Bool := d.cache.any fun l => l.line == line

/-- EXP of a line (R176): its own while the shared cache holds it; the maximum of its set, into which
its own was folded, while it does not. -/
def Die.lineExp (d : Die) (line : Nat) : Nat :=
  let own := lookup 0 line d.exp
  if d.caches line then own else max own (lookup 0 (cacheSet line) d.evictExp)

/-- Raises EXP of a line to `e` (R176, R177). -/
def Die.raiseExp (d : Die) (line e : Nat) : Die :=
  if d.caches line then { d with exp := insertAt line (max (lookup 0 line d.exp) e) d.exp }
  else
    let set := cacheSet line
    { d with evictExp := insertAt set (max (lookup 0 set d.evictExp) (max (lookup 0 line d.exp) e)) d.evictExp }

/-- A line reaches GDDR7 where it is dirty, an uncorrectable copy with it (Table 19.7). -/
def Die.writeBack (d : Die) (line : Nat) : Die :=
  if d.dirty.contains line then
    { d with
      dram := d.dram.copyRange d.mem line 128
      dirty := d.dirty.filter (fun l => l != line)
      dramPoison := if d.poison.contains line && !d.dramPoison.contains line then line :: d.dramPoison
                    else d.dramPoison }
  else d

/-- A line leaves the shared cache: it is written back where dirty, and its EXP is folded into the
maximum of its set (R176, R188). A clean line takes its copy's error with it (Table 19.7, STRUCT 2). -/
def Die.evict (d : Die) (line : Nat) : Die :=
  let set := cacheSet line
  let e := lookup 0 line d.exp
  let d := d.writeBack line
  { d with
    cache := d.cache.filter (fun l => l.line != line)
    poison := d.poison.filter (fun l => l != line)
    exp := removeAt line d.exp
    evictExp := if e = 0 then d.evictExp else insertAt set (max (lookup 0 set d.evictExp) e) d.evictExp }

/-- A line enters the shared cache under class `k`; its set's maximum serves as its EXP (R176). -/
def Die.place (d : Die) (line k : Nat) : Die :=
  let e := lookup 0 (cacheSet line) d.evictExp
  { d with
    cache := { line := line, cls := k } :: d.cache
    exp := if e = 0 then d.exp else insertAt line (max (lookup 0 line d.exp) e) d.exp }

/-- An access of class `k` to a line of GDDR7: a hit makes it the most recently used, a miss fills it
(R188). A line that is hit keeps the class that filled it (log entry 46). -/
def Die.touch (d : Die) (line k : Nat) : Die :=
  match d.cache.find? (fun l => l.line == line) with
  | some l => { d with cache := l :: d.cache.filter (fun l => l.line != line) }
  | none =>
    match d.fillOf (d.cache.filter (fun l => cacheSet l.line == cacheSet line)) k with
    | .place => d.place line k
    | .evict v => (d.evict v).place line k
    | .bypass => d

/-- A line of the shared cache has been written (R250); one that the cache does not hold is written in
GDDR7 itself. -/
def Die.markDirty (d : Die) (line : Nat) : Die :=
  if d.caches line then { d with dirty := if d.dirty.contains line then d.dirty else line :: d.dirty }
  else { d with dram := d.dram.copyRange d.mem line 128 }

/-- An access to a line by whatever the step does, under its class of service (R187). -/
def State.touchLine (s : State) (die line : Nat) : State :=
  s.modDie die fun k => k.touch line s.clos

/-- The class of service of a context (R187); work of no context takes class 0 (log entry 46). -/
def State.classOf (s : State) (ctx : Nat) : Nat :=
  match s.ctx? ctx with
  | some c => c.clos
  | none => 0

/-- The accesses to come carry the class of service of a context (R187). -/
def State.asClass (s : State) (ctx : Nat) : State := { s with clos := s.classOf ctx }

/-- Another requester's access to a line ends the write leases of other cores on it: the holder has
finished what it began and releases it, and its contents are at the home (R179, R197). -/
def State.recallLine (s : State) (who die line : Nat) : State :=
  s.modDie die fun k => { k with wleases := k.wleases.filter (fun w => w.line != line || w.core == who) }

/-- TIME of the home of a line (R177, R396). -/
def State.homeTime (s : State) (die line : Nat) : Nat := s.tileTime die (64 + homeSlice line)

/-- Whether a migration holds the requests to a line (R190). -/
def Die.migrates (d : Die) (line : Nat) : Bool :=
  d.migration.step != .idle && d.migration.srcPage == line / 65536

/-- The requester number of the device itself at a die. -/
def deviceRequester (die : Nat) : Nat := 1000 + die

/-- Records that a core's request for a line was served or held (R197, training). -/
def State.noteRequest (s : State) (die line core : Nat) : State :=
  s.modDie die fun k => { k with
    recent := (line, core, k.time) :: (k.recent.filter (fun r => !(r.1 == line && r.2.1 == core))) }

/-- The number under which a home knows the line of a location: DSM lines stand above the lines of
GDDR7. -/
def homeKey (p : Phys) : Nat := lineOf p.addr + (if p.space == .dsm then 2 ^ 60 else 0)

/-! ### Registers of a team -/

/-- MODE fields (Table 3.5). -/
def Team.guardReg (t : Team) : Nat := bitsOf t.mode.toNat 0 4
/-- ETYPE -/
def Team.etype (t : Team) : Nat := bitsOf t.mode.toNat 4 5
/-- RND -/
def Team.rnd (t : Team) : Nat := bitsOf t.mode.toNat 9 3
/-- SAT -/
def Team.sat (t : Team) : Bool := bitOf t.mode.toNat 12
/-- DNZ -/
def Team.dnz (t : Team) : Bool := bitOf t.mode.toNat 13
/-- RSRC -/
def Team.rsrc (t : Team) : Nat := bitsOf t.mode.toNat 14 2

/-- The existing lanes as a mask (R29). -/
def existingMask (e : Nat) : Mask := BitVec.ofNat 1024 (2 ^ e - 1)

/-- Mask register `n`; `m0` reads the existing lanes (R29). -/
def Team.mask (t : Team) (n : Nat) : Mask :=
  if h : n < 16 then (if n = 0 then existingMask t.ident.elanes else t.masks[n])
  else 0#1024

/-- Writes mask register `n`: lanes at or above E read zero (R29); `m0` is never written (R84). -/
def Team.setMask (t : Team) (n : Nat) (m : Mask) : Team :=
  if h : n < 16 then
    (if n = 0 then t else { t with masks := t.masks.set n (m &&& existingMask t.ident.elanes) })
  else t

/-- The guard mask (R124). -/
def Team.guard (t : Team) : Mask := t.mask t.guardReg

/-- Writes scalar register `n` (R56); no other number names a register. -/
def Team.setS (t : Team) (n : Nat) (v : Word) : Team :=
  if h : n < 64 then { t with sregs := t.sregs.set n v } else t

/-- Scalar register `n` for `n` below 64. -/
def Team.getS (t : Team) (n : Nat) : Word := if h : n < 64 then t.sregs[n] else 0#64

/-- The allotment (R64). -/
def Team.allot (t : Team) : Nat := t.vregs.length

/-- The logical length of a vector register (R59). -/
def VReg.len (v : VReg) : Nat := (v.map Run.cnt).sum

/-- The run slots that transform instructions in flight hold for a team (R380). -/
def State.reservedRuns (s : State) (t : Team) : Nat :=
  (((s.core t.coreId).xfs.filter (fun x => x.uid == t.uid)).map (fun x => x.reserved.getD 0)).sum

/-- The occupancy of a team in run slots (R62). -/
def State.occupancy (s : State) (t : Team) : Nat :=
  (t.vregs.map List.length).sum + s.reservedRuns t

/-- ACCMAP: bit k set when the team owns tile ak (Table 4.4). -/
def Team.accmap (t : Team) : Nat := (t.tiles.map (fun p => 2 ^ p.1)).sum

/-- What a core holds for a team that it is stealing (R323, R326). -/
def State.reserve? (s : State) (core : Nat) : Option Reserve := (s.core core).steal.reserve

/-- The granules of a scheduler's run file that no team holds and no steal keeps (Table 4.4,
POOLFREE; R326). -/
def State.freeGranules (s : State) (core sched : Nat) : Nat :=
  64 - ((s.teams.filter (fun t => t.onCore && t.coreId == core && t.ident.sched == sched)).map
    Team.budget).sum -
  (match s.reserve? core with
   | some r => if r.sched = sched then r.budget else 0
   | none => 0)

/-- The physical tiles of a core that no team holds and no steal keeps (R263, R326). -/
def State.freeTiles (s : State) (core : Nat) : Nat :=
  8 - ((s.teams.filter (fun t => t.onCore && t.coreId == core)).map (fun t => t.tiles.length)).sum -
  (match s.reserve? core with
   | some r => r.acc
   | none => 0)

/-- The part of a pre-emption's hold that lies on a core (R349). -/
def State.holdPart? (s : State) (core : Nat) : Option HoldPart :=
  match (s.die (core / 64)).hold with
  | some h => h.parts.find? (fun p => p.core == core)
  | none => none

/-- The tiles of a core that are held for a pre-emption's candidate (R349) or carried by its steal request
(R323). -/
def State.heldTiles (s : State) (core : Nat) : Nat :=
  (match s.holdPart? core with
   | some p => p.tiles
   | none => 0) + (match (s.core core).steal.carries with
   | some c => c.tiles
   | none => 0)

/-- The granules of a run file that are held for a pre-emption's candidate (R349) or carried by the core's
steal request (R323). -/
def State.heldGranules (s : State) (core sched : Nat) : Nat :=
  (match s.holdPart? core with
   | some p => lookup 0 sched p.granules
   | none => 0) + (match (s.core core).steal.carries with
   | some c => (c.scheds.getD sched (0, 0)).2
   | none => 0)

/-- The scalar special of a field value 64 to 92 (Table 4.4); `time` is what a TIME read gives. -/
def State.special (s : State) (t : Team) (time : Word) (f : Nat) : Word :=
  match f with
  | 65 => time
  | 66 => BitVec.ofNat 64 t.ident.teamid
  | 67 => BitVec.ofNat 64 t.ident.nteams
  | 68 => BitVec.ofNat 64 t.ident.lanes
  | 69 => BitVec.ofNat 64 t.ident.elanes
  | 70 => BitVec.ofNat 64 t.ident.core
  | 71 => BitVec.ofNat 64 t.ident.die
  | 72 => BitVec.ofNat 64 t.ident.sched
  | 73 => BitVec.ofNat 64 t.ident.slot
  | 74 => BitVec.ofNat 64 (t.ident.teamid / (t.ident.clw * t.ident.clh))
  | 75 => BitVec.ofNat 64 t.ident.rank
  | 76 => BitVec.ofNat 64 (t.ident.clw + 16 * t.ident.clh)
  | 77 => if t.ident.isWave then BitVec.ofNat 64 t.ident.waveid else BitVec.allOnes 64
  | 78 => if t.ident.isWave then BitVec.ofNat 64 t.ident.shader else BitVec.allOnes 64
  | 79 => t.ident.task
  | 80 => BitVec.ofNat 64 t.ident.prio
  | 81 => BitVec.ofNat 64 t.allot
  | 82 => BitVec.ofNat 64 t.budget
  | 83 => BitVec.ofNat 64 (s.occupancy t)
  | 84 => BitVec.ofNat 64 (s.freeGranules t.coreId t.ident.sched)
  | 85 => BitVec.ofNat 64 t.stack.length
  | 86 => t.cc.setWidth 64
  | 87 => BitVec.ofNat 64 t.ident.scrBase
  | 88 => BitVec.ofNat 64 (4096 * t.ident.scrG)
  | 89 => BitVec.ofNat 64 t.accmap
  | 90 => BitVec.ofNat 64 t.ctx
  | 91 => BitVec.ofNat 64 t.gwct
  | 92 => BitVec.ofNat 64 (s.core t.coreId).cycles
  | _ => 0#64

/-! ### Error records (R359, Table 19.4) -/

/-- What an error record says; a field that a record does not use is its default. -/
structure Report where
  kind : Nat
  code : Nat
  ctx : Nat := 0xFFFF
  die : Nat := 0
  sl : Bool := false
  unit : Nat := 0
  struct : Nat := 0
  addr : Word := 0#64
  info : Word := 0#64
  pc : Word := 0#64
  waveid : Nat := 0xFFFFFFFF
  teamid : Nat := 0
  task : Word := 0#64
  deriving DecidableEq, Repr

/-- The record's eight 8-byte words. -/
def Report.words (r : Report) (time : Nat) : List Word :=
  [BitVec.ofNat 64 time,
   BitVec.ofNat 64 (r.kind + 2 ^ 8 * r.code + 2 ^ 16 * r.struct + 2 ^ 24 * r.unit +
     (if r.sl then 2 ^ 30 else 0) + 2 ^ 31 * r.die + 2 ^ 48 * r.ctx),
   r.addr, r.info, r.pc,
   BitVec.ofNat 64 (r.teamid % 2 ^ 32 + 2 ^ 32 * (r.waveid % 2 ^ 32)), r.task, 0#64]

/-- A request for a line that a migration may hold: one of the device itself, of the host or of the fabric has no
team (R190). -/
def deviceReq (kind : ReqKind) (ctx who die a since : Nat) : MeshReq :=
  { kind := kind, uid := 0, ctx := ctx, core := who, loc := { space := .gddr, unit := die, addr := a },
    nc := false, since := since, seq := some since }

/-- A write of the device itself is performed at the home: without a lease, and after other cores' write
leases on the line have been released (R179). -/
def State.deviceStore (s : State) (d a : Nat) (bytes : List Byte) : State :=
  let line := lineOf a
  ((s.recallLine (deviceRequester d) d line).touchLine d line).modDie d fun k =>
    { k with mem := k.mem.setBytes a bytes }.markDirty line

/-- Whether a write of the device itself to a line of GDDR7 waits in the mesh: the page migrates, or an earlier
such write to the line still waits (R190). -/
def Die.deviceHeld (k : Die) (line : Nat) : Bool :=
  k.migrates line || k.mesh.any (fun q => q.uid == 0 && homeKey q.loc == line)

/-- Writes to a die's memory by the device itself; a migration of the page holds them like any other
request (R190). -/
def State.deviceWrite (s : State) (d a n v : Nat) : State :=
  if (s.die d).deviceHeld (lineOf a) then
    s.modDie d fun k => { k with
      mesh := k.mesh ++ [deviceReq (.device (leBytes n v)) 0xFFFF (deviceRequester d) d a k.time] }
  else s.deviceStore d a (leBytes n v)

/-- What the device reads of its own data: memory with the writes of its own that a migration holds. -/
def State.deviceRead (s : State) (d a n : Nat) : Nat :=
  let k := s.die d
  (k.mesh.foldl (fun (m : Memory) q => match q.kind with
    | .device bytes => m.setBytes q.loc.addr bytes
    | _ => m) k.mem).read a n

/-- Writes consecutive 8-byte words. -/
def State.deviceWriteWords (s : State) (d a : Nat) : List Word → State
  | [] => s
  | w :: rest => (s.deviceWrite d a 8 w.toNat).deviceWriteWords d (a + 8) rest

/-- Raises an MSI-X vector (R311). -/
def State.raiseMsix (s : State) (v : Nat) : State :=
  { s with host := { s.host with msix := s.host.msix ++ [v] } }

/-- Appends the eight words of a record to the error ring, or counts it (R359). -/
def State.appendWords (s : State) (words : List Word) : State :=
  let ring := s.die0.regs.errring
  if ring = 0#64 then
    { s with host := { s.host with preRingCount := min (s.host.preRingCount + 1) (2 ^ 32 - 1) } }
  else
    let base := wordBits ring 12 40 * 4096
    let n := wordBits ring 0 5
    let head := s.deviceRead 0 base 4
    let tail := s.deviceRead 0 (base + 4) 4
    if (tail + 2 ^ 32 - head) % 2 ^ 32 = 2 ^ n then
      s.deviceWrite 0 (base + 8) 4 (s.deviceRead 0 (base + 8) 4 + 1)
    else
      let s := s.deviceWriteWords 0 (base + 64 + 64 * (tail % 2 ^ n)) words
      (s.deviceWrite 0 (base + 4) 4 (tail + 1)).raiseMsix 0

/-- Appends an error record at the TIME of its die. -/
def State.report (s : State) (r : Report) : State := s.appendWords (r.words (s.time r.die))

/-- The words of a closing record: the last event's, with the count where the format has one (R429). -/
def Interval.closing (i : Interval) : List Word :=
  if i.counted then
    i.record.set 3 (((i.record.getD 3 0#64).setWidth 48).setWidth 64 |||
      BitVec.ofNat 64 (2 ^ 48 * min i.count 0xFFFF))
  else i.record

/-- Whether an interval is that of a record's unit and code, and of its structure (R359, R429). -/
def Interval.holds (i : Interval) (r : Report) : Bool :=
  i.kind == r.kind && i.code == r.code && i.struct == r.struct && i.sl == r.sl && i.unit == r.unit

/-- An interval ends: it is closed, and its closing record appended where it counted an event (R429). -/
def State.closeInterval (s : State) (d : Nat) (i : Interval) : State :=
  let s := s.modDie d fun k => { k with intervals := eraseFirst (fun j => j == i) k.intervals }
  if i.count = 0 then s else s.appendWords i.closing

/-- Appends a record and opens its interval (R429). -/
def State.openInterval (s : State) (r : Report) (counted : Bool) : State :=
  (s.report r).modDie r.die fun k => { k with intervals := k.intervals ++
    [{ kind := r.kind, code := r.code, struct := r.struct, sl := r.sl, unit := r.unit, opened := k.time,
       count := 0, counted := counted, record := r.words k.time }] }

/-- R429: appends a record limited to one per unit and code in every 1,000,000 ticks, and per
structure (R359); a further one is counted. An event after the interval's end closes it first.
`counted` says whether INFO[63:48] holds a count. -/
def State.reportLimited (s : State) (r : Report) (counted : Bool) : State :=
  let k := s.die r.die
  match k.intervals.find? (fun i => i.holds r) with
  | none => s.openInterval r counted
  | some i =>
    if i.opened + 1000000 ≤ k.time then (s.closeInterval r.die i).openInterval r counted
    else
      let bump := fun (i : Interval) => { i with count := i.count + 1, record := r.words k.time }
      s.modDie r.die fun k => { k with intervals := mapWhere (fun i => i.holds r) bump k.intervals }

/-- The fields of a report that name a team (Table 19.4). -/
def Team.report (t : Team) (r : Report) : Report :=
  { r with ctx := t.ctx, die := t.ident.die, unit := t.ident.core,
           waveid := if t.ident.isWave then t.ident.waveid else 0xFFFFFFFF,
           teamid := t.ident.teamid, task := t.ident.task }

/-! ### Context halt (R358) -/

/-- Halts a context and appends its record. A context that is halted already stays so, and its halt has
had its one record. -/
def State.haltCtx (s : State) (id : Nat) (r : Report) : State :=
  if (s.ctx? id).any Ctx.halted then s else (s.modCtx id fun c => { c with halted := true }).report r

/-- A machine check of a context (R350, Table 19.7): the halt with a record of kind 2. -/
def State.machineCheck (s : State) (id struct code : Nat) (die unit : Nat) (sl : Bool)
    (addr : Nat) : State :=
  s.haltCtx id { kind := 2, code := code, ctx := id, die := die, sl := sl, unit := unit,
                 struct := struct, addr := BitVec.ofNat 64 addr }

/-- A machine check of every context on a die: a context is installed for the whole device, so that is
every installed context (R365, Table 19.7 STRUCT 8; log entry 50). -/
def State.machineCheckAll (s : State) (die struct : Nat) : State :=
  (s.ctxs.map Ctx.id).foldl (fun s id => s.machineCheck id struct 0 die 0 false 0) s

/-! ### Precise traps (R351 to R355) -/

/-- A precise trap: code, DETAIL, FIELD, CODE16, TADDR and TINFO (Table 19.2); `after` when the
return PC is that of the next instruction (codes 22 and 23). -/
structure Trap where
  code : Nat
  detail : Nat := 0
  field : Nat := 0
  code16 : Nat := 0
  taddr : Word := 0#64
  tinfo : Word := 0#64
  after : Bool := false
  deriving DecidableEq, Repr

/-- Why an instruction has no effect of its own (R350). -/
inductive Stop where
  /-- a precise trap -/
  | trap (r : Trap)
  /-- a precise trap of ERET, which is nested: it halts the context (R354, R355) -/
  | nested (r : Trap)
  /-- a machine check of the issuing context: structure, record code, address (R365, R382) -/
  | check (struct code addr : Nat)
  /-- the context log has no room (R363) -/
  | logFull (addr : Word)
  /-- a replay that finds no matching entry (R425): the entry's address and SEQ -/
  | diverged (addr : Word) (seq : Nat)
  /-- the instruction is not ready (R42): an interlock or a busy unit holds it -/
  | hold
  /-- the home of a location holds the access for now (R179, R190) -/
  | holdAt (p : Phys)
  /-- a precise trap of an instruction that took a noise word at issue, now discarded (R379) -/
  | trapNoise (r : Trap)
  /-- a precise trap whose FIELD and TINFO no register gives: both are free values -/
  | trapOpen (r : Trap)
  deriving DecidableEq, Repr

/-- SYS.TCAUSE of a trap (Table 19.3). -/
def Trap.cause (r : Trap) : Word :=
  BitVec.ofNat 64 (r.code + 2 ^ 8 * r.detail + 2 ^ 16 * r.field + 2 ^ 32 * (r.code16 % 2 ^ 16))

/-- The trap registers that a trap writes (R353). -/
def Team.trapRegs (t : Team) (r : Trap) : TrapRegs :=
  { tpc := if r.after then t.pc + 4#64 else t.pc
    tcause := r.cause
    taddr := r.taddr
    tinfo := r.tinfo
    tmode := (t.cc ++ t.mode).setWidth 64
    ts60 := t.getS 60, ts61 := t.getS 61, ts62 := t.getS 62, ts63 := t.getS 63 }

/-- The context halt of a precise trap that finds no handler to enter (R355): the record carries the
trap's code and the trap registers that it would have written. -/
def State.trapHalt (s : State) (t : Team) (r : Trap) : State :=
  (s.putTeam t).haltCtx t.ctx (t.report { kind := 1, code := r.code, addr := r.taddr, info := r.tinfo,
                                          pc := (t.trapRegs r).tpc })

/-- Takes a precise trap: the handler's entry of R353, or the context halt of R355 in a handler
or where TVEC is 0. -/
def State.takeTrap (s : State) (t : Team) (r : Trap) : State :=
  match s.ctx? t.ctx with
  | none => s
  | some c =>
    if t.inHandler || c.tvec == 0#64 then s.trapHalt t r
    else
      s.putTeam { t with trap := t.trapRegs r, mode := 0#16, inHandler := true, pc := c.tvec }

/-- What follows when an instruction stops instead of completing. The record of a halt that is no trap
holds the team's TPC as it stands (Table 19.4). -/
def State.takeStop (s : State) (t : Team) : Stop → State
  | .trap r => s.takeTrap t r
  | .nested r => s.trapHalt t r
  | .check struct code addr =>
    s.haltCtx t.ctx (t.report { kind := 2, code := code, struct := struct,
                                addr := BitVec.ofNat 64 addr, pc := t.trap.tpc })
  | .logFull addr =>
    s.haltCtx t.ctx (t.report { kind := 1, code := 21, addr := addr, pc := t.trap.tpc })
  | .diverged addr seq =>
    s.haltCtx t.ctx (t.report { kind := 1, code := 21, addr := addr,
                                info := BitVec.ofNat 64 (2 ^ 63 + seq), pc := t.trap.tpc })
  | .hold => { s with stalled := true }
  | .holdAt p => { s with stalled := true }.noteRequest p.unit (homeKey p) t.coreId
  | .trapNoise r =>
    (s.modCore t.coreId fun k => { k with noise := k.noise.drop 1 }).takeTrap t r
  | .trapOpen r =>
    let (n, s) := s.takeFree
    s.takeTrap t { r with field := (Config.openRecord (2 * n)).toNat % 256
                          tinfo := Config.openRecord (2 * n + 1) }

/-- ERET's return (R354): PC, MODE, CC and s60 to s63 come back from the trap registers. -/
def Team.eret (t : Team) : Team :=
  let t' := { t with
    pc := t.trap.tpc
    mode := t.trap.tmode.extractLsb' 0 16
    cc := t.trap.tmode.extractLsb' 16 4
    inHandler := false }
  (((t'.setS 60 t.trap.ts60).setS 61 t.trap.ts61).setS 62 t.trap.ts62).setS 63 t.trap.ts63

/-! ### How an instruction ends (R79, R115, R116) -/

/-- The bounds of active loop `n`. -/
def Team.loop (t : Team) (n : Nat) : LoopCounter :=
  if h : n < 3 then t.loops[n] else ⟨0#32, 0#64, 0#64⟩

/-- The team with loop counter `n` replaced. -/
def Team.setLoop (t : Team) (n : Nat) (l : LoopCounter) : Team :=
  if h : n < 3 then { t with loops := t.loops.set n l } else t

/-- Whether an address lies in [S, E) of loop `n`. -/
def Team.inLoop (t : Team) (n : Nat) (a : Word) : Bool :=
  let l := t.loop n
  decide (l.start.toNat ≤ a.toNat) && decide (a.toNat < l.stop.toNat)

/-- The loop-end events of an instruction at `pc` that leaves `npc` as the next PC, innermost
loop first (R115). -/
def Team.loopEnds (t : Team) (pc : Word) : List Nat → Word → Team × Word
  | [], npc => (t, npc)
  | n :: rest, npc =>
    if t.inLoop n pc && npc == (t.loop n).stop then
      let l := t.loop n
      let c := l.count - 1#32
      if c = 0#32 then
        let t' := t.setLoop n { l with count := c }
        Team.loopEnds { t' with active := t'.active.filter (fun k => k != n) } pc rest npc
      else (t.setLoop n { l with count := c }, l.start)
    else Team.loopEnds t pc rest npc

/-- The team after an instruction whose next PC is `npc`; in a handler no loop-end event takes
place (R115, R353). -/
def Team.goTo (t : Team) (npc : Word) : Team :=
  if t.inHandler then { t with pc := npc }
  else
    let (t', npc') := t.loopEnds t.pc t.active npc
    { t' with pc := npc' }

/-- The team after a one-word instruction that completes in sequence (R79). -/
def Team.advance (t : Team) : Team := t.goTo (t.pc + 4#64)

/-- The team after an X-format instruction (R79). -/
def Team.advanceX (t : Team) : Team := t.goTo (t.pc + 8#64)

/-- Ends loop `n` and every loop nested in it; their counters become 0 (R116). -/
def Team.endLoops (t : Team) (n : Nat) : Team :=
  let inner := t.active.takeWhile (fun k => k != n)
  let t' := (inner ++ [n]).foldl
    (fun (t : Team) k => t.setLoop k { t.loop k with count := 0#32 }) t
  { t' with active := (t.active.dropWhile (fun k => k != n)).drop 1 }

/-- R116: the outermost active loop that a taken branch at `pc` to `target` leaves. -/
def Team.leftLoop (t : Team) (pc target : Word) : Option Nat :=
  (t.active.filter (fun n =>
    t.inLoop n pc && !(t.inLoop n target || target == (t.loop n).stop))).getLast?

/-- The team after a taken branch that ends loops (R116). -/
def Team.branch (t : Team) (target : Word) : Team :=
  if t.inHandler then { t with pc := target }
  else match t.leftLoop t.pc target with
    | some n => (t.endLoops n).goTo target
    | none => t.goTo target

/-- The effect of an instruction: the state it leaves, or why it stops. -/
abbrev Effect := Except Stop State

/-- A precise trap as an effect. -/
def raise {α : Type} (r : Trap) : Except Stop α := .error (.trap r)

/-- Codes of Table 19.2. -/
def trapIllegal (cause : Nat) (word : Word) : Trap := { code := 1, detail := cause, tinfo := word }
/-- REG_ALLOT -/
def trapRegAllot (field allot : Nat) : Trap :=
  { code := 2, field := field, tinfo := BitVec.ofNat 64 allot }
/-- RUN_OVERFLOW -/
def trapRunOverflow (occ limit : Nat) : Trap :=
  { code := 3, tinfo := BitVec.ofNat 64 (2 ^ 32 * occ + limit) }
/-- ETYPE_OP -/
def trapEtype (t : Team) : Trap := { code := 4, tinfo := BitVec.ofNat 64 t.etype }
/-- MISALIGNED -/
def trapMisaligned (a : Word) (lane : Nat) : Trap := { code := 5, taddr := a, code16 := lane }
/-- SCR_RANGE -/
def trapScrRange (offset : Word) (rank lane : Nat) : Trap :=
  { code := 10, taddr := offset, tinfo := BitVec.ofNat 64 (rank % 16), code16 := lane }
/-- OPERAND_VALUE -/
def trapOperand (field : Nat) (v : Word) : Trap := { code := 11, field := field, tinfo := v }

end Sys2Proof.Machine
end

