-- ==== Sys2Proof/Machine/Mesh.lean ====
section
/-! DEFINITION. The mesh of a die: tiles, routers of the edge interfaces, links and routes (spec/01 R12 to
R15), and what failed links cut off (spec/22 R418). -/

namespace Sys2Proof.Machine

/-- The tile of a slice (R12). -/
def sliceTile (n : Nat) : Nat × Nat :=
  if n < 16 then (n % 2, n / 2) else (10 + n % 2, (n - 16) / 2)

/-- The tile of a core by its number on the die (R12). -/
def coreTile (n : Nat) : Nat × Nat := (n % 8 + 2, n / 8)

/-- The tile next to one: 0 north, 1 east, 2 south, 3 west; none beyond the die's edge (R13). -/
def nextTile (p : Nat × Nat) (dir : Nat) : Option (Nat × Nat) :=
  match dir with
  | 0 => if p.2 = 0 then none else some (p.1, p.2 - 1)
  | 1 => if p.1 = 11 then none else some (p.1 + 1, p.2)
  | 2 => if p.2 = 7 then none else some (p.1, p.2 + 1)
  | _ => if p.1 = 0 then none else some (p.1 - 1, p.2)

/-- The routers on the top edge to which the CXL controller attaches (Table 1.2). -/
def cxlRouters : List (Nat × Nat) := [(5, 0), (6, 0)]

/-- The router to which a Keresh Link port attaches: ports 4 to 7 on the top edge, 0 to 3 on the bottom edge
(Table 1.2). -/
def portRouter (port : Nat) : Nat × Nat :=
  ([3, 4, 7, 8].getD (port % 4) 3, if port < 4 then 7 else 0)

/-- The routers through which requests for the other die leave a die: those of ports 0 to 3, which bond into
the pair link (R15). -/
def pairRouters : List (Nat × Nat) := (List.range 4).map portRouter

/-- Whether a failed link, given by its near tile's number and its direction, joins two tiles. -/
def linkJoins (l : Nat × Nat) (p q : Nat × Nat) : Bool :=
  let near := (l.1 % 12, l.1 / 12)
  let far := nextTile near l.2
  (near == p && far == some q) || (near == q && far == some p)

/-- The links along a row from one column to another, as pairs of tiles. -/
def rowLinks (y a b : Nat) : List ((Nat × Nat) × (Nat × Nat)) :=
  (rangeFrom (min a b) (max a b - min a b)).map fun x => ((x, y), (x + 1, y))

/-- The links along a column from one row to another. -/
def columnLinks (x a b : Nat) : List ((Nat × Nat) × (Nat × Nat)) :=
  (rangeFrom (min a b) (max a b - min a b)).map fun y => ((x, y), (x, y + 1))

/-- The links of the route of one dimension order between two tiles, along the row first where `row` says
so. -/
def routeLinks (row : Bool) (p q : Nat × Nat) : List ((Nat × Nat) × (Nat × Nat)) :=
  if row then rowLinks p.2 p.1 q.1 ++ columnLinks q.1 p.2 q.2
  else columnLinks p.1 p.2 q.2 ++ rowLinks q.2 p.1 q.1

/-- Whether no dimension-order route joins two tiles without a failed link (R418). -/
def unreachable (fails : List (Nat × Nat)) (p q : Nat × Nat) : Bool :=
  let broken := fun (ls : List ((Nat × Nat) × (Nat × Nat))) =>
    ls.any (fun l => fails.any (fun f => linkJoins f l.1 l.2))
  broken (routeLinks true p q) && broken (routeLinks false p q)

/-- The tile of a core of either die, with its die. -/
def coreEnd (core : Nat) : Nat × (Nat × Nat) := (core / 64, coreTile (core % 64))

/-- The tile of the home of a location, with its die. -/
def homeEnd (p : Phys) : Nat × (Nat × Nat) :=
  (p.unit, sliceTile (if p.space == .dsm then dsmSlice p.addr else homeSlice p.addr))

/-- Whether a packet between two tiles, each with its die, has no way: on one die by either dimension order,
across the dies by a port of the pair link and its partner (R15, R418). -/
def State.cutOff (s : State) (a b : Nat × (Nat × Nat)) : Bool :=
  let fails := fun (d : Nat) => (s.die d).linkFails
  if (fails a.1).isEmpty && (fails b.1).isEmpty then false
  else if a.1 = b.1 then unreachable (fails a.1) a.2 b.2
  else pairRouters.all fun p => unreachable (fails a.1) a.2 p || unreachable (fails b.1) p b.2

/-- Whether the host cannot reach the home of a line: its requests enter the mesh of die 0 at the CXL
controller's routers, and those for die 1 cross the pair link (R1, R15, R27). -/
def State.hostCut (s : State) (die a : Nat) : Bool :=
  cxlRouters.all fun p => s.cutOff (0, p) (die, sliceTile (homeSlice a))

/-- Whether a scale-out port of a die cannot reach the home of a line (R15). -/
def State.portCut (s : State) (d port die a : Nat) : Bool :=
  s.cutOff (d, portRouter port) (die, sliceTile (homeSlice a))

/-- Whether a core cannot reach the host: its requests leave at the CXL controller's routers of die 0, those of
die 1 after the pair link (R1, R15, R27). -/
def State.outCut (s : State) (core : Nat) : Bool :=
  (core / 64 != 0 && !(s.host.linkUp && s.host.clockOk)) || cxlRouters.all fun p => s.cutOff (coreEnd core) (0, p)

/-- Whether a core cannot reach some slice of the device (R418). -/
def State.coreCut (s : State) (core : Nat) : Bool :=
  (List.range s.nDies).any fun d => (List.range 32).any fun n => s.cutOff (coreEnd core) (d, sliceTile n)

/-! ### Stitched rectangles (R328) -/

/-- The tile of rank `r` of a rectangle of width `w` at (x, y) (R41). -/
def rankTile (x y w r : Nat) : Nat × Nat := (x + r % w, y + r / w)

/-- The ranks that a ring links to rank `r` of `n`: the next one (R328). -/
def ringNext (n r : Nat) : Nat := (r + 1) % n

/-- The parent of rank `r` in a rectangle's binary tree (R328). -/
def treeParent (r : Nat) : Option Nat := if r = 0 then none else some ((r - 1) / 2)

/-- The links that a torus adds to a rectangle of width `w` and height `h`, as ranks: those that join the ends
of each row and of each column (R328). -/
def torusWraps (w h : Nat) : List (Nat × Nat) :=
  (List.range h).map (fun y => (w * y, w * y + (w - 1))) ++ (List.range w).map (fun x => (x, w * (h - 1) + x))

/-- The links of a rectangle beside those of the mesh, as pairs of ranks, by TOPO: mesh, ring, tree and
torus (Table 13.6, R328). -/
def stitchLinks (topo w h : Nat) : List (Nat × Nat) :=
  let n := w * h
  match topo with
  | 1 => (List.range n).map fun r => (r, ringNext n r)
  | 2 => (List.range n).filterMap fun r => (treeParent r).map fun p => (r, p)
  | 3 => torusWraps w h
  | _ => []

end Sys2Proof.Machine
end

