-- ==== Sys2Proof/Machine/Home.lean ====
section
/-! DEFINITION. What the home of a line does (spec/07 R176 to R181, spec/09 R223 to R233): applying
bins, serving reads and stores, leases, and firing armed waits (spec/05 R121). -/

namespace Sys2Proof.Machine

/-! ### Armed waits -/

/-- The memory of a space of a die: GDDR7 as its homes hold it, or DSM. -/
def State.space (s : State) (p : PhysSpace) (u : Nat) : Memory :=
  match p with
  | .gddr => (s.die u).mem
  | .dsm => (s.die u).dsm
  | .host => s.host.mem
  | .fabric => lookup [] u s.fabric

/-- The `n`-byte value at a location, as its memory holds it. -/
def State.peek (s : State) (p : Phys) (n : Nat) : Nat := (s.space p.space p.unit).read p.addr n

/-- Whether a team of a core is bound to a bank, a binding or release still in the pipe included
(R258). -/
def State.bankBound (s : State) (core b : Nat) : Bool :=
  s.teams.any (fun x => x.coreId == core && x.binding == some b) ||
    (s.core core).xfs.any (fun x => x.kind == .xtbind && x.bank == b) ||
    s.teams.any (fun t => t.coreId == core &&
      t.savedXf.any (fun x => x.kind == .xtbind && x.bank == b))

/-- Whether the condition of a wait holds now (R120, R121, R216, R258). Pool waits are granted
by the pool (R286). -/
def State.waitHolds (s : State) (t : Team) : WaitKind → Bool
  | .counter k bound => decide ((lookup 0#32 k (s.core t.coreId).counters).toNat ≤ bound.toNat)
  | .watch loc value => s.peek loc 8 != value.toNat
  | .barrier loc gen => s.peek { loc with addr := loc.addr + 4 } 4 != gen.toNat
  | .pool _ => false
  | .bank b => !s.bankBound t.coreId b

/-- Whether a team's armed wait is a WATCH. -/
def Team.onWatch (t : Team) : Bool :=
  match t.wait with
  | some { kind := .watch _ _, .. } => true
  | _ => false

/-- Tests the armed waits that satisfy `p` and latches those whose condition holds (R44, R45).
A watched word that changes ends a donation on its core in its context (R55). A wait of a halted context
never resumes (R358). DESIGN CHOICE (log entry 47): a WATCH does not resume
when its line is written without the word changing, which R46 allows. -/
def State.fireWaits (s : State) (p : Team → WaitKind → Bool) : State :=
  let test := fun (t : Team) => match t.wait with
    | some w => !w.fired && p t w.kind && s.waitHolds t w.kind
    | none => false
  let ends := fun (t : Team) => t.donated && s.teams.any fun x =>
    x.uid != t.uid && x.coreId == t.coreId && x.ctx == t.ctx && x.onWatch && test x
  let latch := fun (t : Team) => { t with
    wait := if test t then t.wait.map (fun w => { w with fired := true }) else t.wait
    donationOver := t.donationOver || ends t }
  { s with teams := mapWhere (fun t => test t || ends t) latch s.teams }

/-- Tests the waits armed on a line (R121). -/
def State.fireLine (s : State) (sp : PhysSpace) (u line : Nat) : State :=
  s.fireWaits fun _ k => match k with
    | .watch loc _ | .barrier loc _ =>
      loc.space == sp && loc.unit == u && lineOf loc.addr == line
    | _ => false

/-- Tests the waits on a counter of a core (R120). -/
def State.fireCounter (s : State) (core k : Nat) : State :=
  s.fireWaits fun t w => match w with
    | .counter j _ => j == k && t.coreId == core
    | _ => false

/-! ### Completion counters (R215, R408) -/

/-- The value of counter `k` of a core. -/
def State.counter (s : State) (core k : Nat) : W32 := lookup 0#32 k (s.core core).counters

/-- Writes counter `k` of a core and tests the waits on it (R120, R215). -/
def State.setCounter (s : State) (core k : Nat) (v : W32) : State :=
  (s.modCore core fun c => { c with counters := insertAt k v c.counters }).fireCounter core k

/-- A completion decrement by the copy engine (0), the matrix engine (1) or the completion
doorbell (3): a counter at 0 stays so and is reported (R406 code 8, R408). -/
def State.decCounter (s : State) (core k source ctx : Nat) : State :=
  let v := s.counter core k
  if v = 0#32 then
    s.report { kind := 7, code := 8, ctx := ctx, die := core / 64, unit := core % 64,
               info := BitVec.ofNat 64 (k + 2 ^ 8 * source) }
  else s.setCounter core k (v - 1#32)

/-! ### The FXADD shadow (R225 to R227) -/

/-- Rounds a fraction to an integer, ties to even. -/
def rneInt (num : Int) (den : Nat) : Int := roundInt .rne num den

/-- Flags of a shadow entry: NAN, PINF, NINF, OVF as bits 0 to 3. -/
abbrev FxFlags := BitVec 4

/-- conv of R226: units and flags of a 32-bit word. -/
def fxConv (x : W32) (fxf : Nat) : Int × FxFlags :=
  match Fmt.f32.decode false x.toNat with
  | .nan => (0, 1#4)
  | .inf neg => (0, if neg then 4#4 else 2#4)
  | .zero _ => (0, 0#4)
  | .fin n d =>
    let u := rneInt (n * 2 ^ fxf) d
    if u < -(2 ^ 95) || 2 ^ 95 - 1 < u then (0, 8#4) else (u, 0#4)

/-- Whether a sum lies outside a signed 96-bit integer (R402). -/
def fxWraps (x : Int) : Bool := decide (x < -(2 ^ 95)) || decide (2 ^ 95 - 1 < x)

/-- A sum kept modulo 2^96 as a signed value (R226). -/
def fxWrap (x : Int) : Int := signedOf 96 (wrapInt 96 x)

/-- A shadow entry: established, sum, flags (Table 9.4). -/
structure FxEntry where
  est : Bool
  sum : Int
  flags : FxFlags
  deriving DecidableEq, Repr

/-- The entry held in 16 bytes. -/
def FxEntry.ofNat (v : Nat) : FxEntry :=
  { est := bitOf v 96, sum := signedOf 96 (bitsOf v 0 96), flags := BitVec.ofNat 4 (bitsOf v 97 4) }

/-- The 16 bytes of an entry. -/
def FxEntry.toNat (e : FxEntry) : Nat :=
  wrapInt 96 e.sum + (if e.est then 2 ^ 96 else 0) + 2 ^ 97 * e.flags.toNat

/-- The visible word of an entry (R227). -/
def FxEntry.visible (e : FxEntry) (fxf : Nat) : W32 :=
  let nan := e.flags.getLsbD 0 || e.flags.getLsbD 3 || (e.flags.getLsbD 1 && e.flags.getLsbD 2)
  BitVec.ofNat 32 <|
    if nan then 0x7FC00000
    else if e.flags.getLsbD 1 then 0x7F800000
    else if e.flags.getLsbD 2 then 0xFF800000
    else roundFmt .f32 .rne (.ofRat e.sum (2 ^ fxf) false)

/-- The entry that a word establishes (R226, R232). -/
def fxEstablish (x : W32) (fxf : Nat) : FxEntry :=
  let (u, f) := fxConv x fxf
  { est := true, sum := u, flags := f }

/-! ### Region operators (R223) -/

/-- The lesser under R109: -0 below +0, a NaN yields the other operand. -/
def fminBits (f : Fmt) (dnz : Bool) (a b : Nat) : Nat :=
  let x := f.decode dnz a
  let y := f.decode dnz b
  if x = .nan then (if y = .nan then f.canonicalNan else roundFmt f .rne y)
  else if y = .nan then roundFmt f .rne x
  else if y.ltZ x then roundFmt f .rne y else roundFmt f .rne x

/-- The greater under R109. -/
def fmaxBits (f : Fmt) (dnz : Bool) (a b : Nat) : Nat :=
  let x := f.decode dnz a
  let y := f.decode dnz b
  if x = .nan then (if y = .nan then f.canonicalNan else roundFmt f .rne y)
  else if y = .nan then roundFmt f .rne x
  else if x.ltZ y then roundFmt f .rne y else roundFmt f .rne x

/-- F32 sum rounded to nearest even, SAT and DNZ clear (R223). -/
def fadd32 (a b : W32) : W32 :=
  BitVec.ofNat 32 (roundFmt .f32 .rne
    (XReal.add false (Fmt.f32.decode false a.toNat) (Fmt.f32.decode false b.toNat)))

/-- Combines two words under region operator 1 to 8, 10, 11 or 13 (Table 9.3). -/
def regionCombine (op : Nat) (a b : W32) : W32 :=
  match op with
  | 1 => a + b
  | 2 => if b.slt a then b else a
  | 3 => if a.slt b then b else a
  | 4 => if b.ult a then b else a
  | 5 => if a.ult b then b else a
  | 6 => a &&& b
  | 7 => a ||| b
  | 8 => a ^^^ b
  | 10 => BitVec.ofNat 32 (fminBits .f32 false a.toNat b.toNat)
  | 11 => BitVec.ofNat 32 (fmaxBits .f32 false a.toNat b.toNat)
  | 13 => fadd32 a b
  | _ => b

/-- The partial of a word from its values in combining order (Table 9.3). -/
def regionPartial (op : Nat) : List W32 → W32
  | [] => 0#32
  | v :: rest => rest.foldl (regionCombine op) v

/-- The word that an application writes for codes other than FXADD: ANY keeps its one value. -/
def regionApply (op : Nat) (old : W32) (vals : List W32) : W32 :=
  if op = 12 then vals.headD old else regionCombine op old (regionPartial op vals)

/-! ### Poison (R365) -/

/-- Whether a line of a die's GDDR7 or DSM is poisoned (Table 19.7). -/
def State.poisoned (s : State) (p : Phys) : Bool :=
  match p.space with
  | .gddr =>
    (s.die p.unit).poison.contains (lineOf p.addr) || (s.die p.unit).dramPoison.contains (lineOf p.addr)
  | .dsm => (s.die p.unit).dsmPoison.contains (lineOf p.addr)
  | _ => false

/-! ### Bins (R229, R231) -/

/-- The shadow address of the word at line offset `o` (R225). -/
def Bin.shadowAt (b : Bin) (o : Nat) : Nat := b.shadow + 4 * (b.off + o)

/-- Appends a record of code 69 or 70 of a slice (Table 21.1). -/
def State.shadowReport (s : State) (die ctx code addr info : Nat) : State :=
  s.reportLimited { kind := 4, code := code, ctx := ctx, die := die, sl := true,
                    unit := homeSlice addr, addr := BitVec.ofNat 64 addr,
                    info := BitVec.ofNat 64 info } true

/-- A change to bytes of a line by the home itself: the line is in the shared cache where it can be, and
is dirty there. -/
def State.homeChange (s : State) (die line cls : Nat) (f : Memory → Memory) : State :=
  s.modDie die fun k =>
    let k := k.touch line cls
    { k with mem := f k.mem }.markDirty line

/-- Applies the FXADD contributions of one word (R226, R227, R402). OVF is first set in the entry by the
visible word that establishes it, or else by a contribution. An uncorrectable entry is a machine check of the
region's context, and the contributions are dropped (Table 19.7, STRUCT 6). DEDUCED (log entry 54): SHADOW is
a local physical address of the die of the line's home, whose slice keeps the entries (R225). -/
def State.applyFx (s : State) (die : Nat) (b : Bin) (w : BinWord) : State :=
  let pa := b.line + 4 * w.idx
  let sh := b.shadowAt (4 * w.idx)
  if s.poisoned { space := .gddr, unit := die, addr := sh } then
    s.machineCheck b.ctx 6 0 die (homeSlice pa) true sh
  else
  let k := s.die die
  let old := BitVec.ofNat 32 (k.mem.read pa 4)
  let e0 := FxEntry.ofNat (k.mem.read sh 16)
  let e := if e0.est then e0 else fxEstablish old b.fxf
  let sum := e.sum + w.sum
  let e' : FxEntry := { est := true, sum := fxWrap sum, flags := e.flags ||| w.flags }
  let cls := s.classOf b.ctx
  let s := (s.homeChange die (lineOf sh) cls fun m => m.write sh 16 e'.toNat).modDie die fun k =>
    { k with mem := k.mem.write pa 4 (e'.visible b.fxf).toNat }
  let s := if fxWraps sum then s.shadowReport die b.ctx 70 pa 0 else s
  if !(e0.est && e0.flags.getLsbD 3) && e'.flags.getLsbD 3 then
    let v := if e.flags.getLsbD 3 then old
      else (w.vals.find? (fun x => (fxConv x b.fxf).2 == 8#4)).getD 0#32
    s.shadowReport die b.ctx 69 pa v.toNat
  else s

/-- Applies the contributions of one word of a bin. -/
def State.applyWord (s : State) (die : Nat) (b : Bin) (w : BinWord) : State :=
  if b.op = 9 then s.applyFx die b w
  else
    let pa := b.line + 4 * w.idx
    s.modDie die fun k => { k with
      mem := k.mem.write pa 4 (regionApply b.op (BitVec.ofNat 32 (k.mem.read pa 4)) w.vals).toNat }

/-- Marks a line as written since it last reached GDDR7 (R250). -/
def State.markDirty (s : State) (die line : Nat) : State :=
  s.modDie die fun k => k.markDirty line

/-- Applies a bin to its line as one store, and frees it (R231). The store has the class of service of
the bin's context (R187). -/
def State.applyBin (s : State) (die : Nat) (b : Bin) : State :=
  let cls := s.classOf b.ctx
  let s := s.modDie die fun k =>
    { k with bins := eraseFirst (fun x => x.line == b.line) k.bins }.touch b.line cls
  let s := b.words.foldl (fun s w => s.applyWord die b w) s
  (s.markDirty die b.line).fireLine .gddr die b.line

/-- Applies the bin of a line, if it has one (R231). -/
def State.applyLine (s : State) (die line : Nat) : State :=
  match (s.die die).bins.find? (fun b => b.line == line) with
  | some b => s.applyBin die b
  | none => s

/-! ### Reads and stores at the home (R177) -/

/-- The core behind a requester number: a core, its copy engine at 2,000 and up, or none (R197). -/
def requesterCore (n : Nat) : Option Nat :=
  if n < 1000 then some n else if 2000 ≤ n then some (n - 2000) else none

/-- CONT of an atomic's reply: within 1,024 ticks the home has served a request for the line from another
core, or holds one (R197). -/
def State.contention (s : State) (die line core : Nat) : Bool :=
  let k := s.die die
  let other := fun (n : Nat) => match requesterCore n with
    | some c => c != core
    | none => false
  k.recent.any (fun r => r.1 == line && other r.2.1 && decide (k.time ≤ r.2.2 + 1024)) ||
    k.mesh.any (fun q => homeKey q.loc == line && other q.core) ||
    k.flight.any (fun p => lineOf p.addr == line && p.core != core)

/-- A request of a requester reaches the home of a line: other cores' write leases on it have been
released (R179), its bins are applied (R231), and the line is in the shared cache where a way is free for
it (R188). -/
def State.reachHome (s : State) (who die line : Nat) : State :=
  (((s.recallLine who die line).applyLine die line).noteRequest die line who).touchLine die line

/-- home_read of R177: applies the line's bins and grants a lease when one is taken. -/
def State.homeRead (s : State) (core die line : Nat) (lease : Bool) : State :=
  let s := s.reachHome core die line
  if lease then
    s.modDie die fun k => k.raiseExp line (s.homeTime die line + (s.die die).leaseLength)
  else s

/-- The words that a store of `n` bytes at `a` touches, as aligned addresses. -/
def wordsTouched (a n : Nat) : List Nat :=
  (List.range ((a + n + 3) / 4 - a / 4)).map (fun i => (a / 4 + i) * 4)

/-- Establishes the FXADD shadow of a stored word afresh (R232); an entry that is established with OVF
is reported, for the context whose region the home knows the line by (R402; log entry 48). -/
def State.establish (s : State) (die ctx fxf shadow pa : Nat) : State :=
  let word := BitVec.ofNat 32 ((s.die die).mem.read pa 4)
  let e := fxEstablish word fxf
  let sh := shadow + 4 * (pa % 128)
  let s := (s.homeChange die (lineOf sh) s.clos fun m => m.write sh 16 e.toNat).modDie die fun k =>
    { k with mem := k.mem.write pa 4 (e.visible fxf).toNat }
  if e.flags.getLsbD 3 then s.shadowReport die ctx 69 pa word.toNat else s

/-- Writes bytes of one line into the home's copy: bins first (R231), then the bytes, then the
FXADD shadow (R232). DEDUCED (log entry 29): a write of the host or of the fabric to a line that the home
knows as one of an FXADD region establishes the shadow like any other home_store, though R232 names a store,
an atomic and a copy write alone. -/
def State.lineWrite (s : State) (die a : Nat) (bytes : List Byte) : State :=
  let line := lineOf a
  let s := (s.applyLine die line).touchLine die line
  let s := s.modDie die fun k => { k with mem := k.mem.setBytes a bytes }
  let s := match (s.die die).fxLines.find? (fun p => p.1 == line) with
    | some (_, ctx, fxf, sh) =>
      (wordsTouched a bytes.length).foldl (fun (s : State) w => s.establish die ctx fxf sh w) s
    | none => s
  (s.markDirty die line).fireLine .gddr die line

/-- The GWCT of a store to a line at this moment (R177). -/
def State.gwctOf (s : State) (die line : Nat) : Nat :=
  max (s.homeTime die line) ((s.die die).lineExp line)

/-- home_store of R177 for bytes of one line; answers the state and the GWCT. -/
def State.homeStore (s : State) (core die a : Nat) (bytes : List Byte) : State × Nat :=
  let s := (s.reachHome core die (lineOf a)).lineWrite die a bytes
  (s, s.gwctOf die (lineOf a))

/-- A store to DSM: its GWCT is its order point (R178). Bytes that a SYS.SLICECFG write has taken away
are discarded (R22). -/
def State.dsmStore (s : State) (die a : Nat) (bytes : List Byte) : State × Nat :=
  let s := s.modDie die fun k => { k with
    dsm := if k.dsmSize < a + bytes.length then k.dsm else k.dsm.setBytes a bytes }
  let s := s.fireLine .dsm die (lineOf a)
  (s, s.tileTime die (64 + dsmSlice a))

/-! ### The requests of a migrated page (R190) -/

/-- Whether a place in the order of arrival of a migrated page's requests comes before another. -/
def arrivedBefore (a b : Option Nat) : Bool :=
  match a, b with
  | some m, some n => decide (m < n)
  | _, _ => false

/-- Whether a request or a pair for a line that arrived before the given place is still to be served (R190). -/
def Die.olderHeld (k : Die) (line : Nat) (seq : Option Nat) : Bool :=
  k.mesh.any (fun q => homeKey q.loc == line && arrivedBefore q.seq seq) ||
    k.flight.any (fun p => lineOf p.addr == line && arrivedBefore p.seq seq)

/-- The place in that order of a request that reaches its home now, where a migration holds the page. -/
def Die.arrival (k : Die) (p : Phys) : Option Nat :=
  if p.space == .gddr && k.migrates (lineOf p.addr) then some k.time else none

/-! ### Leases of the issuing core -/

/-- The guard of a line for a core (R174). -/
def guardTicks (core die : Nat) : Nat := if core / 64 = die then 2 else 8

/-- The L1 line under a lease that is still usable (R177, l1_load). -/
def State.leased? (s : State) (core die line : Nat) : Option L1Line :=
  (s.core core).l1.find? fun l =>
    l.die == die && l.line == line && decide (s.coreClock core + guardTicks core die < l.exp)

/-- The write lease that a core holds on a line (R197). -/
def State.ownLease? (s : State) (core die line : Nat) : Option WLease :=
  (s.die die).wleases.find? fun w =>
    w.line == line && w.core == core && decide ((s.die die).time < w.expiry)

/-- The set of the L1 in which a line lies: 1,024 sets (R16, log entry 46). -/
def l1Set (l : L1Line) : Nat := l.line / 128 % 1024

/-- A line enters an L1 of 16 ways and 1,024 sets (R16); of a full set, a free value says which line goes
(log entry 46). -/
def State.fillL1 (s : State) (core : Nat) (new : L1Line) : State :=
  let rest := (s.core core).l1.filter (fun l => !(l.die == new.die && l.line == new.line))
  let set := rest.filter (fun l => l1Set l == l1Set new)
  if set.length < 16 then s.modCore core fun k => { k with l1 := new :: rest }
  else
    let (n, s) := s.takeFree
    let out := set[Config.l1Victim n % set.length]?
    s.modCore core fun k => { k with l1 := new :: rest.filter (fun l => some l != out) }

/-- The replies to loads of a line that are on their way to a core no longer fill its L1: a store of the
core, a later read of the line or an LINV has overtaken them (R177, R180, R185). -/
def State.overtake (s : State) (core : Nat) (p : Nat → Nat → Bool) : State :=
  s.modCore core fun k => { k with
    replies := mapWhere (fun r => r.loc.space == .gddr && p r.loc.unit (lineOf r.loc.addr))
      (fun r => { r with fills := false }) k.replies }

/-- l1_load of R177: the line's data, from a usable lease, from the core's own write lease, or from
the home. A load through an NC mapping is always served at the home (Table 7.3, R195): DEDUCED, since
the pseudocode of R177 tests the lease first (log entry 49). -/
def State.loadLine (s : State) (core die line : Nat) (nc : Bool) : State × Memory :=
  if nc then
    let s := s.homeRead core die line false
    (s, (s.die die).mem.slice line 128)
  else
    match s.leased? core die line, s.ownLease? core die line with
    | some l, _ => (s, l.data)
    | none, some _ => (s, (s.die die).mem.slice line 128)
    | none, none =>
      let s := (s.homeRead core die line true).overtake core fun d l => d == die && l == line
      let data := (s.die die).mem.slice line 128
      let e := s.homeTime die line + (s.die die).leaseLength
      (s.fillL1 core { die := die, line := line, data := data, exp := e }, data)

/-- The issuing core's L1 copy of a line takes the `n` bytes at `a` that the core has stored, as the home
now holds them; in an FXADD region those are whole words (R177, R232). -/
def State.refreshL1 (s : State) (core die a n : Nat) : State :=
  let line := lineOf a
  let k := s.die die
  let (from_, len) :=
    if k.fxLines.any (fun p => p.1 == line) then (a / 4 * 4, (a + n + 3) / 4 * 4 - a / 4 * 4) else (a, n)
  (s.overtake core fun d l => d == die && l == line).modCore core fun c =>
    { c with l1 := mapWhere (fun l => l.die == die && l.line == line)
                     (fun l => { l with data := l.data.copyRange k.mem from_ len }) c.l1 }

/-- Ends the leases that a core's L1 holds on the lines that satisfy `p`, of die and line: read leases,
write leases, and those that a reply on its way would bring (R185, R199, R211). -/
def State.dropLines (s : State) (core : Nat) (p : Nat → Nat → Bool) : State :=
  let ends := fun (s : State) (d : Nat) => s.modDie d fun k => { k with
    wleases := k.wleases.filter (fun w => !(w.core == core && p d w.line)) }
  ends (ends ((s.overtake core p).modCore core fun k => { k with
    l1 := k.l1.filter (fun l => !p l.die l.line) }) 0) 1

/-- Whether the task of a record holds LRC, or held it until it completed and still owes its successor
decrements (R287). -/
def State.heldTask (s : State) (task : Phys) : Bool :=
  s.tasks.any (fun k => k.loc == task && k.hold) || s.succQ.any (fun x => x.loc == task && x.held)

/-- Joins a GWCT into a task, complete or not, or into the DONE decrement of a wave's or LRC holder's context
(R39, R287). -/
def State.taskGwct (s : State) (task : Phys) (wave : Bool) (ctx g : Nat) : State :=
  let s' := if wave then s else { s with
    tasks := mapWhere (fun k => k.loc == task) (fun k => { k with gwct := max k.gwct g }) s.tasks
    succQ := mapWhere (fun x => x.loc == task) (fun x => { x with gwct := max x.gwct g }) s.succQ }
  if wave || s.heldTask task then s'.modCtx ctx fun c => { c with doneG := max c.doneG g } else s'

/-- Joins a GWCT into a team and into its task; a team that has exited leaves its task (R177, R38, R39,
R287). -/
def State.joinGwct (s : State) (uid g : Nat) : State :=
  match s.team? uid with
  | some t =>
    (s.modTeam uid fun t => { t with gwct := max t.gwct g }).taskGwct t.ident.taskAt
      t.ident.isWave t.ctx g
  | none => match s.leftovers.find? (fun x => x.uid == uid) with
    | some x => s.taskGwct x.task x.wave x.ctx g
    | none => s

/-- One reply that a team's stores and DSM elements awaited has come, or will not come. -/
def State.replied (s : State) (uid : Nat) : State :=
  { s with
    teams := mapWhere (fun t => t.uid == uid) (fun t => { t with outstanding := t.outstanding - 1 }) s.teams
    leftovers := (mapWhere (fun x => x.uid == uid) (fun x => { x with count := x.count - 1 })
      s.leftovers).filter fun x => x.count != 0 }

/-- A store of a team is acknowledged with its GWCT (R177). -/
def State.acknowledge (s : State) (uid g : Nat) : State := (s.joinGwct uid g).replied uid

/-- The context of the team that a request names, one that has exited included. -/
def State.ctxOfUid (s : State) (uid : Nat) : Option Nat :=
  match s.team? uid with
  | some t => some t.ctx
  | none => (s.leftovers.find? (fun x => x.uid == uid)).map Leftover.ctx

/-- The core of the team that a request names, one that has exited included. -/
def State.coreOfUid (s : State) (uid : Nat) : Option Nat :=
  match s.team? uid with
  | some t => some t.coreId
  | none => (s.leftovers.find? (fun x => x.uid == uid)).map Leftover.core

/-- The die of a requester: a core's, that of the engines of die `n - 1000`, or that of the copy engine of
core `n - 2000`. -/
def requesterDie (n : Nat) : Nat :=
  if 2000 ≤ n then (n - 2000) / 64 else if 1000 ≤ n then n - 1000 else n / 64

/-- Whether failed links leave no way from a requester to the home of a location: a core, or its copy engine
(R418). -/
def State.wayCut (s : State) (who : Nat) (p : Phys) : Bool :=
  match requesterCore who with
  | some c => s.cutOff (coreEnd c) (homeEnd p)
  | none => false

/-- Whether the home cannot serve a core's request for a line now: another core holds a write
lease on it (R179), its page is migrating (R190), the pair link is down (R397), or no way leads there
(R418). -/
def State.homeBusy (s : State) (core die line : Nat) : Bool :=
  let k := s.die die
  k.wleases.any (fun w => w.line == line && w.core != core && decide (k.time < w.expiry)) ||
    k.migrates line ||
    (requesterDie core != die && !(s.host.linkUp && s.host.clockOk)) ||
    s.wayCut core { space := .gddr, unit := die, addr := line }

/-- Whether the line of a location is busy for a core; DSM is while a SYS.SLICECFG write is pending
(R22) or the pair link is down. -/
def State.busyAt (s : State) (core : Nat) (p : Phys) : Bool :=
  match p.space with
  | .gddr => s.homeBusy core p.unit (lineOf p.addr)
  | .dsm => (s.die p.unit).pendSlice.isSome ||
      (requesterDie core != p.unit && !(s.host.linkUp && s.host.clockOk)) || s.wayCut core p
  | _ => false

end Sys2Proof.Machine
end

