-- ==== Sys2Proof/Machine/Xlate.lean ====
section
/-! DEFINITION. Translation (spec/07 R168 to R171, spec/21 R390): the walk, the TLB, the checks of
R169 in their order, and region lookup (spec/09 R220 to R222). -/

namespace Sys2Proof.Machine

/-- The kind of an access (R169, R193). -/
inductive Access where
  | fetch
  | read
  | write
  | both
  deriving DecidableEq, Repr

/-- Who translates: a die, the core whose TLB it uses if any, and the context. -/
structure Walker where
  die : Nat
  tlb : Option Nat
  ctx : Nat
  deriving DecidableEq, Repr

/-- The walker of a team: its core and its context. -/
def Team.walker (t : Team) : Walker := { die := t.ident.die, tlb := some t.coreId, ctx := t.ctx }

/-- The number under which a walker's requests are known at a home. -/
def Walker.requester (w : Walker) : Nat := w.tlb.getD (1000 + w.die)

/-- A translated address (R169); `resident` is false on an absent page. -/
structure Mapped where
  leaf : Word
  phys : Phys
  nc : Bool
  resident : Bool
  deriving DecidableEq, Repr

/-- VA[63:56] all equal VA[55] (R168). -/
def canonical (va : Word) : Bool :=
  let hi := wordBits va 55 9
  hi == 0 || hi == 511

/-- Reserved bits of a directory entry are clear (Table 7.2). -/
def dirClean (e : Word) : Bool := wordBits e 52 12 == 0 && wordBits e 1 12 == 0

/-- LOC of a leaf (Table 7.3). -/
def leafLoc (e : Word) : Nat := wordBits e 8 3

/-- Reserved bits of a leaf are clear (Table 7.3). -/
def leafClean (e : Word) : Bool :=
  wordBits e 63 1 == 0 && wordBits e 11 5 == 0 && wordBits e 5 2 == 0 &&
    (leafLoc e == 4 || wordBits e 52 11 == 0)

/-- PFN of a leaf. -/
def leafPfn (e : Word) : Nat := wordBits e 16 36

/-- RES of a leaf. -/
def leafResident (e : Word) : Bool := bitOf e.toNat 1

/-- Whether a leaf permits an access kind (R169, R193). -/
def leafPermits (e : Word) : Access → Bool
  | .fetch => bitOf e.toNat 4
  | .read => bitOf e.toNat 2
  | .write => bitOf e.toNat 3
  | .both => bitOf e.toNat 2 && bitOf e.toNat 3

/-- A TRANSLATION trap (Table 19.2). -/
def trapTranslation (level : Nat) (va entry : Word) : Trap :=
  { code := 7, detail := level, taddr := va, tinfo := entry }

/-- STRUCT of a poisoned line: DSM or the shared cache's copy of the line, else GDDR7 (Table 19.7). -/
def State.poisonStruct (s : State) (p : Phys) : Nat :=
  if p.space == .dsm || (s.die p.unit).poison.contains (lineOf p.addr) then 3 else 10

/-- The machine check of a read of a poisoned line (R365, R390). -/
def State.poisonStop (s : State) (p : Phys) : Stop :=
  .check (s.poisonStruct p) 0 (lineOf p.addr)

/-- Reads one 8-byte word at its home without a lease: a table read (R168, R390). A migration of the
table's page holds it (R190). -/
def State.tableRead (s : State) (who die a : Nat) : Except Stop (State × Word) :=
  let p : Phys := { space := .gddr, unit := die, addr := a }
  if (s.die die).migrates (lineOf a) then .error .hold
  else if s.poisoned p then .error (s.poisonStop p)
  else
    let s := s.homeRead who die (lineOf a) false
    .ok (s, BitVec.ofNat 64 ((s.die die).mem.read a 8))

/-- The levels still to walk from the table at `t`; answers the leaf and where it lies. -/
def State.walkFrom (s : State) (w : Walker) (va : Word) :
    List (Nat × Nat) → Nat → Except Stop (State × Word × Nat)
  | [], t => do
    let a := t + 8 * wordBits va 16 10
    let (s, e) ← s.tableRead w.requester w.die a
    pure (s, e, a)
  | (lvl, shift) :: rest, t => do
    let (s, e) ← s.tableRead w.requester w.die (t + 8 * wordBits va shift 10)
    if !(bitOf e.toNat 0) || !(dirClean e) then raise (trapTranslation lvl va e)
    else
      let next := wordBits e 13 39 * 8192
      if s.gddrSize ≤ next then raise (trapTranslation lvl va e)
      else s.walkFrom w va rest next

/-- The root table of a context as in effect (R168, R170). -/
def State.ptroot (s : State) (ctx : Nat) : Nat :=
  match s.ctx? ctx with
  | some c => wordBits c.eff.ptroot 13 39 * 8192
  | none => 0

/-- The TLB's leaf for a page, or the walk's (R169, R170). The Bool says whether it was cached. -/
def State.leafOf (s : State) (w : Walker) (va : Word) : Except Stop (State × Word × Nat × Bool) :=
  let vpn := va.toNat / 65536
  let hit := w.tlb.bind fun c =>
    (s.core c).tlb.find? (fun e => e.ctx == w.ctx && e.vpn == vpn)
  match hit with
  | some e => .ok (s, e.leaf, e.leafAddr, true)
  | none =>
    let root := s.ptroot w.ctx
    if s.gddrSize ≤ root then raise (trapTranslation 1 va 0#64)
    else do
      let (s, e, a) ← s.walkFrom w va [(1, 46), (2, 36), (3, 26)] root
      pure (s, e, a, false)

/-- Whether a PFN lies at or beyond the memory of its space (R169, R390): the DETAIL to raise. -/
def State.pfnBeyond (s : State) (w : Walker) (leaf : Word) : Option Nat :=
  let pa := leafPfn leaf * 65536
  match leafLoc leaf with
  | 0 | 1 => if s.gddrSize ≤ pa then some 4 else none
  | 3 => if (s.die w.die).dsmSize ≤ pa then some 5 else none
  | _ => none

/-- The physical location of an address under a leaf. -/
def physOf (w : Walker) (leaf va : Word) : Phys :=
  let a := leafPfn leaf * 65536 + wordBits va 0 16
  match leafLoc leaf with
  | 0 => { space := .gddr, unit := w.die, addr := a }
  | 1 => { space := .gddr, unit := 1 - w.die, addr := a }
  | 2 => { space := .host, unit := 0, addr := a }
  | 3 => { space := .dsm, unit := w.die, addr := a }
  | _ => { space := .fabric, unit := wordBits leaf 52 11, addr := a }

/-- Keeps a translation in the TLB of its core (R170). DESIGN CHOICE (log entry 47): adjacent pages are
never merged into one entry, which R170 allows. -/
def State.fillTlb (s : State) (w : Walker) (va leaf : Word) (a : Nat) : State :=
  match w.tlb with
  | some c => s.modCore c fun k => { k with
      tlb := { ctx := w.ctx, vpn := va.toNat / 65536, leaf := leaf, leafDie := w.die,
               leafAddr := a } :: k.tlb }
  | none => s

/-- translate of R169 for an instruction that may reach the spaces `locs`. -/
def State.translate (s : State) (w : Walker) (va : Word) (kind : Access) (locs : List Nat) :
    Except Stop (State × Mapped) :=
  if !canonical va then raise (trapTranslation 0 va 0#64)
  else do
    let (s, leaf, a, cached) ← s.leafOf w va
    let loc := leafLoc leaf
    if !(bitOf leaf.toNat 0) || !leafClean leaf || 5 ≤ loc || (loc = 1 && s.nDies = 1) then
      raise (trapTranslation 4 va leaf)
    else if !leafPermits leaf kind then
      raise { code := 8, taddr := va, tinfo := leaf }
    else if !(locs.contains loc) then
      raise { code := 6, taddr := va, tinfo := BitVec.ofNat 64 loc }
    else
      let m : Mapped := { leaf := leaf, phys := physOf w leaf va, nc := bitOf leaf.toNat 7,
                          resident := leafResident leaf }
      if !leafResident leaf then pure (s, m)
      else match s.pfnBeyond w leaf with
        | some level => raise (trapTranslation level va leaf)
        | none => pure (if cached then s else s.fillTlb w va leaf a, m)

/-- A translation for a form in which absence is a trap (Table 7.4). -/
def State.translateResident (s : State) (w : Walker) (va : Word) (kind : Access)
    (locs : List Nat) : Except Stop (State × Mapped) := do
  let (s, m) ← s.translate w va kind locs
  if m.resident then pure (s, m) else raise { code := 9, taddr := va, tinfo := m.leaf }

/-- Marks the lane that a trap of an element names (Table 19.2). -/
def Stop.atLane (lane : Nat) : Stop → Stop
  | .trap r => .trap { r with code16 := lane }
  | x => x

/-! ### Region lookup (R220 to R222) -/

/-- Reads `n` region entries from `a` on. -/
def State.readRegions (s : State) (who die : Nat) : Nat → Nat →
    Except Stop (State × List RegionEntry)
  | 0, _ => .ok (s, [])
  | n + 1, a => do
    let (s, w0) ← s.tableRead who die a
    let (s, w1) ← s.tableRead who die (a + 8)
    let (s, w2) ← s.tableRead who die (a + 16)
    let (s, w3) ← s.tableRead who die (a + 24)
    let (s, rest) ← s.readRegions who die n (a + 32)
    pure (s, { vbase := w0, size := w1, opw := w2, shadow := w3 } :: rest)

/-- The region entries of a context as a core caches them, read when they are not cached. -/
def State.regionsOf (s : State) (core ctx : Nat) : Except Stop (State × List RegionEntry) :=
  match (s.core core).regions.find? (fun r => r.1 == ctx) with
  | some (_, es) => .ok (s, es)
  | none =>
    match s.ctx? ctx with
    | none => .ok (s, [])
    | some c => do
      let n := min (wordBits c.eff.rgncnt 0 9) 256
      let (s, es) ← s.readRegions core (core / 64) n (wordBits c.eff.rgntab 6 46 * 64)
      pure (s.modCore core fun k => { k with regions := (ctx, es) :: k.regions }, es)

/-- Whether an entry's range holds an address, computed exactly (R222). -/
def RegionEntry.covers (e : RegionEntry) (va : Word) : Bool :=
  decide (e.vbase.toNat ≤ va.toNat) && decide (va.toNat < e.vbase.toNat + e.size.toNat)

/-- OP of an entry. -/
def RegionEntry.op (e : RegionEntry) : Nat := wordBits e.opw 0 8
/-- FXF of an entry. -/
def RegionEntry.fxf (e : RegionEntry) : Nat := wordBits e.opw 8 7
/-- SHADOW of an entry as a physical address. -/
def RegionEntry.shadowAt (e : RegionEntry) : Nat := wordBits e.shadow 7 45 * 128

/-- Whether an entry is malformed (Table 21.3, code 65). -/
def RegionEntry.malformed (e : RegionEntry) : Bool :=
  e.size == 0#64 || wordBits e.size 0 7 != 0 || !canonical e.vbase || wordBits e.vbase 0 7 != 0 ||
    wordBits e.opw 15 49 != 0 || wordBits e.shadow 52 12 != 0 || wordBits e.shadow 0 7 != 0 ||
    e.op == 0 || decide (13 < e.op) ||
    (if e.op = 9 then decide (95 < e.fxf) || e.shadowAt == 0
     else e.fxf != 0 || e.shadowAt != 0)

/-- The lowest-numbered entry that covers an address, with its number (R222). -/
def coveringEntry (va : Word) : Nat → List RegionEntry → Option (Nat × RegionEntry)
  | _, [] => none
  | i, e :: rest => if e.covers va then some (i, e) else coveringEntry va (i + 1) rest

/-- Holds where the region table cannot be read now: a store must know its region first (R190, R232). -/
def State.needRegions (s : State) (core ctx : Nat) (p : Phys) : Except Stop Unit :=
  if p.space != .gddr then .ok ()
  else match s.regionsOf core ctx with
    | .error .hold => .error .hold
    | _ => .ok ()

/-- The home learns from the address through which a line is stored whether it lies in an FXADD region,
and with which shadow (R232). DEDUCED (log entry 29): the mapping of the access decides, so a store through an
address or a context that no FXADD entry covers makes the home forget the line's shadow. A table read that
fails teaches nothing. -/
def State.learnFx (s : State) (core ctx : Nat) (va : Word) (p : Phys) : State :=
  if p.space != .gddr then s
  else
    let forget := fun (s : State) => s.modDie p.unit fun k => { k with
      fxLines := removeAt (lineOf p.addr) k.fxLines }
    match s.regionsOf core ctx with
    | .error _ => s
    | .ok (s, es) =>
      match coveringEntry va 0 es with
      | none => forget s
      | some (_, e) =>
        if e.malformed || e.op != 9 then forget s
        else
          let off := lineOf (va.toNat - e.vbase.toNat)
          s.modDie p.unit fun k => { k with
            fxLines := insertAt (lineOf p.addr) (ctx, e.fxf, e.shadowAt + 4 * off) k.fxLines }

end Sys2Proof.Machine
end

