-- ==== Sys2Proof/Machine/Log.lean ====
section
/-! DEFINITION. The context log of recorded inputs (spec/19 R363, spec/22 R423) and reading it back
in replay (spec/22 R424). -/

namespace Sys2Proof.Machine

/-- The walker of the device itself on a die, in a context. -/
def deviceWalker (die ctx : Nat) : Walker := { die := die, tlb := none, ctx := ctx }

/-- Stores one 8-byte word of the device's own at its home; it waits in the mesh where a migration holds the
page (R190). -/
def State.ctxStore (s : State) (w : Walker) (p : Phys) (v : Word) : State :=
  let bytes := leBytes 8 v.toNat
  if (s.die p.unit).deviceHeld (lineOf p.addr) then
    s.modDie p.unit fun k => { k with
      mesh := k.mesh ++ [deviceReq (.store bytes) w.ctx w.requester p.unit p.addr k.time] }
  else (s.homeStore w.requester p.unit p.addr bytes).1

/-- Writes 8-byte words at a virtual address of a context, at their homes (R363). A write to the other die waits
while the pair link is down (R397). -/
def State.ctxWrite (s : State) (w : Walker) : Word → List Word → Except Stop State
  | _, [] => .ok s
  | va, v :: rest => do
    let (s, m) ← s.translateResident w va .write [0, 1]
    if m.phys.unit != w.die && !(s.host.linkUp && s.host.clockOk) then .error .hold
    else (s.ctxStore w m.phys v).ctxWrite w (va + 8#64) rest

/-- The words of a log entry (Table 22.6). -/
def logEntry (seq die type time : Nat) (payload : List Word) : List Word :=
  [BitVec.ofNat 64 (2 ^ 32 * (seq % 2 ^ 32) + 2 ^ 20 * die + 2 ^ 8 * (payload.length / 2) + type),
   BitVec.ofNat 64 time] ++ payload

/-- Appends an entry of a time to a context's log (R363, R423). A table line that cannot be read is a machine
check (R390); an address that does not translate has no room. -/
def State.logAt (s : State) (c : Ctx) (die type time : Nat) (payload : List Word) : Except Stop State :=
  let words := logEntry (s.die die).logSeq die type time payload
  let va := c.rlbase + BitVec.ofNat 64 c.logPos
  if c.rlsize.toNat < c.logPos + 8 * words.length then .error (.logFull va)
  else match s.ctxWrite (deviceWalker die c.id) va words with
    | .error .hold => .error .hold
    | .error (.check struct code addr) => .error (.check struct code addr)
    | .error _ => .error (.logFull va)
    | .ok s =>
      let s := s.modCtx c.id fun c => { c with logPos := c.logPos + 8 * words.length }
      .ok (s.modDie die fun k => { k with logSeq := (k.logSeq + 1) % 2 ^ 32 })

/-- Appends an entry to a context's log now, in the order of its events: not before those that wait (R363). -/
def State.appendEntry (s : State) (c : Ctx) (die type : Nat) (payload : List Word) : Except Stop State :=
  if c.logWait.isEmpty then s.logAt c die type (s.time die) payload else .error .hold

/-- Appends an entry to a context's log when CTXCTL.REC is set (R363). -/
def State.appendLog (s : State) (ctx die type : Nat) (payload : List Word) :
    Except Stop State :=
  match s.ctx? ctx with
  | none => .ok s
  | some c => if c.recording then s.appendEntry c die type payload else .ok s

/-- What follows an entry of a device event that could not be appended, for a reason that no wait mends: a log
without room halts the context (R363), a table line that is uncorrectable is a machine check (R390). -/
def State.logFailed (s : State) (ctx die : Nat) : Stop → State
  | .logFull va => s.haltCtx ctx { kind := 1, code := 21, ctx := ctx, die := die, addr := va }
  | .check struct code addr => s.machineCheck ctx struct code die 0 false addr
  | _ => s

/-- Appends an entry for an event of the device. Where the log cannot be written now, the entry waits with the
TIME of its event (R190, R363, R397). -/
def State.logEvent (s : State) (ctx die type : Nat) (payload : List Word) : State :=
  match s.appendLog ctx die type payload with
  | .ok s => s
  | .error .hold =>
    s.modCtx ctx fun c => { c with logWait := c.logWait ++ [(die, type, s.time die, payload)] }
  | .error e => s.logFailed ctx die e

/-- Appends the entries of a context that have waited, oldest first, as far as the log can be written. -/
def State.flushEntries (s : State) (ctx : Nat) : List (Nat × Nat × Nat × List Word) → State
  | [] => s
  | (die, type, time, payload) :: rest =>
    match s.ctx? ctx with
    | none => s
    | some c => match s.logAt c die type time payload with
      | .ok s => (s.modCtx ctx fun c => { c with logWait := rest }).flushEntries ctx rest
      | .error .hold => s
      | .error e => (s.modCtx ctx fun c => { c with logWait := [] }).logFailed ctx die e

/-- Appends what waits for the logs of the contexts (R363). -/
def State.flushLogs (s : State) : State :=
  s.ctxs.foldl (fun s c => s.flushEntries c.id c.logWait) s

/-! ### Reading the log back (R424) -/

/-- The 8-byte word at a virtual address, when it can be read. -/
def State.peekVirtual (s : State) (w : Walker) (va : Word) : Option Nat :=
  match s.translateResident w va .read [0, 1] with
  | .ok (s, m) => some (s.peek m.phys 8)
  | .error _ => none

/-- One log entry as replay reads it. -/
structure LogEntry where
  seq : Nat
  die : Nat
  type : Nat
  time : Nat
  at_ : Word
  payload : List Word
  deriving DecidableEq, Repr

/-- Reads `n` words from a virtual address on. -/
def State.peekWords (s : State) (w : Walker) : Nat → Word → Option (List Word)
  | 0, _ => some []
  | n + 1, va => do
    let v ← s.peekVirtual w va
    let rest ← s.peekWords w n (va + 8#64)
    pure (BitVec.ofNat 64 v :: rest)

/-- The entries of a log of `size` bytes at `va`, in order. -/
def State.readLog (s : State) (w : Walker) : Nat → Word → Nat → List LogEntry
  | 0, _, _ => []
  | fuel + 1, va, size =>
    if size < 16 then []
    else match s.peekWords w 2 va with
      | some [h, time] =>
        let n := wordBits h 8 12
        if n = 0 then []
        else match s.peekWords w (2 * n) (va + 16#64) with
          | some payload =>
            { seq := wordBits h 32 32, die := wordBits h 20 1, type := wordBits h 0 8,
              time := time.toNat, at_ := va, payload := payload } ::
              s.readLog w fuel (va + BitVec.ofNat 64 (16 + 16 * n)) (size - (16 + 16 * n))
          | none => []
      | _ => []

/-- The entries of one die that a context replays; empty when it does not. -/
def State.replayLog (s : State) (ctx die : Nat) : List LogEntry :=
  match s.ctx? ctx with
  | some c => match c.replay with
    | some (base, size) =>
      (s.readLog (deviceWalker die ctx) (size / 32 + 1) base size).filter (fun e => e.die == die)
    | none => []
  | none => []

/-- A context's replay has diverged: it halts with a record of kind 1, CODE 21, ADDR the entry's address and
INFO its SEQ with bit 63 set; both are 0 for an input that has no entry (R425; log entry 15). -/
def State.diverge (s : State) (ctx die : Nat) (addr : Word) (seq : Nat) : State :=
  s.haltCtx ctx { kind := 1, code := 21, ctx := ctx, die := die, addr := addr,
                  info := BitVec.ofNat 64 (2 ^ 63 + seq) }

/-- Whether a context runs in replay mode (R424). -/
def State.replaying (s : State) (ctx : Nat) : Bool :=
  match s.ctx? ctx with
  | some c => c.replay.isSome
  | none => false

/-- How many of a die's placement-order entries a context has replayed. -/
def State.replayDone (s : State) (ctx die : Nat) : Nat :=
  match s.ctx? ctx with
  | some c => lookup 0 die c.replayPos
  | none => 0

/-- The words that identify a team in entries of TYPE 1 and 7 (Table 22.7). -/
def Team.logIds (t : Team) : List Word :=
  [t.ident.task,
   BitVec.ofNat 64 (t.ident.teamid + 2 ^ 32 *
     (if t.ident.isWave then t.ident.waveid % 2 ^ 32 else 2 ^ 32 - 1))]

/-- The TIME entry of a team's read of index `n` (R424). -/
def State.timeEntry (s : State) (t : Team) (n : Nat) : Option LogEntry :=
  (s.replayLog t.ctx t.ident.die).find? fun e =>
    e.type == 1 && e.payload.drop 1 == t.logIds ++ [BitVec.ofNat 64 n]

/-- What a read of TIME returns: device time, or the replayed value (R85, R424). -/
def State.timeFor (s : State) (t : Team) : Word :=
  if s.replaying t.ctx then
    match s.timeEntry t t.timeReads with
    | some e => e.payload.headD 0#64
    | none => BitVec.ofNat 64 (s.coreClock t.coreId)
  else BitVec.ofNat 64 (s.coreClock t.coreId)

/-- Counts `n` reads of TIME by a team (Table 22.7, the index of a read). -/
def State.countReads (s : State) (uid n : Nat) : State :=
  if n = 0 then s else s.modTeam uid fun t => { t with timeReads := t.timeReads + n }

/-- Whether MODE.RSRC has a team's reads of TIME recorded (R85): it selects the logged source, the context
does not replay, and it has a log. DEDUCED (log entry 49): where RLSIZE is 0 there is no log to write. -/
def State.rsrcLogs (s : State) (t : Team) : Bool :=
  match s.ctx? t.ctx with
  | some c => t.rsrc == 2 && c.replay.isNone && c.rlsize != 0#64
  | none => false

/-- Records a read of TIME where the context or MODE.RSRC selects it (R85, R363). -/
def State.appendTime (s : State) (t : Team) (payload : List Word) : Except Stop State :=
  match s.ctx? t.ctx with
  | some c =>
    if c.recording || s.rsrcLogs t then s.appendEntry c t.ident.die 1 payload else .ok s
  | none => .ok s

/-- Records `n` reads of TIME by a team, or matches them in replay (R363, R424, R425). -/
def State.logReads (s : State) (t : Team) (v : Word) : Nat → Nat → Except Stop State
  | 0, _ => .ok s
  | n + 1, k =>
    if s.replaying t.ctx && (s.timeEntry t k).isNone then .error (.diverged 0#64 0)
    else do
      let s ← s.appendTime t ([v] ++ t.logIds ++ [BitVec.ofNat 64 k])
      s.logReads t v n (k + 1)

/-- Whether a context records or replays its inputs. -/
def State.logs (s : State) (ctx : Nat) : Bool :=
  match s.ctx? ctx with
  | some c => c.recording || c.replay.isSome
  | none => false

/-- Whether a team's reads of TIME are recorded or replayed (R85, R363, R424). -/
def State.logsTime (s : State) (t : Team) : Bool := s.logs t.ctx || s.rsrcLogs t

/-- What follows an instruction that reads TIME `n` times, the value being `v`; `logs` says whether they
were recorded or replayed when it issued. -/
def State.noteTimeReads (s : State) (logs : Bool) (t : Team) (v : Word) (n : Nat) : Except Stop State :=
  if !logs then .ok (s.countReads t.uid n)
  else do
    let s ← s.logReads t v n t.timeReads
    pure (s.countReads t.uid n)

end Sys2Proof.Machine
end

