-- ==== Sys2Proof/Machine/Ready.lean ====
section
/-! DEFINITION. Scalar sources (spec/05 R100). When a team may issue (spec/02 R42), the interlocks that hold an instruction
(spec/05 R101, spec/06 R129, spec/10 R253, spec/11 R278), and the frame that every encoded
instruction shares: held, rejected by a decoding check (spec/04 R88), trapped, or completed. -/

namespace Sys2Proof

/-- The scalar registers that an instruction reads or writes without a field naming them as a
scalar register (Table 5.6, R265, R234, Table 8.4, R354). -/
def Instr.impliedScalars : Instr → List Nat
  | .call _ => [63]
  | .eret => [60, 61, 62, 63]
  | .vlds _ a _ _ | .vsts _ a _ => [a.toNat, a.toNat + 1]
  | .cpy _ _ b | .cpyg _ _ b | .cpyx _ _ b | .cpyq _ _ b | .cpyt _ _ b | .discard _ _ b
  | .prefetch _ _ b | .cpya _ _ b | .cwalk _ _ b => [b.toNat, b.toNat + 1]
  | .mma _ a | .mmag _ a _ | .mmas _ a _ | .mmad _ a | .mlda _ a | .msta _ a =>
    [a.toNat, a.toNat + 1, a.toNat + 2, a.toNat + 3]
  | _ => []

/-- The scalar register that an operand names. -/
def Operand.scalarNumber : Operand → Option Nat
  | .scalarSrc f | .scalarDst f => if f.toNat < 64 then some f.toNat else none
  | _ => none

/-- Every scalar register that an instruction reads or writes. -/
def Instr.scalarNumbers (i : Instr) : List Nat :=
  i.operands.filterMap Operand.scalarNumber ++ i.impliedScalars

/-- Whether an operand is a read of TIME (Table 4.4). -/
def Operand.readsTime : Operand → Bool
  | .scalarSrc f => f == 65#7
  | _ => false

/-- How often an instruction reads TIME. -/
def Instr.timeReads (i : Instr) : Nat := (i.operands.filter Operand.readsTime).length

/-- The vector registers that an instruction may write. -/
def Operand.vectorWritten : Operand → Option Nat
  | .vectorDst f => if f.toNat ≤ 95 then some f.toNat else none
  | .vectorImplied n => some n
  | _ => none

/-- Instructions that hold while any transform instruction of the team is in flight: RALLOT (R380),
and SPAWN, whose registers a mask names. -/
def Instr.waitsForPipe : Instr → Bool
  | .rallot _ _ | .spawn _ _ _ => true
  | _ => false

/-- The matrix instructions that wait for an earlier one of the team (R278). -/
def Instr.waitsForMatrix : Instr → Bool
  | .mzero _ _ | .mma _ _ | .mmag _ _ _ | .mmas _ _ _ | .mmad _ _ | .mlda _ _ | .msta _ _
  | .malloc _ _ => true
  | _ => false

/-- The instructions that wait for a load of the team whose reply is on its way: EXIT and EPEND, which give up
the team's registers, and the peer accesses, for which the team waits in its place. -/
def Instr.waitsForLoad : Instr → Bool
  | .exit | .epend | .clds _ _ _ | .csts _ _ _ => true
  | _ => false

/-- The tile that an MTOV reads. -/
def Instr.tileRead : Instr → Option Nat
  | .mtov _ a _ _ => some a.toNat
  | _ => none

end Sys2Proof

namespace Sys2Proof.Machine

/-! ### Conditions on the team (R42, R358, R335, R404) -/

/-- Whether a context exists and is not halted (R358). -/
def State.ctxRuns (s : State) (id : Nat) : Bool :=
  match s.ctx? id with
  | some c => !c.halted
  | none => false

/-- The register of a load whose reply is on its way and that later instructions may overtake (R182). -/
def Team.loading (t : Team) : Option Nat :=
  match t.pend with
  | some (.load d _ _ false) => some d
  | _ => none

/-- Whether a team waits for no reply that holds every later instruction. -/
def Team.goesOn (t : Team) : Bool := t.pend.isNone || t.loading.isSome

/-- Whether a team waits for nothing but its turn: resident, not yielded, its context not halted, no access
outstanding but a load that later instructions may overtake. -/
def State.waitsTurn (s : State) (t : Team) : Bool :=
  t.isResident && t.wait.isNone && t.goesOn && s.ctxRuns t.ctx

/-- Whether the team's own state lets it issue: it waits for its turn alone, and its core runs. -/
def State.canIssue (s : State) (t : Team) : Bool :=
  s.waitsTurn t && (s.core t.coreId).power == .run && !(s.core t.coreId).tripped

/-! ### Operands that the state names -/

/-- sread (R100): a scalar register or a special of Table 4.4. -/
def State.sread (s : State) (t : Team) (f : Field) : Word :=
  if f.toNat < 64 then t.getS f.toNat else s.special t (s.timeFor t) f.toNat

/-- The bits that are set in the low 32 of a scalar source: a word mask of row 0xE (R303, R304). -/
def State.wordMask (s : State) (t : Team) (f : Field) : List Nat :=
  (List.range 32).filter (bitOf (wordBits (s.sread t f) 0 32))

/-- The vector registers of row 0xE that no vector field names: vk of TRACE and DEFER's mask, SPAWN's
base and v(A + k), RETIRE's v11 (R303, R304, R305, R310, R373). -/
def State.rayVectors (s : State) (t : Team) : Instr → List Nat
  | .trace _ a | .defer _ a => s.wordMask t a
  | .spawn _ a b => a.toNat :: (s.wordMask t b).map (fun k => a.toNat + k)
  | .retire d _ => if d = 96#7 then [] else [11]
  | _ => []

/-- Every vector register that an instruction names. -/
def State.namedVectors (s : State) (t : Team) (i : Instr) : List Nat := i.vectorNumbers ++ s.rayVectors t i

/-- The decoding check that fails first, of 1 and 3 to 5: an implied register above v95 fails check 4
(R304, Table 4.6). -/
def State.failedCheck (s : State) (t : Team) (i : Instr) : Option Nat :=
  if (s.rayVectors t i).any (fun n => decide (95 < n)) then some (min 4 (i.illegalCause.getD 4))
  else i.illegalCause

/-! ### Interlocks -/

/-- The vector registers that a transform instruction writes (R254). -/
def XfOp.dests (x : XfOp) : List Nat :=
  match x.kind with
  | .xqnt | .xsort => [x.dst, x.dst + 1]
  | .xtld | .xtbind => []
  | _ => [x.dst]

/-- The transform instructions in flight of a team. -/
def State.teamXfs (s : State) (t : Team) : List XfOp :=
  (s.core t.coreId).xfs.filter (fun x => x.uid == t.uid)

/-- The matrix operations in flight of a team. -/
def State.teamMats (s : State) (t : Team) : List MatOp :=
  (s.core t.coreId).mats.filter (fun x => x.uid == t.uid)

/-- Whether a TRACE, DEFER or SPAWN of the team still waits at its source to enter a ray in a bin (R414), or
a RETIRE to enter its pairs in the stream buffer (R305). -/
def State.entersRays (s : State) (t : Team) : Bool :=
  (s.core t.coreId).entering.any (fun e => e.uid == t.uid) ||
  (s.die t.ident.die).rays.any fun r => r.src == some t.uid &&
    (match r.state with | .entering _ => true | _ => false)

/-- Whether a load of the team whose reply is on its way holds the instruction: it names the load's register, or
gives the team up. -/
def Team.loadHolds (t : Team) (i : Instr) : Bool :=
  match t.loading with
  | some d => i.scalarNumbers.contains d || i.waitsForLoad
  | none => false

/-- Whether an operation in flight holds the instruction (R129, R182, R253, R278, R305, R380, R414). -/
def State.interlocked (s : State) (t : Team) (i : Instr) : Bool :=
  let xs := s.teamXfs t
  let ms := s.teamMats t
  let touched := s.namedVectors t i
  let written := i.operands.filterMap Operand.vectorWritten
  s.entersRays t ||
  t.loadHolds i ||
  xs.any (fun x =>
    (x.reserved.isNone && !x.dests.isEmpty) ||
    x.dests.any (fun d => touched.contains d) ||
    (!x.started && !x.dests.isEmpty && written.contains x.src)) ||
  (i.waitsForPipe && !xs.isEmpty) ||
  (i.waitsForMatrix && !ms.isEmpty) ||
  ms.any (fun m =>
    (m.kind == .mmas && i.scalarNumbers.contains m.dest) ||
    (m.kind != .msta && i.tileRead == some m.tile))

/-! ### The decoding checks (Table 4.6) -/

/-- Checks 2 to 6 of Table 4.6 for a decoded instruction: the trap that the first failing one
raises. -/
def State.decodeChecks (s : State) (t : Team) (i : Instr) : Except Stop Unit :=
  if i.privileged && !s.privileged t then raise (trapIllegal 2 i.firstWord)
  else match s.failedCheck t i with
    | some c => raise (trapIllegal c i.firstWord)
    | none =>
      match (s.namedVectors t i).find? (fun n => decide (t.allot ≤ n)) with
      | some n => raise (trapRegAllot n t.allot)
      | none => .ok ()

/-- An instruction that stops waits for the reply to a load of its team: a trap is taken with every earlier
instruction complete (R351, R353). -/
def Team.settles (t : Team) (e : Effect) : Effect :=
  match e with
  | .ok s => .ok s
  | .error e => .error (if t.pend.isSome then .hold else e)

/-- What an encoded instruction does for the team that issues it. -/
def State.runIssue (s : State) (i : Instr) (t : Team) (body : Team → Effect) : Effect :=
  if !s.canIssue t || s.interlocked t i then .error .hold
  else t.settles do
    s.decodeChecks t i
    let s' ← body t
    s'.noteTimeReads (s.logsTime t) t (s.timeFor t) i.timeReads

/-- The outcome of an encoded instruction: its team is the one that issues. A held instruction
changes nothing but the mark of it (log entry 6). -/
def issue (i : Instr) (s : State) (body : Team → Effect) :
    Host.Outcome State Fault Refusal :=
  match s.team? s.cur with
  | none => .fault .noIssuingTeam
  | some t =>
    match s.runIssue i t body with
    | .ok s' => .next s'
    | .error e => .next (s.takeStop t e)

/-- An instruction that only changes its team, and always completes. -/
def issueTeam (i : Instr) (s : State) (f : Team → Team) : Host.Outcome State Fault Refusal :=
  issue i s fun t => .ok (s.putTeam (f t))

/-- The outcome of a device step: refused where its condition does not hold. -/
def event (name : String) (s : Option State) : Host.Outcome State Fault Refusal :=
  match s with
  | some s' => .next s'
  | none => .refused (.notEnabled name)

end Sys2Proof.Machine
end

