-- ==== Sys2Proof/Machine/Pool.lean ====
section
/-! DEFINITION. The ray pool and its reservations (spec/12 R284, R286, R287, spec/22 R413), and the
step POOL_GRANT. -/

namespace Sys2Proof.Machine

/-! ### Records and counts (R284, R287) -/

/-- FREE of a die: the records that no ray holds; a granted SPAWN's are placed with the grant (R284,
R286). -/
def State.poolFree (s : State) (d : Nat) : Nat := (s.die d).poolCapacity - (s.die d).rays.length

/-- Takes `n` from a context's LRC; a fall to 0 makes a DONE decrement of die `d`'s pool due
(R287). -/
def State.dropLrc (s : State) (d ctx n : Nat) : State :=
  s.modCtx ctx fun c => { c with
    lrc := c.lrc - n
    doneDue := if 0 < c.lrc && c.lrc - n == 0 then c.doneDue ++ [d] else c.doneDue }

/-- The live ray of a number. -/
def State.ray? (s : State) (d num : Nat) : Option Ray := (s.die d).rays.find? (fun r => r.num == num)

/-- Applies a change to a live ray. -/
def State.modRay (s : State) (d num : Nat) (f : Ray → Ray) : State :=
  s.modDie d fun k => { k with rays := mapWhere (fun r => r.num == num) f k.rays }

/-- Frees a ray: FREE rises and LRC falls by 1 (R287). -/
def State.freeRay (s : State) (d num : Nat) : State :=
  match s.ray? d num with
  | none => s
  | some r =>
    (s.modDie d fun k => { k with rays := eraseFirst (fun x => x.num == num) k.rays }).dropLrc d r.ctx 1

/-- Frees every ray that a team still holds (R306). -/
def State.freeHeld (s : State) (t : Team) : State :=
  t.rays.foldl (fun s p => s.freeRay t.ident.die p.2) s

/-- One pair of a retired ray is settled; with the last one the ray is freed (R305). -/
def State.settlePair (s : State) (d num : Nat) : State :=
  match s.ray? d num with
  | some r => match r.state with
    | .retiring left =>
      if left ≤ 1 then s.freeRay d num
      else s.modRay d num fun r => { r with state := .retiring (left - 1) }
    | _ => s
  | none => s

/-- The indices in use of a pool slice. -/
def Die.sliceIndices (k : Die) (slice : Nat) : List Nat :=
  (k.rays.filter (fun r => r.num % 32 == slice)).map (fun r => r.num / 32)

/-- The least natural number from `i` on that a list lacks, looking at most `n` numbers far. -/
def leastMissing (l : List Nat) : Nat → Nat → Nat
  | 0, i => i
  | n + 1, i => if l.contains i then leastMissing l n (i + 1) else i

/-- The number of the next record: the next slice from the pointer with a free record (R284), and
the lowest free index in it. -/
def Die.nextRay (k : Die) : Nat :=
  let per := 4096 * k.poolw
  let order := (List.range 32).map (fun i => (k.poolPtr + i) % 32)
  let slice := (order.find? (fun x => decide ((k.sliceIndices x).length < per))).getD k.poolPtr
  let used := k.sliceIndices slice
  slice + 32 * leastMissing used used.length 0

/-- Places a new record in the pool (R284). -/
def State.newRay (s : State) (d ctx : Nat) (words : List W32) (st : RayState) (src : Option Nat) : State :=
  s.modDie d fun k =>
    let n := k.nextRay
    { k with
      rays := k.rays ++ [{ num := n, ctx := ctx, words := words, state := st, key := 0, since := k.time,
                           src := src }]
      poolPtr := (n % 32 + 1) % 32 }

/-- Places a record for a team's SPAWN; it is about to enter a traversal bin (R284, R304). -/
def State.placeRay (s : State) (t : Team) (words : List W32) : State :=
  s.newRay t.ident.die t.ctx words (.entering none) (some t.uid)

/-- Places `n` records for the SPAWN of a team to write, in order; answers their numbers (R286). -/
def State.reserveRays (s : State) (t : Team) : Nat → State × List Nat
  | 0 => (s, [])
  | n + 1 =>
    let num := (s.die t.ident.die).nextRay
    let (s, rest) := (s.newRay t.ident.die t.ctx [] (.reserved t.uid) none).reserveRays t n
    (s, num :: rest)

/-- The hold that a task takes on LRC with its first SPAWN of a ray; the DONE decrement waits for what its teams'
stores returned before it too (R287). -/
def State.taskHold (s : State) (t : Team) : State :=
  let mine := fun (k : TaskState) => k.loc == t.ident.taskAt
  match s.tasks.find? mine with
  | some k =>
    if t.ident.isWave || k.hold then s
    else
      { s with tasks := mapWhere mine (fun k => { k with hold := true }) s.tasks }.modCtx t.ctx
        fun c => { c with lrc := c.lrc + 1, doneG := max c.doneG k.gwct }
  | none => s

/-- A SPAWN of `p` rays is granted: the task's hold and the rays count in LRC (R287). -/
def State.countRays (s : State) (t : Team) (p : Nat) : State :=
  (s.taskHold t).modCtx t.ctx fun c => { c with lrc := c.lrc + p }

/-! ### Reservations (R22, R286, R413) -/

/-- The most that the pool can ever grant a SPAWN of the team. -/
def State.poolMost (s : State) (t : Team) : Nat :=
  let k := s.die t.ident.die
  if t.ident.isWave then k.poolCapacity else k.poolCapacity - k.poolRsv

/-- Whether a request for `p` records can be granted now; none is while a SYS.SLICECFG write is
pending (R22). -/
def State.poolGrants (s : State) (t : Team) (p : Nat) : Bool :=
  let k := s.die t.ident.die
  k.pendSlice.isNone &&
    (if t.ident.isWave then decide (p ≤ s.poolFree t.ident.die)
     else decide (p + k.poolRsv ≤ s.poolFree t.ident.die))

/-- The records that a waiter asks for. -/
def Team.poolAsk (t : Team) : Nat :=
  match t.wait with
  | some { kind := .pool p, .. } => p
  | _ => 0

/-- The first waiter of the wave queue, or of the other queue. -/
def State.poolHead (s : State) (d : Nat) (waves : Bool) : Option Team :=
  (((s.die d).waiters.filterMap s.team?).filter (fun t => t.ident.isWave == waves)).head?

/-- Lets a waiter resume, with the records granted to it: they are placed and counted now (R286, R287). -/
def State.resumeWaiter (s : State) (t : Team) (granted : Nat) : State :=
  let s := s.modDie t.ident.die fun k => { k with
    waiters := k.waiters.filter (fun u => u != t.uid), waiterSince := removeAt t.uid k.waiterSince }
  let s := if granted = 0 then s else s.countRays t granted
  let (s, nums) := s.reserveRays t granted
  s.modTeam t.uid fun t =>
    { t with granted := granted, placed := nums, wait := t.wait.map (fun w => { w with fired := true }) }

/-- The head of the wave queue, else the head of the other queue, is granted where its condition holds. -/
def State.grantHead (s : State) (d : Nat) : Option State :=
  let try_ := fun (waves : Bool) =>
    match s.poolHead d waves with
    | some t => if s.poolGrants t t.poolAsk then some (s.resumeWaiter t t.poolAsk) else none
    | none => none
  match try_ true with
  | some s' => some s'
  | none => try_ false

/-- Grants heads, at most `n`, until one fails. -/
def State.grantHeads (s : State) (d : Nat) : Nat → State
  | 0 => s
  | n + 1 => match s.grantHead d with
    | some s' => s'.grantHeads d n
    | none => s

/-- FREE, RSV or the capacity has changed: the pool tests the heads of its queues in the same cycle (R286). -/
def State.testPool (s : State) (d : Nat) : State := s.grantHeads d (s.die d).waiters.length

/-- POOL_GRANT: the pool tests the heads of its queues, one of which it can grant. -/
def State.poolGrant (s : State) (d : Nat) : Option State :=
  if (s.grantHead d).isSome then some (s.testPool d) else none

/-- POOL_GRANT. -/
def execPoolGrant (s : State) : Host.Outcome State Fault Refusal :=
  event "POOL_GRANT" (s.poolGrant s.arg.die)

/-- Resumes the waiters whose request can no longer be granted (R286, R413). -/
def State.resumeHopeless (s : State) (d : Nat) : State :=
  ((s.die d).waiters.filterMap s.team?).foldl
    (fun (s : State) t => if s.poolMost t < t.poolAsk then s.resumeWaiter t 0 else s) s

/-- RSV or the capacity has changed (R286). -/
def State.poolChanged (s : State) (d : Nat) : State := (s.resumeHopeless d).testPool d

end Sys2Proof.Machine
end

