-- ==== Sys2Proof/Machine/Errors.lean ====
section
/-! DEFINITION. Errors of memories and datapaths (spec/19 R365, Table 19.7): corrected ones, which are
counted, and uncorrectable ones with their outcomes; scratchpad words that are uncorrectable until they
are written (spec/21 R403, spec/22 R411). When an error shows is the environment's (log entry 6). -/

namespace Sys2Proof.Machine

/-! ### Scratchpads -/

/-- The size of a core's scratchpad (R16). -/
def scratchSize : Nat := 2 ^ 20

/-- The scratchpad words from `a` on that `n` bytes cover whole are sound again (R365). -/
def Core.mend (k : Core) (a n : Nat) : Core :=
  { k with badScratch := k.badScratch.filter (fun w => !(decide (a ≤ w) && decide (w + 4 ≤ a + n))) }

/-- A core's scratchpad with bytes written; a word that is written whole is sound again (R365). -/
def Core.putScratch (k : Core) (a : Nat) (bytes : List Byte) : Core :=
  { k with scratch := k.scratch.setBytes a bytes }.mend a bytes.length

/-- Whether `n` bytes of a scratchpad from `a` on meet an uncorrectable word. -/
def Core.badAt (k : Core) (a n : Nat) : Bool :=
  k.badScratch.any fun w => decide (w < a + n) && decide (a < w + 4)

/-- A read of an uncorrectable scratchpad word is a machine check of the context that reads it
(Table 19.7, STRUCT 5). -/
def State.soundScratch (s : State) (core a n : Nat) : Except Stop Unit :=
  if (s.core core).badAt a n then .error (.check 5 0 a) else .ok ()

/-! ### What an error does (R365) -/

/-- A ray leaves the pool and every place that names it. -/
def State.dropRay (s : State) (d num : Nat) : State :=
  let s := (s.freeRay d num).modDie d fun k => { k with
    skBins := (k.skBins.map fun b => { b with rays := b.rays.filter (fun r => r.1 != num) }).filter
      (fun b => !b.rays.isEmpty)
    waves := k.waves.map fun w => { w with rays := w.rays.filter (fun r => r != num) } }
  let s : State := { s with
    teams := mapWhere (fun t => t.ident.die == d)
      (fun t => { t with rays := t.rays.filter (fun r => r.2 != num) }) s.teams
    cores := s.cores.map fun p =>
      if p.1 / 64 = d then (p.1, { p.2 with
        batches := p.2.batches.map fun b => { b with rays := b.rays.filter (fun r => r != num) } })
      else p }
  s.testPool d

/-- The machine check of an error's context. -/
def State.upsetCheck (s : State) (u : Upset) (ctx : Nat) : State :=
  s.machineCheck ctx u.struct 0 u.die u.tile u.isSlice u.at_

/-- The outcome of an uncorrectable error (Table 19.7). -/
def State.uncorrected (s : State) (u : Upset) : State :=
  let line := lineOf u.at_
  let add := fun (l : List Nat) => if l.contains line then l else line :: l
  match u.struct with
  | 1 =>
    if u.isSlice then s.modDie u.die fun k => { k with
      treelets := k.treelets.filter (fun t => !(decide (t.base ≤ u.at_) && decide (u.at_ < t.base + 16384))) }
    else s.modCore (64 * u.die + u.tile) fun k => { k with l1 := k.l1.filter (fun l => l.line != line) }
  | 3 =>
    if u.dsm then s.modDie u.die fun k => { k with dsmPoison := add k.dsmPoison }
    else s.modDie u.die fun k => if k.dirty.contains line then { k with poison := add k.poison } else k
  | 4 | 9 => s.upsetCheck u u.ctx
  | 5 =>
    if u.at_ < scratchSize then
      s.modCore (64 * u.die + u.tile) fun k => { k with badScratch := u.at_ / 4 * 4 :: k.badScratch }
    else s.upsetCheck u u.ctx
  | 6 =>
    match (s.die u.die).bins.find? (fun b => b.line == line) with
    | some b =>
      (s.modDie u.die fun k => { k with bins := eraseFirst (fun x => x.line == line) k.bins }).upsetCheck u b.ctx
    | none => match (s.die u.die).fxLines.find? (fun p => p.1 == line) with
      | some (_, ctx, _) => s.upsetCheck u ctx
      | none => s
  | 7 =>
    match s.ray? u.die u.at_ with
    | some r => (s.dropRay u.die u.at_).upsetCheck u r.ctx
    | none => s
  | 8 => s.machineCheckAll u.die 8
  | 10 => s.modDie u.die fun k => { k with dramPoison := add k.dramPoison }
  | _ => s

/-- An error shows: one that its SRAM corrects is counted in a record of kind 3, limited to one for each
structure and tile (R359, R365); an uncorrectable one has its outcome. -/
def State.upset (s : State) (u : Upset) : State :=
  if u.corrected then
    if 1 ≤ u.struct ∧ u.struct ≤ 8 then
      s.reportLimited { kind := 3, code := 0, die := u.die, sl := u.isSlice, unit := u.tile,
                        struct := u.struct } false
    else s
  else s.uncorrected u

end Sys2Proof.Machine
end

