-- ==== Sys2Proof/Machine/Operands.lean ====
section
/-! DEFINITION. Operand forms: vector sources (spec/03 R58), masks,
and the address of a scalar access (spec/08 R193). -/

namespace Sys2Proof.Machine

/-- s[D] as an old destination value. -/
def Team.sreg (t : Team) (f : Field) : Word := t.getS f.toNat

/-- The team with s[D] written. -/
def Team.setD (t : Team) (f : Field) (v : Word) : Team := t.setS f.toNat v

/-- The width that Q selects in rows 0x0 and 0x2 and for atomics: 64 or 32 (Table 4.2). -/
def widthOf (q : BitVec 1) : Nat := if q = 0#1 then 64 else 32

/-- The bytes that Q selects in row 0x8 (Table 4.2). -/
def sizeOf (z : BitVec 2) : Nat :=
  match z with
  | 0#2 => 8
  | 1#2 => 4
  | 2#2 => 2
  | _ => 1

/-- sread restricted to its low `w` bits, as an unsigned integer (R103). -/
def State.sreadN (s : State) (t : Team) (f : Field) (w : Nat) : Nat := (s.sread t f).toNat % 2 ^ w

/-- The encoding of 1 in every sub-element (Table 3.2). -/
def oneElem (etype : Nat) : W32 :=
  let (ty, ns) := elemType etype
  packElem ty (List.replicate ns (subRound ty .rne (.fin 1 1)))

/-- A vector source: v0 to v95, vzero, vlane or vone (R58). -/
def Team.vread (t : Team) (f : Field) : VReg :=
  let e := t.ident.elanes
  match f.toNat with
  | 96 => if e = 0 then [] else [{ val := 0#32, cnt := e }]
  | 97 => (List.range e).map (fun i => { val := BitVec.ofNat 32 i, cnt := 1 })
  | 98 => if e = 0 then [] else [{ val := oneElem t.etype, cnt := e }]
  | n => t.vregs.getD n []

/-- lane_value of R77. -/
def VReg.lane : VReg → Nat → W32
  | [], _ => 0#32
  | r :: rest, i => if i < r.cnt then r.val else VReg.lane rest (i - r.cnt)

/-- The lanes at which a run of a register starts, from `s` on. -/
def VReg.startsFrom : Nat → VReg → List Nat
  | _, [] => []
  | s, r :: rest => s :: VReg.startsFrom (s + r.cnt) rest

/-- The run boundaries of a register: starts above lane 0 (R130). -/
def VReg.bounds (v : VReg) : List Nat := (VReg.startsFrom 0 v).drop 1

/-- coalesce of R77. -/
def VReg.coalesce : VReg → VReg
  | [] => []
  | r :: rest =>
    match VReg.coalesce rest with
    | [] => [r]
    | q :: more => if q.val = r.val then { val := r.val, cnt := r.cnt + q.cnt } :: more
                   else r :: q :: more

/-- Lane `i` of a mask. -/
def laneOn (m : Mask) (i : Nat) : Bool := m.getLsbD i

/-- The guarded lanes below a bound, ascending. -/
def Team.guarded (t : Team) (l : Nat) : List Nat :=
  let g := t.guard
  (List.range (min l t.ident.elanes)).filter (fun i => laneOn g i)

/-- The rounding of an instruction that takes RSR as RNE: scalar and engine forms (R77). -/
def Team.roundingNoDraw (t : Team) : Rounding :=
  { rnd := if t.rnd = 5 then 0 else t.rnd, sat := t.sat, dnz := t.dnz, draw := 0 }

/-- The scalar address of rows 0x8 and 0x9 (R193). -/
def State.address (s : State) (t : Team) (a b : Field) : Word := s.sread t a + s.sread t b

/-- ETYPE_OP unless MODE.ETYPE lies in the form's set (R128). -/
def Team.needEtype (t : Team) (ok : List Nat) : Except Stop Unit :=
  if ok.contains t.etype then .ok () else raise (trapEtype t)

/-- R128: F. -/
def etypesF : List Nat := [0, 1, 2]
/-- R128: int. -/
def etypesInt : List Nat := [3, 4, 5, 6, 7, 8, 9, 10, 11]
/-- R128: num. -/
def etypesNum : List Nat := [0, 1, 2, 3, 4, 5, 6, 7, 8, 9, 10, 11, 12]

end Sys2Proof.Machine
end

