-- ==== Sys2Proof/Machine/Access.lean ====
section
/-! DEFINITION. A team's accesses to memory: alignment, ranges over lines and pages (spec/08 R193),
loads and stores at the home (spec/07 R177, R180), its own update pairs (spec/08 R211), and the
conditions of fences (spec/07 R183). -/

namespace Sys2Proof.Machine

/-- The pairs of a core that have not left it: in its stream buffers, or waiting for room there. -/
def Core.pairs (k : Core) : List Pair :=
  k.streams.flatMap Prod.snd ++ k.entering.flatMap (fun e => e.groups.flatten)

/-- The pairs of a team that are not yet accepted: on their core or in flight (R211). -/
def State.pairsOf (s : State) (t : Team) : List Pair :=
  let mine := fun (p : Pair) => p.uid == t.uid
  (s.core t.coreId).pairs.filter mine ++
    (s.die0.flight ++ s.die1.flight).filter mine

/-- Whether the team has a pair to a line that is not yet accepted (R211), or an element operation
on it that its DSM bank has not yet performed (R180, R217). -/
def State.pairsTo (s : State) (t : Team) (p : Phys) : Bool :=
  match p.space with
  | .gddr => (s.pairsOf t).any fun q => q.die == p.unit && lineOf q.addr == lineOf p.addr
  | .dsm => (s.die p.unit).dsmQ.any fun q => q.uid == t.uid && lineOf q.addr == lineOf p.addr
  | _ => false

/-- The checks of an aligned access before its translation (R193). -/
def needAligned (va : Word) (n : Nat) : Except Stop Unit :=
  if va.toNat % n = 0 then .ok () else raise (trapMisaligned va 0)

/-- Runs a check on each element of a list. -/
def checkAll {α : Type} (f : α → Except Stop Unit) : List α → Except Stop Unit
  | [] => .ok ()
  | x :: rest => do
    f x
    checkAll f rest

/-- Whether an earlier request of the team to the line of a location waits for its home (R180). -/
def State.queuedBefore (s : State) (t : Team) (p : Phys) : Bool :=
  (s.die p.unit).mesh.any fun r =>
    r.uid == t.uid && r.loc.space == p.space && lineOf r.loc.addr == lineOf p.addr

/-- Whether an access of a team cannot be served now: its home is busy, or an earlier request of
the team to the line waits for its home (R179, R180, R190). -/
def State.blocked (s : State) (t : Team) (p : Phys) : Bool :=
  s.busyAt t.coreId p || s.queuedBefore t p

/-- Whether a scalar access waits for its home in the mesh: it cannot be served now, or later accesses
may overtake it (R182). -/
def State.mustQueue (s : State) (t : Team) (p : Phys) : Bool := s.late || s.blocked t p

/-- Whether a load cannot be served now: its home is busy, and no usable lease of the L1 serves it, which only a
line of GDDR7 through a mapping that is not NC has (R177, R178, R195). -/
def State.loadBlocked (s : State) (t : Team) (p : Phys) (nc : Bool) : Bool :=
  s.queuedBefore t p ||
    (s.busyAt t.coreId p &&
      (nc || p.space != .gddr || (s.leased? t.coreId p.unit (lineOf p.addr)).isNone))

/-- Whether a load waits in the mesh: it cannot be served now, or later accesses may overtake it (R182). -/
def State.loadQueues (s : State) (t : Team) (p : Phys) (nc : Bool) : Bool := s.late || s.loadBlocked t p nc

/-- The state with a request of a team that waits for its home (R179, R190, R397). -/
def State.queueReq (s : State) (t : Team) (m : Mapped) (kind : ReqKind) : State :=
  s.modDie m.phys.unit fun k => { k with
    mesh := k.mesh ++ [{ kind := kind, uid := t.uid, ctx := t.ctx, core := t.coreId,
                         loc := m.phys, nc := m.nc, since := k.time, seq := k.arrival m.phys }] }

/-- The slice that holds the home of a location, or its DSM bank. -/
def homeUnit (p : Phys) : Nat := if p.space == .dsm then dsmSlice p.addr else homeSlice p.addr

/-- The requests that the intake of a slice holds. -/
def Die.intakeOf (k : Die) (slice : Nat) : Nat := (k.mesh.filter (fun r => homeUnit r.loc == slice)).length

/-- The landing buffers of a core that are taken: by replies on their way to it and by the teams that wait
for one (R326). -/
def State.landings (s : State) (core : Nat) : Nat :=
  (s.teams.filter (fun t => t.coreId == core && t.pend.isSome)).length

/-- Whether a request of a core has its two reservations (R326): a credit in the intake of the unit that
serves it, and a landing buffer for its reply. -/
def State.hasCredit (s : State) (core : Nat) (p : Phys) : Bool :=
  decide ((s.die p.unit).intakeOf (homeUnit p) < s.intakeCap) && decide (s.landings core < s.landingCap)

/-- A request that lacks a reservation waits at its source (R326); so does one of a team whose one pending
access has not completed. -/
def State.needCredit (s : State) (t : Team) (p : Phys) : Except Stop Unit :=
  if s.hasCredit t.coreId p && t.pend.isNone then .ok () else .error .hold

/-- The same for a store, whose reply the team does not wait for. -/
def State.needStoreCredit (s : State) (t : Team) (p : Phys) : Except Stop Unit :=
  if s.hasCredit t.coreId p then .ok () else .error .hold

/-- Holds an access whose line has an unaccepted pair of the team (R211). -/
def State.ownPairs (s : State) (t : Team) (p : Phys) : Except Stop Unit :=
  if s.pairsTo t p then .error .hold else .ok ()

/-- Holds an access that cannot be served now. -/
def State.needServed (s : State) (t : Team) (p : Phys) : Except Stop Unit :=
  if s.blocked t p then .error (.holdAt p) else .ok ()

/-- The `n` bytes that a team's load reads (R177, R178): from the L1, from the home, or from DSM. -/
def State.teamLoad (s : State) (t : Team) (m : Mapped) (n : Nat) : Except Stop (State × Nat) :=
  if s.poisoned m.phys then .error (s.poisonStop m.phys)
  else match m.phys.space with
    | .gddr =>
      let (s, data) := s.loadLine t.coreId m.phys.unit (lineOf m.phys.addr) m.nc
      .ok (s, data.read m.phys.addr n)
    | _ => .ok (s.noteRequest m.phys.unit (homeKey m.phys) t.coreId, s.peek m.phys n)

/-- A team's store of bytes of one line (R177, R178): the home's write, the core's L1 copy, the
team's GWCT. -/
def State.teamStore (s : State) (t : Team) (va : Word) (p : Phys) (bytes : List Byte) : State :=
  match p.space with
  | .gddr =>
    let s := s.learnFx t.coreId t.ctx va p
    let (s, g) := match s.ownLease? t.coreId p.unit (lineOf p.addr) with
      | some w => (s.lineWrite p.unit p.addr bytes, max (s.coreClock t.coreId) w.g0)
      | none => s.homeStore t.coreId p.unit p.addr bytes
    (s.refreshL1 t.coreId p.unit p.addr bytes.length).joinGwct t.uid g
  | .dsm =>
    let (s, g) := (s.noteRequest p.unit (homeKey p) t.coreId).dsmStore p.unit p.addr bytes
    s.joinGwct t.uid g
  | _ => s

/-! ### Ranges -/

/-- The parts of `n` bytes from `va` on that lie in one line each. -/
def lineParts : Nat → Word → Nat → List (Word × Nat)
  | 0, _, _ => []
  | fuel + 1, va, n =>
    if n = 0 then []
    else
      let k := min n (128 - va.toNat % 128)
      (va, k) :: lineParts fuel (va + BitVec.ofNat 64 k) (n - k)

/-- The parts of a range. -/
def partsOf (va : Word) (n : Nat) : List (Word × Nat) := lineParts (n / 128 + 2) va n

/-- Translates the parts of a range in ascending order (R193, R356); each must be resident. -/
def State.mapParts (s : State) (t : Team) (kind : Access) (locs : List Nat) :
    List (Word × Nat) → Except Stop (State × List (Word × Nat × Mapped))
  | [] => .ok (s, [])
  | (va, n) :: rest => do
    let (s, m) ← s.translateResident t.walker va kind locs
    let (s, ms) ← s.mapParts t kind locs rest
    pure (s, (va, n, m) :: ms)

/-- Holds where a part of a range cannot be served now or has an unaccepted pair of the team. -/
def State.needParts (s : State) (t : Team) : List (Word × Nat × Mapped) → Except Stop Unit
  | [] => .ok ()
  | (_, _, m) :: rest => do
    s.ownPairs t m.phys
    s.needServed t m.phys
    s.needParts t rest

/-- Loads the bytes of a translated range. -/
def State.loadParts (s : State) (t : Team) :
    List (Word × Nat × Mapped) → Except Stop (State × List Byte)
  | [] => .ok (s, [])
  | (_, n, m) :: rest => do
    let (s, v) ← s.teamLoad t m n
    let (s, bs) ← s.loadParts t rest
    pure (s, leBytes n v ++ bs)

/-- Stores bytes over a translated range. -/
def State.storeParts (s : State) (t : Team) :
    List (Word × Nat × Mapped) → List Byte → State
  | [], _ => s
  | (va, n, m) :: rest, bytes =>
    (s.teamStore t va m.phys (bytes.take n)).storeParts t rest (bytes.drop n)

/-! ### Run images (R65, R155, R381) -/

/-- The bytes of a run image (Tables 3.3, 3.4). -/
def VReg.image (v : VReg) : List Byte :=
  leBytes 8 (v.len + 2 ^ 16 * v.length) ++
    v.flatMap (fun r => leBytes 8 (r.val.toNat + 2 ^ 32 * (r.cnt - 1)))

/-- Whether an image header is valid for a team of `e` lanes (R381 step 2). -/
def headerValid (h e : Nat) : Bool :=
  let len := bitsOf h 0 11
  let n := bitsOf h 16 11
  bitsOf h 11 5 == 0 && bitsOf h 27 37 == 0 && decide (n ≤ len) && ((n == 0) == (len == 0)) &&
    decide (len ≤ e)

/-- The runs of an image's entries. -/
def imageRuns (entries : List Nat) : VReg :=
  entries.map (fun v => { val := BitVec.ofNat 32 (bitsOf v 0 32), cnt := bitsOf v 32 10 + 1 })

/-- Whether the entries are valid for a header (R381 step 4). -/
def entriesValid (h : Nat) (entries : List Nat) : Bool :=
  entries.all (fun v => bitsOf v 42 22 == 0) && (imageRuns entries).len == bitsOf h 0 11

/-- The 8-byte words of some bytes. -/
def wordsOf : Nat → List Byte → List Nat
  | 0, _ => []
  | n + 1, bs => leNat (bs.take 8) :: wordsOf n (bs.drop 8)

/-! ### Cluster peers (R166, R403) -/

/-- The core that holds rank `r` of a cluster of width `clw`, from the core that holds rank `own`
(R12, R41). -/
def rankCore (core clw own r : Nat) : Nat :=
  core + 8 * (r / clw) + r % clw - (8 * (own / clw) + own % clw)

/-- The team of rank `r` of a cluster of a task, while its scratchpad is allocated. A wave is its own
cluster of one (Table 4.4). -/
def State.peerTeam? (s : State) (wave : Option Nat) (ctx : Nat) (task : Phys) (cluster r : Nat) :
    Option Team :=
  match wave with
  | some uid => if r = 0 then s.team? uid else none
  | none => s.teams.find? fun x =>
    x.ctx == ctx && x.ident.taskAt == task && !x.ident.isWave && x.ident.rank == r &&
      x.ident.teamid / (x.ident.clw * x.ident.clh) == cluster

/-- A wave's own number, as its peer accesses name it. -/
def Team.waveUid (t : Team) : Option Nat := if t.ident.isWave then some t.uid else none

/-- The syndrome of a failed peer access (Table 21.4): an uncorrectable word, code 32, is one of the
scratchpad, STRUCT 5 (Table 19.7). -/
def peerSyndrome (core code : Nat) (write : Bool) : Word :=
  BitVec.ofNat 64 (code + 2 ^ 16 * (core % 64) + 2 ^ 22 * (core / 64) +
    (if write then 2 ^ 23 else 0) + (if code = 32 then 2 ^ 32 * 5 else 0))

/-- The target's record of a failed inbound access (R403). -/
def State.reportPeer (s : State) (ctx core code offset : Nat) (write : Bool) : State :=
  s.report { kind := 4, code := code, ctx := ctx, die := core / 64, unit := core % 64,
             addr := BitVec.ofNat 64 offset, info := peerSyndrome core code write }

/-! ### Forks (R186) -/

/-- Whether an operation may take its first access: the earlier stores, atomics and pairs of its
team are acknowledged (R186). -/
def State.forkHolds (s : State) (uid : Nat) : Bool :=
  match s.team? uid with
  | none => true
  | some t => t.outstanding == 0 && t.pend.isNone && (s.pairsOf t).isEmpty

/-- The first instruction of an engine's queue whose context is not halted, with those before it and after
it. A team of a halted context stops at a step boundary (R358); the engine goes on with the next instruction
(log entry 51). -/
def State.engineHead {α : Type} (s : State) (uid : α → Nat) : List α → List α → Option (List α × α × List α)
  | _, [] => none
  | before, o :: rest =>
    if ((s.team? (uid o)).map (fun t => s.ctxRuns t.ctx)).getD true then some (before.reverse, o, rest)
    else s.engineHead uid (o :: before) rest

/-! ### Fences (Table 7.8) -/

/-- Whether the conditions of Table 7.8 hold for a scope; PAIR acts as DIE on VSX1-M (R183). -/
def State.fenceHolds (s : State) (t : Team) (scope : Nat) : Bool :=
  let g := t.gwct
  let now := s.coreClock t.coreId
  let wait := if scope ≤ 1 then 0 else if scope = 2 || s.nDies = 1 then g + 2 else g + 8
  (s.pairsOf t).isEmpty && t.outstanding == 0 && t.pend.isNone && decide (wait ≤ now)

/-- Holds until the conditions of a scope hold. -/
def State.needFence (s : State) (t : Team) (scope : Nat) : Except Stop Unit :=
  if s.fenceHolds t scope then .ok () else .error .hold

end Sys2Proof.Machine
end

