-- ==== Sys2Proof/Machine/Runs.lean ====
section
/-! DEFINITION. Writing vector registers: raw_runs (spec/06 R130, R131), the occupancy check
(spec/03 R63), draws of the generator (spec/06 R158 to R161) and the noise log (spec/19 R364). -/

namespace Sys2Proof.Machine

/-! ### Raw runs (R130) -/

/-- Runs over lanes `i` to `i + n - 1`, a new run wherever `cut` holds. -/
def runsFrom (cut : Nat → Bool) (val : Nat → W32) : Nat → Nat → VReg
  | 0, _ => []
  | n + 1, i =>
    match runsFrom cut val n (i + 1) with
    | [] => [{ val := val i, cnt := 1 }]
    | r :: rest =>
      if cut (i + 1) then { val := val i, cnt := 1 } :: r :: rest
      else { val := val i, cnt := r.cnt + 1 } :: rest

/-- The cuts that sources make: their lengths and run boundaries (R130). -/
def sourceCuts (xs : List VReg) : List Nat := xs.flatMap (fun x => x.len :: x.bounds)

/-- What raw_runs needs beyond the sources: the guard, the old destination, the length. -/
structure RawForm where
  guard : Mask
  elanes : Nat
  old : VReg
  len : Nat
  split : Bool
  deriving DecidableEq, Repr

/-- g(i) of R130. -/
def RawForm.g (r : RawForm) (i : Nat) : Bool := decide (i < r.elanes) && laneOn r.guard i

/-- The cuts of R130 at lane `i` other than those of `source`. -/
def RawForm.ownCut (r : RawForm) (i : Nat) : Bool :=
  r.g i != r.g (i - 1) ||
    ((!r.g i || !r.g (i - 1)) && (i == r.old.len || r.old.bounds.contains i)) ||
    (r.split && r.g i)

/-- raw_runs of R130 with the cuts of the sources given as a predicate. -/
def RawForm.runsWith (r : RawForm) (source : Nat → Bool) (lane : Nat → W32) : VReg :=
  runsFrom (fun i => source i || r.ownCut i)
    (fun i => if r.g i then lane i else r.old.lane i) r.len 0

/-- raw_runs of R130. -/
def RawForm.runs (r : RawForm) (xs : List VReg) (lane : Nat → W32) : VReg :=
  let cuts := sourceCuts xs
  r.runsWith (fun i => cuts.contains i) lane

/-- The form of an instruction that writes register `d` under the team's guard. -/
def Team.rawForm (t : Team) (d : Field) (len : Nat) (split : Bool) : RawForm :=
  { guard := t.guard, elanes := t.ident.elanes, old := t.vread d, len := len, split := split }

/-! ### Writing registers (R63) -/

/-- Coalesces when the C bit asks for it. -/
def VReg.asked (v : VReg) (c : BitVec 1) : VReg := if c = 1#1 then v.coalesce else v

/-- The run slots of the registers named by `ws`. -/
def Team.slotsOf (t : Team) (ws : List (Nat × VReg)) : Nat :=
  (ws.map (fun w => (t.vregs.getD w.1 []).length)).sum

/-- The team with registers replaced. -/
def Team.setVs (t : Team) (ws : List (Nat × VReg)) : Team :=
  { t with vregs := ws.foldl (fun v w => v.set w.1 w.2) t.vregs }

/-- The occupancy that writing `ws` would leave (R63). -/
def State.occupancyAfter (s : State) (t : Team) (ws : List (Nat × VReg)) : Nat :=
  s.occupancy t - t.slotsOf ws + (ws.map (fun w => w.2.length)).sum

/-- Writes registers as a whole, under the check of R63. -/
def State.writeVs (s : State) (t : Team) (ws : List (Nat × VReg)) : Except Stop Team :=
  let occ := s.occupancyAfter t ws
  if 256 * t.budget < occ then raise (trapRunOverflow occ (256 * t.budget))
  else .ok (t.setVs ws)

/-! ### The generator (R158 to R161) -/

/-- mix of R159. -/
def mix (k c : Word) (e : W32) : Word :=
  let z := (k ^^^ (c * 0xD1B54A32D192ED03#64)) + e.setWidth 64 * 0x9E3779B97F4A7C15#64
  let z := (z ^^^ (z >>> 30)) * 0xBF58476D1CE4E5B9#64
  let z := (z ^^^ (z >>> 27)) * 0x94D049BB133111EB#64
  z ^^^ (z >>> 31)

/-- The 16-bit draw for lane `i`, sub-element `j` (R159; log entry 11). -/
def draw16 (k ctr : Word) (i j : Nat) : Nat := (mix k ctr (BitVec.ofNat 32 (8 * i + j))).toNat % 65536

/-- The rounding of lane `i`, sub-element `j` under MODE and key `k` (R76, R77). -/
def Team.rounding (t : Team) (k : Word) (i j : Nat) : Rounding :=
  { rnd := t.rnd, sat := t.sat, dnz := t.dnz,
    draw := if t.rnd = 5 then draw16 k t.ctr i j else 0 }

/-- MODE.RSRC as it acts: 2 acts as 3 in replay (R424). -/
def State.rsrcFor (s : State) (t : Team) : Nat :=
  if s.replaying t.ctx && t.rsrc = 2 then 3 else t.rsrc

/-- The spaces that a scalar access may reach (Table 7.1): global, pair peer, DSM. -/
def scalarSpaces : List Nat := [0, 1, 3]

/-- A drawing instruction's key, and where its noise word is logged. -/
structure Draw where
  key : Word
  rsrc : Nat
  slot : Option Phys
  deriving DecidableEq, Repr

/-- What a drawing instruction takes at issue (R161, R364, R382): held while the source has no
word, a machine check in its failed state. Its access at NLOG is an ordinary one of 8 bytes (R364). -/
def State.beginDraw (s : State) (t : Team) : Except Stop (State × Draw) :=
  let k := s.core t.coreId
  let need := fun (s : State) (kind : Access) => do
    let (s, m) ← s.translateResident t.walker t.nlog kind scalarSpaces
    s.ownPairs t m.phys
    if kind != .read then s.needRegions t.coreId t.ctx m.phys
    if (if kind = .read then s.loadBlocked t m.phys m.nc else s.blocked t m.phys) then .error .hold
    else if t.nlend.toNat < t.nlog.toNat + 8 then
      raise { code := 21, taddr := t.nlog, tinfo := t.nlend }
    else pure (s, m)
  match s.rsrcFor t with
  | 0 => .ok (s, { key := t.key, rsrc := 0, slot := none })
  | 3 => do
    let (s, m) ← need s .read
    let (s, z) ← s.teamLoad t m 8
    pure (s, { key := BitVec.ofNat 64 z, rsrc := 3, slot := none })
  | r =>
    if k.noiseFailed then .error (.check 9 0 0)
    else match k.noise with
      | [] => .error .hold
      | z :: rest => do
        let (s, slot) ← if r = 2 then do
            let (s, m) ← need s .write
            pure (s, some m.phys)
          else pure (s, none)
        pure (s.modCore t.coreId fun k => { k with noise := rest },
              { key := z, rsrc := r, slot := slot })

/-- The last effects of a drawing instruction: the noise log, NLOG and CTR (R160, R364). -/
def State.endDraw (s : State) (t : Team) (w : Draw) : State :=
  let u := { t with ctr := t.ctr + 1#64,
                    nlog := if 2 ≤ w.rsrc then t.nlog + 8#64 else t.nlog }
  let s := s.putTeam u.advance
  match w.slot with
  | none => s
  | some p => s.teamStore t t.nlog p (leBytes 8 w.key.toNat)

/-- A vector-writing instruction that does not draw. -/
def State.vecWrite (s : State) (t : Team) (ws : List (Nat × VReg)) : Effect := do
  let t' ← s.writeVs t ws
  pure (s.putTeam t'.advance)

/-- A vector-writing instruction that may draw: `compute` gives its registers from the key. -/
def State.vecDraw (s : State) (t : Team) (draws : Bool) (compute : Word → List (Nat × VReg)) :
    Effect :=
  if !draws then s.vecWrite t (compute t.key)
  else do
    let (s', w) ← s.beginDraw t
    match s.writeVs t (compute w.key) with
    | .ok t' => pure (s'.endDraw t' w)
    | .error (.trap r) => .error (if w.rsrc = 1 || w.rsrc = 2 then .trapNoise r else .trap r)
    | .error e => .error e

end Sys2Proof.Machine
end

