-- ==== Sys2Proof/Machine/VectorMove.lean ====
section
/-! DEFINITION. Lane movement of row 0x6 (spec/06 R147 to R150). -/

namespace Sys2Proof.Machine

/-- The mask of some lanes. -/
def lanesMask (lanes : List Nat) : Mask := lanes.foldl (fun m i => m ||| (1#1024 <<< i)) 0#1024

/-- The cuts of R147: between written lanes `i − 1` and `i`, unless σ stays, steps within a run,
or is beyond vA at both. -/
def moveCut (written : Nat → Bool) (sigma : Nat → Nat) (x : VReg) (i : Nat) : Bool :=
  let p := sigma (i - 1)
  let q := sigma i
  written (i - 1) && written i &&
    !((decide (x.len ≤ p) && decide (x.len ≤ q)) || q == p ||
      (q == p + 1 && decide (q < x.len) && !x.bounds.contains q))

/-- The raw runs of a lane movement: the written lanes stand as guarded ones (R147). -/
def moveRuns (old : VReg) (lanes : List Nat) (len : Nat) (sigma : Nat → Nat) (x : VReg) : VReg :=
  let r : RawForm := { guard := lanesMask lanes, elanes := 1024, old := old, len := len,
                       split := false }
  r.runsWith (moveCut r.g sigma x) (fun i => x.lane (sigma i))

/-- The value at a position of a list of lanes. -/
def nth (l : List Nat) (i : Nat) : Nat := l.getD i 0

/-- VCOMPACT: the guarded lanes of vA, packed; vD is replaced entirely (R148). -/
def execVcompact (d a : Field) (c : BitVec 1) (s : State) : Host.Outcome State Fault Refusal :=
  issue (.vcompact d a c) s fun t =>
    let x := t.vread a
    let lanes := t.guarded x.len
    let v := moveRuns [] (List.range lanes.length) lanes.length (nth lanes) x
    s.vecWrite t [(d.toNat, v.asked c)]

/-- VEXPAND: the elements of vA spread over the guarded lanes (R148). -/
def execVexpand (d a : Field) (c : BitVec 1) (s : State) : Host.Outcome State Fault Refusal :=
  issue (.vexpand d a c) s fun t =>
    let x := t.vread a
    let old := t.vread d
    let lanes := (t.guarded t.ident.elanes).take x.len
    let len := match lanes.getLast? with
      | none => old.len
      | some g => max old.len (g + 1)
    let v := moveRuns old lanes len (fun i => lanes.findIdx (fun g => g == i)) x
    s.vecWrite t [(d.toNat, v.asked c)]

/-- VSHFL: each guarded lane takes the lane of vA that vB names (R149). -/
def execVshfl (d a b : Field) (c : BitVec 1) (s : State) : Host.Outcome State Fault Refusal :=
  issue (.vshfl d a b c) s fun t =>
    let x := t.vread a
    let y := t.vread b
    let old := t.vread d
    let len := max y.len old.len
    let v := moveRuns old (t.guarded len) len (fun i => (y.lane i).toNat) x
    s.vecWrite t [(d.toNat, v.asked c)]

/-- VROTL: rotates the lanes of vA by sread(B) mod vA.len (R149). -/
def execVrotl (d a b : Field) (c : BitVec 1) (s : State) : Host.Outcome State Fault Refusal :=
  issue (.vrotl d a b c) s fun t =>
    let x := t.vread a
    if x.len = 0 then .ok (s.putTeam t.advance)
    else
      let old := t.vread d
      let k := (s.sread t b).toNat % x.len
      let v := moveRuns old (t.guarded x.len) (max x.len old.len) (fun i => (i + k) % x.len) x
      s.vecWrite t [(d.toNat, v.asked c)]

/-- VEXTR: s[D] := lane sread(B) of vA (R150). -/
def execVextr (d a b : Field) (s : State) : Host.Outcome State Fault Refusal :=
  issueTeam (.vextr d a b) s fun t =>
    (t.setD d (((t.vread a).lane (s.sread t b).toNat).setWidth 64)).advance

/-- VINS: sread(A)[31:0] into lane p = sread(B) alone, when p < E (R150). -/
def execVins (d a b : Field) (c : BitVec 1) (s : State) : Host.Outcome State Fault Refusal :=
  issue (.vins d a b c) s fun t =>
    let p := (s.sread t b).toNat
    if min t.ident.elanes 1024 ≤ p then .ok (s.putTeam t.advance)
    else
      let old := t.vread d
      let r : RawForm := { guard := lanesMask [p], elanes := 1024, old := old,
                           len := max old.len (p + 1), split := false }
      let v := r.runsWith (fun i => i == p + 1) (fun _ => (s.sread t a).setWidth 32)
      s.vecWrite t [(d.toNat, v.asked c)]

end Sys2Proof.Machine
end

