-- ==== Sys2Proof/Machine/VectorMemory.lean ====
section
/-! DEFINITION. Row 0x9: vector access to global memory, page requests, and the scratchpad (spec/08
R200 to R209). -/

namespace Sys2Proof.Machine

/-! ### Elements of global memory (R193, R201) -/

/-- The spaces of the vector forms (R201): global and pair peer. -/
def vectorSpaces : List Nat := [0, 1]

/-- A translated element: its lane, its address and where it lies. -/
structure Element where
  lane : Nat
  va : Word
  at_ : Mapped
  deriving DecidableEq, Repr

/-- Checks and translates the elements of some lanes in ascending order, before any effect; a trap
names the lane (R193, R356). -/
def State.mapLanes (s : State) (t : Team) (kind : Access) (addr : Nat → Word) :
    List Nat → Except Stop (State × List Element)
  | [] => .ok (s, [])
  | i :: rest =>
    let va := addr i
    if va.toNat % 4 != 0 then raise (trapMisaligned va i)
    else match s.translate t.walker va kind vectorSpaces with
      | .error e => .error (e.atLane i)
      | .ok (s, m) => do
        let (s, es) ← s.mapLanes t kind addr rest
        pure (s, { lane := i, va := va, at_ := m } :: es)

/-- Holds where a present element cannot be served now (R179, R211). -/
def State.needElements (s : State) (t : Team) (es : List Element) : Except Stop Unit :=
  s.needParts t (es.map (fun e => (e.va, 4, e.at_)))

/-- Loads the words of present elements, by lane. -/
def State.loadElements (s : State) (t : Team) :
    List Element → Except Stop (State × List (Nat × W32))
  | [] => .ok (s, [])
  | e :: rest => do
    let (s, v) ← s.teamLoad t e.at_ 4
    let (s, ws) ← s.loadElements t rest
    pure (s, (e.lane, BitVec.ofNat 32 v) :: ws)

/-- The team with the residency bits of the absent elements cleared (R171); m0 names no mask. -/
def Team.clearAbsent (t : Team) (b : Field) (es : List Element) : Team :=
  let lanes := (es.filter (fun e => !e.at_.resident)).map Element.lane
  if lanes.isEmpty then t else t.setMask b.toNat (t.mask b.toNat &&& ~~~ lanesMask lanes)

/-- The runs of a loaded register (R200): `g` the lanes written, `xs` the index source of SGATH. -/
def Team.loadedRuns (t : Team) (d : Field) (g : Mask) (xs : List VReg) (w : Nat → W32) : VReg :=
  let e := t.ident.elanes
  let old := t.vread d
  let r : RawForm := { guard := g, elanes := e, old := old, len := max e old.len, split := false }
  let cuts := sourceCuts xs
  r.runsWith (fun i => i == e || cuts.contains i || (r.g i && r.g (i - 1) && w i != w (i - 1))) w

/-- The stride of VLDS and VSTS, and the base and the stride of SLDT: a multiple of 4 (R201, R207,
Table 20.6). -/
def needStride (stride : Word) : Except Stop Unit :=
  if stride.toNat % 4 = 0 then .ok () else raise (trapMisaligned stride 0)

/-- A vector load of the elements `addr` into vD, residency reported in mB. -/
def State.vectorLoad (s : State) (t : Team) (d b : Field) (c : BitVec 1) (addr : Nat → Word) :
    Effect := do
  let (s, es) ← s.mapLanes t .read addr (t.guarded t.ident.elanes)
  let present := es.filter (fun e => e.at_.resident)
  s.needElements t present
  let (s, ws) ← s.loadElements t present
  let v := t.loadedRuns d t.guard [] (fun i => lookup 0#32 i ws)
  let t ← s.writeVs t [(d.toNat, v.asked c)]
  pure (s.putTeam (t.clearAbsent b es).advance)

/-- VLD: lane i takes the word at sread(A) + 4i. -/
def execVld (d a b : Field) (c : BitVec 1) (s : State) : Host.Outcome State Fault Refusal :=
  issue (.vld d a b c) s fun t =>
    s.vectorLoad t d b c fun i => s.sread t a + BitVec.ofNat 64 (4 * i)

/-- VLDS: lane i takes the word at sread(A) + i × s(A+1). -/
def execVlds (d a b : Field) (c : BitVec 1) (s : State) : Host.Outcome State Fault Refusal :=
  issue (.vlds d a b c) s fun t => do
    let stride := t.getS (a.toNat + 1)
    needStride stride
    s.vectorLoad t d b c fun i => s.sread t a + BitVec.ofNat 64 i * stride

/-- Stores some elements, lowest lane first. -/
def State.storeElements (s : State) (t : Team) (x : VReg) : List Element → State
  | [] => s
  | e :: rest =>
    (s.teamStore t e.va e.at_.phys (leBytes 4 (x.lane e.lane).toNat)).storeElements t x rest

/-- A vector store of vD to the elements `addr`, residency reported in mB. -/
def State.vectorStore (s : State) (t : Team) (d b : Field) (addr : Nat → Word) : Effect := do
  let x := t.vread d
  let (s, es) ← s.mapLanes t .write addr (t.guarded x.len)
  let present := es.filter (fun e => e.at_.resident)
  s.needElements t present
  checkAll (fun e => s.needRegions t.coreId t.ctx e.at_.phys) present
  let s := s.storeElements t x present
  pure (s.modTeam t.uid fun t => (t.clearAbsent b es).advance)

/-- VST: lane i goes to sread(A) + 4i. -/
def execVst (d a b : Field) (s : State) : Host.Outcome State Fault Refusal :=
  issue (.vst d a b) s fun t =>
    s.vectorStore t d b fun i => s.sread t a + BitVec.ofNat 64 (4 * i)

/-- VSTS: lane i goes to sread(A) + i × s(A+1). -/
def execVsts (d a b : Field) (s : State) : Host.Outcome State Fault Refusal :=
  issue (.vsts d a b) s fun t => do
    let stride := t.getS (a.toNat + 1)
    needStride stride
    s.vectorStore t d b fun i => s.sread t a + BitVec.ofNat 64 i * stride

/-- VLDB: the one word at sread(A) into every guarded lane; an absent word clears mB in each of
them. -/
def execVldb (d a b : Field) (c : BitVec 1) (s : State) : Host.Outcome State Fault Refusal :=
  issue (.vldb d a b c) s fun t => do
    let lanes := t.guarded t.ident.elanes
    match s.mapLanes t .read (fun _ => s.sread t a) (lanes.take 1) with
    | .error e => .error (e.atLane 0)
    | .ok (s, es) => do
      let present := es.filter (fun e => e.at_.resident)
      s.needElements t present
      let (s, ws) ← s.loadElements t present
      let w := (ws.map Prod.snd).headD 0#32
      let t' ← s.writeVs t [(d.toNat, (t.loadedRuns d t.guard [] (fun _ => w)).asked c)]
      let all := es.flatMap (fun e => lanes.map (fun i => { e with lane := i }))
      pure (s.putTeam (t'.clearAbsent b all).advance)

/-! ### Page requests (R203, R315) -/

/-- The words of a page-request record (Table 8.5) for the range of `n` bytes from `va`. -/
def pageRequest (t : Team) (va n ctr time : Nat) : List Nat :=
  [va / 65536 * 65536, ((va + n - 1) / 65536 - va / 65536 + 1) % 2 ^ 32,
   ctr % 256 + 2 ^ 8 * t.ident.core + 2 ^ 14 * t.ident.die + 2 ^ 16 * t.ctx, time]

/-- The host's memory with consecutive 8-byte words written. -/
def Memory.writeWords (m : Memory) (a : Nat) : List Nat → Memory
  | [] => m
  | v :: rest => (m.write a 8 v).writeWords (a + 8) rest

/-- PREQ: appends a page request to the context's ring and raises vector 1; held while the ring is
full (R203). -/
def execPreq (d a b : Field) (s : State) : Host.Outcome State Fault Refusal :=
  issue (.preq d a b) s fun t =>
    let n := (s.sread t b).toNat
    match s.ctx? t.ctx with
    | none => .error .hold
    | some c =>
      let base := c.prbase.toNat
      let head := s.host.mem.read base 4
      let tail := s.host.mem.read (base + 4) 4
      if n = 0 then .ok (s.putTeam t.advance)
      else if (tail + 2 ^ 32 - head) % 2 ^ 32 = 2 ^ c.prlog2n then .error .hold
      else
        let words := pageRequest t (s.sread t a).toNat n (s.sread t d).toNat (s.time t.ident.die)
        let m := s.host.mem.writeWords (base + 64 + 32 * (tail % 2 ^ c.prlog2n)) words
        let s := { s with host := { s.host with mem := m.write (base + 4) 4 (tail + 1) } }
        .ok ((s.raiseMsix 1).putTeam t.advance)

/-! ### Scratchpad (R166, R204 to R208) -/

/-- SCRSIZE of a team. -/
def Team.scrSize (t : Team) : Nat := 4096 * t.ident.scrG

/-- Checks an offset of the team's own scratchpad: alignment, then SCRSIZE (R166, R356). -/
def Team.needScr (t : Team) (o : Word) (n lane : Nat) : Except Stop Unit :=
  if o.toNat % n != 0 then raise (trapMisaligned o lane)
  else if t.scrSize ≤ o.toNat then raise (trapScrRange o 0 lane)
  else .ok ()

/-- Checks the bytes of a range that starts at a checked offset: TADDR names the lowest byte beyond
SCRSIZE (R381). -/
def Team.needScrRange (t : Team) (o n : Nat) : Except Stop Unit :=
  if t.scrSize < o + n then
    raise (trapScrRange (BitVec.ofNat 64 (max o t.scrSize)) 0 0)
  else .ok ()

/-- The `n`-byte value at an offset of the team's scratchpad. -/
def State.scrRead (s : State) (t : Team) (o n : Nat) : Nat :=
  (s.core t.coreId).scratch.read (t.ident.scrBase + o) n

/-- A read of `n` bytes of the team's scratchpad finds them sound (R365). -/
def State.scrSound (s : State) (t : Team) (o n : Nat) : Except Stop Unit :=
  s.soundScratch t.coreId (t.ident.scrBase + o) n

/-- Writes bytes at an offset of the team's scratchpad. -/
def State.scrWrite (s : State) (t : Team) (o : Nat) (bytes : List Byte) : State :=
  s.modCore t.coreId fun k => k.putScratch (t.ident.scrBase + o) bytes

/-- SLD: the word at offset sread(A) + sread(B), zero-extended (R204). -/
def execSld (d a b : Field) (s : State) : Host.Outcome State Fault Refusal :=
  issue (.sld d a b) s fun t => do
    let o := s.address t a b
    t.needScr o 4 0
    s.scrSound t o.toNat 4
    pure (s.putTeam ((t.setD d (BitVec.ofNat 64 (s.scrRead t o.toNat 4))).advance))

/-- SST: sread(D)[31:0] to offset sread(A) + sread(B) (R204). -/
def execSst (d a b : Field) (s : State) : Host.Outcome State Fault Refusal :=
  issue (.sst d a b) s fun t => do
    let o := s.address t a b
    t.needScr o 4 0
    pure ((s.scrWrite t o.toNat (leBytes 4 (s.sread t d).toNat)).putTeam t.advance)

/-- Checks the offsets of some lanes in ascending order (R206). -/
def Team.needLanes (t : Team) (off : Nat → Word) : List Nat → Except Stop Unit
  | [] => .ok ()
  | i :: rest => do
    t.needScr (off i) 4 i
    t.needLanes off rest

/-- A scratchpad load of the offsets of some lanes into vD (R200). -/
def State.scrLoad (s : State) (t : Team) (d : Field) (c : BitVec 1) (xs : List VReg)
    (lanes : List Nat) (off : Nat → Word) : Effect := do
  t.needLanes off lanes
  checkAll (fun i => s.scrSound t (off i).toNat 4) lanes
  let w := fun i => BitVec.ofNat 32 (s.scrRead t (off i).toNat 4)
  s.vecWrite t [(d.toNat, (t.loadedRuns d (lanesMask lanes) xs w).asked c)]

/-- SGATH: guarded lane i < vA.len takes the word at sread(B) + vA[i] (R206). DEDUCED (log entry 53): a guarded
lane at or beyond vA.len counts as unguarded in raw_runs too, so that vD's old runs stand there and the edge of
the guard cuts nothing. -/
def execSgath (d a b : Field) (c : BitVec 1) (s : State) : Host.Outcome State Fault Refusal :=
  issue (.sgath d a b c) s fun t =>
    let x := t.vread a
    s.scrLoad t d c [x] (t.guarded x.len) fun i => s.sread t b + (x.lane i).setWidth 64

/-- SSCAT: guarded lane i < vA.len goes to sread(B) + vA[i], the highest lane winning (R206). -/
def execSscat (d a b : Field) (s : State) : Host.Outcome State Fault Refusal :=
  issue (.sscat d a b) s fun t => do
    let x := t.vread a
    let y := t.vread d
    let lanes := t.guarded x.len
    let off := fun i => s.sread t b + (x.lane i).setWidth 64
    t.needLanes off lanes
    let s := lanes.foldl
      (fun (s : State) i => s.scrWrite t (off i).toNat (leBytes 4 (y.lane i).toNat)) s
    pure (s.putTeam t.advance)

/-- SLDT: lane i takes the word at sread(A) + (i mod 16) × sread(B) + 4 ⌊i ÷ 16⌋; the base and the stride
are multiples of 4 whatever lanes are guarded (R207). -/
def execSldt (d a b : Field) (c : BitVec 1) (s : State) : Host.Outcome State Fault Refusal :=
  issue (.sldt d a b c) s fun t => do
    let stride := s.sread t b
    needStride (s.sread t a)
    needStride stride
    s.scrLoad t d c [] (t.guarded t.ident.elanes) fun i =>
      s.sread t a + BitVec.ofNat 64 (i % 16) * stride + BitVec.ofNat 64 (4 * (i / 16))

/-- SLDC: the run image at offset sread(A) into vD (R208), in the order of R381. -/
def execSldc (d a : Field) (c : BitVec 1) (s : State) : Host.Outcome State Fault Refusal :=
  issue (.sldc d a c) s fun t => do
    let o := s.sread t a
    t.needScr o 8 0
    s.scrSound t o.toNat 8
    let h := s.scrRead t o.toNat 8
    if !headerValid h t.ident.elanes then raise (trapOperand a.toNat o)
    else do
      let n := bitsOf h 16 11
      t.needScrRange (o.toNat + 8) (8 * n)
      s.scrSound t (o.toNat + 8) (8 * n)
      let entries := (List.range n).map (fun k => s.scrRead t (o.toNat + 8 + 8 * k) 8)
      if !entriesValid h entries then raise (trapOperand a.toNat o)
      else s.vecWrite t [(d.toNat, (imageRuns entries).asked c)]

/-- SSTC: the run image of vA at offset sread(B); s[D] := its size (R208). -/
def execSstc (d a b : Field) (s : State) : Host.Outcome State Fault Refusal :=
  issue (.sstc d a b) s fun t => do
    let o := s.sread t b
    let image := (t.vread a).image
    t.needScr o 8 0
    t.needScrRange o.toNat image.length
    let s := s.scrWrite t o.toNat image
    pure (s.putTeam (t.setD d (BitVec.ofNat 64 image.length)).advance)

/-! ### Cluster peers (R166, R209, R404) -/

/-- Sends a peer access; the team issues nothing until its reply (R404). -/
def State.peerAccess (s : State) (t : Team) (a b : Field) (dest : Option Nat)
    (write : Option W32) : Effect :=
  let r := (s.sread t a).toNat
  let o := s.sread t b
  if o.toNat % 4 != 0 then raise (trapMisaligned o 0)
  else if t.ident.clw * t.ident.clh ≤ r || t.scrSize ≤ o.toNat then raise (trapScrRange o r 0)
  else
    let core := rankCore t.coreId t.ident.clw t.ident.rank r
    let req : PeerReq := { uid := t.uid, ctx := t.ctx,
                           cluster := t.ident.teamid / (t.ident.clw * t.ident.clh),
                           rank := r, offset := o.toNat, write := write, since := s.time t.ident.die,
                           task := t.ident.taskAt, wave := t.waveUid, back := t.coreId }
    let pend : Pend := .peer dest r o.toNat core (s.time t.ident.die)
    let s := s.modCore core fun k => { k with inbound := k.inbound ++ [req] }
    .ok (s.putTeam { t with pend := some pend })

/-- CLDS: loads a word of a cluster peer's scratchpad (R209). -/
def execClds (d a b : Field) (s : State) : Host.Outcome State Fault Refusal :=
  issue (.clds d a b) s fun t => s.peerAccess t a b (some d.toNat) none

/-- CSTS: stores sread(D)[31:0] into a cluster peer's scratchpad (R209). -/
def execCsts (d a b : Field) (s : State) : Host.Outcome State Fault Refusal :=
  issue (.csts d a b) s fun t => s.peerAccess t a b none (some ((s.sread t d).setWidth 32))

end Sys2Proof.Machine
end

