-- ==== Sys2Proof/Machine/Copy.lean ====
section
/-! DEFINITION. The copy engine: row 0xB at issue (spec/10 R234 to R251), the work of an operation
between its fork and its join (spec/07 R186), and the steps COPY_START and COPY_COMPLETE. -/

namespace Sys2Proof.Machine

/-! ### Element formats (Table 10.3) -/

/-- The width of an element in bits. -/
def fmtWidth (f : Nat) : Nat :=
  match f with
  | 0 | 1 => 32
  | 2 | 3 => 16
  | 4 => 64
  | 7 | 8 => 4
  | 9 => 6
  | _ => 8

/-- The alignment of a row. -/
def fmtAlign (f : Nat) : Nat :=
  match f with
  | 0 | 1 | 9 => 4
  | 2 | 3 => 2
  | 4 => 8
  | _ => 1

/-- The bytes of a row of `c` elements. -/
def rowBytes (f c : Nat) : Nat :=
  match f with
  | 9 => 4 * ceilDiv c 5
  | 7 | 8 => ceilDiv c 2
  | _ => fmtWidth f / 8 * c

/-- The bit at which element `c` of a row starts. -/
def elemPos (f c : Nat) : Nat := if f = 9 then 32 * (c / 5) + 6 * (c % 5) else fmtWidth f * c

/-- The type of an element. -/
def fmtType (f : Nat) : SubTy :=
  match f with
  | 2 => .flt .bf16
  | 3 => .flt .f16
  | 4 => .flt .f64
  | 5 => .int true 8
  | 6 => .int false 8
  | 7 => .int true 4
  | 8 => .int false 4
  | 9 => .int true 6
  | 10 => .p8
  | _ => .flt .f32

/-- The bits of element `c` of a row. -/
def elemBits (f row c : Nat) : Nat := bitsOf row (elemPos f c) (fmtWidth f)

/-- A row with its elements written over its old contents: what no element covers stays, and bits
[31:30] of an I6 word are zero (R236). -/
def encodeRow (f cols old : Nat) (x : Nat → Nat) : Nat :=
  let v := (List.range cols).foldl (fun v c => setBitsOf v (elemPos f c) (fmtWidth f) (x c)) old
  if f = 9 then (List.range (ceilDiv cols 5)).foldl (fun v w => setBitsOf v (32 * w + 30) 2 0) v
  else v

/-! ### The shape record (R235, R240) -/

/-- The record of a shape from its 64 bytes as a number (Table 10.2). -/
def Shape.ofNat (v : Nat) : Shape :=
  let at_ := fun (off lo n : Nat) => bitsOf v (8 * off + lo) n
  let word := fun (off : Nat) => BitVec.ofNat 64 (at_ off 0 64)
  { src := word 0, dst := word 8, aux := word 0x10,
    rows := at_ 0x18 0 24, cols := at_ 0x1C 0 17,
    sstr := signedOf 32 (at_ 0x20 0 32), dstr := signedOf 32 (at_ 0x24 0 32),
    cap := at_ 0x24 0 32,
    sat := at_ 0x28 28 1 == 1, rnd := at_ 0x28 25 3, rot := at_ 0x28 24 1 == 1,
    scf := at_ 0x28 23 1, blk := at_ 0x28 21 2, drank := at_ 0x28 17 4, srank := at_ 0x28 13 4,
    dsp := at_ 0x28 11 2, ssp := at_ 0x28 9 2, dfmt := at_ 0x28 4 4, sfmt := at_ 0x28 0 4,
    clean := at_ 0x18 24 8 == 0 && at_ 0x1C 17 15 == 0 && at_ 0x28 29 3 == 0 &&
      at_ 0x28 8 1 == 0 && at_ 0x2C 0 32 == 0 && at_ 0x38 0 64 == 0 }

/-- The block size that BLK selects; 0 for none. -/
def Shape.bs (h : Shape) : Nat := if h.blk = 0 then 0 else 8 * 2 ^ h.blk

/-- The bytes of a scale. -/
def Shape.z (h : Shape) : Nat := if h.scf = 1 then 2 else 1

/-- The blocks of a row (R245). -/
def Shape.nb (h : Shape) : Nat := if h.blk = 0 then 0 else ceilDiv h.cols h.bs

/-- Whether the record meets Table 10.4 for an instruction (R235, R240). -/
def Shape.ok (h : Shape) (k : CopyKind) : Bool :=
  let base := h.clean && decide (1 ≤ h.rows) && decide (1 ≤ h.cols) && decide (h.cols ≤ 65536) &&
    decide (h.sfmt ≤ 10) && decide (h.dfmt ≤ 10) && decide (h.rnd ≤ 4) && h.ssp != 3 && h.dsp != 3
  let plain := h.blk == 0 && h.scf == 0 && !h.rot
  let noRound := !h.sat && h.rnd == 0
  let wide := h.sfmt == 1 || h.sfmt == 2 || h.sfmt == 3
  base && match k with
    | .cpy => plain && noRound && h.sfmt == h.dfmt && h.aux == 0#64
    | .cpyg => plain && noRound && h.sfmt == h.dfmt
    | .cpyx => h.sfmt != 0 && h.sfmt != 4 && (h.dfmt == 2 || h.dfmt == 3) && !(h.rot && h.blk == 0)
    | .cpyq => wide && decide (5 ≤ h.dfmt) && h.blk != 0
    | .cpyt => plain && noRound && h.sfmt == h.dfmt && decide (h.sfmt ≤ 1) &&
        decide (h.cols ≤ 1024)
    | .discard | .prefetch => plain && noRound && h.ssp == 0 && h.dsp == 0 && h.dfmt == 0 &&
        h.aux == 0#64
    | .cpya => plain && wide && h.dfmt == 1 && h.dsp == 0 && h.aux == 0#64
    | .cwalk => plain && noRound && h.ssp == 1 && h.dsp == 1 && h.sfmt == 0 && h.dfmt == 0

/-- The start of row `r` of an operand (R236). -/
def rowStart (base : Word) (stride : Int) (r : Nat) : Word := base + BitVec.ofInt 64 (stride * r)

/-- The values that R236 wants aligned, with their alignments. DEDUCED (log entry 53): CPYT's DST′ has its format's
alignment of 4 (Table 10.3), though R65 stores a run image of its own at a multiple of 8. -/
def Shape.alignments (h : Shape) (k : CopyKind) (src dst : Word) : List (Word × Nat) :=
  let sa := fmtAlign h.sfmt
  let da := fmtAlign h.dfmt
  let ss := BitVec.ofInt 64 h.sstr
  let ds := BitVec.ofInt 64 h.dstr
  match k with
  | .cwalk => [(src, 4), (dst, 4)]
  | .discard | .prefetch => [(src, sa), (ss, sa)]
  | .cpyt => [(src, sa), (ss, sa), (dst, da), (h.aux, 4)]
  | .cpyg => [(src, sa), (ss, sa), (dst, da), (ds, da), (h.aux, 4)]
  | .cpyx | .cpyq => [(src, sa), (ss, sa), (dst, da), (ds, da)] ++
      (if h.blk = 0 then [] else [(h.aux, h.z)])
  | _ => [(src, sa), (ss, sa), (dst, da), (ds, da)]

/-- A range of scratchpad offsets that a record fixes: space, rank, offset, bytes. -/
structure FixedRange where
  space : Nat
  rank : Nat
  off : Word
  n : Nat
  deriving DecidableEq, Repr

/-- The scratchpad ranges that follow from the record alone (R238). Of CPYT's images the record gives only
where the first begins, and of CPYG's source rows only the rank. -/
def Shape.ranges (h : Shape) (k : CopyKind) (src dst : Word) : List FixedRange :=
  let rowsOf := fun (space rank : Nat) (base : Word) (stride : Int) (n : Nat) =>
    (List.range h.rows).map fun r =>
      ({ space := space, rank := rank, off := rowStart base stride r, n := n } : FixedRange)
  let one := fun (space rank : Nat) (off : Word) (n : Nat) =>
    [({ space := space, rank := rank, off := off, n := n } : FixedRange)]
  let srcRows := rowsOf h.ssp h.srank src h.sstr (rowBytes h.sfmt h.cols)
  let dstRows := rowsOf h.dsp h.drank dst h.dstr (rowBytes h.dfmt h.cols)
  let scales := h.z * h.nb * h.rows
  match k with
  | .cpy | .cpya => srcRows ++ dstRows
  | .cpyg => one h.ssp h.srank 0#64 0 ++ dstRows ++ one 1 0 h.aux (4 * h.rows)
  | .cpyx => srcRows ++ dstRows ++
      (if h.blk = 0 then [] else one h.ssp h.srank h.aux scales)
  | .cpyq => srcRows ++ dstRows ++ one h.dsp h.drank h.aux scales
  | .cpyt => srcRows ++ one h.dsp h.drank dst 1 ++ one h.dsp h.drank h.aux (4 * h.rows)
  | .cwalk => one 1 0 src (4 * h.rows) ++ one 1 0 dst (4 * h.rows * h.cols)
  | .discard | .prefetch => []

/-- Checks a fixed range against SCRSIZE and the cluster (R166, R238). -/
def Team.needFixed (t : Team) (f : FixedRange) : Except Stop Unit :=
  if f.space = 0 then .ok ()
  else
    let rank := if f.space = 2 then f.rank else 0
    if t.ident.clw * t.ident.clh ≤ rank then raise (trapScrRange f.off rank 0)
    else if t.scrSize < f.off.toNat + f.n then
      raise (trapScrRange (BitVec.ofNat 64 (max f.off.toNat t.scrSize)) rank 0)
    else .ok ()

/-- The pair of offsets that the B field names (R234). -/
def State.copyOffsets (s : State) (t : Team) (b : Field) : Word × Word :=
  if b = 64#7 then (0#64, 0#64) else (s.sread t b, t.getS (b.toNat + 1))

/-- Issue of a copy instruction: the record read and checked, then an operation of its own (R234,
R238). -/
def copyForm (i : Instr) (k : CopyKind) (d a b : Field) (s : State) :
    Host.Outcome State Fault Refusal :=
  issue i s fun t => do
    if 64 ≤ (s.core t.coreId).copies.length then .error .hold
    else do
      let o := s.sread t a
      t.needScr o 64 0
      s.scrSound t o.toNat 64
      let h := Shape.ofNat (s.scrRead t o.toNat 64)
      if !h.ok k then raise (trapOperand a.toNat o)
      else do
        let (so, dof) := s.copyOffsets t b
        let src := h.src + so
        let dst := h.dst + dof
        checkAll (fun p => needAligned p.1 p.2) (h.alignments k src dst)
        checkAll t.needFixed (h.ranges k src dst)
        let op : CopyOp :=
          { id := s.nextUid, uid := t.uid, ctx := t.ctx, kind := k, shape := h, srcOff := so,
            dstOff := dof, recAt := o.toNat, ctr := (s.sread t d).toNat % 256, result := none,
            pins := [], scrBase := t.ident.scrBase, scrG := t.ident.scrG, clw := t.ident.clw,
            clh := t.ident.clh, cluster := t.ident.teamid / (t.ident.clw * t.ident.clh),
            rank := t.ident.rank, task := t.ident.taskAt, wave := t.ident.isWave,
            since := s.time t.ident.die }
        let s := s.modCore t.coreId fun c => { c with copies := c.copies ++ [op] }
        pure ({ s with nextUid := s.nextUid + 1 }.putTeam t.advance)

/-- CPY: issues a copy of rows unchanged. -/
def execCpy (d a b : Field) (s : State) : Host.Outcome State Fault Refusal :=
  copyForm (.cpy d a b) .cpy d a b s
/-- CPYG: issues a gather of rows by index. -/
def execCpyg (d a b : Field) (s : State) : Host.Outcome State Fault Refusal :=
  copyForm (.cpyg d a b) .cpyg d a b s
/-- CPYX: issues an expansion to BF16 or FP16. -/
def execCpyx (d a b : Field) (s : State) : Host.Outcome State Fault Refusal :=
  copyForm (.cpyx d a b) .cpyx d a b s
/-- CPYQ: issues a block quantisation. -/
def execCpyq (d a b : Field) (s : State) : Host.Outcome State Fault Refusal :=
  copyForm (.cpyq d a b) .cpyq d a b s
/-- CPYT: issues a compression of rows into run images. -/
def execCpyt (d a b : Field) (s : State) : Host.Outcome State Fault Refusal :=
  copyForm (.cpyt d a b) .cpyt d a b s
/-- DISCARD: issues a drop of the lines of a dead range. -/
def execDiscard (d a b : Field) (s : State) : Host.Outcome State Fault Refusal :=
  copyForm (.discard d a b) .discard d a b s
/-- PREFETCH: issues fills of the shared cache. -/
def execPrefetch (d a b : Field) (s : State) : Host.Outcome State Fault Refusal :=
  copyForm (.prefetch d a b) .prefetch d a b s
/-- CPYA: issues additions of rows into F32 words. -/
def execCpya (d a b : Field) (s : State) : Host.Outcome State Fault Refusal :=
  copyForm (.cpya d a b) .cpya d a b s
/-- CWALK: issues an expansion of page numbers into row indices. -/
def execCwalk (d a b : Field) (s : State) : Host.Outcome State Fault Refusal :=
  copyForm (.cwalk d a b) .cwalk d a b s

/-! ### An operation's accesses (R186, R237, R238) -/

/-- The progress of an operation: the state, the greatest GWCT of its writes, whether a line of the
other die or of the fabric was written, and the pages it has pinned. -/
structure Move where
  st : State
  g : Nat
  far : Bool
  fab : Bool
  pins : List Nat
  deriving DecidableEq, Repr

/-- A piece of an operand: in memory at a translated address, or in a scratchpad. -/
inductive CopyLoc where
  | mem (va : Word) (m : Mapped)
  | scr (core addr : Nat)
  deriving DecidableEq, Repr

/-- The number under which a core's copy engine makes requests at a home. -/
def copyRequester (core : Nat) : Nat := 2000 + core

/-- The address of a page's page-lock entry (R172). -/
def Die.lockEntry (d : Die) (page : Nat) : Nat := wordBits d.regs.pltbase 16 36 * 65536 + 4 * page

/-- A page's lock entry as the device reads it at its home: the state and the entry (R172, R231). -/
def State.readLock (s : State) (die page : Nat) : State × Nat :=
  let a := (s.die die).lockEntry page
  let s := s.reachHome (deviceRequester die) die (lineOf a)
  (s, (s.die die).mem.read a 4)

/-- The device's write of a page's lock entry at its home (R172). -/
def State.writeLock (s : State) (die page e : Nat) : State :=
  s.lineWrite die ((s.die die).lockEntry page) (leBytes 4 e)

/-- Adds to PINS of a local page; the wait for MIG, for room below 0xFFFF or for a migration of the entry's
own page holds (R172, R190, R393). -/
def Move.pin (v : Move) (die page : Nat) : Except Stop Move :=
  let at_ : Phys := { space := .gddr, unit := die, addr := (v.st.die die).lockEntry page }
  if v.pins.contains page then .ok v
  else if (v.st.die die).migrates (lineOf at_.addr) then .error .hold
  else if v.st.poisoned at_ then .error (v.st.poisonStop at_)
  else
    let (s, e) := v.st.readLock die page
    if bitOf e 16 || bitsOf e 0 16 == 0xFFFF then .error .hold
    else .ok { v with st := s.writeLock die page (e + 1), pins := page :: v.pins }

/-- The route entry of a fabric node as the device reads it at its home, and the port that it names: V set
and a scale-out port (R332, R400). -/
def State.fabricPort (s : State) (die node : Nat) : State × Option Nat :=
  let a := (s.die die).regs.frtab.toNat + node
  let s := s.reachHome (deviceRequester die) die (lineOf a)
  let e := ((s.die die).mem.byte a).toNat
  let port := bitsOf e 0 3
  (s, if bitOf e 7 && (s.product == .m || decide (4 ≤ port)) then some port else none)

/-- The fabric writes of a die that have not landed: each holds a landing reservation at its destination port
(R326, R332). -/
def State.fabricLandings (s : State) (die : Nat) : Nat :=
  ((s.cores.filter (fun p => p.1 / 64 == die)).map fun p =>
    (p.2.copies.filter (fun o => (o.result.map fun r => decide (s.time die < r.until_)).getD false)).length).sum

/-- Checks a translated piece before its access: the fabric's route (R400) and landing reservation (R332), the
way to the port or to the host (R15), a home that cannot serve it now, and the pin of a local page (R172). -/
def Move.ready (v : Move) (core : Nat) (va : Word) (m : Mapped) : Except Stop Move :=
  let die := core / 64
  match m.phys.space with
  | .fabric =>
    let (s, route) := v.st.fabricPort die m.phys.unit
    let v : Move := { v with st := s }
    match route with
    | none => raise { code := 6, taddr := va, tinfo := 4#64 }
    | some port =>
      match (v.st.die die).ports.find? (fun p => p.port == port) with
      | none =>
        if v.st.cutOff (coreEnd core) (die, portRouter port) || v.st.landingCap ≤ v.st.fabricLandings die then
          .error .hold
        else .ok v
      | some p =>
        if v.st.time die < p.since + v.st.host.peerTimeout then .error .hold
        else raise { code := 6, taddr := va, tinfo := 4#64 }
  | .host => if v.st.outCut core then .error .hold else .ok v
  | _ =>
    if v.st.busyAt (copyRequester core) m.phys then .error .hold
    else if m.phys.space == .gddr && m.phys.unit == die then v.pin die (m.phys.addr / 65536)
    else .ok v

/-- Translates the parts of a virtual range. -/
def Move.mapParts (v : Move) (core ctx : Nat) (kind : Access) (locs : List Nat) :
    List (Word × Nat) → Except Stop (Move × List (CopyLoc × Nat))
  | [] => .ok (v, [])
  | (va, n) :: rest => do
    let (s, m) ← v.st.translateResident (deviceWalker (core / 64) ctx) va kind locs
    if kind != .read then s.needRegions core ctx m.phys
    let v ← ({ v with st := s } : Move).ready core va m
    let (v, ps) ← v.mapParts core ctx kind locs rest
    pure (v, (.mem va m, n) :: ps)

/-- The pieces of `n` bytes at an address of a space (R237). A failure at a cluster peer (R403) has
DETAIL 1 or 2 where the peer has exited, 3 or 4 beyond its SCRSIZE, and 5 or 6 with code 32 where a word is
uncorrectable; the even ones are for a write. -/
def Move.map (v : Move) (core : Nat) (o : CopyOp) (space rank : Nat) (a : Word) (n : Nat)
    (kind : Access) (locs : List Nat) : Except Stop (Move × List (CopyLoc × Nat)) :=
  if space = 0 then v.mapParts core o.ctx kind locs (partsOf a n)
  else if space = 1 then
    if 4096 * o.scrG < a.toNat + n then raise (trapScrRange a 0 0)
    else .ok (v, [(.scr core (o.scrBase + a.toNat), n)])
  else
    let w := if kind = .read then 0 else 1
    match v.st.peerTeam? (if o.wave then some o.uid else none) o.ctx o.task o.cluster rank with
    | some x =>
      if x.scrSize < a.toNat + n then raise { trapScrRange a rank 0 with detail := 3 + w }
      else if (v.st.core x.coreId).badAt (x.ident.scrBase + a.toNat) n then
        raise { trapScrRange a rank 0 with code := 32, detail := 5 + w }
      else .ok (v, [(.scr x.coreId (x.ident.scrBase + a.toNat), n)])
    | none => raise { trapScrRange a rank 0 with detail := 1 + w }

/-- Reads pieces at their homes (R186). An uncorrectable scratchpad word is a machine check of the
operation's context (Table 19.7, STRUCT 5). -/
def Move.read (v : Move) (core : Nat) :
    List (CopyLoc × Nat) → Except Stop (Move × List Byte)
  | [] => .ok (v, [])
  | (.scr c a, n) :: rest => do
    v.st.soundScratch c a n
    let bs := (v.st.core c).scratch.bytes a n
    let (v, more) ← v.read core rest
    pure (v, bs ++ more)
  | (.mem _ m, n) :: rest =>
    if v.st.poisoned m.phys then .error (v.st.poisonStop m.phys)
    else do
      let s := if m.phys.space == .gddr then
          v.st.homeRead (copyRequester core) m.phys.unit (lineOf m.phys.addr) false else v.st
      let bs := (s.space m.phys.space m.phys.unit).bytes m.phys.addr n
      let (v, more) ← ({ v with st := s } : Move).read core rest
      pure (v, bs ++ more)

/-- Writes bytes to one piece of memory at its home. -/
def Move.writeMem (v : Move) (core ctx : Nat) (va : Word) (p : Phys) (bytes : List Byte) : Move :=
  match p.space with
  | .gddr =>
    let s := v.st.learnFx core ctx va p
    let (s, g) := s.homeStore (copyRequester core) p.unit p.addr bytes
    { v with st := s, g := max v.g g, far := v.far || p.unit != core / 64 }
  | .dsm =>
    let (s, g) := v.st.dsmStore p.unit p.addr bytes
    { v with st := s, g := max v.g g }
  | .host =>
    { v with st := { v.st with host :=
        { v.st.host with mem := v.st.host.mem.setBytes p.addr bytes } } }
  | .fabric =>
    let m := Memory.setBytes (lookup [] p.unit v.st.fabric) p.addr bytes
    { v with st := { v.st with fabric := insertAt p.unit m v.st.fabric }, fab := true }

/-- Writes bytes over pieces. -/
def Move.write (v : Move) (core ctx : Nat) : List (CopyLoc × Nat) → List Byte → Move
  | [], _ => v
  | (.scr c a, n) :: rest, bytes =>
    let s := v.st.modCore c fun k => k.putScratch a (bytes.take n)
    ({ v with st := s } : Move).write core ctx rest (bytes.drop n)
  | (.mem va m, n) :: rest, bytes =>
    (v.writeMem core ctx va m.phys (bytes.take n)).write core ctx rest (bytes.drop n)

/-! ### Rows -/

/-- Every space (Table 7.1, copy engine). -/
def copySpaces : List Nat := [0, 1, 2, 3, 4]

/-- SRC′ of an operation (R237). -/
def CopyOp.src (o : CopyOp) : Word := o.shape.src + o.srcOff
/-- DST′ of an operation. -/
def CopyOp.dst (o : CopyOp) : Word := o.shape.dst + o.dstOff

/-- Maps `n` bytes of the source space at `a`. -/
def Move.source (v : Move) (core : Nat) (o : CopyOp) (a : Word) (n : Nat) :
    Except Stop (Move × List (CopyLoc × Nat)) :=
  v.map core o o.shape.ssp o.shape.srank a n .read copySpaces

/-- Maps `n` bytes of the destination space at `a`. -/
def Move.dest (v : Move) (core : Nat) (o : CopyOp) (a : Word) (n : Nat) :
    Except Stop (Move × List (CopyLoc × Nat)) :=
  v.map core o o.shape.dsp o.shape.drank a n .write copySpaces

/-- Writes the elements `x` of a row, merged into its partial bytes and words (R236). -/
def Move.writeRow (v : Move) (core : Nat) (o : CopyOp) (f : Nat) (ps : List (CopyLoc × Nat))
    (x : Nat → Nat) : Except Stop Move := do
  let n := rowBytes f o.shape.cols
  let (v, old) ← if f = 7 || f = 8 || f = 9 then v.read core ps else .ok (v, [])
  pure (v.write core o.ctx ps (leBytes n (encodeRow f o.shape.cols (leNat old) x)))

/-- A plain row from `a` to destination row `r` (R241). -/
def Move.plainRow (v : Move) (core : Nat) (o : CopyOp) (r : Nat)
    (src : List (CopyLoc × Nat)) : Except Stop Move := do
  let h := o.shape
  let (v, dst) ← v.dest core o (rowStart o.dst h.dstr r) (rowBytes h.dfmt h.cols)
  let (v, bs) ← v.read core src
  let row := leNat bs
  v.writeRow core o h.dfmt dst (elemBits h.sfmt row)

/-- The rounding of an operation: the record's RND and SAT, MODE.DNZ as 0 (R247). -/
def Shape.rounding (h : Shape) : Rounding := { rnd := h.rnd, sat := h.sat, dnz := false, draw := 0 }

/-- The exact values of a row (Table 10.3). -/
def Shape.values (h : Shape) (row : Nat) : List XReal :=
  (List.range h.cols).map fun c => subVal (fmtType h.sfmt) false (elemBits h.sfmt row c)

/-- Blocks of `n` elements of a list. -/
def blocksOf {α : Type} (n : Nat) : Nat → List α → List (List α)
  | 0, _ => []
  | k + 1, v => v.take n :: blocksOf n k (v.drop n)

/-- An element under its block's scale: the exact product; under a zero scale the element is zero whatever
it was (Table 3.8), with the sign of the product where the element has one (log entry 49). -/
def scaledBy (scale x : XReal) : XReal :=
  match scale, x with
  | .zero _, .nan => .zero false
  | .zero neg, x => .zero (neg != x.isNeg)
  | k, x => x.mul k

/-- The elements that CPYX writes for a row, from its scale codes (R247). -/
def Shape.expand (h : Shape) (row : Nat) (scale : Nat → Nat) : List Nat :=
  let v := h.values row
  let out := if h.blk = 0 then v
    else (blocksOf h.bs h.nb v).zipIdx.flatMap fun p =>
      let k := scaleValue (h.scf == 1) (scale p.2)
      let b := padZeros h.bs (p.1.map (scaledBy k))
      if h.rot then hadamard (h.rnd == 2) true b else b
  out.map (subRound (fmtType h.dfmt) h.rounding)

/-- CPYX of row `r`. -/
def Move.expandRow (v : Move) (core : Nat) (o : CopyOp) (r : Nat) : Except Stop Move := do
  let h := o.shape
  let (v, src) ← v.source core o (rowStart o.src h.sstr r) (rowBytes h.sfmt h.cols)
  let (v, aux) ← if h.blk = 0 then .ok (v, [])
    else v.source core o (h.aux + BitVec.ofNat 64 (h.z * r * h.nb)) (h.z * h.nb)
  let (v, dst) ← v.dest core o (rowStart o.dst h.dstr r) (rowBytes h.dfmt h.cols)
  let (v, bs) ← v.read core src
  let (v, sc) ← v.read core aux
  let codes := leNat sc
  let out := h.expand (leNat bs) (fun b => bitsOf codes (8 * h.z * b) (8 * h.z))
  v.writeRow core o h.dfmt dst (fun c => out.getD c 0)

/-- The scale codes and elements that CPYQ writes for a row (R248). -/
def Shape.quantise (h : Shape) (row : Nat) : List (Nat × List Nat) :=
  (blocksOf h.bs h.nb (h.values row)).map fun b =>
    quantBlock (fmtType h.dfmt) h.rot (h.scf == 1) { h.rounding with sat := false }
      (padZeros h.bs b)

/-- CPYQ of row `r`. -/
def Move.quantRow (v : Move) (core : Nat) (o : CopyOp) (r : Nat) : Except Stop Move := do
  let h := o.shape
  let (v, src) ← v.source core o (rowStart o.src h.sstr r) (rowBytes h.sfmt h.cols)
  let (v, dst) ← v.dest core o (rowStart o.dst h.dstr r) (rowBytes h.dfmt h.cols)
  let (v, aux) ← v.dest core o (h.aux + BitVec.ofNat 64 (h.z * r * h.nb)) (h.z * h.nb)
  let (v, bs) ← v.read core src
  let q := h.quantise (leNat bs)
  let out := q.flatMap Prod.snd
  let v ← v.writeRow core o h.dfmt dst (fun c => out.getD c 0)
  pure (v.write core o.ctx aux (q.flatMap (fun p => leBytes h.z p.1)))

/-- CPYA of row `r`: each word's read, add and write at its home (R242). -/
def Move.addRow (v : Move) (core : Nat) (o : CopyOp) (r : Nat) : Except Stop Move := do
  let h := o.shape
  let (v, src) ← v.source core o (rowStart o.src h.sstr r) (rowBytes h.sfmt h.cols)
  let (v, dst) ← v.map core o h.dsp h.drank (rowStart o.dst h.dstr r) (4 * h.cols) .both [0, 1, 3]
  let (v, bs) ← v.read core src
  let (v, old) ← v.read core dst
  let xs := h.values (leNat bs)
  let row := leNat old
  let sum := fun c => roundFmt .f32 h.rounding (XReal.add (h.rnd == 2)
    (Fmt.f32.decode false (bitsOf row (32 * c) 32)) (xs.getD c (.zero false)))
  v.writeRow core o 1 dst sum

/-- CWALK of page number `j` (R244). -/
def Move.walkRow (v : Move) (core : Nat) (o : CopyOp) (j : Nat) : Except Stop Move := do
  let h := o.shape
  let (v, src) ← v.source core o (o.src + BitVec.ofNat 64 (4 * j)) 4
  let (v, dst) ← v.dest core o (o.dst + BitVec.ofNat 64 (4 * j * h.cols)) (4 * h.cols)
  let (v, bs) ← v.read core src
  let p := leNat bs
  v.writeRow core o 0 dst (fun r => (p * h.cols + r + h.aux.toNat) % 2 ^ 32)

/-- Why an operation stops before its last row. -/
inductive CopyEnd where
  | fault (e : Stop)
  /-- CPYT at its capacity, or CPYG at a source row above the first (R243, R249) -/
  | short
  deriving DecidableEq, Repr

/-- Rows from `r` on, `n` of them, until one stops: the progress, the rows done, why it stopped. -/
def Move.rows (row : Move → Nat → Except CopyEnd Move) :
    Nat → Nat → Move → Move × Nat × Option CopyEnd
  | 0, r, v => (v, r, none)
  | n + 1, r, v =>
    match row v r with
    | .ok v => Move.rows row n (r + 1) v
    | .error e => (v, r, some e)

/-- A row whose failure is an engine fault. -/
def faulting (x : Except Stop Move) : Except CopyEnd Move :=
  match x with
  | .ok v => .ok v
  | .error e => .error (.fault e)

/-- CPYG of row `j`: a source row above row 0 that fails translation, protection or residency, or lies outside
its scratchpad, stops without a fault (R243); an uncorrectable word of a peer's scratchpad is none of these
(R403, R404). -/
def Move.gatherRow (v : Move) (core : Nat) (o : CopyOp) (j : Nat) : Except CopyEnd Move :=
  let h := o.shape
  let at_ := o.scrBase + h.aux.toNat + 4 * j
  match v.st.soundScratch core at_ 4 with
  | .error e => .error (.fault e)
  | .ok () =>
    let idx := (v.st.core core).scratch.read at_ 4
    match v.source core o (rowStart o.src h.sstr idx) (rowBytes h.sfmt h.cols) with
    | .error (.trap r) =>
      let exited := r.code = 10 && (r.detail == 1 || r.detail == 2)
      .error (if j = 0 || exited || r.code = 6 || r.code = 32 then .fault (.trap r) else .short)
    | .error e => .error (.fault e)
    | .ok (v, src) => faulting (v.plainRow core o j src)

/-- CPYT of row `r`, whose image starts at byte `pos` (R249). -/
def Move.tileRow (v : Move) (core : Nat) (o : CopyOp) (r pos : Nat) :
    Except CopyEnd (Move × Nat) :=
  let h := o.shape
  match v.source core o (rowStart o.src h.sstr r) (4 * h.cols) with
  | .error e => .error (.fault e)
  | .ok (v, src) => match v.read core src with
    | .error e => .error (.fault e)
    | .ok (v, bs) =>
      let row := leNat bs
      let lanes : VReg := (List.range h.cols).map fun c =>
        { val := BitVec.ofNat 32 (bitsOf row (32 * c) 32), cnt := 1 }
      let image := lanes.coalesce.image
      if h.cap < pos + image.length then .error .short
      else match v.dest core o (o.dst + BitVec.ofNat 64 pos) image.length with
        | .error e => .error (.fault e)
        | .ok (v, dst) => match v.dest core o (h.aux + BitVec.ofNat 64 (4 * r)) 4 with
          | .error e => .error (.fault e)
          | .ok (v, entry) =>
            let v := v.write core o.ctx dst image
            .ok (v.write core o.ctx entry (leBytes 4 pos), pos + image.length)

/-- CPYT's rows. -/
def Move.tileRows (core : Nat) (o : CopyOp) :
    Nat → Nat → Nat → Move → Move × Nat × Option CopyEnd
  | 0, r, _, v => (v, r, none)
  | n + 1, r, pos, v =>
    match v.tileRow core o r pos with
    | .ok (v, pos) => Move.tileRows core o n (r + 1) pos v
    | .error e => (v, r, some e)

/-! ### DISCARD and PREFETCH (R250, R251) -/

/-- Whether some row of the source covers the byte at `a`. -/
def CopyOp.covers (o : CopyOp) (a : Word) : Bool :=
  let h := o.shape
  (List.range h.rows).any fun r =>
    decide ((a - rowStart o.src h.sstr r).toNat < rowBytes h.sfmt h.cols)

/-- The virtual lines that the source rows touch, each once. -/
def CopyOp.lines (o : CopyOp) : List Word :=
  let h := o.shape
  ((List.range h.rows).flatMap fun r =>
    (partsOf (rowStart o.src h.sstr r) (rowBytes h.sfmt h.cols)).map fun p =>
      p.1 - BitVec.ofNat 64 (p.1.toNat % 128)).dedup

/-- DISCARD of a whole line at its home (R233, R250, R395): bins dropped, the line gone from the shared
cache with the errors of its copy and the contents of GDDR7 back, FXADD shadows established afresh. -/
def State.discardLine (s : State) (die line : Nat) : State :=
  let k := s.die die
  let fx := match k.bins.find? (fun b => b.line == line && b.op == 9) with
    | some b => some (b.ctx, b.fxf, b.shadow + 4 * b.off)
    | none => (k.fxLines.find? (fun p => p.1 == line)).map Prod.snd
  let dirty := k.dirty.contains line
  let s := s.modDie die fun k => { k with
    bins := k.bins.filter (fun b => b.line != line)
    mem := if dirty then k.mem.copyRange k.dram line 128 else k.mem
    dirty := k.dirty.filter (fun a => a != line) }.evict line
  let s := match fx with
    | some (ctx, fxf, sh) => ((wordsTouched line 128).foldl
        (fun (s : State) w => s.establish die ctx fxf sh w) (s.touchLine die line)).markDirty die line
    | none => s
  s.fireLine .gddr die line

/-- DISCARD or PREFETCH of one virtual line. A line whose page fails translation or does not permit it is
skipped; an uncorrectable table line is a machine check (R390). -/
def Move.lineOp (v : Move) (core : Nat) (o : CopyOp) (kind : Access) (va : Word) :
    Except Stop Move :=
  match v.st.translateResident (deviceWalker (core / 64) o.ctx) va kind [0, 1, 2, 3, 4] with
  | .error (.trap _) => .ok v
  | .error e => .error e
  | .ok (s, m) =>
    if m.phys.space != .gddr then .ok { v with st := s }
    else do
      if kind == .write then s.needRegions core o.ctx m.phys
      let v ← ({ v with st := s } : Move).ready core va m
      if kind != .write then
        pure { v with st := v.st.touchLine m.phys.unit (lineOf m.phys.addr) }
      else
        let die := m.phys.unit
        let line := lineOf m.phys.addr
        let whole := (List.range 128).all fun i => o.covers (va + BitVec.ofNat 64 i)
        if whole then
          let s := (v.st.learnFx core o.ctx va m.phys).recallLine (copyRequester core) die line
          let s := s.discardLine die line
          pure { v with st := s, g := max v.g (s.gwctOf die line), far := v.far || die != core / 64 }
        else pure { v with st := v.st.reachHome (copyRequester core) die line }

/-- DISCARD or PREFETCH over all lines. -/
def Move.lineOps (core : Nat) (o : CopyOp) (kind : Access) :
    List Word → Move → Except Stop Move
  | [], v => .ok v
  | va :: rest, v => do
    let v ← v.lineOp core o kind va
    Move.lineOps core o kind rest v

/-! ### Start and completion -/

/-- The accesses of an operation: the progress, the rows done, why it stopped. -/
def Move.run (v : Move) (core : Nat) (o : CopyOp) : Move × Nat × Option CopyEnd :=
  let n := o.shape.rows
  let rows := fun (f : Move → Nat → Except Stop Move) => Move.rows (fun v r => faulting (f v r)) n 0 v
  let lines := fun (kind : Access) =>
    match Move.lineOps core o kind o.lines v with
    | .ok v => (v, n, none)
    | .error e => (v, 0, some (CopyEnd.fault e))
  match o.kind with
  | .cpy => rows fun v r => do
      let (v, src) ← v.source core o (rowStart o.src o.shape.sstr r)
        (rowBytes o.shape.sfmt o.shape.cols)
      v.plainRow core o r src
  | .cpyg => Move.rows (fun v r => v.gatherRow core o r) n 0 v
  | .cpyx => rows fun v r => v.expandRow core o r
  | .cpyq => rows fun v r => v.quantRow core o r
  | .cpyt => Move.tileRows core o n 0 0 v
  | .cpya => rows fun v r => v.addRow core o r
  | .cwalk => rows fun v r => v.walkRow core o r
  | .discard => lines .write
  | .prefetch => lines .read

/-- When an operation's fabric writes are complete: the start of window N + 2 (R175). -/
def Die.windowEnd (d : Die) : Nat :=
  let w := 2 ^ wordBits d.regs.vwin 0 5
  (d.time / w + 2) * w

/-- The core's copy operations with one replaced. -/
def State.putCopy (s : State) (core : Nat) (o : CopyOp) : State :=
  s.modCore core fun c => { c with copies := mapWhere (fun x => x.id == o.id) (fun _ => o) c.copies }

/-- COPY_START: the operation takes its accesses; not possible while it must wait for a home, a
pin or a port. DEDUCED (log entry 53): RFLAG says that rotated rows were written, so a CPYQ with ROT = 1 that
stops before its first row leaves it clear (R246). -/
def State.copyStart (s : State) (core id : Nat) : Option State :=
  match (s.core core).copies.find? (fun o => o.id == id) with
  | none => none
  | some o =>
    if o.result.isSome || !s.forkHolds o.uid then none
    else
      let (v, n, stop) :=
        ({ st := s.asClass o.ctx, g := 0, far := false, fab := false, pins := [] } : Move).run core o
      let finish := fun (s : State) (code : Nat) =>
        let r : CopyResult :=
          { ndone := n, ecode := code, rflag := o.kind == .cpyq && o.shape.rot && n != 0, g := v.g,
            far := v.far, until_ := if v.fab then (s.die (core / 64)).windowEnd else 0 }
        some ((s.putCopy core { o with result := some r, pins := v.pins }).taskGwct o.task o.wave
          o.ctx v.g)
      match stop with
      | none | some .short => finish v.st 0
      | some (.fault (.trap r)) =>
        let target := rankCore core o.clw o.rank (wordBits r.tinfo 0 4)
        let s := if (r.code = 10 && r.detail != 0) || r.code = 32 then
            v.st.reportPeer o.ctx target r.code r.taddr.toNat (r.detail % 2 == 0)
          else v.st
        finish s r.code
      | some (.fault (.check struct code addr)) =>
        let r : Report := { kind := 2, code := code, ctx := o.ctx, die := core / 64,
                            unit := core % 64, struct := struct, addr := BitVec.ofNat 64 addr }
        finish (v.st.haltCtx o.ctx r) 32
      | some (.fault _) => none

/-- COPY_START. -/
def execCopyStart (s : State) : Host.Outcome State Fault Refusal :=
  event "COPY_START" (s.copyStart s.arg.core s.arg.n)

/-- Takes back an operation's pin of a page (R172). -/
def State.unpin (s : State) (die page : Nat) : State :=
  let (s, e) := s.readLock die page
  s.writeLock die page (e + (2 ^ 32 - 1))

/-- COPY_COMPLETE: NDONE and STATUS are written, and the counter decremented, once the join rule
holds (R186, R235, R238). -/
def State.copyComplete (s : State) (core id : Nat) : Option State :=
  match (s.core core).copies.find? (fun o => o.id == id) with
  | none => none
  | some o => match o.result with
    | none => none
    | some r =>
      let die := core / 64
      let now := s.time die
      let locked := fun p => (s.die die).migrates (lineOf ((s.die die).lockEntry p))
      if now < r.g + (if r.far then 8 else 2) && r.g != 0 || now < r.until_ || o.pins.any locked then none
      else
        let status := r.ecode + (if r.rflag then 256 else 0)
        let s := (s.asClass o.ctx).modCore core fun c =>
          { c with copies := eraseFirst (fun x => x.id == id) c.copies }.putScratch
            (o.scrBase + o.recAt + 0x30) (leBytes 8 (r.ndone + 2 ^ 32 * status))
        let s := o.pins.foldl (fun (s : State) p => s.unpin die p) s
        some (s.decCounter core o.ctr 0 o.ctx)

/-- COPY_COMPLETE. -/
def execCopyComplete (s : State) : Host.Outcome State Fault Refusal :=
  event "COPY_COMPLETE" (s.copyComplete s.arg.core s.arg.n)

end Sys2Proof.Machine
end

