-- ==== Sys2Proof/Machine/Fetch.lean ====
section
/-! DEFINITION. Fetching an instruction (spec/20 R374), the scheduler's choice (spec/02 R42), the
passing of time, and how a program is placed for the next fetch (log entry 5). -/

namespace Sys2Proof.Machine

/-! ### Fetch (R79, R374) -/

/-- Fetches one instruction word at a virtual address; a migration of the page holds it (R190). -/
def State.fetchWord (s : State) (t : Team) (va : Word) : Except Stop (State × W32) := do
  let (s, m) ← s.translateResident t.walker va .fetch [0]
  if (s.die m.phys.unit).migrates (lineOf m.phys.addr) then .error .hold
  else if s.poisoned m.phys then .error (s.poisonStop m.phys)
  else
    let s := s.reachHome t.coreId m.phys.unit (lineOf m.phys.addr)
    pure (s, BitVec.ofNat 32 (s.peek m.phys 4))

/-- Fetches a team's next instruction under its class of service (R187): its word, and the literal of an
X-format word. -/
def State.fetch (s : State) (t : Team) : Except Stop (State × W32 × W32) := do
  let (s, w) ← (s.asClass t.ctx).fetchWord t t.pc
  if isXFormat w then do
    let (s, lit) ← s.fetchWord t (t.pc + 4#64)
    pure (s, w, lit)
  else pure (s, w, 0#32)

/-- The instruction that a team issues next, with the state after its fetch: a failed fetch and a
word rejected by decoding have steps of their own. -/
def State.nextInstr (s : State) (t : Team) : State × Instr :=
  match s.fetch t with
  | .error _ => (s, .instructionFetchFault)
  | .ok (s', w, lit) =>
    match decodeWord w lit with
    | .ok i => (s', i)
    | .error _ => (s', .illegalInstr w)

/-- A team becomes ready now: its wait under R42 counts from this cycle. -/
def State.markReady (s : State) (uid : Nat) : State :=
  s.modTeam uid fun t => { t with readySince := (s.core t.coreId).cycles }

/-- A team whose next instruction an operation held in `before` and holds no longer has become ready
(R42). -/
def State.released (s before : State) (uid : Nat) : State :=
  match s.team? uid with
  | none => s
  | some t =>
    let i := (before.nextInstr t).2
    if before.interlocked ((before.team? uid).getD t) i && !s.interlocked t i then s.markReady uid else s

/-! ### Choosing the team (R42) -/

/-- Inserts into a list ordered by `le`. -/
def insertSorted {α : Type} (le : α → α → Bool) (x : α) : List α → List α
  | [] => [x]
  | y :: rest => if le x y then x :: y :: rest else y :: insertSorted le x rest

/-- A list ordered by `le`, equal elements in their order. -/
def sortBy {α : Type} (le : α → α → Bool) : List α → List α
  | [] => []
  | x :: rest => insertSorted le x (sortBy le rest)

/-- The cycles a ready team has waited (R42 rule 1). -/
def Team.waited (t : Team) (cycles : Nat) : Nat := cycles - max t.lastIssue t.readySince

/-- Rule 1 of R42: the longest wait first, ties to the team resident longest. -/
def longerWait (cycles : Nat) (a b : Team) : Bool :=
  decide (b.waited cycles < a.waited cycles) ||
    (decide (b.waited cycles = a.waited cycles) && decide (a.order ≤ b.order))

/-- Rule 2 of R42: the class, then the teams after the one that last issued from the class, then
the rest, each in residency order. -/
def roundRobin (last : Nat → Option Nat) (a b : Team) : Bool :=
  let key := fun (t : Team) =>
    match last t.ident.prio with
    | none => 0
    | some o => if o < t.order then 0 else 1
  decide (a.ident.prio < b.ident.prio) ||
    (decide (a.ident.prio = b.ident.prio) &&
      (decide (key a < key b) || (decide (key a = key b) && decide (a.order ≤ b.order))))

/-- The order in which a scheduler takes its teams (R42). -/
def State.issueOrder (s : State) (core sched : Nat) : List Team :=
  let k := s.core core
  let ts := s.teams.filter fun t => t.coreId == core && t.ident.sched == sched && s.canIssue t
  let starved := ts.filter fun t => decide (1017 ≤ t.waited k.cycles)
  let last := fun c => (k.lastIssued.find? (fun p => p.1 == 4 * sched + c)).map Prod.snd
  sortBy (longerWait k.cycles) starved ++ sortBy (roundRobin last) ts

/-- The state in which a team issues: it is the issuing team, and its scheduler records it. A team that goes on
after a YIELD in its donated slot has ended its donation (R55). -/
def State.begin (s : State) (t : Team) : State :=
  let k := s.core t.coreId
  let s := s.setCore t.coreId { k with
    lastIssued := insertAt (4 * t.ident.sched + t.ident.prio) t.order k.lastIssued
    lastIssueAt := k.cycles }
  let s := s.modTeam t.uid fun t => { t with
    lastIssue := k.cycles, yielded := false, donationOver := t.donationOver || (t.donated && t.yielded) }
  { s with cur := t.uid, stalled := false }

/-- What a try that was held leaves: its team was not ready in this cycle (R42), and the homes know of its
requests (R197). -/
def State.tried (s r : State) (t : Team) : State :=
  let s := s.modTeam t.uid fun t => { t with readySince := (s.core t.coreId).cycles }
  { s with
    die0 := { s.die0 with recent := r.die0.recent }
    die1 := { s.die1 with recent := r.die1.recent } }

/-- Issues for the first team of a list whose instruction is not held; `run` runs an instruction. -/
def State.issueFirst (run : Instr → State → Host.Outcome State Fault Refusal) (s : State) :
    List Team → Except State (Host.Outcome State Fault Refusal)
  | [] => .error s
  | t :: rest =>
    let (s', i) := s.nextInstr t
    match run i (s'.begin t) with
    | .next r =>
      if r.stalled then State.issueFirst run (s.tried r t) rest else .ok (.next r)
    | o => .ok o

/-- The schedulers that have a team, in core and scheduler order. -/
def State.schedulers (s : State) : List (Nat × Nat) :=
  let all := s.teams.map fun t => (t.coreId, t.ident.sched)
  let le := fun (a b : Nat × Nat) => decide (4 * a.1 + a.2 ≤ 4 * b.1 + b.2)
  (sortBy le all).dedup

/-- Issues from the first scheduler of a list that has a ready team. -/
def State.issueAny (run : Instr → State → Host.Outcome State Fault Refusal) (s : State) :
    List (Nat × Nat) → Except State (Host.Outcome State Fault Refusal)
  | [] => .error s
  | (core, sched) :: rest =>
    match s.issueFirst run (s.issueOrder core sched) with
    | .ok o => .ok o
    | .error s => s.issueAny run rest

/-! ### Time (log entry 7) -/

/-- The pre-empted team that R55 favours on a core in a context: the highest class, then the
earliest pre-emption. -/
def State.lockHolder? (s : State) (core ctx : Nat) : Option Team :=
  let out := s.teams.filter fun t =>
    t.coreId == core && t.ctx == ctx && t.displacedBy.isNone && t.place.isOut
  let top := (out.map (fun t => t.ident.prio)).foldl min 3
  leastBy (fun t => t.place.orderOut) (out.filter (fun t => t.ident.prio == top))

/-- Whether a team is yielded on WATCH with no event yet. -/
def Team.watching (t : Team) : Bool :=
  match t.wait with
  | some { kind := .watch _ _, fired := false } => true
  | _ => false

/-- Whether the condition of R55 holds now for a core and a context. -/
def State.spins (s : State) (core ctx : Nat) : Bool :=
  match s.lockHolder? core ctx with
  | none => false
  | some p =>
    let above := s.teams.filter fun t =>
      t.coreId == core && t.ctx == ctx && t.isResident && decide (t.ident.prio < p.ident.prio)
    !above.isEmpty && above.all Team.watching

/-- Since when R55's condition has held, for the cores and contexts where it holds now. -/
def State.watchTimes (s : State) : List (Nat × Nat) :=
  let pairs := ((s.teams.filter (fun t => t.place.isOut)).map (fun t => (t.coreId, t.ctx))).dedup
  (pairs.filter (fun p => s.spins p.1 p.2)).map fun p =>
    let key := p.1 + 128 * p.2
    (key, lookup (s.time (p.1 / 64)) key s.watchSince)

/-- Whether a core has a team, an allocated granule or tile, or engine work (R335). -/
def State.coreBusy (s : State) (core : Nat) (k : Core) : Bool :=
  s.teams.any (fun t => t.coreId == core && (t.onCore || t.ident.scrG != 0)) || !k.copies.isEmpty ||
    !k.mats.isEmpty || !k.xfs.isEmpty || !k.batches.isEmpty || k.streams.any (fun p => !p.2.isEmpty) ||
    !k.inbound.isEmpty || k.steal.victim.isSome

/-- What passing time does to a core while `cycles` of the main clock pass: CYCLES of a running core, whose
own clock runs at `clock` 64ths of the main clock (R18, R336), and since when it is empty. -/
def State.coreTime (s : State) (core cycles : Nat) (k : Core) : Core :=
  let passed := k.cycleFrac + k.clock * cycles
  { k with
    cycles := if k.power == .run then k.cycles + passed / 64 else k.cycles
    cycleFrac := if k.power == .run then passed % 64 else k.cycleFrac
    emptySince := if s.coreBusy core k then s.time (core / 64) else k.emptySince }

/-- Whether a distributor has made its placement attempt in this cycle: a further step belongs to a later one, as
a cycle's attempt comes after everything else of it (R344). -/
def State.cycleOver (s : State) : Bool :=
  decide (s.baseCycles < s.die0.attemptAt) || decide (s.baseCycles < s.die1.attemptAt)

/-- The ticks and cycles that a step takes pass: TIME of both dies, CYCLES of every running core
(R174, Table 4.4). Entries that have waited for a log are appended where they can be (R363). -/
def State.passTime (s : State) : State :=
  let s := s.flushLogs
  let (ticks, cycles) := s.elapsed.headD (1, 1)
  let cycles := if s.cycleOver then max 1 cycles else cycles
  { s with
    elapsed := s.elapsed.drop 1
    late := false
    watchSince := s.watchTimes
    die0 := { s.die0 with time := s.die0.time + ticks }
    die1 := { s.die1 with time := s.die1.time + ticks }
    baseCycles := s.baseCycles + cycles
    cores := s.cores.map (fun p => (p.1, s.coreTime p.1 cycles p.2)) }

/-! ### Turns (log entry 6) -/

/-- The host programs one of the two HDM decoders; a size of 0 turns it off (R330, R334). -/
def HostIf.setDecoder (h : HostIf) (n base size : Nat) : HostIf :=
  if 2 ≤ n then h
  else
    let others := h.hdm.filter (fun x => x.1 != n)
    { h with hdm := if size = 0 then others else (n, base, size) :: others }

/-- Takes the first device step of a list that is enabled, if any is. -/
def State.runDue (run : Instr → State → Host.Outcome State Fault Refusal) (s : State) :
    List (Instr × EventArg) → Option (Host.Outcome State Fault Refusal)
  | [] => none
  | (e, a) :: rest =>
    match run e { s with arg := a, clos := 0 } with
    | .refused _ => s.runDue run rest
    | o => some o

/-- Takes the first device step of a list that is enabled; an idle machine stays as it is. -/
def State.runFirst (run : Instr → State → Host.Outcome State Fault Refusal) (s : State)
    (l : List (Instr × EventArg)) : Host.Outcome State Fault Refusal :=
  (s.runDue run l).getD (.next s)

/-- Whether the device steps that are due come before an issue in this turn (log entry 6). -/
def State.devicesFirst (s : State) : Bool := s.die0.time % 2 == 0

/-- The schedulers that have a team, another one first at every issue turn (log entry 6). -/
def State.issueTurn (s : State) : List (Nat × Nat) := s.schedulers.rotateLeft (s.die0.time / 2)

/-- One turn without a schedule: an issue, or else a device step that is due or that an idle device
takes; in every second turn the device steps that are due come first (log entry 6). -/
def State.freeTurn (run : Instr → State → Host.Outcome State Fault Refusal)
    (due idle : State → List (Instr × EventArg)) (s : State) : Host.Outcome State Fault Refusal :=
  match if s.devicesFirst then s.runDue run (due s) else none with
  | some o => o
  | none =>
    match s.issueAny run s.issueTurn with
    | .ok o => o
    | .error s => s.runFirst run (due s ++ idle s)

/-- One turn of the machine: what the schedule names, or else a free turn (log entry 6). -/
def State.turn (run : Instr → State → Host.Outcome State Fault Refusal)
    (due idle : State → List (Instr × EventArg)) (s : State) : Host.Outcome State Fault Refusal :=
  match s.agenda with
  | .event e a :: rest =>
    if (encodeWords e).isSome then .refused .notAnEvent
    else run e { s with agenda := rest, arg := a, clos := 0 }
  | .issue core sched late :: rest =>
    let s := { s with agenda := rest, late := late }
    match s.issueFirst run (s.issueOrder core sched) with
    | .ok o => o
    | .error s => .next s
  | .upset u :: rest => .next ({ s with agenda := rest, clos := 0 }.upset u)
  | .hdm n base size :: rest => .next { s with agenda := rest, host := s.host.setDecoder n base size }
  | [] => s.freeTurn run due idle

/-! ### Placing a program (log entry 5) -/

/-- The team whose instruction a step tries first. -/
def State.fetcher (s : State) : Option Team :=
  match s.agenda with
  | .event _ _ :: _ | .upset _ :: _ | .hdm _ _ _ :: _ => none
  | .issue core sched _ :: _ => (s.issueOrder core sched).head?
  | [] => (s.schedulers.flatMap (fun p => s.issueOrder p.1 p.2)).head?

/-- The state whose next turn is an issue of a team's scheduler. -/
def State.issueNext (s : State) (t : Team) : State :=
  { s with agenda := .issue t.coreId t.ident.sched false :: s.agenda.drop 1 }

/-- Where that team's instruction lies, when it can be fetched. -/
def State.fetchAt (s : State) : Option Phys :=
  match s.fetcher with
  | none => none
  | some t =>
    match s.translateResident t.walker t.pc .fetch [0],
        s.translateResident t.walker (t.pc + 4#64) .fetch [0] with
    | .ok (_, m), .ok (_, n) =>
      if n.phys.addr = m.phys.addr + 4 then some m.phys else none
    | _, _ => none

/-- The identity of a launched team of one 32-lane task (Table 4.4). -/
def launchIdent : Ident :=
  { teamid := 0, nteams := 1, lanes := 32, elanes := 32, die := 0, core := 0, sched := 0, slot := 0,
    clw := 1, clh := 1, rank := 0, isWave := false, waveid := 0, shader := 0, task := 0x30000#64,
    taskAt := { space := .gddr, unit := 0, addr := 0x30000 }, prio := 0, scrBase := 0, scrG := 1 }

/-- The context of a launch: root table at 0x8000, its handler at 0x10400 (Table 19.5). -/
def launchCtx : Ctx :=
  let regs : CtxRegs := { ptroot := 0x8000#64, rgntab := 0#64, rgncnt := 0#64, scene := 0#64,
                          shdtab := 0#64, shdcnt := 0#64 }
  { id := 1, regs := regs, eff := regs, scenePend := none, tvec := 0x10400#64, ctxctl := 0#64,
    prlog2n := 4, prbase := 0#64, save := 0#64, nframe := 0, rlbase := 0#64, rlsize := 0#64,
    halted := false, lrc := 0, doneDue := [], doneG := 0, logPos := 0, logWait := [],
    replay := none, replayPos := [], replaySince := [] }

/-- A run of zero over the existing lanes. -/
def zeroVReg (e : Nat) : VReg := if e = 0 then [] else [{ val := 0#32, cnt := e }]

/-- A team as it starts at an entry (R41): `vregs` registers of one run of zero, `acc` owned tiles
of +0.0, s0 the parameters, the generator keyed by the TEAMID, or by 0 for a wave (R158). -/
def Team.atStart (uid ctx : Nat) (ident : Ident) (entry params : Word) (vregs budget acc : Nat)
    (order since : Nat) : Team :=
  { uid := uid, ctx := ctx, place := .resident, pc := entry,
    sregs := (Vector.replicate 64 0#64).set 0 params, cc := 0#4,
    vregs := List.replicate vregs (zeroVReg ident.elanes),
    masks := Vector.replicate 16 0#1024, mode := 0#16, stack := [],
    loops := Vector.replicate 3 { count := 0#32, start := 0#64, stop := 0#64 }, active := [],
    key := if ident.isWave then 0#64 else BitVec.ofNat 64 ident.teamid, ctr := 0#64,
    budget := budget, tiles := (List.range acc).map (fun k => (k, [])),
    trap := { tpc := 0#64, tcause := 0#64, taddr := 0#64, tinfo := 0#64, tmode := 0#64,
              ts60 := 0#64, ts61 := 0#64, ts62 := 0#64, ts63 := 0#64 },
    inHandler := false, nlog := 0#64, nlend := 0#64, gwct := 0, outstanding := 0, wait := none,
    pend := none, yielded := false, ident := ident, order := order, lastIssue := since,
    readySince := since, binding := none, rays := [], granted := 0, placed := [], donated := false,
    cameWaiting := false, donationOver := false, displacedBy := none,
    preemptReq := false, timeReads := 0, marks := 0, savedMat := none, savedXf := [], frame := none,
    stepBase := 0 }

/-- The page tables and the code page of a launch: the page at 0x10000 maps to itself. -/
def launchMemory (m : Memory) : Memory :=
  (((m.write 0x8000 8 0xA001).write 0xA000 8 0xC001).write 0xC000 8 0xE001).write 0xE008 8 0x1001F

/-- The state with one 32-lane team launched on core 0, whose scheduler issues next. -/
def State.launch (s : State) : State :=
  let t := Team.atStart s.nextUid 1 launchIdent 0x10000#64 0#64 96 64 8 s.nextUid s.baseCycles
  { s with
    teams := [t], nextUid := s.nextUid + 1, agenda := [.issue 0 0 false],
    ctxs := launchCtx :: s.ctxs.filter (fun c => c.id != 1),
    die0 := { s.die0 with mem := launchMemory s.die0.mem },
    cores := insertAt 0 { s.core 0 with power := .run, tripped := false, tlb := [] } s.cores }

/-- The state with eight bytes at a location of GDDR7. -/
def State.placeWord (s : State) (p : Phys) (v : Nat) : State :=
  s.modDie p.unit fun k => { k with mem := k.mem.write p.addr 8 v }

/-- The state with an instruction's bits where the next step fetches: at the next fetch where
there is one, else after a launch. -/
def State.placeNext (s : State) (v : Nat) : State :=
  match s.fetchAt, s.fetcher with
  | some p, some t => (s.placeWord p v).issueNext t
  | _, _ => s.launch.placeWord { space := .gddr, unit := 0, addr := 0x10000 } v

end Sys2Proof.Machine
end

