-- ==== Sys2Proof/Machine/Matrix.lean ====
section
/-! DEFINITION. Row 0xC at issue and the matrix engine's steps (spec/11 R263 to R281, spec/22 R411). -/

namespace Sys2Proof.Machine

/-! ### Tiles (R263, R264) -/

/-- Words of a tile by index 64 r + c; a word that is not listed is +0.0. -/
abbrev Tile := List (Nat × W32)

/-- Word `i` of a tile. -/
def Tile.word (t : Tile) (i : Nat) : W32 := lookup 0#32 i t

/-- The tile with word `i` written. -/
def Tile.setWord (t : Tile) (i : Nat) (w : W32) : Tile :=
  if w = 0#32 then removeAt i t else insertAt i w t

/-- The encoding of element (r, c) in the F32 or the F64 view (R264). -/
def Tile.elem (t : Tile) (f64 : Bool) (r c : Nat) : Nat :=
  if f64 then (t.word (64 * r + 2 * c)).toNat + 2 ^ 32 * (t.word (64 * r + 2 * c + 1)).toNat
  else (t.word (64 * r + c)).toNat

/-- The tile with element (r, c) written. -/
def Tile.setElem (t : Tile) (f64 : Bool) (r c v : Nat) : Tile :=
  if f64 then
    (t.setWord (64 * r + 2 * c) (BitVec.ofNat 32 v)).setWord (64 * r + 2 * c + 1)
      (BitVec.ofNat 32 (v / 2 ^ 32))
  else t.setWord (64 * r + c) (BitVec.ofNat 32 v)

/-- The tile behind name `ak` of a team. -/
def Team.tile (t : Team) (k : Nat) : Tile := lookup [] k t.tiles

/-- Whether the team owns name `ak`. -/
def Team.owns (t : Team) (k : Nat) : Bool := t.tiles.any (fun p => p.1 == k)

/-- The team with the contents of an owned tile replaced. -/
def Team.setTile (t : Team) (k : Nat) (x : Tile) : Team :=
  { t with tiles := mapWhere (fun p => p.1 == k) (fun _ => (k, x)) t.tiles }

/-- ACC_OWN unless the team owns the tile (R263, R386). -/
def Team.needTile (t : Team) (k : Field) : Except Stop Unit :=
  if t.owns k.toNat then .ok ()
  else raise { code := 12, field := k.toNat, tinfo := BitVec.ofNat 64 t.accmap }

/-! ### The descriptor (R265, R266) -/

/-- A descriptor's fields (Tables 11.1 and 11.2). -/
structure MatDesc where
  aoff : Nat
  astr : Nat
  boff : Nat
  bstr : Nat
  m : Nat
  n : Nat
  k : Nat
  row0 : Nat
  fmt : Nat
  maps : Nat
  cen : Bool
  ctr : Nat
  deriving DecidableEq, Repr

/-- The fields of the four registers. -/
def MatDesc.ofWords (ws : List Word) : MatDesc :=
  let w := fun i => ws.getD i 0#64
  { astr := wordBits (w 0) 32 32, aoff := wordBits (w 0) 0 32
    bstr := wordBits (w 1) 32 32, boff := wordBits (w 1) 0 32
    m := wordBits (w 2) 0 8 + 1, n := wordBits (w 2) 8 7 + 1, k := wordBits (w 2) 16 16 + 1
    row0 := wordBits (w 2) 32 10, fmt := wordBits (w 2) 42 2
    maps := wordBits (w 3) 32 32, cen := bitOf (w 3).toNat 8, ctr := wordBits (w 3) 0 8 }

/-- Whether FMT is F64. -/
def MatDesc.f64 (d : MatDesc) : Bool := d.fmt == 3

/-- esz. -/
def MatDesc.esz (d : MatDesc) : Nat := if d.fmt ≤ 1 then 2 else if d.fmt = 2 then 4 else 8

/-- The floating-point format of the operands. -/
def MatDesc.format (d : MatDesc) : Fmt :=
  match d.fmt with
  | 0 => .bf16
  | 1 => .f16
  | 2 => .f32
  | _ => .f64

/-- af of R268. -/
def MatDesc.accFormat (d : MatDesc) : Fmt := if d.f64 then .f64 else .f32

/-- Whether a shape word lies in the ranges of Table 11.2. -/
def shapeWordValid (w : Word) : Bool :=
  wordBits w 44 20 == 0 && !bitOf w.toNat 15 && decide (wordBits w 0 8 ≤ 127) &&
    decide (wordBits w 8 7 < if wordBits w 42 2 = 3 then 32 else 64)

/-- Whether the last register's reserved bits are zero (Table 11.1). -/
def matCtrValid (w : Word) : Bool := wordBits w 9 23 == 0

/-- Whether a kind multiplies. -/
def MatKind.multiplies : MatKind → Bool
  | .mma | .mmag | .mmas | .mmad => true
  | .mlda | .msta | .mzero => false

/-- The offset of A(r, k), or of element (r, k) of the matrix that MLDA and MSTA move (R266). -/
def MatDesc.aAt (d : MatDesc) (kind : MatKind) (idx : List W32) (r k : Nat) : Nat :=
  match kind with
  | .mmad => d.aoff + k * d.astr + r * d.esz
  | .mmag => d.aoff + (idx.getD r 0#32).toNat * d.astr + k * d.esz
  | _ => d.aoff + r * d.astr + k * d.esz

/-- The offset of B(k, c) (R266). -/
def MatDesc.bAt (d : MatDesc) (k c : Nat) : Nat := d.boff + k * d.bstr + c * d.esz

/-- The values that R266 wants aligned, with their alignments. DEDUCED (log entry 53): BOFF and BSTR are tested for
the multiplies alone, since the other operations read no B (R274). -/
def MatDesc.alignments (d : MatDesc) (kind : MatKind) : List (Word × Nat) :=
  let al := max 4 d.esz
  let w := fun (x n : Nat) => (BitVec.ofNat 64 x, n)
  [w d.aoff al, w d.astr al] ++
    (if kind.multiplies then [w d.boff al, w d.bstr al] else []) ++
    (if kind = .mmas then [w d.maps 4] else [])

/-! ### Operations (R267 to R269, R273) -/

/-- The descriptor of an operation. -/
def MatOp.d (o : MatOp) : MatDesc := .ofWords o.desc

/-- The written rows of an operation, ascending (R267): bit r of its guard is g(ROW0 + r). -/
def MatOp.rows (o : MatOp) : List Nat :=
  (List.range (if o.kind = .mzero then 128 else o.d.m)).filter (fun r => laneOn o.guard r)

/-- The bytes of a scratchpad from an offset of the operation's team. -/
def MatOp.read (o : MatOp) (m : Memory) (off n : Nat) : Nat := m.read (o.scrBase + off) n

/-- KW of R273. -/
def MatDesc.kw (d : MatDesc) : Nat := ceilDiv d.k 32

/-- The bytes of the two bitmaps (R273). -/
def MatDesc.mapBytes (d : MatDesc) : Nat := 4 * d.m * d.kw + 8 * d.k

/-- A bit (r, k) of the A bitmap (R273). -/
def MatOp.aBit (o : MatOp) (m : Memory) (r k : Nat) : Bool :=
  bitOf (o.read m (o.d.maps + 4 * (r * o.d.kw + k / 32)) 4) (k % 32)

/-- B bit (k, c) of the B bitmap. -/
def MatOp.bBit (o : MatOp) (m : Memory) (k c : Nat) : Bool :=
  bitOf (o.read m (o.d.maps + 4 * o.d.m * o.d.kw + 8 * k) 8) c

/-- present(r, k, c): always, but for MMAS (R268, R273). -/
def MatOp.present (o : MatOp) (m : Memory) (r k c : Nat) : Bool :=
  o.kind != .mmas || (o.aBit m r k && o.bBit m k c)

/-- Whether a value k is live (R273). -/
def MatOp.live (o : MatOp) (m : Memory) (k : Nat) : Bool :=
  o.kind != .mmas ||
    (o.rows.any (fun r => o.aBit m r k) && (List.range o.d.n).any (fun c => o.bBit m k c))

/-- kl of R268. -/
def MatOp.kl (o : MatOp) (m : Memory) : List Nat := (List.range o.d.k).filter (o.live m)

/-- The row blocks that hold a written row (R269). -/
def MatOp.blocks (o : MatOp) : List Nat :=
  (List.range 4).filter (fun b => o.rows.any (fun r => r / 32 == b))

/-- The steps of an operation under a list kl (R269, R274, R275). -/
def MatOp.stepCount (o : MatOp) (kl : List Nat) : Nat :=
  let np := ceilDiv kl.length 2
  if o.kind = .mzero then 1
  else if !o.kind.multiplies then o.rows.length
  else if o.rows.isEmpty then 0
  else if o.d.fmt ≤ 1 then np
  else o.blocks.length * ceilDiv o.d.n 16 * np

/-- The rows, columns and pair of step `j` (R269). -/
def MatOp.share (o : MatOp) (kl : List Nat) (j : Nat) : List Nat × List Nat × Nat :=
  let np := ceilDiv kl.length 2
  if o.d.fmt ≤ 1 then (o.rows, List.range o.d.n, j)
  else
    let ncb := ceilDiv o.d.n 16
    let rb := o.blocks.getD (j / (ncb * np)) 0
    let cb := j / np % ncb
    (o.rows.filter (fun r => r / 32 == rb),
      (List.range o.d.n).filter (fun c => c / 16 == cb), j % np)

/-- The rounding of an operation: RND and SAT at issue, DNZ as 0, RSR as RNE (R268). -/
def MatOp.rounding (o : MatOp) : Rounding :=
  { rnd := if o.rnd = 5 then 0 else o.rnd, sat := o.sat, dnz := false, draw := 0 }

/-- a(r, k) × b(k, c), exact. -/
def MatOp.term (o : MatOp) (m : Memory) (r c k : Nat) : XReal :=
  let val := fun off => o.d.format.decode false (o.read m off o.d.esz)
  (val (o.d.aAt o.kind o.idx r k)).mul (val (o.d.bAt k c))

/-- The update of element (r, c) by a pair (R268): the old element and the present terms summed
exactly, rounded once. -/
def MatOp.updateElem (o : MatOp) (m : Memory) (ks : List Nat) (x : Tile) (r c : Nat) : Tile :=
  let here := ks.filter (fun k => o.present m r k c)
  if here.isEmpty then x
  else
    let af := o.d.accFormat
    let old := af.decode false (x.elem o.d.f64 r c)
    x.setElem o.d.f64 r c
      (roundFmt af o.rounding (sumExact (o.rnd == 2) (old :: here.map (o.term m r c))))

/-- Folds a change over rows and columns. -/
def overElems (f : Tile → Nat → Nat → Tile) (rows cols : List Nat) (x : Tile) : Tile :=
  rows.foldl (fun x r => cols.foldl (fun x c => f x r c) x) x

/-- Step `j` of a multiply instruction. -/
def MatOp.pairStep (o : MatOp) (m : Memory) (x : Tile) (j : Nat) : Tile :=
  let kl := o.kl m
  let (rows, cols, p) := o.share kl j
  overElems (o.updateElem m ((kl.drop (2 * p)).take 2)) rows cols x

/-- Element (r, c) as MLDA loads it: BF16 and F16 converted exactly to F32 (R274). -/
def MatOp.loadElem (o : MatOp) (m : Memory) (x : Tile) (r c : Nat) : Tile :=
  let v := o.read m (o.d.aAt .mlda [] r c) o.d.esz
  if o.d.fmt ≤ 1 then x.setElem false r c (roundFmt .f32 .rne (o.d.format.decode false v))
  else x.setElem o.d.f64 r c v

/-- The bytes that MSTA writes for element (r, c) (R274). -/
def MatOp.storeElem (o : MatOp) (x : Tile) (r c : Nat) : List Byte :=
  let v := x.elem o.d.f64 r c
  leBytes o.d.esz
    (if o.d.fmt ≤ 1 then roundFmt o.d.format o.rounding (Fmt.f32.decode false v) else v)

/-- MSTA of row `r`. -/
def MatOp.storeRow (o : MatOp) (x : Tile) (r : Nat) (m : Memory) : Memory :=
  (List.range o.d.n).foldl
    (fun (m : Memory) c => m.setBytes (o.scrBase + o.d.aAt .msta [] r c) (o.storeElem x r c)) m

/-- Step `j` of an operation: the scratchpad and the tile that it leaves. -/
def MatOp.doStep (o : MatOp) (m : Memory) (x : Tile) (j : Nat) : Memory × Tile :=
  let r := o.rows.getD j 0
  match o.kind with
  | .mzero => (m, overElems (fun x r c => x.setWord (64 * r + c) 0#32) o.rows (List.range 64) x)
  | .mlda => (m, overElems (o.loadElem m) [r] (List.range o.d.n) x)
  | .msta => (o.storeRow x r m, x)
  | _ => (m, o.pairStep m x j)

/-- The scratchpad bytes that step `j` reads, as offsets and lengths (R268, R273, R274). -/
def MatOp.stepReads (o : MatOp) (m : Memory) (j : Nat) : List (Nat × Nat) :=
  if o.kind = .mlda then [(o.d.aAt .mlda [] (o.rows.getD j 0) 0, o.d.n * o.d.esz)]
  else if !o.kind.multiplies then []
  else
    let kl := o.kl m
    let (rows, cols, p) := o.share kl j
    let ks := (kl.drop (2 * p)).take 2
    let inRow := fun r k => cols.any (o.present m r k)
    let inCol := fun k c => rows.any (fun r => o.present m r k c)
    (if o.kind = .mmas then [(o.d.maps, o.d.mapBytes)] else []) ++
      rows.flatMap (fun r => (ks.filter (inRow r)).map (fun k => (o.d.aAt o.kind o.idx r k, o.d.esz))) ++
      ks.flatMap (fun k => (cols.filter (inCol k)).map (fun c => (o.d.bAt k c, o.d.esz)))

/-! ### Issue (R266, R267, R272, R273, R278) -/

/-- The offsets of the elements that an operation reads or writes in its scratchpad. -/
def MatOp.touched (o : MatOp) (m : Memory) : List Nat :=
  let cols := List.range o.d.n
  if !o.kind.multiplies then o.rows.flatMap (fun r => cols.map (o.d.aAt o.kind o.idx r))
  else
    let kl := o.kl m
    let inRow := fun r k => cols.any (o.present m r k)
    let inCol := fun k c => o.rows.any (fun r => o.present m r k c)
    o.rows.flatMap (fun r => (kl.filter (inRow r)).map (o.d.aAt o.kind o.idx r)) ++
      kl.flatMap (fun k => (cols.filter (inCol k)).map (o.d.bAt k))

/-- SCR_RANGE unless every byte lies below SCRSIZE (R266): first the bitmaps of MMAS, then the
elements. -/
def MatOp.needRange (o : MatOp) (t : Team) (m : Memory) : Except Stop Unit :=
  if o.rows.isEmpty then .ok ()
  else do
    if o.kind = .mmas then t.needScrRange o.d.maps o.d.mapBytes else .ok ()
    match (o.touched m).find? (fun a => decide (t.scrSize < a + o.d.esz)) with
    | some a => t.needScrRange a o.d.esz
    | none => pure ()

/-- A new operation of a team, its guard shifted to tile rows (R267). -/
def Team.matOp (t : Team) (kind : MatKind) (tile row0 : Nat) (desc : List Word) : MatOp :=
  { uid := t.uid, kind := kind, tile := tile, desc := desc,
    guard := (t.guard &&& existingMask t.ident.elanes) >>> row0, rnd := t.rnd, sat := t.sat,
    idx := [], step := 0, started := false, dest := 0, row0 := row0,
    scrBase := t.ident.scrBase, ctr := none }

/-- Puts an operation at the tail of the core's queue; held while the queue of 32 is full (R278). -/
def State.queueMat (s : State) (t : Team) (o : MatOp) : Effect :=
  if 32 ≤ (s.core t.coreId).mats.length then .error .hold
  else .ok ((s.modCore t.coreId fun k => { k with mats := k.mats ++ [o] }).putTeam t.advance)

/-- Issue of an instruction that reads a descriptor. -/
def matrixForm (i : Instr) (kind : MatKind) (d a : Field) (f : Team → MatOp → MatOp) (s : State) :
    Host.Outcome State Fault Refusal :=
  issue i s fun t =>
    if 32 ≤ (s.core t.coreId).mats.length then .error .hold
    else do
      t.needTile d
      let ws := (List.range 4).map (fun k => t.getS (a.toNat + k))
      let w2 := t.getS (a.toNat + 2)
      let w3 := t.getS (a.toNat + 3)
      if !shapeWordValid w2 then raise (trapOperand (a.toNat + 2) w2)
      else if !matCtrValid w3 then raise (trapOperand (a.toNat + 3) w3)
      else do
        let desc := MatDesc.ofWords ws
        let o := f t { t.matOp kind d.toNat desc.row0 ws with
                       ctr := if desc.cen then some desc.ctr else none }
        checkAll (fun p => needAligned p.1 p.2) (desc.alignments kind)
        o.needRange t (s.core t.coreId).scratch
        if kind = .mmas then s.scrSound t o.d.maps o.d.mapBytes else .ok ()
        s.queueMat t o

/-- MMA: tile aD accumulates A × B. -/
def execMma (d a : Field) (s : State) : Host.Outcome State Fault Refusal :=
  matrixForm (.mma d a) .mma d a (fun _ o => o) s

/-- MMAG: A's rows by the indices of vB, read at issue (R272). -/
def execMmag (d a b : Field) (s : State) : Host.Outcome State Fault Refusal :=
  matrixForm (.mmag d a b) .mmag d a
    (fun t o => { o with idx := (List.range 128).map (fun r => (t.vread b).lane (o.row0 + r)) }) s

/-- MMAS: under two bitmaps; s[B] receives the step count at completion (R273). -/
def execMmas (d a b : Field) (s : State) : Host.Outcome State Fault Refusal :=
  matrixForm (.mmas d a b) .mmas d a (fun _ o => { o with dest := b.toNat }) s

/-- MMAD: A stored transposed. -/
def execMmad (d a : Field) (s : State) : Host.Outcome State Fault Refusal :=
  matrixForm (.mmad d a) .mmad d a (fun _ o => o) s

/-- MLDA: loads the written rows of aD (R274). -/
def execMlda (d a : Field) (s : State) : Host.Outcome State Fault Refusal :=
  matrixForm (.mlda d a) .mlda d a (fun _ o => o) s

/-- MSTA: stores the written rows of aD (R274). -/
def execMsta (d a : Field) (s : State) : Host.Outcome State Fault Refusal :=
  matrixForm (.msta d a) .msta d a (fun _ o => o) s

/-- MZERO: +0.0 into the guarded rows (R275). -/
def execMzero (d a : Field) (s : State) : Host.Outcome State Fault Refusal :=
  issue (.mzero d a) s fun t =>
    if 32 ≤ (s.core t.coreId).mats.length then .error .hold
    else do
      let v := s.sread t a
      t.needTile d
      if 2 ^ 10 ≤ v.toNat then raise (trapOperand a.toNat v)
      else s.queueMat t (t.matOp .mzero d.toNat v.toNat [])

/-! ### MCFG, MTOV and MALLOC (R271, R276, R277) -/

/-- MCFG: packs a shape word. -/
def execMcfg (d a b : Field) (s : State) : Host.Outcome State Fault Refusal :=
  issue (.mcfg d a b) s fun t =>
    let x := s.sread t a
    let y := s.sread t b
    let m := wordBits x 0 16
    let n := wordBits x 16 16
    let k := wordBits y 0 17
    let fmt := wordBits y 32 2
    let badA := wordBits x 42 22 != 0 || m == 0 || decide (128 < m) || n == 0 ||
      decide ((if fmt = 3 then 32 else 64) < n)
    let badB := wordBits y 17 15 != 0 || wordBits y 34 30 != 0 || k == 0 || decide (65536 < k)
    if badA then raise (trapOperand a.toNat x)
    else if badB then raise (trapOperand b.toNat y)
    else
      let w := fmt * 2 ^ 42 + wordBits x 32 10 * 2 ^ 32 + (k - 1) * 2 ^ 16 + (n - 1) * 2 ^ 8 + (m - 1)
      .ok (s.putTeam (t.setD d (BitVec.ofNat 64 w)).advance)

/-- MTOV: column COL of tile aA into the guarded lanes from ROW0. DEDUCED (log entry 53): a guarded lane outside
ROW0 to ROW0 + 127 keeps its value like one that is not guarded, so vD's own runs survive there and the window's
edges cut (R130, R276). -/
def execMtov (d a b : Field) (c : BitVec 1) (s : State) : Host.Outcome State Fault Refusal :=
  issue (.mtov d a b c) s fun t => do
    t.needTile a
    let v := s.sread t b
    if wordBits v 6 10 != 0 || wordBits v 26 38 != 0 then raise (trapOperand b.toNat v)
    else
      let col := wordBits v 0 6
      let row0 := wordBits v 16 10
      let e := t.ident.elanes
      if e ≤ row0 then pure (s.putTeam t.advance)
      else
        let x := t.tile a.toNat
        let old := t.vread d
        let lanes := (t.guarded e).filter
          (fun i => decide (row0 ≤ i) && decide (i < row0 + 128))
        let w := fun i => x.word (64 * (i - row0) + col)
        let r : RawForm := { guard := lanesMask lanes, elanes := e, old := old,
                             len := max old.len (min e (row0 + 128)), split := false }
        let runs := r.runsWith (fun i => r.g i && r.g (i - 1) && w i != w (i - 1)) w
        s.vecWrite t [(d.toNat, runs.asked c)]

/-- MALLOC: releases the names not asked for, then acquires the others, all or none. -/
def execMalloc (d a : Field) (s : State) : Host.Outcome State Fault Refusal :=
  issue (.malloc d a) s fun t =>
    let v := s.sread t a
    if 256 ≤ v.toNat then raise (trapOperand a.toNat v)
    else
      let kept := t.tiles.filter (fun p => bitOf v.toNat p.1)
      let want := (List.range 8).filter (fun k => bitOf v.toNat k && !t.owns k)
      let free := s.freeTiles t.coreId + (t.tiles.length - kept.length) - s.heldTiles t.coreId
      let tiles := if want.length ≤ free then kept ++ want.map (fun k => (k, [])) else kept
      let t' := { t with tiles := tiles }
      let s := if kept.length < t.tiles.length then
          s.modDie t.ident.die fun k => { k with placeDue := true } else s
      .ok (s.putTeam ((t'.setD d (BitVec.ofNat 64 t'.accmap)).advance))

/-! ### The engine's steps (R269, R278, R279, R411) -/

/-- The operation that a core's engine executes, with those queued before it and after it, and the steps it
has under the bitmaps now. -/
def State.matHead (s : State) (core : Nat) : Option (List MatOp × MatOp × List MatOp × Nat) :=
  (s.engineHead MatOp.uid [] (s.core core).mats).map fun p =>
    (p.1, p.2.1, p.2.2, p.2.1.stepCount (p.2.1.kl (s.core core).scratch))

/-- MATRIX_OP_START: the operation begins, once its team's earlier stores, atomics and pairs are
acknowledged (R186, R279). -/
def State.matStart (s : State) (core : Nat) : Option State :=
  match s.matHead core with
  | none => none
  | some (before, o, rest, n) =>
    if o.started || n ≤ o.step || !s.forkHolds o.uid then none
    else some (s.modCore core fun k => { k with mats := before ++ { o with started := true } :: rest })

/-- MATRIX_STEP: one step of the operation. An uncorrectable word that it reads is a machine check (R411). -/
def State.matStep (s : State) (core : Nat) : Option State :=
  match s.matHead core with
  | none => none
  | some (before, o, rest, n) =>
    if !o.started || n ≤ o.step then none
    else
      match s.team? o.uid with
      | none => none
      | some t =>
        let k := s.core core
        match (o.stepReads k.scratch o.step).find? (fun p => k.badAt (o.scrBase + p.1) p.2) with
        | some p => some (s.machineCheck t.ctx 5 0 (core / 64) (core % 64) false (o.scrBase + p.1))
        | none =>
          let (m, x) := o.doStep k.scratch (t.tile o.tile) o.step
          let k := { k with scratch := m, mats := before ++ { o with step := o.step + 1 } :: rest }
          let row := o.rows.getD o.step 0
          if o.kind = .msta then
            some (s.setCore core (k.mend (o.scrBase + o.d.aAt .msta [] row 0) (o.d.n * o.d.esz)))
          else some ((s.setCore core k).putTeam (t.setTile o.tile x))

/-- MATRIX_COMPLETE: MMAS writes its step count, and the counter is decremented under CEN. An operation without a
step takes its first access here, and waits for the fork edge as another does at its start (R186, R279). -/
def State.matComplete (s : State) (core : Nat) : Option State :=
  match s.matHead core with
  | none => none
  | some (before, o, rest, n) =>
    if o.step < n || (!o.started && !s.forkHolds o.uid) then none
    else
      let s' := s.modCore core fun k => { k with mats := before ++ rest }
      let s' := if o.kind = .mmas then
          s'.modTeam o.uid fun t => t.setS o.dest (BitVec.ofNat 64 o.step) else s'
      let s' := s'.released s o.uid
      match o.ctr, s'.team? o.uid with
      | some c, some t => some (s'.decCounter core c 1 t.ctx)
      | _, _ => some s'

/-- MATRIX_OP_START. -/
def execMatrixOpStart (s : State) : Host.Outcome State Fault Refusal :=
  event "MATRIX_OP_START" (s.matStart s.arg.core)

/-- MATRIX_STEP. -/
def execMatrixStep (s : State) : Host.Outcome State Fault Refusal :=
  event "MATRIX_STEP" (s.matStep s.arg.core)

/-- MATRIX_COMPLETE. -/
def execMatrixComplete (s : State) : Host.Outcome State Fault Refusal :=
  event "MATRIX_COMPLETE" (s.matComplete s.arg.core)

end Sys2Proof.Machine
end

