-- ==== Sys2Proof/Machine/Flags.lean ====
section
/-! DEFINITION. The condition codes (spec/03 R57, spec/05 R102, R110) and the conditions of
Table 5.2. CC is EQ in bit 0, LT in bit 1, LTN in bit 2, UN in bit 3. -/

namespace Sys2Proof.Machine

/-- CC of four flags. -/
def ccOf (eq lt ltn un : Bool) : BitVec 4 :=
  BitVec.ofBool un ++ BitVec.ofBool ltn ++ BitVec.ofBool lt ++ BitVec.ofBool eq

/-- EQ. -/
def ccEq (c : BitVec 4) : Bool := c.getLsbD 0
/-- LT. -/
def ccLt (c : BitVec 4) : Bool := c.getLsbD 1
/-- LTN. -/
def ccLtn (c : BitVec 4) : Bool := c.getLsbD 2
/-- UN. -/
def ccUn (c : BitVec 4) : Bool := c.getLsbD 3

/-- CC of a signed compare of two `w`-bit values (R102, Table 5.3). -/
def ccSigned (w a b : Nat) : BitVec 4 :=
  ccOf (decide (a = b)) (decide (signedOf w a < signedOf w b)) false false

/-- CC of an unsigned compare (R102, Table 5.3). -/
def ccUnsigned (a b : Nat) : BitVec 4 := ccOf (decide (a = b)) false (decide (a < b)) false

/-- CC of a floating-point compare (R110). -/
def ccFloat (a b : XReal) : BitVec 4 :=
  let un := a == .nan || b == .nan
  ccOf (!un && a.eqv b) (!un && a.lt b) false un

/-- Whether a condition of Table 5.2 holds. -/
def condition (code : Nat) (c : BitVec 4) : Bool :=
  match code with
  | 0 => true
  | 1 => ccEq c
  | 2 => !ccEq c
  | 3 => ccLt c
  | 4 => !ccLt c && !ccUn c
  | 5 => ccLt c || ccEq c
  | 6 => !ccLt c && !ccEq c && !ccUn c
  | 7 => ccLtn c
  | 8 => !ccLtn c
  | 9 => ccLtn c || ccEq c
  | 10 => !ccLtn c && !ccEq c
  | 11 => ccUn c
  | 12 => !ccUn c
  | _ => false

end Sys2Proof.Machine
end

