-- ==== Sys2Proof/Machine/Control.lean ====
section
/-! DEFINITION. Row 0x3: branches, calls, hardware loops, waits, exit and traps (spec/05 R113 to
R122). -/

namespace Sys2Proof.Machine

/-! ### Branches (R81, R113, R116) -/

/-- The target of a B-format branch: PC + 4 × OFF19 (R81). -/
def Team.target (t : Team) (o : BitVec 19) : Word := t.pc + sext64 o * 4#64

/-- A branch taken where its condition holds. -/
def branchForm (i : Instr) (o : BitVec 19) (taken : Team → Bool) (s : State) :
    Host.Outcome State Fault Refusal :=
  issueTeam i s fun t => if taken t then t.branch (t.target o) else t.advance

/-- PC_ALIGN unless a target is a multiple of 4 (R113). -/
def alignedTarget (target : Word) : Except Stop Unit :=
  if wordBits target 0 2 = 0 then .ok () else raise { code := 15, taddr := target }

/-- Whether a mask has a set bit, read from its summary (R30). -/
def maskAny (m : Mask) : Bool := m != 0#1024

/-- BR: branches always. -/
def execBr (o : BitVec 19) (s : State) : Host.Outcome State Fault Refusal :=
  branchForm (.br o) o (fun _ => true) s

/-- BCC: branches when its condition holds on CC. -/
def execBcc (c : BitVec 4) (o : BitVec 19) (s : State) : Host.Outcome State Fault Refusal :=
  branchForm (.bcc c o) o (fun t => condition c.toNat t.cc) s

/-- BMZ: branches when mask mC has no set bit. -/
def execBmz (m : BitVec 4) (o : BitVec 19) (s : State) : Host.Outcome State Fault Refusal :=
  branchForm (.bmz m o) o (fun t => !maskAny (t.mask m.toNat)) s

/-- BMNZ: branches when mask mC has a set bit. -/
def execBmnz (m : BitVec 4) (o : BitVec 19) (s : State) : Host.Outcome State Fault Refusal :=
  branchForm (.bmnz m o) o (fun t => maskAny (t.mask m.toNat)) s

/-- The team after a call: it ends no loop, and the code it reaches ends no iteration (R116). A call whose
target is the E of an active loop takes no loop-end event either: DEDUCED from R116, against R115 read alone
(log entry 49). -/
def Team.callTo (t : Team) (d : Nat) (target : Word) : Team :=
  { t.setS d (t.pc + 4#64) with pc := target }

/-- CALL: s63 := PC + 4, then branches. -/
def execCall (o : BitVec 19) (s : State) : Host.Outcome State Fault Refusal :=
  issueTeam (.call o) s fun t => t.callTo 63 (t.target o)

/-- CALLR: t := sread(A), s[D] := PC + 4, PC := t. -/
def execCallr (d a : Field) (s : State) : Host.Outcome State Fault Refusal :=
  issue (.callr d a) s fun t => do
    alignedTarget (s.sread t a)
    pure (s.putTeam (t.callTo d.toNat (s.sread t a)))

/-- RET and JMPR: PC := sread(A); they end the loops that they leave (R116). -/
def jumpForm (i : Instr) (a : Field) (s : State) : Host.Outcome State Fault Refusal :=
  issue i s fun t => do
    alignedTarget (s.sread t a)
    pure (s.putTeam (t.branch (s.sread t a)))

/-- RET. -/
def execRet (a : Field) (s : State) : Host.Outcome State Fault Refusal := jumpForm (.ret a) a s

/-- JMPR. -/
def execJmpr (a : Field) (s : State) : Host.Outcome State Fault Refusal := jumpForm (.jmpr a) a s

/-! ### Hardware loops (R114, R116, R117) -/

/-- LOOP_STATE (Table 19.2). -/
def trapLoop (case : Nat) : Trap := { code := 14, detail := case }

/-- The team after LOOP or LOOPI with a count: a count of 0 skips the body (R114). -/
def Team.startLoop (t : Team) (n : Nat) (count : W32) (len : Nat) : Team :=
  let start := t.pc + 4#64
  let stop := start + BitVec.ofNat 64 (4 * len)
  if count = 0#32 then t.goTo stop
  else
    let t := t.setLoop n { count := count, start := start, stop := stop }
    { t with active := n :: t.active, pc := start }

/-- The checks of LOOP and LOOPI (R117 cases 1 and 2). -/
def Team.loopChecks (t : Team) (n : Nat) (len : Nat) : Except Stop Unit :=
  let stop := t.pc + 4#64 + BitVec.ofNat 64 (4 * len)
  if t.active.contains n then raise (trapLoop 1)
  else if t.active.any (fun k => t.inLoop k t.pc && decide ((t.loop k).stop.toNat < stop.toNat))
  then raise (trapLoop 2)
  else .ok ()

/-- LOOP and LOOPI. -/
def loopForm (i : Instr) (count : Team → W32) (len : BitVec 8) (n : BitVec 2) (s : State) :
    Host.Outcome State Fault Refusal :=
  issue i s fun t => do
    t.loopChecks n.toNat len.toNat
    pure (s.putTeam (t.startLoop n.toNat (count t) len.toNat))

/-- LOOP: the count is sread(A)[31:0]. -/
def execLoop (a : Field) (l : BitVec 8) (n : BitVec 2) (s : State) :
    Host.Outcome State Fault Refusal :=
  loopForm (.loop a l n) (fun t => (s.sread t a).setWidth 32) l n s

/-- LOOPI: the count is the A field. -/
def execLoopi (k : Field) (l : BitVec 8) (n : BitVec 2) (s : State) :
    Host.Outcome State Fault Refusal :=
  loopForm (.loopi k l n) (fun _ => k.setWidth 32) l n s

/-- LBRK: ends the loop and every loop nested in it; PC := E of the loop (R116). -/
def execLbrk (d : Field) (s : State) : Host.Outcome State Fault Refusal :=
  issue (.lbrk d) s fun t =>
    if !t.active.contains d.toNat then raise (trapLoop 3)
    else .ok (s.putTeam ((t.endLoops d.toNat).goTo (t.loop d.toNat).stop))

/-! ### Waits, exit and traps (R119 to R122) -/

/-- YIELD: the team goes on from the next cycle (R119). -/
def execYield (s : State) : Host.Outcome State Fault Refusal :=
  issueTeam .yield s fun t => { t.advance with yielded := true }

/-- The team that yields with an armed wait, its continuation being its PC (R44). -/
def Team.waitFor (t : Team) (k : WaitKind) : Team :=
  { t with wait := some { kind := k, fired := false } }

/-- WAITC: waits until the counter is at or below the bound (R120). -/
def execWaitc (a b : Field) (s : State) : Host.Outcome State Fault Refusal :=
  issue (.waitc a b) s fun t =>
    let k := (s.sread t a).toNat % 256
    let cond : WaitKind := .counter k (s.sread t b)
    .ok (s.putTeam (if s.waitHolds t cond then t.advance else t.advance.waitFor cond))

/-- WATCH: reads and arms at the home, after the team's own earlier stores and pairs to the line (R180,
R211); waits until the word differs (R121). -/
def execWatch (a b : Field) (s : State) : Host.Outcome State Fault Refusal :=
  issue (.watch a b) s fun t => do
    let va := s.sread t a
    needAligned va 8
    let (s', m) ← s.translateResident t.walker va .read [0, 1, 3]
    if s'.pairsTo t m.phys || s'.mustQueue t m.phys then .error .hold
    else if s'.poisoned m.phys then .error (s'.poisonStop m.phys)
    else
      let s' := if m.phys.space == .gddr then
          s'.homeRead t.coreId m.phys.unit (lineOf m.phys.addr) false else s'
      let cond : WaitKind := .watch m.phys (s.sread t b)
      pure (s'.putTeam (if s'.waitHolds t cond then t.advance else t.advance.waitFor cond))

/-- The end of a team: its held rays are freed (R306), and its resources return under R38. -/
def State.endTeam (s : State) (t : Team) : State :=
  ((s.freeHeld t).putTeam { t with place := .exiting, stack := [], active := [], rays := [] }).testPool t.ident.die

/-- EXIT: the team issues no more. -/
def execExit (s : State) : Host.Outcome State Fault Refusal :=
  issue .exit s fun t => .ok (s.endTeam t)

/-- NOP: nothing but PC. -/
def execNop (s : State) : Host.Outcome State Fault Refusal :=
  issueTeam .nop s Team.advance

/-- TRAPI: takes TRAP_SOFT, the return PC being PC + 4 (R122). -/
def execTrapi (i : BitVec 16) (s : State) : Host.Outcome State Fault Refusal :=
  issue (.trapi i) s fun _ => raise { code := 22, code16 := i.toNat, after := true }

end Sys2Proof.Machine
end

