-- ==== Sys2Proof/Machine/MathFn.lean ====
section
/-! DEFINITION. The special functions of row 0x6 (spec/06 R145, R146, Table 6.6): correctly
rounded results from interval bounds with a common denominator. Where both ends of the interval
round alike, that is the result; a free value decides otherwise (log entry 10). -/

namespace Sys2Proof.Machine

/-- A real known to lie in `[lo / den, hi / den]`. -/
structure Bounds where
  lo : Int
  hi : Int
  den : Nat
  deriving DecidableEq, Repr

/-- round_to a format of a value known by bounds; `free` picks where the bounds do not decide. -/
def roundBounds (f : Fmt) (z : Rounding) (free : Nat) (b : Bounds) : Nat :=
  let l := roundFmt f z (.ofRat b.lo b.den false)
  let h := roundFmt f z (.ofRat b.hi b.den false)
  if l = h then l else if Config.roundsUp free then h else l

/-- Square root of `n / d` by bounds with `p` extra bits; exact squares meet. -/
def sqrtBounds (n d p : Nat) : Bounds :=
  -- sqrt (n / d) = sqrt (n * d) / d
  let v := n * d * 4 ^ p
  let r := isqrt v
  { lo := r, hi := if r * r = v then r else r + 1, den := d * 2 ^ p }

/-- The sum `x + x^3/3 + x^5/5 + …` in units of 1/`s`, for `x = t / s`; rounded down per term. -/
def atanhTerms (s t2 : Nat) : Nat → Nat → Nat → Nat
  | 0, _, _ => 0
  | fuel + 1, k, pow => pow / k + atanhTerms s t2 fuel (k + 2) (pow * t2 / (s * s))

/-- `atanh (n / d)` in units of 2^-p, for `0 ≤ n / d ≤ 1/3`: bounds. -/
def atanhFixed (p n d : Nat) : Nat × Nat :=
  let s := 2 ^ p
  let t := n * s / d
  let v := atanhTerms s (t * t) (p / 3 + 4) 1 t
  (v, v + p + 16)

/-- `ln 2` in units of 2^-p: `2 atanh (1/3)`. -/
def ln2Fixed (p : Nat) : Nat × Nat :=
  let (a, b) := atanhFixed p 1 3
  (2 * a, 2 * b)

/-- The terms of `e^t` after the first, for `t = x / s`. -/
def expTerms (s x : Nat) : Nat → Nat → Nat → Nat
  | 0, _, _ => 0
  | fuel + 1, k, pow =>
    let term := pow * x / (s * k)
    term + expTerms s x fuel (k + 1) term

/-- `e^(x / 2^p)` in units of 2^-p for `0 ≤ x ≤ 2^p`: a lower bound. -/
def expFixed (p x : Nat) : Nat := 2 ^ p + expTerms (2 ^ p) x (p / 2 + 8) 1 (2 ^ p)

/-- `2^(n / d)` for `0 ≤ n / d < 1` in units of 2^-p: bounds. -/
def exp2Fixed (p n d : Nat) : Nat × Nat :=
  let (a, b) := ln2Fixed p
  (expFixed p (a * n / d), expFixed p (b * n / d + 1) + p + 16)

/-- The bounds `[lo, hi] * 2^e`, in units of 2^-p. -/
def shiftBounds (neg : Bool) (lo hi p : Nat) (e : Int) : Bounds :=
  let m : Int := if 0 ≤ e then 2 ^ e.toNat else 1
  let d := 2 ^ p * (if 0 ≤ e then 1 else 2 ^ (-e).toNat)
  if neg then { lo := -(hi : Int) * m, hi := -(lo : Int) * m, den := d }
  else { lo := (lo : Int) * m, hi := (hi : Int) * m, den := d }

/-- `2^(n / d)`. -/
def exp2Bounds (n : Int) (d : Nat) : Bounds :=
  let k := floorDiv n d
  let r := (n - k * d).toNat
  let k' := min (max k (-4000)) 4000
  let p := 200 + Nat.log2 d
  if r = 0 then shiftBounds false (2 ^ p) (2 ^ p) p k'
  else
    let (lo, hi) := exp2Fixed p r d
    shiftBounds false lo hi p k'

/-- `log2 (n / d)` for positive `n / d`. -/
def log2Bounds (n d : Nat) : Bounds :=
  let e := ilog2 n d
  let n' := if 0 ≤ e then n else n * 2 ^ (-e).toNat
  let d' := if 0 ≤ e then d * 2 ^ e.toNat else d
  let p := 240
  if n' = d' then { lo := e, hi := e, den := 1 }
  else
    -- ln m = 2 atanh ((m - 1) / (m + 1)) for m in (1, 2)
    let (a, b) := atanhFixed p (n' - d') (n' + d')
    let (c, c') := ln2Fixed p
    let s : Int := 2 ^ p
    { lo := e * s + (2 * a * 2 ^ p / c' : Nat), hi := e * s + (2 * b * 2 ^ p / c + 1 : Nat),
      den := 2 ^ p }

/-- The alternating terms of `arctan (1 / k)` in units of `s`. -/
def arctanTerms (k2 : Nat) : Nat → Nat → Nat → Bool → Int
  | 0, _, _, _ => 0
  | fuel + 1, j, pow, pos =>
    let t : Int := (pow / j : Nat)
    (if pos then t else -t) + arctanTerms k2 fuel (j + 2) (pow / k2) !pos

/-- π in units of 2^-p, by Machin's formula: bounds. -/
def piFixed (p : Nat) : Nat × Nat :=
  let s := 2 ^ (p + 16)
  let a := arctanTerms 25 (p / 4 + 12) 1 (s / 5) true
  let b := arctanTerms (239 * 239) (p / 4 + 12) 1 (s / 239) true
  let v := (4 * (4 * a - b)).toNat / 2 ^ 16
  (v - 2, v + 3)

/-- The alternating Taylor terms of sine or cosine, in units of 2^-p, from term `pow` with next
factorial index `k`. -/
def trigTerms (p x2 : Nat) : Nat → Nat → Nat → Bool → Int
  | 0, _, _, _ => 0
  | fuel + 1, k, pow, pos =>
    (if pos then (pow : Int) else -(pow : Int)) +
      trigTerms p x2 fuel (k + 2) (pow * x2 / (4 ^ p * (k * (k + 1)))) !pos

/-- `sin (π n / d)` for `0 < n / d ≤ 1/2`, in units of 2^-p. -/
def sinPiFixed (p n d : Nat) : Nat × Nat :=
  let (a, _) := piFixed p
  let x := a * n / d
  let v := (trigTerms p (x * x) (p / 4 + 12) 2 x true).toNat
  (v - (p + 32), v + (p + 32))

/-- `sin (π n / d)` for `0 ≤ n / d < 2` with `d` positive: the sign and the bounds; exact at the
multiples of one half. -/
def sinPiBounds (n d : Nat) : Bounds :=
  let neg := decide (d < n) || decide (n = d)
  let n1 := if d ≤ n then n - d else n
  let n2 := if d < 2 * n1 then d - n1 else n1
  -- the value is relative to its own size: the argument is at least 1 / d
  let p := 220 + 2 * Nat.log2 d
  if n2 = 0 then { lo := 0, hi := 0, den := 1 }
  else if 2 * n2 = d then { lo := if neg then -1 else 1, hi := if neg then -1 else 1, den := 1 }
  else
    let (lo, hi) := sinPiFixed p n2 d
    shiftBounds neg lo hi p 0

/-- A fraction reduced modulo 2 into `[0, 2)`. -/
def mod2 (n : Int) (d : Nat) : Nat := (n % (2 * d : Int)).toNat

/-- `tanh (n / d)` for positive `n / d`. -/
def tanhBounds (n d : Nat) : Bounds :=
  if 64 * d < n then
    -- within 2^-180 of 1, below every grid point and midpoint
    { lo := 2 ^ 400 - 1, hi := 2 ^ 400 - 1, den := 2 ^ 400 }
  else
    let p := 260 + 2 * Nat.log2 d
    let (c, c') := ln2Fixed p
    -- e^(2x) = 2^k e^r with r in [0, ln 2)
    let x2 := 2 * n * 2 ^ p / d
    let k := x2 / c'
    let rlo := x2 - k * c'
    let rhi := x2 + 1 - k * c
    let elo := expFixed p rlo * 2 ^ k
    let ehi := (expFixed p rhi + p + 16) * 2 ^ k
    let s := 2 ^ p
    -- tanh = (E - 1) / (E + 1), increasing in E
    { lo := ((elo - s) * 4 ^ p / (elo + s) : Nat), hi := ((ehi - s) * 4 ^ p / (ehi + s) + 1 : Nat),
      den := 4 ^ p }

/-- The functions of Table 6.5 that take one operand. -/
inductive MathFn where
  | rcp
  | rsq
  | sqrt
  | exp2
  | log2
  | sin
  | cos
  | tanh
  | floor
  | frac
  deriving DecidableEq, Repr

/-- The value +1. -/
def xOne : XReal := .fin 1 1

/-- Table 6.6 and the exact sign rules of R146: results that need no bounds. -/
def MathFn.exact (fn : MathFn) (x : XReal) : Option XReal :=
  match fn, x with
  | _, .nan => some .nan
  | .rcp, x => some (XReal.div xOne x)
  | .rsq, .zero s => some (.inf s)
  | .rsq, .inf s => some (if s then .nan else .zero false)
  | .sqrt, .zero s => some (.zero s)
  | .sqrt, .inf s => some (if s then .nan else .inf false)
  | .exp2, .zero _ => some xOne
  | .exp2, .inf s => some (if s then .zero false else .inf false)
  | .log2, .zero _ => some (.inf true)
  | .log2, .inf s => some (if s then .nan else .inf false)
  | .sin, .zero s => some (.zero s)
  | .sin, .inf _ => some .nan
  | .cos, .zero _ => some xOne
  | .cos, .inf _ => some .nan
  | .tanh, .zero s => some (.zero s)
  | .tanh, .inf s => some (.fin (if s then -1 else 1) 1)
  | .floor, .zero s => some (.zero s)
  | .floor, .inf s => some (.inf s)
  | .floor, .fin n d => some (.ofRat (floorDiv n d) 1 false)
  | .frac, .zero _ => some (.zero false)
  | .frac, .inf _ => some .nan
  | .frac, .fin n d => some (.ofRat (n - floorDiv n d * d) d false)
  | .rsq, .fin n _ => if n < 0 then some .nan else none
  | .sqrt, .fin n _ => if n < 0 then some .nan else none
  | .log2, .fin n _ => if n < 0 then some .nan else none
  | .exp2, .fin _ _ | .sin, .fin _ _ | .cos, .fin _ _ | .tanh, .fin _ _ => none

/-- Bounds of the function of a finite non-zero value, where no exact rule applies (R146). -/
def MathFn.bounds (fn : MathFn) (n : Int) (d : Nat) : Bounds :=
  match fn with
  | .rsq => sqrtBounds d n.natAbs (300 + Nat.log2 d + Nat.log2 n.natAbs)
  | .sqrt => sqrtBounds n.natAbs d (300 + Nat.log2 d)
  | .exp2 => exp2Bounds n d
  | .log2 => log2Bounds n.natAbs d
  | .sin => sinPiBounds (mod2 n d) d
  | .cos => sinPiBounds (mod2 (2 * n + d) (2 * d)) (2 * d)
  | .tanh =>
    let b := tanhBounds n.natAbs d
    if n < 0 then { lo := -b.hi, hi := -b.lo, den := b.den } else b
  | _ => { lo := 0, hi := 0, den := 1 }

/-- One special function rounded to a format (R146). -/
def MathFn.eval (fn : MathFn) (f : Fmt) (z : Rounding) (free : Nat) (x : XReal) : Nat :=
  match fn.exact x with
  | some y => roundFmt f z y
  | none => match x with
    | .fin n d => roundBounds f z free (fn.bounds n d)
    | _ => f.canonicalNan

/-- Square root rounded to a format (Table 5.5). -/
def sqrtRound (f : Fmt) (z : Rounding) (free : Nat) (x : XReal) : Nat :=
  MathFn.eval .sqrt f z free x

end Sys2Proof.Machine
end

