-- ==== Sys2Proof/Machine/VectorArith.lean ====
section
/-! DEFINITION. Row 0x5 and the special functions of row 0x6: element-wise vector arithmetic on run
registers (spec/06 R133 to R146). -/

namespace Sys2Proof.Machine

/-! ### Element-wise forms (R61, R130, R131) -/

/-- Which element types make a form round (Tables 6.2, 6.4, 6.5): none, F and P8, or all. -/
inductive Rounds where
  | never
  | floats
  | always
  deriving DecidableEq, Repr

/-- Whether a form rounds under an ETYPE. -/
def Rounds.under (r : Rounds) (etype : Nat) : Bool :=
  match r with
  | .never => false
  | .floats => etype == 0 || etype == 1 || etype == 2 || etype == 12
  | .always => true

/-- Whether an instruction draws: it rounds, and MODE.RND is RSR (R131, R160). -/
def Rounds.draws (r : Rounds) (t : Team) : Bool := r.under t.etype && t.rnd == 5

/-- The greatest logical length of some registers (R61). -/
def maxLen (xs : List VReg) : Nat := xs.foldl (fun l x => max l x.len) 0

/-- What an element-wise form needs: its sources, whether the old destination counts as a source
for cuts (R130), its types, and how it rounds. -/
structure VecForm where
  etypes : List Nat
  rounds : Rounds
  oldIsSource : Bool
  deriving DecidableEq, Repr

/-- Runs an element-wise form; `lane` gives the value of a guarded lane from the draw key. -/
def VecForm.run (v : VecForm) (i : Instr) (d : Field) (c : BitVec 1) (srcs : Team → List VReg)
    (lane : Team → Word → Nat → W32) (s : State) : Host.Outcome State Fault Refusal :=
  issue i s fun t => do
    t.needEtype v.etypes
    let xs := srcs t
    let old := t.vread d
    let draws := v.rounds.draws t
    s.vecDraw t draws fun k =>
      [(d.toNat, (((t.rawForm d (maxLen (old :: xs)) draws).runs
        (if v.oldIsSource then old :: xs else xs) (lane t k)).asked c))]

/-! ### Sub-elements (R134 to R137) -/

/-- The word whose sub-element `j` is `f ty j`, under MODE.ETYPE. -/
def Team.subs (t : Team) (f : SubTy → Nat → Nat) : W32 :=
  let (ty, ns) := elemType t.etype
  packElem ty ((List.range ns).map (f ty))

/-- Sub-element `j` of a word as an exact value. -/
def Team.val (t : Team) (ty : SubTy) (w : W32) (j : Nat) : XReal := subVal ty t.dnz (subBits ty w j)

/-- One lane of arithmetic on three words: arith of R134. -/
def Team.arith (t : Team) (k : Word) (i : Nat) (f : XReal → XReal → XReal → XReal)
    (a b d : W32) : W32 :=
  t.subs fun ty j =>
    subResult ty (t.rounding k i j) (f (t.val ty a j) (t.val ty b j) (t.val ty d j))

/-- A binary arithmetic form over sub-elements. -/
def arithForm (i : Instr) (d a b : Field) (c : BitVec 1) (withOld : Bool)
    (f : Team → XReal → XReal → XReal → XReal) (s : State) : Host.Outcome State Fault Refusal :=
  VecForm.run { etypes := etypesNum, rounds := .floats, oldIsSource := withOld } i d c
    (fun t => [t.vread a, t.vread b])
    (fun t k n => t.arith k n (f t) ((t.vread a).lane n) ((t.vread b).lane n)
      ((t.vread d).lane n)) s

/-- A form that does not round, on sub-elements of two words. -/
def subForm (i : Instr) (etypes : List Nat) (d a b : Field) (c : BitVec 1)
    (f : Team → SubTy → Nat → Nat → Nat) (s : State) : Host.Outcome State Fault Refusal :=
  VecForm.run { etypes := etypes, rounds := .never, oldIsSource := false } i d c
    (fun t => [t.vread a, t.vread b])
    (fun t _ n => t.subs fun ty j =>
      f t ty (subBits ty ((t.vread a).lane n) j) (subBits ty ((t.vread b).lane n) j)) s

/-- A form that does not round, on sub-elements of one word. -/
def subForm1 (i : Instr) (etypes : List Nat) (d a : Field) (c : BitVec 1)
    (f : Team → SubTy → Nat → Nat) (s : State) : Host.Outcome State Fault Refusal :=
  VecForm.run { etypes := etypes, rounds := .never, oldIsSource := false } i d c
    (fun t => [t.vread a])
    (fun t _ n => t.subs fun ty j => f t ty (subBits ty ((t.vread a).lane n) j)) s

/-- A form on whole words (R136); under I6x5 bits [31:30] are zero. -/
def wordForm (i : Instr) (d : Field) (c : BitVec 1) (srcs : Team → List VReg)
    (f : Team → Nat → W32) (s : State) : Host.Outcome State Fault Refusal :=
  VecForm.run { etypes := etypesNum, rounds := .never, oldIsSource := false } i d c srcs
    (fun t _ n => f t n) s

/-- Bits [31:30] cleared under I6x5 (R72). -/
def Team.clip6 (t : Team) (w : W32) : W32 := if t.etype = 9 then w &&& 0x3FFFFFFF#32 else w

/-- The signed or unsigned integer of a sub-element's bits. -/
def intVal (signed : Bool) (w bits : Nat) : Int := if signed then signedOf w bits else bits % 2 ^ w

/-- The lesser sub-element (R135). -/
def minSub (dnz : Bool) (ty : SubTy) (a b : Nat) : Nat :=
  match ty with
  | .flt f => fminBits f dnz a b
  | .int s w => if intVal s w b < intVal s w a then b else a
  | .p8 => (p8Canonical (min (p8Units a) (p8Units b))).getD 0x77

/-- The greater sub-element (R135). -/
def maxSub (dnz : Bool) (ty : SubTy) (a b : Nat) : Nat :=
  match ty with
  | .flt f => fmaxBits f dnz a b
  | .int s w => if intVal s w a < intVal s w b then b else a
  | .p8 => (p8Canonical (max (p8Units a) (p8Units b))).getD 0x77

/-- VABS of a sub-element (R135). -/
def absSub (t : Team) (ty : SubTy) (a : Nat) : Nat :=
  match ty with
  | .flt f => let x := f.decode t.dnz a
              roundFmt f .rne (if x.isNeg then x.neg else x)
  | .int true w => intResult true w t.sat (signedOf w a).natAbs
  | .int false w => a % 2 ^ w
  | .p8 => (p8Canonical (p8Units a).natAbs).getD 0x77

/-- VNEG of a sub-element (R135). -/
def negSub (t : Team) (ty : SubTy) (a : Nat) : Nat :=
  match ty with
  | .flt f => roundFmt f .rne (f.decode t.dnz a).neg
  | .int s w => intResult s w t.sat (-(intVal s w a))
  | .p8 => (p8Canonical (-(p8Units a))).getD 0x77

/-- VSHL of a sub-element (R137). -/
def shlSub (t : Team) (ty : SubTy) (a b : Nat) : Nat :=
  match ty with
  | .int s w => intResult s w t.sat (intVal s w a * 2 ^ (b % w))
  | _ => a

/-- VSHR of a sub-element (R137). -/
def shrSub (ty : SubTy) (a b : Nat) : Nat := a / 2 ^ (b % ty.width)

/-- VSRA of a sub-element (R137). -/
def sraSub (ty : SubTy) (a b : Nat) : Nat :=
  match ty with
  | .int true w => wrapInt w (signedOf w a / 2 ^ (b % w))
  | _ => shrSub ty a b

/-! ### Row 0x5: arithmetic and logic (Table 6.2) -/

/-- VADD: a + b. -/
def execVadd (d a b : Field) (c : BitVec 1) (s : State) : Host.Outcome State Fault Refusal :=
  arithForm (.vadd d a b c) d a b c false (fun t a b _ => XReal.add (t.rnd == 2) a b) s

/-- VSUB: a − b. -/
def execVsub (d a b : Field) (c : BitVec 1) (s : State) : Host.Outcome State Fault Refusal :=
  arithForm (.vsub d a b c) d a b c false (fun t a b _ => XReal.add (t.rnd == 2) a b.neg) s

/-- VMUL: a × b. -/
def execVmul (d a b : Field) (c : BitVec 1) (s : State) : Host.Outcome State Fault Refusal :=
  arithForm (.vmul d a b c) d a b c false (fun _ a b _ => a.mul b) s

/-- VFMA: a × b + d, one rounding. -/
def execVfma (d a b : Field) (c : BitVec 1) (s : State) : Host.Outcome State Fault Refusal :=
  arithForm (.vfma d a b c) d a b c true (fun t a b d => XReal.add (t.rnd == 2) (a.mul b) d) s

/-- VFMS: a × b − d, one rounding. -/
def execVfms (d a b : Field) (c : BitVec 1) (s : State) : Host.Outcome State Fault Refusal :=
  arithForm (.vfms d a b c) d a b c true (fun t a b d => XReal.add (t.rnd == 2) (a.mul b) d.neg) s

/-- VMIN: the lesser operand (R135). -/
def execVmin (d a b : Field) (c : BitVec 1) (s : State) : Host.Outcome State Fault Refusal :=
  subForm (.vmin d a b c) etypesNum d a b c (fun t ty x y => minSub t.dnz ty x y) s

/-- VMAX: the greater operand (R135). -/
def execVmax (d a b : Field) (c : BitVec 1) (s : State) : Host.Outcome State Fault Refusal :=
  subForm (.vmax d a b c) etypesNum d a b c (fun t ty x y => maxSub t.dnz ty x y) s

/-- VSHL: a × 2^s (R137). -/
def execVshl (d a b : Field) (c : BitVec 1) (s : State) : Host.Outcome State Fault Refusal :=
  subForm (.vshl d a b c) etypesInt d a b c (fun t ty x y => shlSub t ty x y) s

/-- VSHR: bits shifted right (R137). -/
def execVshr (d a b : Field) (c : BitVec 1) (s : State) : Host.Outcome State Fault Refusal :=
  subForm (.vshr d a b c) etypesInt d a b c (fun _ ty x y => shrSub ty x y) s

/-- VSRA: floor(a ÷ 2^s) (R137). -/
def execVsra (d a b : Field) (c : BitVec 1) (s : State) : Host.Outcome State Fault Refusal :=
  subForm (.vsra d a b c) etypesInt d a b c (fun _ ty x y => sraSub ty x y) s

/-- VABS: |a| (R135). -/
def execVabs (d a : Field) (c : BitVec 1) (s : State) : Host.Outcome State Fault Refusal :=
  subForm1 (.vabs d a c) etypesNum d a c (fun t ty x => absSub t ty x) s

/-- VNEG: −a (R135). -/
def execVneg (d a : Field) (c : BitVec 1) (s : State) : Host.Outcome State Fault Refusal :=
  subForm1 (.vneg d a c) etypesNum d a c (fun t ty x => negSub t ty x) s

/-- VAND: the bitwise operation on whole words (R136). -/
def execVand (d a b : Field) (c : BitVec 1) (s : State) : Host.Outcome State Fault Refusal :=
  wordForm (.vand d a b c) d c (fun t => [t.vread a, t.vread b])
    (fun t n => t.clip6 ((t.vread a).lane n &&& (t.vread b).lane n)) s

/-- VOR: the bitwise operation on whole words (R136). -/
def execVor (d a b : Field) (c : BitVec 1) (s : State) : Host.Outcome State Fault Refusal :=
  wordForm (.vor d a b c) d c (fun t => [t.vread a, t.vread b])
    (fun t n => t.clip6 ((t.vread a).lane n ||| (t.vread b).lane n)) s

/-- VXOR: the bitwise operation on whole words (R136). -/
def execVxor (d a b : Field) (c : BitVec 1) (s : State) : Host.Outcome State Fault Refusal :=
  wordForm (.vxor d a b c) d c (fun t => [t.vread a, t.vread b])
    (fun t n => t.clip6 ((t.vread a).lane n ^^^ (t.vread b).lane n)) s

/-- VNOT: the complement of whole words (R136). -/
def execVnot (d a : Field) (c : BitVec 1) (s : State) : Host.Outcome State Fault Refusal :=
  wordForm (.vnot d a c) d c (fun t => [t.vread a])
    (fun t n => t.clip6 (~~~((t.vread a).lane n))) s

/-- VMOV: the word of vA, element-wise (R139). -/
def execVmov (d a : Field) (c : BitVec 1) (s : State) : Host.Outcome State Fault Refusal :=
  wordForm (.vmov d a c) d c (fun t => [t.vread a]) (fun t n => (t.vread a).lane n) s

/-- VCLAMP: min(max(d, a), b) (R135). -/
def execVclamp (d a b : Field) (c : BitVec 1) (s : State) : Host.Outcome State Fault Refusal :=
  VecForm.run { etypes := etypesNum, rounds := .never, oldIsSource := true } (.vclamp d a b c) d c
    (fun t => [t.vread a, t.vread b])
    (fun t _ n => t.subs fun ty j =>
      minSub t.dnz ty
        (maxSub t.dnz ty (subBits ty ((t.vread d).lane n) j) (subBits ty ((t.vread a).lane n) j))
        (subBits ty ((t.vread b).lane n) j)) s

/-! ### Compares (R138) -/

/-- A relation between sub-elements as values. -/
def eqSub (dnz : Bool) (ty : SubTy) (a b : Nat) : Bool := (subVal ty dnz a).eqv (subVal ty dnz b)
/-- Less. -/
def ltSub (dnz : Bool) (ty : SubTy) (a b : Nat) : Bool := (subVal ty dnz a).lt (subVal ty dnz b)

/-- Whether a relation holds in every sub-element of two words. -/
def Team.allSubs (t : Team) (r : Bool → SubTy → Nat → Nat → Bool) (a b : W32) : Bool :=
  let (ty, ns) := elemType t.etype
  (List.range ns).all fun j => r t.dnz ty (subBits ty a j) (subBits ty b j)

/-- A mask with the bits of some lanes replaced. -/
def setLanes (m : Mask) (lanes : List Nat) (p : Nat → Bool) : Mask :=
  lanes.foldl (fun m i => if p i then m ||| (1#1024 <<< i) else m &&& ~~~(1#1024 <<< i)) m

/-- A compare: bit i of mD for each guarded lane below the longer source. -/
def compareForm (i : Instr) (d a b : Field) (p : Team → W32 → W32 → Bool) (s : State) :
    Host.Outcome State Fault Refusal :=
  issue i s fun t => do
    t.needEtype etypesNum
    let x := t.vread a
    let y := t.vread b
    let m := setLanes (t.mask d.toNat) (t.guarded (max x.len y.len))
      (fun n => p t (x.lane n) (y.lane n))
    pure (s.putTeam (t.setMask d.toNat m).advance)

/-- VCMPEQ: equal in every sub-element. -/
def execVcmpeq (d a b : Field) (s : State) : Host.Outcome State Fault Refusal :=
  compareForm (.vcmpeq d a b) d a b (fun t x y => t.allSubs eqSub x y) s

/-- VCMPNE: where VCMPEQ would not set the bit. -/
def execVcmpne (d a b : Field) (s : State) : Host.Outcome State Fault Refusal :=
  compareForm (.vcmpne d a b) d a b (fun t x y => !t.allSubs eqSub x y) s

/-- VCMPLT: less in every sub-element. -/
def execVcmplt (d a b : Field) (s : State) : Host.Outcome State Fault Refusal :=
  compareForm (.vcmplt d a b) d a b (fun t x y => t.allSubs ltSub x y) s

/-- VCMPLE: less or equal in every sub-element. -/
def execVcmple (d a b : Field) (s : State) : Host.Outcome State Fault Refusal :=
  compareForm (.vcmple d a b) d a b
    (fun t x y => t.allSubs (fun dnz ty p q => ltSub dnz ty p q || eqSub dnz ty p q) x y) s

/-! ### Selection and generation (R139, R140) -/

/-- VSEL: guarded lanes take vA, the others vB (R139). -/
def execVsel (d a b : Field) (c : BitVec 1) (s : State) : Host.Outcome State Fault Refusal :=
  issue (.vsel d a b c) s fun t =>
    let x := t.vread a
    let y := t.vread b
    let r := { t.rawForm d (maxLen [t.vread d, x, y]) false with old := [] }
    let cuts := sourceCuts [x, y]
    let v := runsFrom (fun n => cuts.contains n || r.g n != r.g (n - 1))
      (fun n => if r.g n then x.lane n else y.lane n) r.len 0
    s.vecWrite t [(d.toNat, v.asked c)]

/-- VBCAST: sets the length to min(sread(B), E) and writes sread(A)[31:0] (R140). -/
def execVbcast (d a b : Field) (c : BitVec 1) (s : State) : Host.Outcome State Fault Refusal :=
  issue (.vbcast d a b c) s fun t =>
    let l := min (s.sread t b).toNat t.ident.elanes
    let v := (t.rawForm d l false).runs [] (fun _ => (s.sread t a).setWidth 32)
    s.vecWrite t [(d.toNat, v.asked c)]

/-- VIDX: sets the length to E and writes sread(A) + i × sread(B) (R140). -/
def execVidx (d a b : Field) (c : BitVec 1) (s : State) : Host.Outcome State Fault Refusal :=
  issue (.vidx d a b c) s fun t =>
    let step := (s.sread t b).setWidth 32
    let v := (t.rawForm d t.ident.elanes (step != 0#32)).runs []
      (fun n => (s.sread t a).setWidth 32 + BitVec.ofNat 32 n * step)
    s.vecWrite t [(d.toNat, v.asked c)]

/-! ### Products and conversions (R141 to R144) -/

/-- VMULP: sub-elements of vA times P8 weights of vB, one rounding (R141). DEDUCED (log entry 49): a zero
weight is +0, and the sign of a zero product is that of a product; "two shifts and one add or subtract"
says how the product is formed, not its sign. -/
def execVmulp (d a b : Field) (c : BitVec 1) (s : State) : Host.Outcome State Fault Refusal :=
  VecForm.run { etypes := [0, 1, 2, 3, 5, 7], rounds := .always, oldIsSource := false }
    (.vmulp d a b c) d c (fun t => [t.vread a, t.vread b])
    (fun t k n => t.subs fun ty j =>
      let byte := if (elemType t.etype).2 = 1 then 0 else j
      let weight := subVal .p8 false (bitsOf ((t.vread b).lane n).toNat (8 * byte) 8)
      subRound ty (t.rounding k n j) ((t.val ty ((t.vread a).lane n) j).mul weight)) s

/-- The accumulator type of VDOTP (Table 6.3). -/
def dotAcc (etype : Nat) : SubTy :=
  match etype with
  | 5 | 7 | 10 => .int true 32
  | 6 | 8 | 11 => .int false 32
  | _ => .flt .f32

/-- VDOTP: d + Σ a_j × b_j with one conversion into the accumulator (R142). -/
def execVdotp (d a b : Field) (c : BitVec 1) (s : State) : Host.Outcome State Fault Refusal :=
  VecForm.run { etypes := [1, 2, 5, 6, 7, 8, 10, 11, 12], rounds := .floats, oldIsSource := true }
    (.vdotp d a b c) d c (fun t => [t.vread a, t.vread b])
    (fun t k n =>
      let (ty, ns) := elemType t.etype
      let acc := dotAcc t.etype
      let x := (List.range ns).foldl
        (fun x j => XReal.add (t.rnd == 2) x
          ((t.val ty ((t.vread a).lane n) j).mul (t.val ty ((t.vread b).lane n) j)))
        (t.val acc ((t.vread d).lane n) 0)
      packElem acc [subResult acc (t.rounding k n 0) x]) s

/-- The groups within which VCVT converts (R143). -/
def cvtGroup (etype : Nat) : Nat :=
  match etype with
  | 0 | 3 | 4 => 0
  | 1 | 2 | 5 | 6 => 1
  | 7 | 8 | 12 => 2
  | 10 | 11 => 3
  | _ => 4

/-- One conversion of VCVT (R143): R71 between integer types, round_to otherwise. -/
def cvtSub (src dst : SubTy) (dnz : Bool) (z : Rounding) (bits : Nat) : Nat :=
  match src, dst with
  | .int s w, .int s' w' => intResult s' w' z.sat (intVal s w bits)
  | _, _ => subRound dst z (subVal src dnz bits)

/-- VCVT: each sub-element from the type of B[4:0] to the ETYPE type (R143). -/
def execVcvt (d a : Field) (ty : BitVec 5) (c : BitVec 1) (s : State) :
    Host.Outcome State Fault Refusal :=
  VecForm.run
    { etypes := etypesNum.filter (fun e => cvtGroup e == cvtGroup ty.toNat), rounds := .always,
      oldIsSource := false }
    (.vcvt d a ty c) d c (fun t => [t.vread a])
    (fun t k n => t.subs fun dst j =>
      let src := (elemType ty.toNat).1
      cvtSub src dst t.dnz (t.rounding k n j) (subBits src ((t.vread a).lane n) j)) s

/-- The wide partner of a narrow type (Table 6.4). -/
def packPartner (etype : Nat) : Nat :=
  match etype with
  | 1 | 2 => 0
  | 5 => 3
  | 6 => 4
  | 7 => 5
  | 8 => 6
  | 10 => 7
  | 11 => 8
  | _ => 1

/-- VPACK: narrows the sub-elements of vA and vB into one word (R144). -/
def execVpack (d a b : Field) (c : BitVec 1) (s : State) : Host.Outcome State Fault Refusal :=
  VecForm.run { etypes := [1, 2, 5, 6, 7, 8, 10, 11, 12], rounds := .floats, oldIsSource := false }
    (.vpack d a b c) d c (fun t => [t.vread a, t.vread b])
    (fun t k n => t.subs fun dst j =>
      let (src, m) := elemType (packPartner t.etype)
      let w := if j < m then (t.vread a).lane n else (t.vread b).lane n
      cvtSub src dst t.dnz (t.rounding k n j) (subBits src w (j % m))) s

/-- VUNPK: widens one half of the sub-elements of vA, exactly (R144). -/
def execVunpk (d a : Field) (h : BitVec 1) (c : BitVec 1) (s : State) :
    Host.Outcome State Fault Refusal :=
  VecForm.run { etypes := [1, 2, 5, 6, 7, 8, 10, 11, 12], rounds := .never, oldIsSource := false }
    (.vunpk d a h c) d c (fun t => [t.vread a])
    (fun t _ n =>
      let src := (elemType t.etype).1
      let (dst, m) := elemType (packPartner t.etype)
      packElem dst ((List.range m).map fun j =>
        cvtSub src dst t.dnz .rne (subBits src ((t.vread a).lane n) (h.toNat * m + j)))) s

/-! ### Special functions (R145, R146) -/

/-- How many free values one special-function instruction may take (log entry 10). -/
def mathFree : Nat := 8192

/-- A special function of one operand. -/
def mathForm (i : Instr) (fn : MathFn) (rounds : Rounds) (d a : Field) (c : BitVec 1) (s : State) :
    Host.Outcome State Fault Refusal :=
  issue i s fun t => do
    t.needEtype etypesF
    let old := t.vread d
    let x := t.vread a
    let draws := rounds.draws t
    State.vecDraw { s with free := s.free + mathFree } t draws fun k =>
      [(d.toNat, (((t.rawForm d (maxLen [old, x]) draws).runs [x] (fun n => t.subs fun ty j =>
        match ty with
        | .flt f => fn.eval f (t.rounding k n j) (s.free + 8 * n + j) (t.val ty (x.lane n) j)
        | _ => 0)).asked c))]

/-- VRCP: 1 ÷ a. -/
def execVrcp (d a : Field) (c : BitVec 1) (s : State) : Host.Outcome State Fault Refusal :=
  mathForm (.vrcp d a c) .rcp .always d a c s

/-- VRSQ: 1 ÷ √a. -/
def execVrsq (d a : Field) (c : BitVec 1) (s : State) : Host.Outcome State Fault Refusal :=
  mathForm (.vrsq d a c) .rsq .always d a c s

/-- VSQRT: √a. -/
def execVsqrt (d a : Field) (c : BitVec 1) (s : State) : Host.Outcome State Fault Refusal :=
  mathForm (.vsqrt d a c) .sqrt .always d a c s

/-- VEXP2: 2^a. -/
def execVexp2 (d a : Field) (c : BitVec 1) (s : State) : Host.Outcome State Fault Refusal :=
  mathForm (.vexp2 d a c) .exp2 .always d a c s

/-- VLOG2: log2 a. -/
def execVlog2 (d a : Field) (c : BitVec 1) (s : State) : Host.Outcome State Fault Refusal :=
  mathForm (.vlog2 d a c) .log2 .always d a c s

/-- VSIN: sin(π × a). -/
def execVsin (d a : Field) (c : BitVec 1) (s : State) : Host.Outcome State Fault Refusal :=
  mathForm (.vsin d a c) .sin .always d a c s

/-- VCOS: cos(π × a). -/
def execVcos (d a : Field) (c : BitVec 1) (s : State) : Host.Outcome State Fault Refusal :=
  mathForm (.vcos d a c) .cos .always d a c s

/-- VTANH: tanh a. -/
def execVtanh (d a : Field) (c : BitVec 1) (s : State) : Host.Outcome State Fault Refusal :=
  mathForm (.vtanh d a c) .tanh .always d a c s

/-- VFLOOR: floor a. -/
def execVfloor (d a : Field) (c : BitVec 1) (s : State) : Host.Outcome State Fault Refusal :=
  mathForm (.vfloor d a c) .floor .never d a c s

/-- VFRAC: a − floor a. -/
def execVfrac (d a : Field) (c : BitVec 1) (s : State) : Host.Outcome State Fault Refusal :=
  mathForm (.vfrac d a c) .frac .always d a c s

/-- VDIV: a ÷ b, special values as FDIV. -/
def execVdiv (d a b : Field) (c : BitVec 1) (s : State) : Host.Outcome State Fault Refusal :=
  VecForm.run { etypes := etypesF, rounds := .always, oldIsSource := false }
    (.vdiv d a b c) d c (fun t => [t.vread a, t.vread b])
    (fun t k n => t.arith k n (fun x y _ => x.div y) ((t.vread a).lane n) ((t.vread b).lane n)
      0#32) s

end Sys2Proof.Machine
end

