-- ==== Sys2Proof/Machine/RunsOps.lean ====
section
/-! DEFINITION. Row 0x7: runs, reductions and the generator (spec/06 R151 to R162). -/

namespace Sys2Proof.Machine

/-! ### Runs and budgets (R152 to R155) -/

/-- RCOAL: vD := coalesce(vA), with vA's length. -/
def execRcoal (d a : Field) (c : BitVec 1) (s : State) : Host.Outcome State Fault Refusal :=
  issue (.rcoal d a c) s fun t => s.vecWrite t [(d.toNat, (t.vread a).coalesce)]

/-- RCNT: the length in [10:0] and the run count in [26:16]. -/
def execRcnt (d a : Field) (s : State) : Host.Outcome State Fault Refusal :=
  issueTeam (.rcnt d a) s fun t =>
    (t.setD d (BitVec.ofNat 64 ((t.vread a).len + 2 ^ 16 * (t.vread a).length))).advance

/-- RALLOT: the allotment becomes n; s[D] := the old allotment (R153). -/
def execRallot (d : Field) (n : BitVec 9) (s : State) : Host.Outcome State Fault Refusal :=
  issue (.rallot d n) s fun t =>
    let old := t.allot
    let grown := n.toNat - old
    let occ := s.occupancy t + grown
    if old < n.toNat && decide (256 * t.budget < occ) then
      raise (trapRunOverflow occ (256 * t.budget))
    else
      let vs := t.vregs.take n.toNat ++ List.replicate grown (zeroVReg t.ident.elanes)
      .ok (s.putTeam (({ t with vregs := vs }.setD d (BitVec.ofNat 64 old)).advance))

/-- RPOOL: requests a budget; s[D] := the budget that results (R154). Granules that return make a placement
point (R316). -/
def execRpool (d a : Field) (s : State) : Host.Outcome State Fault Refusal :=
  issue (.rpool d a) s fun t =>
    let want := min (max (max (s.sread t a).toNat (ceilDiv (s.occupancy t) 256)) 1) 64
    let free := s.freeGranules t.coreId t.ident.sched - s.heldGranules t.coreId t.ident.sched
    let got := if want ≤ t.budget then want
      else if want - t.budget ≤ free then want else t.budget
    let s := s.modDie t.ident.die fun k => { k with placeDue := k.placeDue || decide (got < t.budget) }
    .ok (s.putTeam ({ t with budget := got }.setD d (BitVec.ofNat 64 got)).advance)

/-- RSAVE: the run image of vA at sread(B); s[D] := its size (R155). -/
def execRsave (d a b : Field) (s : State) : Host.Outcome State Fault Refusal :=
  issue (.rsave d a b) s fun t => do
    let va := s.sread t b
    let image := (t.vread a).image
    needAligned va 8
    let (s, ps) ← s.mapParts t .write [0, 1] (partsOf va image.length)
    s.needParts t ps
    checkAll (fun p => s.needRegions t.coreId t.ctx p.2.2.phys) ps
    let s := s.storeParts t ps image
    pure (s.modTeam t.uid fun t => (t.setD d (BitVec.ofNat 64 image.length)).advance)

/-- An invalid image (R381): OPERAND_VALUE with the A field. -/
def invalidImage {α : Type} (s : State) (t : Team) (a : Field) : Except Stop α :=
  raise (trapOperand a.toNat (s.sread t a))

/-- RLOAD: the image at sread(A) into vD (R155), in the order of R381. -/
def execRload (d a : Field) (c : BitVec 1) (s : State) : Host.Outcome State Fault Refusal :=
  issue (.rload d a c) s fun t => do
    let va := s.sread t a
    needAligned va 8
    let (s, hp) ← s.mapParts t .read [0, 1] (partsOf va 8)
    s.needParts t hp
    let (s, hb) ← s.loadParts t hp
    let h := leNat hb
    if !headerValid h t.ident.elanes then invalidImage s t a
    else do
      let n := bitsOf h 16 11
      let (s, ps) ← s.mapParts t .read [0, 1] (partsOf (va + 8#64) (8 * n))
      s.needParts t ps
      let (s, bs) ← s.loadParts t ps
      let entries := wordsOf n bs
      if !entriesValid h entries then invalidImage s t a
      else s.vecWrite t [(d.toNat, (imageRuns entries).asked c)]

/-! ### Reductions (R156) -/

/-- The runs of a register restricted to its guarded lanes, as value and lane count. -/
def Team.contributions (t : Team) (v : VReg) : List (W32 × Nat) :=
  ((t.guarded v.len).map (fun i => (v.lane i, 1)))

/-- The exact sum of values with their counts under R156: the sign of a zero total follows the
contributions. -/
def sumValues (rdn : Bool) : List XReal → XReal
  | [] => .zero false
  | x :: rest => rest.foldl (XReal.add rdn) x

/-- VREDADD of some words under an ETYPE: the exact sum of each sub-element, converted once. -/
def reduceAdd (etype : Nat) (dnz : Bool) (z : Nat → Rounding) (ws : List W32) : W32 :=
  let (ty, ns) := elemType etype
  packElem ty ((List.range ns).map fun j =>
    subResult ty (z j)
      (sumValues ((z j).rnd == 2) (ws.map fun w => subVal ty dnz (subBits ty w j))))

/-- The identity of VREDMIN or VREDMAX over no lanes (R156). -/
def emptyExtreme (least : Bool) (ty : SubTy) : Nat :=
  match ty with
  | .flt f => f.infinity (!least)
  | .p8 => if least then 0x00 else 0x88
  | .int s w => wrapInt w (if least then intMax s w else intMin s w)

/-- VREDMIN (`least`) or VREDMAX of some words under an ETYPE. -/
def reduceExtreme (least : Bool) (etype : Nat) (dnz : Bool) (ws : List W32) : W32 :=
  let (ty, ns) := elemType etype
  let pick := if least then minSub dnz ty else maxSub dnz ty
  packElem ty ((List.range ns).map fun j =>
    match ws.map (fun w => subBits ty w j) with
    | [] => emptyExtreme least ty
    | x :: rest => rest.foldl pick (pick x x))

/-- A reduction that writes s[D][31:0]. -/
def reduceForm (i : Instr) (d a : Field) (f : Team → List W32 → W32) (s : State) :
    Host.Outcome State Fault Refusal :=
  issue i s fun t => do
    t.needEtype etypesNum
    let ws := (t.contributions (t.vread a)).map Prod.fst
    pure (s.putTeam (t.setD d ((f t ws).setWidth 64)).advance)

/-- VREDADD: the exact sum, converted once; under RSR it draws at lane 0 (R159, R160). -/
def execVredadd (d a : Field) (s : State) : Host.Outcome State Fault Refusal :=
  issue (.vredadd d a) s fun t => do
    t.needEtype etypesNum
    let ws := (t.contributions (t.vread a)).map Prod.fst
    let value := fun (k : Word) =>
      (reduceAdd t.etype t.dnz (fun j => t.rounding k 0 j) ws).setWidth 64
    if Rounds.floats.draws t then do
      let (s, w) ← s.beginDraw t
      pure (s.endDraw (t.setD d (value w.key)) w)
    else pure (s.putTeam (t.setD d (value t.key)).advance)

/-- VREDMIN. -/
def execVredmin (d a : Field) (s : State) : Host.Outcome State Fault Refusal :=
  reduceForm (.vredmin d a) d a (fun t ws => reduceExtreme true t.etype t.dnz ws) s

/-- VREDMAX. -/
def execVredmax (d a : Field) (s : State) : Host.Outcome State Fault Refusal :=
  reduceForm (.vredmax d a) d a (fun t ws => reduceExtreme false t.etype t.dnz ws) s

/-- VREDAND: the AND of whole words. -/
def execVredand (d a : Field) (s : State) : Host.Outcome State Fault Refusal :=
  reduceForm (.vredand d a) d a
    (fun t ws => t.clip6 (ws.foldl (fun x y => x &&& y) 0xFFFFFFFF#32)) s

/-- VREDOR: the OR of whole words. -/
def execVredor (d a : Field) (s : State) : Host.Outcome State Fault Refusal :=
  reduceForm (.vredor d a) d a (fun t ws => t.clip6 (ws.foldl (fun x y => x ||| y) 0#32)) s

/-- The cuts of VSCAN beside those of its source: every guarded lane, but between lanes of one zero run
(R130, R157). DEDUCED (log entry 12): under P8x4, where the word 0x0000_0000 is +2 in every sub-element, every
guarded lane is cut, since the runs of a result never determine a lane's value (R10, R78). -/
def scanCut (etype : Nat) (g : Nat → Bool) (x : VReg) (i : Nat) : Bool :=
  g i && !((elemType etype).1 != .p8 && g (i - 1) && x.lane i == 0#32 && x.lane (i - 1) == 0#32 &&
    !x.bounds.contains i)

/-- VSCAN: the converted exact sums of the guarded lanes up to each (R157). DEDUCED (log entry 12):
a guarded lane from vA.len on is a lane that keeps its value, so the runs of vD survive beside it. -/
def execVscan (d a : Field) (c : BitVec 1) (s : State) : Host.Outcome State Fault Refusal :=
  issue (.vscan d a c) s fun t => do
    t.needEtype etypesNum
    let x := t.vread a
    let old := t.vread d
    let draws := Rounds.floats.draws t
    let len := max x.len old.len
    let lanes := t.guarded x.len
    s.vecDraw t draws fun k =>
      let r : RawForm := { guard := lanesMask lanes, elanes := 1024, old := old, len := len,
                           split := draws }
      let v := r.runsWith (fun i => (sourceCuts [x]).contains i || scanCut t.etype r.g x i) (fun i =>
        reduceAdd t.etype t.dnz (fun j => t.rounding k i j)
          ((lanes.filter (fun n => decide (n ≤ i))).map x.lane))
      [(d.toNat, v.asked c)]

/-! ### The generator (R158, R162) -/

/-- The word that VRNG writes for a draw (R162). -/
def rngWord (etype : Nat) (w : W32) : W32 :=
  match etype with
  | 0 => BitVec.ofNat 32 (roundFmt .f32 .rne (.ofRat (bitsOf w.toNat 8 24) (2 ^ 24) false))
  | 1 => packElem (.flt .bf16) ((List.range 2).map fun j =>
      roundFmt .bf16 .rne (.ofRat (bitsOf w.toNat (16 * j + 8) 8) (2 ^ 8) false))
  | 2 => packElem (.flt .f16) ((List.range 2).map fun j =>
      roundFmt .f16 .rne (.ofRat (bitsOf w.toNat (16 * j + 5) 11) (2 ^ 11) false))
  | 9 => w &&& 0x3FFFFFFF#32
  | _ => w

/-- VRNG: a draw per guarded lane, indexed by vA (R162). -/
def execVrng (d a : Field) (c : BitVec 1) (s : State) : Host.Outcome State Fault Refusal :=
  issue (.vrng d a c) s fun t =>
    let x := t.vread a
    let old := t.vread d
    s.vecDraw t true fun k =>
      [(d.toNat, (((t.rawForm d (maxLen [old, x]) true).runs [x]
        (fun i => rngWord t.etype ((mix k t.ctr (x.lane i)).setWidth 32))).asked c))]

/-- RNGSEED: KEY := sread(A), CTR := sread(B). -/
def execRngseed (a b : Field) (s : State) : Host.Outcome State Fault Refusal :=
  issueTeam (.rngseed a b) s fun t =>
    Team.advance { t with key := s.sread t a, ctr := s.sread t b }

/-- RNGGET: s[D] := KEY or CTR. -/
def execRngget (d k : Field) (s : State) : Host.Outcome State Fault Refusal :=
  issueTeam (.rngget d k) s fun t => (t.setD d (if k = 0#7 then t.key else t.ctr)).advance

end Sys2Proof.Machine
end

