-- ==== Sys2Proof/Machine/Scalar.lean ====
section
/-! DEFINITION. Rows 0x0 and 0x1: scalar integer arithmetic and immediates (spec/05 R102 to R107). -/

namespace Sys2Proof.Machine

/-! ### Shared forms -/

/-- An exact integer result written at width `w`: r mod 2^w, zero-extended (R103). -/
def intWord (w : Nat) (r : Int) : Word := BitVec.ofNat 64 (wrapInt w r)

/-- The operands of a row 0x0 instruction at its width: a, b and the old d (R103). -/
structure IntOperands where
  w : Nat
  a : Nat
  b : Nat
  d : Nat
  deriving DecidableEq, Repr

/-- Reads the operands of R103. -/
def State.intOperands (s : State) (t : Team) (d a b : Field) (q : BitVec 1) : IntOperands :=
  let w := widthOf q
  { w := w, a := s.sreadN t a w, b := s.sreadN t b w, d := (t.sreg d).toNat % 2 ^ w }

/-- A row 0x0 instruction that writes s[D] := r mod 2^w (R103). -/
def intForm (i : Instr) (d a b : Field) (q : BitVec 1) (r : IntOperands → Int) (s : State) :
    Host.Outcome State Fault Refusal :=
  issueTeam i s fun t =>
    (t.setD d (intWord (widthOf q) (r (s.intOperands t d a b q)))).advance

/-- The signed value sx of R103. -/
def IntOperands.sa (o : IntOperands) : Int := signedOf o.w o.a
/-- sx of b. -/
def IntOperands.sb (o : IntOperands) : Int := signedOf o.w o.b
/-- The shift amount b mod w. -/
def IntOperands.amount (o : IntOperands) : Nat := o.b % o.w

/-- R104: the signed quotient. -/
def IntOperands.div (o : IntOperands) : Int := if o.b = 0 then 2 ^ o.w - 1 else o.sa.tdiv o.sb
/-- R104: the unsigned quotient. -/
def IntOperands.divn (o : IntOperands) : Int := if o.b = 0 then 2 ^ o.w - 1 else o.a / o.b
/-- R104: the signed remainder. -/
def IntOperands.rem (o : IntOperands) : Int :=
  if o.b = 0 then o.a else o.sa - o.sb * o.sa.tdiv o.sb
/-- R104: the unsigned remainder. -/
def IntOperands.remn (o : IntOperands) : Int :=
  if o.b = 0 then o.a else (o.a : Int) - o.b * (o.a / o.b : Nat)

/-- Rotation left by `k` below `w` within `w` bits. -/
def rotl (w a k : Nat) : Nat := a * 2 ^ k % 2 ^ w + a / 2 ^ (w - k)

/-- R105: position p of a bit field. -/
def IntOperands.pos (o : IntOperands) : Nat := bitsOf o.b 0 6
/-- R105: length n of a bit field. -/
def IntOperands.flen (o : IntOperands) : Nat := bitsOf o.b 8 6 + 1
/-- R105: BFX. -/
def IntOperands.bfx (o : IntOperands) : Int := (o.a / 2 ^ o.pos % 2 ^ o.flen : Nat)
/-- R105: BFI. -/
def IntOperands.bfi (o : IntOperands) : Int :=
  if o.w ≤ o.pos then o.d
  else (setBitsOf o.d o.pos (min (o.pos + o.flen) o.w - o.pos) o.a : Nat)

/-- A compare: it writes CC and nothing else (R102). -/
def ccForm (i : Instr) (cc : Team → BitVec 4) (s : State) : Host.Outcome State Fault Refusal :=
  issueTeam i s fun t => Team.advance { t with cc := cc t }

/-- A row 0x1 instruction that writes s[D] (R106). -/
def immForm (i : Instr) (d : Field) (v : Team → Word) (s : State) :
    Host.Outcome State Fault Refusal :=
  issueTeam i s fun t => (t.setD d (v t)).advance

/-- LOOP_STATE case 4: an X-format instruction at the last word of an active body (R117). -/
def Team.xCheck (t : Team) : Except Stop Unit :=
  if t.active.any (fun n => (t.loop n).stop == t.pc + 4#64) then raise { code := 14, detail := 4 }
  else .ok ()

/-- s[D] with a 16-bit part replaced (MOVHI, MOVXI, MOVTI; Table 5.4). -/
def insert16 (v : Word) (lo : Nat) (i : BitVec 16) : Word :=
  BitVec.ofNat 64 (setBitsOf v.toNat lo 16 i.toNat)

/-! ### Row 0x0 (Table 5.3) -/

/-- ADD: a + b. -/
def execAdd (d a b : Field) (w : BitVec 1) (s : State) : Host.Outcome State Fault Refusal :=
  intForm (.add d a b w) d a b w (fun o => (o.a : Int) + o.b) s

/-- SUB: a − b. -/
def execSub (d a b : Field) (w : BitVec 1) (s : State) : Host.Outcome State Fault Refusal :=
  intForm (.sub d a b w) d a b w (fun o => (o.a : Int) - o.b) s

/-- MUL: a × b. -/
def execMul (d a b : Field) (w : BitVec 1) (s : State) : Host.Outcome State Fault Refusal :=
  intForm (.mul d a b w) d a b w (fun o => (o.a : Int) * o.b) s

/-- MULH: floor(sx(a) × sx(b) ÷ 2^w). -/
def execMulh (d a b : Field) (w : BitVec 1) (s : State) : Host.Outcome State Fault Refusal :=
  intForm (.mulh d a b w) d a b w (fun o => o.sa * o.sb / 2 ^ o.w) s

/-- MULHN: floor(a × b ÷ 2^w). -/
def execMulhn (d a b : Field) (w : BitVec 1) (s : State) : Host.Outcome State Fault Refusal :=
  intForm (.mulhn d a b w) d a b w (fun o => ((o.a * o.b / 2 ^ o.w : Nat) : Int)) s

/-- DIV: the signed quotient (R104). -/
def execDiv (d a b : Field) (w : BitVec 1) (s : State) : Host.Outcome State Fault Refusal :=
  intForm (.div d a b w) d a b w (fun o => o.div) s

/-- DIVN: the unsigned quotient (R104). -/
def execDivn (d a b : Field) (w : BitVec 1) (s : State) : Host.Outcome State Fault Refusal :=
  intForm (.divn d a b w) d a b w (fun o => o.divn) s

/-- REM: the signed remainder (R104). -/
def execRem (d a b : Field) (w : BitVec 1) (s : State) : Host.Outcome State Fault Refusal :=
  intForm (.rem d a b w) d a b w (fun o => o.rem) s

/-- REMN: the unsigned remainder (R104). -/
def execRemn (d a b : Field) (w : BitVec 1) (s : State) : Host.Outcome State Fault Refusal :=
  intForm (.remn d a b w) d a b w (fun o => o.remn) s

/-- AND: a AND b. -/
def execAnd (d a b : Field) (w : BitVec 1) (s : State) : Host.Outcome State Fault Refusal :=
  intForm (.and d a b w) d a b w (fun o => ((o.a &&& o.b : Nat) : Int)) s

/-- OR: a OR b. -/
def execOr (d a b : Field) (w : BitVec 1) (s : State) : Host.Outcome State Fault Refusal :=
  intForm (.or d a b w) d a b w (fun o => ((o.a ||| o.b : Nat) : Int)) s

/-- XOR: a XOR b. -/
def execXor (d a b : Field) (w : BitVec 1) (s : State) : Host.Outcome State Fault Refusal :=
  intForm (.xor d a b w) d a b w (fun o => ((o.a ^^^ o.b : Nat) : Int)) s

/-- ANDN: a AND NOT b. -/
def execAndn (d a b : Field) (w : BitVec 1) (s : State) : Host.Outcome State Fault Refusal :=
  intForm (.andn d a b w) d a b w (fun o => ((o.a &&& (2 ^ o.w - 1 - o.b) : Nat) : Int)) s

/-- SHL: a × 2^(b mod w). -/
def execShl (d a b : Field) (w : BitVec 1) (s : State) : Host.Outcome State Fault Refusal :=
  intForm (.shl d a b w) d a b w (fun o => (o.a : Int) * 2 ^ o.amount) s

/-- SHR: floor(a ÷ 2^(b mod w)). -/
def execShr (d a b : Field) (w : BitVec 1) (s : State) : Host.Outcome State Fault Refusal :=
  intForm (.shr d a b w) d a b w (fun o => ((o.a / 2 ^ o.amount : Nat) : Int)) s

/-- SRA: floor(sx(a) ÷ 2^(b mod w)). -/
def execSra (d a b : Field) (w : BitVec 1) (s : State) : Host.Outcome State Fault Refusal :=
  intForm (.sra d a b w) d a b w (fun o => o.sa / 2 ^ o.amount) s

/-- ROTL: a rotated left by b mod w. -/
def execRotl (d a b : Field) (w : BitVec 1) (s : State) : Host.Outcome State Fault Refusal :=
  intForm (.rotl d a b w) d a b w (fun o => ((rotl o.w o.a o.amount : Nat) : Int)) s

/-- MIN: the smaller by sx. -/
def execMin (d a b : Field) (w : BitVec 1) (s : State) : Host.Outcome State Fault Refusal :=
  intForm (.min d a b w) d a b w (fun o => min o.sa o.sb) s

/-- MAX: the larger by sx. -/
def execMax (d a b : Field) (w : BitVec 1) (s : State) : Host.Outcome State Fault Refusal :=
  intForm (.max d a b w) d a b w (fun o => max o.sa o.sb) s

/-- MINN: the smaller, unsigned. -/
def execMinn (d a b : Field) (w : BitVec 1) (s : State) : Host.Outcome State Fault Refusal :=
  intForm (.minn d a b w) d a b w (fun o => ((min o.a o.b : Nat) : Int)) s

/-- MAXN: the larger, unsigned. -/
def execMaxn (d a b : Field) (w : BitVec 1) (s : State) : Host.Outcome State Fault Refusal :=
  intForm (.maxn d a b w) d a b w (fun o => ((max o.a o.b : Nat) : Int)) s

/-- SEL: a if the old d is not 0, otherwise b. -/
def execSel (d a b : Field) (w : BitVec 1) (s : State) : Host.Outcome State Fault Refusal :=
  intForm (.sel d a b w) d a b w (fun o => if o.d = 0 then o.b else o.a) s

/-- BFX: the extracted field (R105). -/
def execBfx (d a b : Field) (w : BitVec 1) (s : State) : Host.Outcome State Fault Refusal :=
  intForm (.bfx d a b w) d a b w (fun o => o.bfx) s

/-- BFI: d with the field inserted (R105). -/
def execBfi (d a b : Field) (w : BitVec 1) (s : State) : Host.Outcome State Fault Refusal :=
  intForm (.bfi d a b w) d a b w (fun o => o.bfi) s

/-- CLZ: leading zero bits within w. -/
def execClz (d a : Field) (w : BitVec 1) (s : State) : Host.Outcome State Fault Refusal :=
  intForm (.clz d a w) d a a w (fun o => ((o.w - bitLength o.a : Nat) : Int)) s

/-- CTZ: trailing zero bits; w when a = 0. -/
def execCtz (d a : Field) (w : BitVec 1) (s : State) : Host.Outcome State Fault Refusal :=
  intForm (.ctz d a w) d a a w (fun o => (((lowestSet o.w o.a).getD o.w : Nat) : Int)) s

/-- POPC: set bits. -/
def execPopc (d a : Field) (w : BitVec 1) (s : State) : Host.Outcome State Fault Refusal :=
  intForm (.popc d a w) d a a w (fun o => ((popcount o.w o.a : Nat) : Int)) s

/-- BREV: bits reversed within w. -/
def execBrev (d a : Field) (w : BitVec 1) (s : State) : Host.Outcome State Fault Refusal :=
  intForm (.brev d a w) d a a w (fun o => ((reverseBits o.w o.a : Nat) : Int)) s

/-- MOV: a. -/
def execMov (d a : Field) (w : BitVec 1) (s : State) : Host.Outcome State Fault Refusal :=
  intForm (.mov d a w) d a a w (fun o => (o.a : Int)) s

/-- CMP: the signed compare (R102). -/
def execCmp (a b : Field) (w : BitVec 1) (s : State) : Host.Outcome State Fault Refusal :=
  ccForm (.cmp a b w)
    (fun t => ccSigned (widthOf w) (s.sreadN t a (widthOf w)) (s.sreadN t b (widthOf w))) s

/-- CMPN: the unsigned compare (R102). -/
def execCmpn (a b : Field) (w : BitVec 1) (s : State) : Host.Outcome State Fault Refusal :=
  ccForm (.cmpn a b w)
    (fun t => ccUnsigned (s.sreadN t a (widthOf w)) (s.sreadN t b (widthOf w))) s

/-! ### Row 0x1 (Table 5.4) -/

/-- ADDI: sread(A) + sext(IMM9). -/
def execAddi (d a : Field) (i : BitVec 9) (s : State) : Host.Outcome State Fault Refusal :=
  immForm (.addi d a i) d (fun t => s.sread t a + sext64 i) s

/-- ANDI: sread(A) AND sext(IMM9). -/
def execAndi (d a : Field) (i : BitVec 9) (s : State) : Host.Outcome State Fault Refusal :=
  immForm (.andi d a i) d (fun t => s.sread t a &&& sext64 i) s

/-- ORI: sread(A) OR sext(IMM9). -/
def execOri (d a : Field) (i : BitVec 9) (s : State) : Host.Outcome State Fault Refusal :=
  immForm (.ori d a i) d (fun t => s.sread t a ||| sext64 i) s

/-- XORI: sread(A) XOR sext(IMM9). -/
def execXori (d a : Field) (i : BitVec 9) (s : State) : Host.Outcome State Fault Refusal :=
  immForm (.xori d a i) d (fun t => s.sread t a ^^^ sext64 i) s

/-- SHLI: as SHL with amount IMM9[5:0]. -/
def execShli (d a : Field) (i : BitVec 6) (s : State) : Host.Outcome State Fault Refusal :=
  immForm (.shli d a i) d (fun t => s.sread t a <<< i.toNat) s

/-- SHRI: as SHR with amount IMM9[5:0]. -/
def execShri (d a : Field) (i : BitVec 6) (s : State) : Host.Outcome State Fault Refusal :=
  immForm (.shri d a i) d (fun t => s.sread t a >>> i.toNat) s

/-- SRAI: as SRA with amount IMM9[5:0]. -/
def execSrai (d a : Field) (i : BitVec 6) (s : State) : Host.Outcome State Fault Refusal :=
  immForm (.srai d a i) d (fun t => (s.sread t a).sshiftRight i.toNat) s

/-- CMPI: CC as CMP, with b the sign-extended IMM9. -/
def execCmpi (a : Field) (i : BitVec 9) (s : State) : Host.Outcome State Fault Refusal :=
  ccForm (.cmpi a i) (fun t => ccSigned 64 (s.sread t a).toNat (sext64 i).toNat) s

/-- CMPNI: CC as CMPN, with b the sign-extended IMM9 as an unsigned 64-bit value. -/
def execCmpni (a : Field) (i : BitVec 9) (s : State) : Host.Outcome State Fault Refusal :=
  ccForm (.cmpni a i) (fun t => ccUnsigned (s.sread t a).toNat (sext64 i).toNat) s

/-- MOVI: s[D] := sext(IMM16). -/
def execMovi (d : Field) (i : BitVec 16) (s : State) : Host.Outcome State Fault Refusal :=
  immForm (.movi d i) d (fun _ => sext64 i) s

/-- MOVHI: s[D][31:16] := IMM16. -/
def execMovhi (d : Field) (i : BitVec 16) (s : State) : Host.Outcome State Fault Refusal :=
  immForm (.movhi d i) d (fun t => insert16 (t.sreg d) 16 i) s

/-- MOVXI: s[D][47:32] := IMM16. -/
def execMovxi (d : Field) (i : BitVec 16) (s : State) : Host.Outcome State Fault Refusal :=
  immForm (.movxi d i) d (fun t => insert16 (t.sreg d) 32 i) s

/-- MOVTI: s[D][63:48] := IMM16. -/
def execMovti (d : Field) (i : BitVec 16) (s : State) : Host.Outcome State Fault Refusal :=
  immForm (.movti d i) d (fun t => insert16 (t.sreg d) 48 i) s

/-- LDLIT: s[D] := zero_extend(LIT); two words (R79), LOOP_STATE at the end of a body (R117). -/
def execLdlit (d : Field) (lit : BitVec 32) (s : State) : Host.Outcome State Fault Refusal :=
  issue (.ldlit d lit) s fun t => do
    t.xCheck
    pure (s.putTeam (t.setD d (lit.setWidth 64)).advanceX)

/-- LEA: s[D] := sread(A) + sread(B) × 2^Q. -/
def execLea (d a b : Field) (z : BitVec 2) (s : State) : Host.Outcome State Fault Refusal :=
  immForm (.lea d a b z) d (fun t => s.sread t a + s.sread t b <<< z.toNat) s

/-- GETS: a condition of Table 5.2 as 0 or 1, or the remaining count of a loop (R107). -/
def execGets (d k : Field) (s : State) : Host.Outcome State Fault Refusal :=
  immForm (.gets d k) d
    (fun t =>
      if k.toNat ≤ 12 then (if condition k.toNat t.cc then 1#64 else 0#64)
      else (t.loop (k.toNat - 16)).count.setWidth 64) s

end Sys2Proof.Machine
end

