-- ==== Sys2Proof/Machine/ScalarMemory.lean ====
section
/-! DEFINITION. Row 0x8: scalar loads, stores, atomics, FENCE and LINV (spec/08 R195 to R199). -/

namespace Sys2Proof.Machine

/-! ### Loads (R195) -/

/-- A scalar load of `n` bytes from `va` into s[D]; one that waits in the mesh writes s[D] with its reply
(R177, R179, R182). -/
def State.scalarLoad (s : State) (t : Team) (d : Field) (va : Word) (n : Nat) (acquire : Bool)
    (next : Team → Team) : Effect := do
  needAligned va n
  let (s, m) ← s.translateResident t.walker va .read scalarSpaces
  s.ownPairs t m.phys
  if s.loadQueues t m.phys m.nc then
    s.needCredit t m.phys
    let s := s.queueReq t m (.load d.toNat n)
    pure (s.modTeam t.uid fun t =>
      { next t with pend := some (.load d.toNat n m.phys acquire) })
  else do
    let (s, v) ← s.teamLoad t m n
    pure (s.modTeam t.uid fun t => next (t.setD d (BitVec.ofNat 64 v)))

/-- LD: loads n bytes at sread(A) + sread(B). -/
def execLd (d a b : Field) (z : BitVec 2) (s : State) : Host.Outcome State Fault Refusal :=
  issue (.ld d a b z) s fun t => s.scalarLoad t d (s.address t a b) (sizeOf z) false Team.advance

/-- LDX: loads n bytes at sread(A) + sext(LIT); two words (R79, R117). -/
def execLdx (d a : Field) (z : BitVec 2) (lit : W32) (s : State) :
    Host.Outcome State Fault Refusal :=
  issue (.ldx d a z lit) s fun t => do
    t.xCheck
    s.scalarLoad t d (s.sread t a + sext64 lit) (sizeOf z) false Team.advanceX

/-- LDA: a load that performs before any later access of the team (R184). -/
def execLda (d a b : Field) (z : BitVec 2) (s : State) : Host.Outcome State Fault Refusal :=
  issue (.lda d a b z) s fun t => s.scalarLoad t d (s.address t a b) (sizeOf z) true Team.advance

/-! ### Stores (R195) -/

/-- A scalar store of the low `n` bytes of `v` at `va`; `ready` holds it until its conditions
hold. -/
def State.scalarStore (s : State) (t : Team) (va : Word) (n : Nat) (v : Word)
    (ready : Except Stop Unit) : Effect := do
  needAligned va n
  let (s, m) ← s.translateResident t.walker va .write scalarSpaces
  ready
  s.ownPairs t m.phys
  s.needRegions t.coreId t.ctx m.phys
  if s.mustQueue t m.phys then
    s.needStoreCredit t m.phys
    let s := (s.learnFx t.coreId t.ctx va m.phys).queueReq t m (.store (leBytes n v.toNat))
    pure (s.modTeam t.uid fun t =>
      Team.advance { t with outstanding := t.outstanding + 1 })
  else
    pure ((s.teamStore t va m.phys (leBytes n v.toNat)).modTeam t.uid Team.advance)

/-- ST: stores the low n bytes of sread(D) at sread(A) + sread(B). -/
def execSt (d a b : Field) (z : BitVec 2) (s : State) : Host.Outcome State Fault Refusal :=
  issue (.st d a b z) s fun t =>
    s.scalarStore t (s.address t a b) (sizeOf z) (s.sread t d) (.ok ())

/-- STL: a store at sread(A) that is sent only once the conditions of its scope hold (R184). -/
def execStl (d a k : Field) (z : BitVec 2) (s : State) : Host.Outcome State Fault Refusal :=
  issue (.stl d a k z) s fun t =>
    s.scalarStore t (s.sread t a) (sizeOf z) (s.sread t d) (s.needFence t k.toNat)

/-! ### Atomics (R196, R197, Table 8.3) -/

/-- The value that atomic `op`, counted from ATADD, writes over `old` at `n` bytes; none for an
ATCAS whose comparison fails. -/
def atomicNew (op n old b c : Nat) : Option Nat :=
  let w := 8 * n
  match op with
  | 0 => some ((old + b) % 2 ^ w)
  | 1 => some (if signedOf w b < signedOf w old then b else old)
  | 2 => some (if signedOf w old < signedOf w b then b else old)
  | 3 => some (Nat.min old b)
  | 4 => some (Nat.max old b)
  | 5 => some (old &&& b)
  | 6 => some (old ||| b)
  | 7 => some (old ^^^ b)
  | 8 => some b
  | _ => if old = c then some b else none

/-- The predictor's counter for a physical address (R197). -/
def State.predicted (s : State) (core pa : Nat) : Nat :=
  lookup 0 (bitsOf pa 7 8) (s.core core).predictor

/-- Trains the predictor on a reply's CONT (R197). -/
def State.train (s : State) (core pa : Nat) (cont : Bool) : State :=
  let n := s.predicted core pa
  let n' := if cont then min (n + 1) 3 else n - 1
  s.modCore core fun k => { k with predictor := insertAt (bitsOf pa 7 8) n' k.predictor }

/-- Whether an atomic runs at the home bank ALU (R197). -/
def State.runsAtHome (s : State) (core : Nat) (p : Phys) (nc : Bool) : Bool :=
  p.space != .gddr || nc || p.unit != core / 64 || decide (2 ≤ s.predicted core p.addr)

/-- Grants a write lease on a line to a core, its pending bins applied first (R197, R231). -/
def State.grantLease (s : State) (core die line : Nat) : State :=
  let cont := s.contention die line core
  let s := s.reachHome core die line
  let g0 := s.gwctOf die line
  let s := s.modDie die fun k => { k with
    wleases := { line := line, core := core, g0 := g0, expiry := k.time + 256 } ::
      k.wleases.filter (fun w => !(w.line == line)) }
  s.train core line cont

/-- One read-modify-write at its single order point; answers the old value and the GWCT. It runs
under the core's write lease where it holds one and the mapping is not NC, else at the home, where an NC
access ends the core's own lease too (R179, R197). -/
def State.atomicAt (s : State) (core : Nat) (p : Phys) (nc : Bool) (op n b c : Nat) : State × Nat × Nat :=
  match p.space with
  | .gddr =>
    let line := lineOf p.addr
    let lease := if nc then none else s.ownLease? core p.unit line
    let cont := s.contention p.unit line core
    let s := if nc then s.recallLine (deviceRequester p.unit) p.unit line else s
    let s := if lease.isSome then s.applyLine p.unit line else s.reachHome core p.unit line
    let old := s.peek p n
    let s := match atomicNew op n old b c with
      | some v => s.lineWrite p.unit p.addr (leBytes n v)
      | none => s
    let s := s.refreshL1 core p.unit p.addr n
    match lease with
    | some w => (s, old, max (s.coreClock core) w.g0)
    | none => (s.train core p.addr cont, old, s.gwctOf p.unit line)
  | _ =>
    let old := s.peek p n
    let cont := s.contention p.unit (homeKey p) core
    let s := (s.noteRequest p.unit (homeKey p) core).train core p.addr cont
    match atomicNew op n old b c with
    | some v =>
      let (s, g) := s.dsmStore p.unit p.addr (leBytes n v)
      (s, old, g)
    | none => (s, old, s.tileTime p.unit (64 + dsmSlice p.addr))

/-- An atomic of row 0x8. -/
def atomicForm (i : Instr) (op : Nat) (d a b : Field) (z : BitVec 1) (s : State) :
    Host.Outcome State Fault Refusal :=
  issue i s fun t => do
    let n := if z = 0#1 then 8 else 4
    let va := s.sread t a
    let x := (s.sread t b).toNat % 2 ^ (8 * n)
    let c := (t.sreg d).toNat % 2 ^ (8 * n)
    needAligned va n
    let (s, m) ← s.translateResident t.walker va .both scalarSpaces
    s.ownPairs t m.phys
    s.needRegions t.coreId t.ctx m.phys
    let s := s.learnFx t.coreId t.ctx va m.phys
    if s.mustQueue t m.phys then
      s.needCredit t m.phys
      let s := s.queueReq t m (.atomic op n (BitVec.ofNat 64 x) (BitVec.ofNat 64 c) d.toNat)
      pure (s.modTeam t.uid fun t =>
        { t.advance with pend := some (.atomic d.toNat n m.phys) })
    else if s.poisoned m.phys then .error (s.poisonStop m.phys)
    else
      let line := lineOf m.phys.addr
      let s := if s.runsAtHome t.coreId m.phys m.nc ||
          (s.ownLease? t.coreId m.phys.unit line).isSome then s
        else s.grantLease t.coreId m.phys.unit line
      let (s, old, g) := s.atomicAt t.coreId m.phys m.nc op n x c
      pure ((s.joinGwct t.uid g).modTeam t.uid fun t =>
        (t.setD d (BitVec.ofNat 64 old)).advance)

/-- ATADD: writes the sum modulo 2^(8n); s[D] := the old value (Table 8.3). -/
def execAtadd (d a b : Field) (z : BitVec 1) (s : State) : Host.Outcome State Fault Refusal :=
  atomicForm (.atadd d a b z) 0 d a b z s

/-- ATMIN: writes the smaller, signed; s[D] := the old value (Table 8.3). -/
def execAtmin (d a b : Field) (z : BitVec 1) (s : State) : Host.Outcome State Fault Refusal :=
  atomicForm (.atmin d a b z) 1 d a b z s

/-- ATMAX: writes the larger, signed; s[D] := the old value (Table 8.3). -/
def execAtmax (d a b : Field) (z : BitVec 1) (s : State) : Host.Outcome State Fault Refusal :=
  atomicForm (.atmax d a b z) 2 d a b z s

/-- ATMINN: writes the smaller, unsigned; s[D] := the old value (Table 8.3). -/
def execAtminn (d a b : Field) (z : BitVec 1) (s : State) : Host.Outcome State Fault Refusal :=
  atomicForm (.atminn d a b z) 3 d a b z s

/-- ATMAXN: writes the larger, unsigned; s[D] := the old value (Table 8.3). -/
def execAtmaxn (d a b : Field) (z : BitVec 1) (s : State) : Host.Outcome State Fault Refusal :=
  atomicForm (.atmaxn d a b z) 4 d a b z s

/-- ATAND: writes old AND b; s[D] := the old value (Table 8.3). -/
def execAtand (d a b : Field) (z : BitVec 1) (s : State) : Host.Outcome State Fault Refusal :=
  atomicForm (.atand d a b z) 5 d a b z s

/-- ATOR: writes old OR b; s[D] := the old value (Table 8.3). -/
def execAtor (d a b : Field) (z : BitVec 1) (s : State) : Host.Outcome State Fault Refusal :=
  atomicForm (.ator d a b z) 6 d a b z s

/-- ATXOR: writes old XOR b; s[D] := the old value (Table 8.3). -/
def execAtxor (d a b : Field) (z : BitVec 1) (s : State) : Host.Outcome State Fault Refusal :=
  atomicForm (.atxor d a b z) 7 d a b z s

/-- ATXCH: writes b; s[D] := the old value (Table 8.3). -/
def execAtxch (d a b : Field) (z : BitVec 1) (s : State) : Host.Outcome State Fault Refusal :=
  atomicForm (.atxch d a b z) 8 d a b z s

/-- ATCAS: writes b if the old value equals s[D], otherwise nothing; s[D] := the old value (Table 8.3). -/
def execAtcas (d a b : Field) (z : BitVec 1) (s : State) : Host.Outcome State Fault Refusal :=
  atomicForm (.atcas d a b z) 9 d a b z s

/-! ### FENCE and LINV (R198, R199) -/

/-- FENCE: the team is not ready until the conditions of its scope hold (R183). -/
def execFence (k : Field) (s : State) : Host.Outcome State Fault Refusal :=
  issue (.fence k) s fun t => do
    s.needFence t k.toNat
    pure (s.putTeam t.advance)

/-- The page of an address for LINV and UFLUSH. DESIGN CHOICE (log entry 47): the spec names no kind of
access; a page that permits a load or a store translates, and an absent page, which has no lines, counts as
one that fails. -/
def State.pageAt (s : State) (t : Team) (va : Word) : Except Stop (State × Mapped) :=
  match s.translateResident t.walker va .read scalarSpaces with
  | .error (.trap _) => s.translateResident t.walker va .write scalarSpaces
  | r => r

/-- Calls `f` with the physical range of each page of a list that meets [a, a + n) in the team's
address space; pages that fail translation are skipped (R199, R212). -/
def State.eachPage (s : State) (t : Team) (a n : Nat) (f : State → Phys → Nat → State) :
    List Nat → Except Stop State
  | [] => .ok s
  | page :: rest => do
    let lo := max a (page * 65536)
    let hi := min (a + n) ((page + 1) * 65536)
    let s ← if hi ≤ lo || 2 ^ 64 ≤ lo then pure s
      else match s.pageAt t (BitVec.ofNat 64 lo) with
        | .ok (s, m) => pure (f s m.phys (hi - lo))
        | .error (.trap _) => pure s
        | .error e => .error e
    State.eachPage s t a n f rest

/-- Ends a core's leases on the lines that meet a physical range (R185, R199). -/
def State.endLeases (s : State) (core : Nat) (p : Phys) (n : Nat) : State :=
  if p.space != .gddr then s
  else s.dropLines core fun d l =>
    d == p.unit && decide (p.addr < l + 128) && decide (l < p.addr + n)

/-- LINV: ends the core's L1 leases on the lines of a range; it raises no fault (R199). -/
def execLinv (a b : Field) (s : State) : Host.Outcome State Fault Refusal :=
  issue (.linv a b) s fun t => do
    let va := (s.sread t a).toNat
    let n := (s.sread t b).toNat
    let pages := rangeFrom (va / 65536) 34
    let s ← if n = 0 then pure s
      else if 2097152 < n then pure (s.dropLines t.coreId (fun _ _ => true))
      else s.eachPage t va n (fun s p k => s.endLeases t.coreId p k) pages
    pure (s.modTeam t.uid Team.advance)

end Sys2Proof.Machine
end

