-- ==== Sys2Proof/Machine/Streams.lean ====
section
/-! DEFINITION. Row 0xA: update streams, task counters, completion counters, cluster barriers and DSM
operations (spec/08 R210 to R218). -/

namespace Sys2Proof.Machine

/-! ### Update pairs (R210, R222, R401) -/

/-- A pair as an instruction emits it: its virtual address, value, and the ray that waits for its
acceptance (R305). -/
structure Emitted where
  va : Word
  val : W32
  ray : Option (Nat × Nat)
  deriving DecidableEq, Repr

/-- A dropped pair: its code of Table 21.3, its address, and INFO[39:32]. -/
structure Dropped where
  code : Nat
  va : Word
  extra : Nat
  deriving DecidableEq, Repr

/-- The fate of one pair (R222, Table 21.3): a pair for its home, or a drop. DEDUCED (log entry 53): a pair counts
as a load and a store (R193), so a page without RD drops it like one without W, though R210 and Table 21.3 name
the store alone. -/
def State.pairFate (s : State) (t : Team) (es : List RegionEntry) (e : Emitted) :
    Except Stop (State × (Pair ⊕ Dropped)) :=
  match coveringEntry e.va 0 es with
  | none => .ok (s, .inr { code := 64, va := e.va, extra := 0 })
  | some (i, r) =>
    if r.malformed then .ok (s, .inr { code := 65, va := e.va, extra := i })
    else match s.translate t.walker e.va .both [0, 1] with
      | .error (.trap x) => .ok (s, .inr { code := 66, va := e.va, extra := x.code })
      | .error x => .error x
      | .ok (s, m) =>
        if !m.resident then .ok (s, .inr { code := 67, va := e.va, extra := 0 })
        else .ok (s, .inl
          { uid := t.uid, core := t.coreId, ctx := t.ctx, die := m.phys.unit, addr := m.phys.addr,
            op := r.op, fxf := r.fxf, shadow := r.shadowAt,
            off := lineOf (e.va.toNat - r.vbase.toNat), val := e.val, ray := e.ray,
            seq := none })

/-- The fates of the pairs of an instruction, in their order. -/
def State.pairFates (s : State) (t : Team) (es : List RegionEntry) :
    List Emitted → Except Stop (State × List Pair × List Dropped)
  | [] => .ok (s, [], [])
  | e :: rest => do
    let (s, f) ← s.pairFate t es e
    let (s, ps, ds) ← s.pairFates t es rest
    match f with
    | .inl p => pure (s, p :: ps, ds)
    | .inr d => pure (s, ps, d :: ds)

/-- The record of an instruction's drops under one code (R401, Table 21.1). -/
def State.reportDrops (s : State) (t : Team) (ds : List Dropped) (code : Nat) : State :=
  let mine := ds.filter fun d => d.code == code
  match mine with
  | [] => s
  | d :: _ =>
    s.report (t.report { kind := 4, code := code, addr := d.va, pc := t.pc,
                         info := BitVec.ofNat 64 (mine.length + 2 ^ 32 * d.extra) })

/-- The pairs in the stream buffer of a team's scheduler. -/
def State.streamOf (s : State) (t : Team) : List Pair :=
  lookup [] t.ident.sched (s.core t.coreId).streams

/-- The pairs of an instruction that go to their homes; the others are dropped and reported (R401). -/
def State.fates (s : State) (t : Team) (ps : List Emitted) : Except Stop (State × List Pair) := do
  let (s, es) ← s.regionsOf t.coreId t.ctx
  let (s, pairs, drops) ← s.pairFates t es ps
  pure ([64, 65, 66, 67].foldl (fun (s : State) c => s.reportDrops t drops c) s, pairs)

/-- A core with pairs appended to a stream buffer; where it was empty, its oldest pair begins to wait
(R417). -/
def Core.enterPairs (k : Core) (sched time : Nat) (pairs : List Pair) : Core :=
  let old := lookup [] sched k.streams
  { k with
    streams := insertAt sched (old ++ pairs) k.streams
    streamSince := if old.isEmpty then insertAt sched time k.streamSince else k.streamSince }

/-- The groups that enter a buffer with so many free places, one after the other, and those that wait. -/
def takeRoom : Nat → List (List Pair) → List Pair × List (List Pair)
  | _, [] => ([], [])
  | free, g :: rest =>
    if g.length ≤ free then
      let (now, later) := takeRoom (free - g.length) rest
      (g ++ now, later)
    else ([], g :: rest)

/-- The first RETIRE that waits for a stream buffer enters the groups of lanes for which there is room
(R305). -/
def Core.enterGroups (k : Core) (sched time : Nat) : Core :=
  match k.entering.find? (fun e => e.sched == sched) with
  | none => k
  | some e =>
    let (now, later) := takeRoom (1024 - (lookup [] sched k.streams).length) e.groups
    let rest := if later.isEmpty then eraseFirst (fun x => x == e) k.entering
      else mapWhere (fun x => x == e) (fun x => { x with groups := later }) k.entering
    { k with entering := rest }.enterPairs sched time now

/-- Emits the pairs of an instruction into the stream buffer of 1,024 pairs, held while they do not fit
(R210). Answers the pairs that were not dropped. -/
def State.emit (s : State) (t : Team) (ps : List Emitted) : Except Stop (State × List Pair) :=
  if 1024 < (s.streamOf t).length + ps.length then .error .hold
  else do
    let (s, pairs) ← s.fates t ps
    pure (s.modCore t.coreId fun k => k.enterPairs t.ident.sched (s.time t.ident.die) pairs, pairs)

/-- UPD and UPDS: the pairs of some lanes at sread(A) + 4 × index. -/
def State.update (s : State) (t : Team) (a : Field) (lanes : List Nat) (index : Nat → Nat)
    (x : VReg) : Effect := do
  let base := s.sread t a
  needAligned base 4
  let ps := lanes.map fun i =>
    { va := base + BitVec.ofNat 64 (4 * index i), val := x.lane i, ray := none }
  let (s, _) ← s.emit t ps
  pure (s.putTeam t.advance)

/-- UPD: pair i at sread(A) + 4 × vB[i] with value vD[i], for i < vB.len. -/
def execUpd (d a b : Field) (s : State) : Host.Outcome State Fault Refusal :=
  issue (.upd d a b) s fun t =>
    let y := t.vread b
    s.update t a (t.guarded y.len) (fun i => (y.lane i).toNat) (t.vread d)

/-- UPDS: pair i at sread(A) + 4i with value vD[i], for i < vD.len. -/
def execUpds (d a : Field) (s : State) : Host.Outcome State Fault Refusal :=
  issue (.upds d a) s fun t =>
    s.update t a (t.guarded (t.vread d).len) (fun i => i) (t.vread d)

/-- The pages that the tables of a walk map below `table`, with the number so far; `levels` are the
levels still above the leaves. Only pages from `lo` to `hi` count. -/
def State.mappedPages (s : State) (die lo hi : Nat) : List Nat → Nat → Nat → List Nat
  | [], table, pre =>
    ((List.range 1024).filter fun i =>
      decide (lo ≤ pre * 1024 + i) && decide (pre * 1024 + i ≤ hi) &&
        bitOf ((s.die die).mem.read (table + 8 * i) 8) 0).map (fun i => pre * 1024 + i)
  | span :: rest, table, pre =>
    (List.range 1024).flatMap fun i =>
      let n := pre * 1024 + i
      let e := BitVec.ofNat 64 ((s.die die).mem.read (table + 8 * i) 8)
      if n * span + span ≤ lo || hi < n * span || !(bitOf e.toNat 0) then []
      else State.mappedPages s die lo hi rest (wordBits e 13 39 * 8192) n

/-- A page number of a 56-bit address space as a page of the canonical 64-bit one (R168). -/
def canonicalPage (n : Nat) : Nat := if n < 2 ^ 39 then n else n + (2 ^ 48 - 2 ^ 40)

/-- The page number of a canonical page within the 56-bit space. -/
def lowPage (n : Nat) : Nat := n % 2 ^ 40

/-- A die as the reads of its tables find it, every bin applied (R231). -/
def State.allApplied (s : State) (die : Nat) : State :=
  (s.die die).bins.foldl (fun (s : State) b => s.applyBin die b) s

/-- The pages of a team's address space that a range meets and that its tables or its core's TLB
map: the others fail translation. -/
def State.pagesMeeting (s : State) (t : Team) (a n : Nat) : List Nat :=
  let first := a / 65536
  let last := (a + n - 1) / 65536
  let half := fun (lo hi : Nat) =>
    if hi < lo then []
    else (s.allApplied t.ident.die).mappedPages t.ident.die (lowPage lo) (lowPage hi) [2 ^ 30, 2 ^ 20, 2 ^ 10]
      (s.ptroot t.ctx) 0
  let walked := half first (min last (2 ^ 39 - 1)) ++
    half (max first (2 ^ 48 - 2 ^ 39)) (min last (2 ^ 48 - 1))
  let cached := (((s.core t.coreId).tlb.filter (fun e => e.ctx == t.ctx)).map
    TlbEntry.vpn).filter (fun v => decide (first ≤ v) && decide (v ≤ last))
  (walked.map canonicalPage ++ cached).dedup

/-- Applies every bin whose line meets a physical range, and joins the GWCTs into a team (R212). -/
def State.applyRange (s : State) (t : Team) (p : Phys) (n : Nat) : State :=
  let hit := fun (b : Bin) => decide (p.addr < b.line + 128) && decide (b.line < p.addr + n)
  if p.space != .gddr then s
  else ((s.die p.unit).bins.filter hit).foldl
    (fun (s : State) b => (s.applyBin p.unit b).joinGwct t.uid
      ((s.applyBin p.unit b).gwctOf p.unit b.line)) s

/-- Whether pairs of the team's scheduler are in its stream buffer or not yet accepted (R212). -/
def State.streaming (s : State) (t : Team) : Bool :=
  !(s.streamOf t).isEmpty || (s.core t.coreId).entering.any (fun e => e.sched == t.ident.sched) ||
    (s.die0.flight ++ s.die1.flight).any fun p =>
      p.core == t.coreId &&
        (match s.team? p.uid with
         | some x => x.ident.sched == t.ident.sched
         | none => false)

/-- UFLUSH: held until the stream's pairs are accepted; then the bins of a range are applied
(R212). -/
def execUflush (a b : Field) (s : State) : Host.Outcome State Fault Refusal :=
  issue (.uflush a b) s fun t => do
    let va := (s.sread t a).toNat
    let n := (s.sread t b).toNat
    if s.streaming t then .error .hold
    else
      let s ← if n = 0 then pure s
        else s.eachPage t va n (fun s p k => s.applyRange t p k) (s.pagesMeeting t va n)
      pure (s.modTeam t.uid Team.advance)

/-! ### Task records (R213) -/

/-- TDEC, TINC and TSPAWN: a release at scope PAIR, then the operation on its way to the record's
home (R213). -/
def taskForm (i : Instr) (kind : DepKind) (a : Field) (s : State) :
    Host.Outcome State Fault Refusal :=
  issue i s fun t => do
    let va := s.sread t a
    needAligned va 64
    let (s, m) ← s.translateResident t.walker va .both [0, 1]
    s.needFence t 3
    let op : DepOp := { kind := kind, loc := m.phys, va := va, ctx := t.ctx, core := t.coreId,
                        checked := true, host := false }
    pure ({ s with depQ := s.depQ ++ [op] }.putTeam t.advance)

/-- TDEC: decrements DEPCNT of the record at sread(A). -/
def execTdec (a : Field) (s : State) : Host.Outcome State Fault Refusal :=
  taskForm (.tdec a) .dec a s

/-- TINC: increments DEPCNT of the record at sread(A). -/
def execTinc (a : Field) (s : State) : Host.Outcome State Fault Refusal :=
  taskForm (.tinc a) .inc a s

/-- TSPAWN: submits the record at sread(A) to its queue. -/
def execTspawn (a : Field) (s : State) : Host.Outcome State Fault Refusal :=
  taskForm (.tspawn a) .spawn a s

/-! ### Completion counters (R215) -/

/-- The counter that sread(A)[7:0] names. -/
def State.counterNumber (s : State) (t : Team) (a : Field) : Nat := (s.sread t a).toNat % 256

/-- CSET: ck := sread(B)[31:0], once the CORE conditions hold. -/
def execCset (a b : Field) (s : State) : Host.Outcome State Fault Refusal :=
  issue (.cset a b) s fun t => do
    s.needFence t 0
    pure ((s.setCounter t.coreId (s.counterNumber t a) ((s.sread t b).setWidth 32)).modTeam t.uid
      Team.advance)

/-- CADD: ck := (ck + sread(B)[31:0]) mod 2^32, once the CORE conditions hold. -/
def execCadd (a b : Field) (s : State) : Host.Outcome State Fault Refusal :=
  issue (.cadd a b) s fun t => do
    s.needFence t 0
    let k := s.counterNumber t a
    pure ((s.setCounter t.coreId k (s.counter t.coreId k + (s.sread t b).setWidth 32)).modTeam
      t.uid Team.advance)

/-- CGET: s[D] := ck. -/
def execCget (d a : Field) (s : State) : Host.Outcome State Fault Refusal :=
  issueTeam (.cget d a) s fun t =>
    (t.setD d ((s.counter t.coreId (s.counterNumber t a)).setWidth 64)).advance

/-! ### Cluster barriers (R216, Table 8.8) -/

/-- One arrival at a barrier word: the state, the GEN found and the GWCT. -/
def State.arrive (s : State) (core : Nat) (p : Phys) (target : W32) : State × W32 × Nat :=
  let s := if p.space == .gddr then (s.applyLine p.unit (lineOf p.addr)) else s
  let w := s.peek p 8
  let gen := BitVec.ofNat 32 (bitsOf w 32 32)
  let count := BitVec.ofNat 32 (bitsOf w 0 32) + 1#32
  let done := target.ule count
  let w' := if done then 2 ^ 32 * (gen + 1#32).toNat else 2 ^ 32 * gen.toNat + count.toNat
  match p.space with
  | .gddr =>
    let (s, g) := s.homeStore core p.unit p.addr (leBytes 8 w')
    (s.refreshL1 core p.unit p.addr 8, gen, g)
  | _ =>
    let (s, g) := (s.noteRequest p.unit (homeKey p) core).dsmStore p.unit p.addr (leBytes 8 w')
    (s, gen, g)

/-- What follows an arrival for its team: s[D] := g0, and in mode 0 the wait until GEN ≠ g0. -/
def State.arrived (s : State) (uid d mode : Nat) (p : Phys) (gen : W32) : State :=
  let still := s.peek { p with addr := p.addr + 4 } 4 == gen.toNat
  s.modTeam uid fun t =>
    let t := t.setS d (gen.setWidth 64)
    if mode = 0 && still then t.waitFor (.barrier p gen) else t

/-- CBAR: arrives at the barrier word (modes 0 and 1), or waits past s[D] (mode 2). -/
def execCbar (d a b : Field) (s : State) : Host.Outcome State Fault Refusal :=
  issue (.cbar d a b) s fun t => do
    let v := s.sread t b
    let mode := wordBits v 32 2
    let va := s.sread t a
    if mode = 3 || wordBits v 34 30 != 0 then raise (trapOperand b.toNat v)
    else do
      needAligned va 64
      let (s, m) ← s.translateResident t.walker va (if mode = 2 then .read else .both)
        scalarSpaces
      s.ownPairs t m.phys
      if mode = 2 then
        s.needServed t m.phys
        if s.poisoned m.phys then .error (s.poisonStop m.phys)
        else
          let s := if m.phys.space == .gddr then
              s.homeRead t.coreId m.phys.unit (lineOf m.phys.addr) false else s
          let cond : WaitKind := .barrier m.phys ((t.sreg d).setWidth 32)
          pure (s.putTeam (if s.waitHolds t cond then t.advance else t.advance.waitFor cond))
      else do
        s.needFence t (if m.phys.unit = t.ident.die then 2 else 3)
        s.needRegions t.coreId t.ctx m.phys
        let s := s.learnFx t.coreId t.ctx va m.phys
        if s.mustQueue t m.phys then
          s.needCredit t m.phys
          let s := s.queueReq t m (.barrier mode (v.setWidth 32) d.toNat)
          pure (s.putTeam { t.advance with pend := some (.barrier d.toNat mode m.phys) })
        else if s.poisoned m.phys then .error (s.poisonStop m.phys)
        else
          let (s, gen, g) := s.arrive t.coreId m.phys (v.setWidth 32)
          let s := (s.joinGwct t.uid g).modTeam t.uid Team.advance
          pure (s.arrived t.uid d.toNat mode m.phys gen)

/-! ### DSM operations (R217, R218) -/

/-- The types that DSMOP and DSMRED accept: F32, I32, N32. -/
def etypesDsm : List Nat := [0, 3, 4]

/-- The word that a DSM operation of R217 writes over `a` with operand `b`. -/
def dsmCombine (etype op : Nat) (z : Rounding) (a b : W32) : W32 :=
  let (ty, _) := elemType etype
  match op with
  | 0 => b
  | 1 => packElem ty [subResult ty z (XReal.add (z.rnd == 2) (subVal ty z.dnz a.toNat)
      (subVal ty z.dnz b.toNat))]
  | 2 => packElem ty [minSub z.dnz ty a.toNat b.toNat]
  | 3 => packElem ty [maxSub z.dnz ty a.toNat b.toNat]
  | 4 => a &&& b
  | 5 => a ||| b
  | _ => a ^^^ b

/-- Checks and translates DSM elements, lane by lane. -/
def State.mapDsm (s : State) (t : Team) (addr : Nat → Word) :
    List Nat → Except Stop (State × List (Nat × Phys))
  | [] => .ok (s, [])
  | i :: rest =>
    if (addr i).toNat % 4 != 0 then raise (trapMisaligned (addr i) i)
    else match s.translateResident t.walker (addr i) .both [3] with
      | .error e => .error (e.atLane i)
      | .ok (s, m) => do
        let (s, ps) ← s.mapDsm t addr rest
        pure (s, (i, m.phys) :: ps)

/-- Holds while an element's DSM cannot take operations (R22). -/
def State.needBanks (s : State) (t : Team) (ps : List (Nat × Phys)) : Except Stop Unit :=
  if ps.any (fun p => s.busyAt t.coreId p.2) then .error .hold else .ok ()

/-- DSMOP: one indivisible operation at its bank ALU for each guarded lane i < vD.len (R217). -/
def execDsmop (d a b : Field) (s : State) : Host.Outcome State Fault Refusal :=
  issue (.dsmop d a b) s fun t => do
    t.needEtype etypesDsm
    let v := s.sread t b
    if wordBits v 0 3 = 7 || wordBits v 3 61 != 0 then raise (trapOperand b.toNat v)
    else do
      let x := t.vread d
      let base := s.sread t a
      let (s, ps) ← s.mapDsm t (fun i => base + BitVec.ofNat 64 (4 * i)) (t.guarded x.len)
      s.needBanks t ps
      let reqs := ps.map fun (i, p) =>
        { uid := t.uid, die := p.unit, addr := p.addr, op := wordBits v 0 3, etype := t.etype,
          mode := t.mode, val := x.lane i }
      let s := s.modDie t.ident.die fun k => { k with dsmQ := k.dsmQ ++ reqs }
      pure (s.putTeam (Team.advance { t with outstanding := t.outstanding + reqs.length }))

/-- DSMRED's result over some words (R156, R218). DEDUCED (log entry 53): over no values the reductions with an
empty value of their own in R156 give it, minimum, maximum and AND; the 0 of R218 is read as that of XOR, which
R156 does not name. -/
def dsmReduce (etype op : Nat) (z : Rounding) (ws : List W32) : W32 :=
  match op with
  | 1 => reduceAdd etype z.dnz (fun _ => z) ws
  | 2 => reduceExtreme true etype z.dnz ws
  | 3 => reduceExtreme false etype z.dnz ws
  | 4 => ws.foldl (fun x y => x &&& y) 0xFFFFFFFF#32
  | 5 => ws.foldl (fun x y => x ||| y) 0#32
  | _ => ws.foldl (fun x y => x ^^^ y) 0#32

/-- The 4-byte words of some bytes. -/
def words32 : Nat → List Byte → List W32
  | 0, _ => []
  | n + 1, bs => BitVec.ofNat 32 (leNat (bs.take 4)) :: words32 n (bs.drop 4)

/-- DSMRED: s[D] := the reduction of sread(B)[31:0] consecutive DSM words (R218). -/
def execDsmred (d a b : Field) (s : State) : Host.Outcome State Fault Refusal :=
  issue (.dsmred d a b) s fun t => do
    t.needEtype etypesDsm
    let v := s.sread t b
    let op := wordBits v 32 3
    if op = 0 || op = 7 || wordBits v 35 29 != 0 then raise (trapOperand b.toNat v)
    else do
      let n := wordBits v 0 32
      let va := s.sread t a
      if n != 0 then needAligned va 4 else .ok ()
      let (s, ps) ← s.mapParts t .read [3] (partsOf va (4 * n))
      s.needParts t ps
      let (s, bytes) ← s.loadParts t ps
      let r := dsmReduce t.etype op t.roundingNoDraw (words32 n bytes)
      pure (s.putTeam (t.setD d (r.setWidth 64)).advance)

end Sys2Proof.Machine
end

