-- ==== Sys2Proof/Machine/Bins.lean ====
section
/-! DEFINITION. Update pairs between stream buffer and memory: injection, acceptance into bins,
spills and application (spec/09 R228 to R232, spec/21 R401, R402), and the steps PAIR_INJECT,
HOME_ACCEPT_PAIR and BIN_APPLY. -/

namespace Sys2Proof.Machine

/-! ### Injection (R228) -/

/-- Whether the pair link carries requests (R397). -/
def State.linkWorks (s : State) : Bool := s.host.linkUp && s.host.clockOk

/-- PAIR_INJECT: the first pair of a stream buffer leaves it, once the intake of its home slice,
256 pairs, has a slot; pairs that wait for room take its place (R305). -/
def State.pairInject (s : State) (core sched : Nat) : Option State :=
  match lookup [] sched (s.core core).streams with
  | [] => none
  | p :: rest =>
    let k := s.die p.die
    let before := s
    let queued := (k.flight.filter (fun q => homeSlice q.addr == homeSlice p.addr)).length
    if 256 ≤ queued || (core / 64 != p.die && !s.linkWorks) then none
    else
      let now := s.time (core / 64)
      let s := s.modCore core fun c =>
        { c with streams := insertAt sched rest c.streams
                 streamSince := insertAt sched now c.streamSince }.enterGroups sched now
      let at_ : Phys := { space := .gddr, unit := p.die, addr := p.addr }
      let s := s.modDie p.die fun k => { k with flight := k.flight ++ [{ p with seq := k.arrival at_ }] }
      some (match (before.core core).entering.find? (fun e => e.sched == sched) with
        | some e => s.released before e.uid
        | none => s)

/-- PAIR_INJECT. -/
def execPairInject (s : State) : Host.Outcome State Fault Refusal :=
  event "PAIR_INJECT" (s.pairInject s.arg.core s.arg.n)

/-! ### Spills (R229, R230) -/

/-- The blocks of storage that a bin takes. -/
def binBlocks (op : Nat) : Nat := if op = 9 then 5 else 2

/-- The bins of a slice, oldest first. -/
def Die.sliceBins (k : Die) (slice : Nat) : List Bin :=
  k.bins.filter (fun b => homeSlice b.line == slice)

/-- The blocks in use in a slice. -/
def Die.blocksUsed (k : Die) (slice : Nat) : Nat := ((k.sliceBins slice).map (fun b => binBlocks b.op)).sum

/-- SYS.SORUSCFG.BINBLK. -/
def Die.binblk (k : Die) : Nat := wordBits k.regs.soruscfg 0 12

/-- Applies a bin as a spill and records it (R230, R363). A replayed context's spill that its log does not
hold is a divergence (R425). -/
def State.spill (s : State) (die : Nat) (b : Bin) : State :=
  let slice := homeSlice b.line
  let n := lookup 0 slice (s.die die).accepted
  let payload := [BitVec.ofNat 64 b.line, BitVec.ofNat 64 (slice + 2 ^ 32 * (n % 2 ^ 32))]
  if s.replaying b.ctx && !((s.replayLog b.ctx die).any fun e => e.type == 6 && e.payload == payload) then
    (s.applyBin die b).diverge b.ctx die 0#64 0
  else (s.applyBin die b).logEvent b.ctx die 6 payload

/-- Spills bins of a slice from a list, oldest first, until `need` more blocks fit. -/
def State.spillFrom (s : State) (die slice need : Nat) : List Bin → State
  | [] => s
  | b :: rest =>
    if (s.die die).blocksUsed slice + need ≤ (s.die die).binblk then s
    else (s.spill die b).spillFrom die slice need rest

/-- Spills bins of a slice until `need` more blocks fit. -/
def State.makeRoom (s : State) (die slice need : Nat) : State :=
  s.spillFrom die slice need ((s.die die).sliceBins slice)

/-! ### Acceptance (R177, R224, R226, R229, R401, R402) -/

/-- The combining order of a word's values after `v` arrives; ANY keeps one of them and FADD takes
them in an order that the device does not define (R224). -/
def combineInto (op free : Nat) (vals : List W32) (v : W32) : List W32 :=
  if op = 12 then
    (match vals with
     | [] => [v]
     | old :: _ => [if Config.anyKeepsNew free then v else old])
  else if op = 13 then
    let n := Config.faddPlace free % (vals.length + 1)
    vals.take n ++ v :: vals.drop n
  else vals ++ [v]

/-- A word of a bin with one more contribution, and whether its exact sum left the range (R402). -/
def BinWord.add (w : BinWord) (op fxf free : Nat) (v : W32) : BinWord × Bool :=
  let (u, f) := if op = 9 then fxConv v fxf else (0, 0#4)
  ({ w with vals := combineInto op free w.vals v, sum := fxWrap (w.sum + u), flags := w.flags ||| f },
   fxWraps (w.sum + u))

/-- Adds a pair to the bin of its line (R229). -/
def State.binPair (s : State) (die : Nat) (b : Bin) (p : Pair) : State :=
  let idx := p.addr % 128 / 4
  let old := (b.words.find? (fun w => w.idx == idx)).getD { idx := idx, vals := [], sum := 0, flags := 0#4 }
  let (n, s) := s.takeFree
  let (w, wraps) := old.add b.op b.fxf n p.val
  let words := if b.words.any (fun w => w.idx == idx)
    then mapWhere (fun (x : BinWord) => x.idx == idx) (fun _ => w) b.words else b.words ++ [w]
  let s := s.modDie die fun k =>
    { k with bins := mapWhere (fun x => x.line == b.line) (fun b => { b with words := words }) k.bins }
  if wraps then s.shadowReport die b.ctx 70 (b.line + 4 * idx) 1 else s

/-- Drops a pair that its line's bin cannot take; the first of each bin is reported (R229, R401). -/
def State.mismatch (s : State) (die : Nat) (b : Bin) (p : Pair) : State :=
  if b.mismatch then s
  else
    let s := s.modDie die fun k =>
      { k with bins := mapWhere (fun x => x.line == b.line) (fun b => { b with mismatch := true }) k.bins }
    s.report { kind := 4, code := 68, ctx := p.ctx, die := die, sl := true,
               unit := homeSlice p.addr, addr := BitVec.ofNat 64 b.line,
               info := BitVec.ofNat 64 (b.op + 2 ^ 8 * p.op) }

/-- The spills that a replayed log asks of a slice at its count of accepted pairs (R424). -/
def State.replaySpills (s : State) (ctx die slice : Nat) : State :=
  let n := lookup 0 slice (s.die die).accepted % 2 ^ 32
  let due := (s.replayLog ctx die).filter fun e =>
    e.type == 6 && (e.payload.drop 1).headD 0#64 == BitVec.ofNat 64 (slice + 2 ^ 32 * n)
  due.foldl (fun (s : State) e => s.applyLine die (e.payload.headD 0#64).toNat) s

/-- Whether a bin takes a pair: they have one operator, and for FXADD one FXF and SHADOW (R229). -/
def Bin.takes (b : Bin) (p : Pair) : Bool :=
  b.op == p.op && (p.op != 9 || (b.fxf == p.fxf && b.shadow == p.shadow))

/-- The bin that a pair's line has, where it does not take the pair (R229, R401). -/
def State.clash? (s : State) (p : Pair) : Option Bin :=
  (s.die p.die).bins.find? fun b => b.line == lineOf p.addr && !b.takes p

/-- The place of an accepted pair in its line's bin. -/
def State.placePair (s : State) (p : Pair) : State :=
  let line := lineOf p.addr
  match (s.die p.die).bins.find? (fun b => b.line == line) with
  | some b => s.binPair p.die b p
  | none =>
    let s := s.makeRoom p.die (homeSlice line) (binBlocks p.op)
    let b : Bin := { line := line, op := p.op, fxf := p.fxf, shadow := p.shadow, off := p.off,
                     ctx := p.ctx, words := [], mismatch := false }
    let s := s.modDie p.die fun k => { k with
      bins := k.bins ++ [b]
      fxLines := if p.op = 9 then insertAt line (p.ctx, p.fxf, p.shadow + 4 * p.off) k.fxLines
                 else k.fxLines }
    s.binPair p.die b p

/-- A pair is settled, accepted or dropped: the ray that waited for it may be freed (R305, R401). -/
def State.settled (s : State) (p : Pair) : State :=
  match p.ray with
  | some (d, n) => (s.settlePair d n).testPool d
  | none => s

/-- home_accept_pair: the pair's order point; its GWCT joins the emitting team, the line leaves the
core's L1, and a retired ray may be freed (R177, R211, R305). A pair that its line's bin does not take is
dropped: it counts for nothing and returns no GWCT (R401). -/
def State.acceptPair (s : State) (p : Pair) : State :=
  match s.clash? p with
  | some b => (s.mismatch p.die b p).settled p
  | none =>
    let slice := homeSlice p.addr
    let s := s.placePair p
    let s := s.modDie p.die fun k =>
      { k with accepted := insertAt slice (lookup 0 slice k.accepted + 1) k.accepted }
    let s := s.replaySpills p.ctx p.die slice
    let s := s.noteRequest p.die (lineOf p.addr) p.core
    let s := s.dropLines p.core fun d l => d == p.die && l == lineOf p.addr
    (s.joinGwct p.uid (s.gwctOf p.die (lineOf p.addr))).settled p

/-- Whether a pair in flight must wait: an earlier one of its core to its slice is still in flight, its line is
held, or a request of a migrated page that arrived before it waits (R179, R190, R228, R397). -/
def State.pairWaits (s : State) (p : Pair) (earlier : List Pair) : Bool :=
  let k := s.die p.die
  earlier.any (fun q => q.core == p.core && homeSlice q.addr == homeSlice p.addr) ||
    k.wleases.any (fun w => w.line == lineOf p.addr && decide (k.time < w.expiry)) ||
    k.olderHeld (lineOf p.addr) p.seq || s.homeBusy p.core p.die (lineOf p.addr)

/-- HOME_ACCEPT_PAIR: pair `n` of those in flight to a die is accepted. -/
def State.homeAcceptPair (s : State) (die n : Nat) : Option State :=
  let fl := (s.die die).flight
  match fl.drop n with
  | [] => none
  | p :: rest =>
    if s.pairWaits p (fl.take n) then none
    else some ((s.modDie die fun k => { k with flight := fl.take n ++ rest }).acceptPair p)

/-- HOME_ACCEPT_PAIR. -/
def execHomeAcceptPair (s : State) : Host.Outcome State Fault Refusal :=
  event "HOME_ACCEPT_PAIR" (s.homeAcceptPair s.arg.die s.arg.n)

/-- BIN_APPLY: the home applies the bin of a line, as it may at any time (R231). -/
def State.binApply (s : State) (die line : Nat) : Option State :=
  match (s.die die).bins.find? (fun b => b.line == line) with
  | some b => some (s.applyBin die b)
  | none => none

/-- BIN_APPLY. -/
def execBinApply (s : State) : Host.Outcome State Fault Refusal :=
  event "BIN_APPLY" (s.binApply s.arg.die s.arg.n)

/-- The spills that a smaller SYS.SORUSCFG asks of every slice (R230). -/
def State.spillAll (s : State) (die : Nat) : State :=
  (List.range 32).foldl (fun (s : State) slice => s.makeRoom die slice 0) s

end Sys2Proof.Machine
end

