-- ==== Sys2Proof/Machine/Registers.lean ====
section
/-! DEFINITION. The control registers of Table 19.9 (spec/19 R367, spec/20 R387, R388): their
numbers, the values that each accepts, what a write does, and the steps SLICECFG_WRITE,
SLICECFG_APPLY, STITCH_WRITE, STITCH_APPLY, SORUSCFG_WRITE, POOLRSV_WRITE and SCENE_WRITE. -/

namespace Sys2Proof.Machine

/-! ### Numbers (Table 19.9) -/

/-- The register of a number from 0x200 on, as it is applied. -/
def DieRegs.get (r : DieRegs) (num : Nat) : Word :=
  match num with
  | 0x200 => r.slicecfg
  | 0x201 => r.pltbase
  | 0x202 => r.vwin
  | 0x203 => r.lease
  | 0x204 => r.closq
  | 0x205 => r.migpte
  | 0x206 => r.migdst
  | 0x207 => r.migctl &&& 0x6#64
  | 0x208 => r.soruscfg
  | 0x209 => r.poolrsv
  | 0x20A => r.skcfg
  | 0x20B => r.derate
  | 0x20C => r.fnode
  | 0x20D => r.frtab
  | 0x20E => r.errring
  | n => r.stitch.getD (n - 0x210) 0#64

/-- The registers with one that has no behaviour of its own replaced. -/
def DieRegs.set (r : DieRegs) (num : Nat) (v : Word) : DieRegs :=
  match num with
  | 0x200 => { r with slicecfg := v }
  | 0x201 => { r with pltbase := v }
  | 0x202 => { r with vwin := v }
  | 0x203 => { r with lease := v }
  | 0x204 => { r with closq := v }
  | 0x205 => { r with migpte := v }
  | 0x206 => { r with migdst := v }
  | 0x207 => { r with migctl := v }
  | 0x208 => { r with soruscfg := v }
  | 0x209 => { r with poolrsv := v }
  | 0x20A => { r with skcfg := v }
  | 0x20B => { r with derate := v }
  | 0x20C => { r with fnode := v }
  | 0x20D => { r with frtab := v }
  | 0x20E => { r with errring := v }
  | n => { r with stitch := r.stitch.set (n - 0x210) v }

/-! ### Accepted values -/

/-- Whether the bits of `v` outside a mask are zero. -/
def onlyBits (v : Word) (mask : Nat) : Bool := v.toNat &&& mask == v.toNat

/-- R21. -/
def sliceValid (v : Word) : Bool :=
  let p := wordBits v 0 4
  let t := wordBits v 4 4
  let d := wordBits v 8 4
  onlyBits v 0xFFF && decide (p ≤ 6) && decide (t ≤ 8) && decide (d ≤ 8) && decide (p + t + d ≤ 15)

/-- R187: no MINk exceeds its MAXk. -/
def closqValid (v : Word) : Bool :=
  onlyBits v 0xFFFFFFFF &&
    (List.range 4).all (fun k => decide (wordBits v (16 + 4 * k) 4 ≤ wordBits v (4 * k) 4))

/-- R285, Table 12.2. -/
def skcfgValid (v : Word) : Bool :=
  wordBits v 60 4 == 0 && wordBits v 11 5 == 0 && decide (1 ≤ wordBits v 48 10) &&
    decide (64 ≤ wordBits v 32 16) && decide (64 ≤ wordBits v 16 16) &&
    decide (8 ≤ wordBits v 0 11) && decide (wordBits v 0 11 ≤ 1024)

/-- R318: T1 < T2 < T3 and 1 ≤ D1 < D2 < D3. -/
def derateValid (v : Word) : Bool :=
  let f := fun lo => wordBits v lo 8
  wordBits v 52 12 == 0 && decide (f 0 < f 8) && decide (f 8 < f 16) && decide (1 ≤ f 24) &&
    decide (f 24 < f 32) && decide (f 32 < f 40)

/-- R359: the ring's address and LOG2N. -/
def errringValid (v : Word) : Bool :=
  onlyBits v 0xFFFFFFFFFF01F && decide (4 ≤ wordBits v 0 5) && decide (wordBits v 0 5 ≤ 16)

/-- A rectangle of cores (Table 13.6). -/
structure Rect where
  x : Nat
  y : Nat
  w : Nat
  h : Nat
  deriving DecidableEq, Repr

/-- The rectangle of a stitch entry. -/
def stitchRect (v : Word) : Rect :=
  { x := wordBits v 0 4, y := wordBits v 4 4, w := wordBits v 8 4, h := wordBits v 12 4 }

/-- Whether a core, by its number on the die, lies in a rectangle (R11, R12). -/
def Rect.has (r : Rect) (core : Nat) : Bool :=
  let x := core % 8 + 2
  let y := core / 8
  decide (r.x ≤ x) && decide (x < r.x + r.w) && decide (r.y ≤ y) && decide (y < r.y + r.h)

/-- Whether two rectangles share a core. -/
def Rect.meets (a b : Rect) : Bool :=
  decide (a.x < b.x + b.w) && decide (b.x < a.x + a.w) && decide (a.y < b.y + b.h) &&
    decide (b.y < a.y + a.h)

/-- A stitch register's value that will be applied last. -/
def Die.stitchNext (k : Die) (n : Nat) : Word :=
  lookup (k.regs.stitch.getD n 0#64) n k.pendStitch

/-- R328: the conditions on entry `n`; it is apart from every other entry as it stands and as it will be. -/
def Die.stitchValid (k : Die) (n : Nat) (v : Word) : Bool :=
  let r := stitchRect v
  let topo := wordBits v 16 3
  let shape := decide (2 ≤ r.x) && decide (r.x + r.w ≤ 10) && decide (r.y + r.h ≤ 8) &&
    decide (1 ≤ r.w) && decide (1 ≤ r.h) && decide (2 ≤ r.w * r.h) && decide (r.w * r.h ≤ 12) &&
    (topo != 1 || decide (3 ≤ r.w * r.h)) && (topo != 3 || (decide (3 ≤ r.w) && decide (3 ≤ r.h)))
  let free := fun (w : Word) => !bitOf w.toNat 31 || !r.meets (stitchRect w)
  let apart := (List.range 8).all fun m =>
    m == n || (free (k.stitchNext m) && free (k.regs.stitch.getD m 0#64))
  onlyBits v 0x8007FFFF && decide (topo ≤ 3) && (!bitOf v.toNat 31 || (shape && apart))

/-- Whether a die register accepts a value (R388). -/
def State.dieRegValid (s : State) (d num : Nat) (v : Word) : Bool :=
  let k := s.die d
  match num with
  | 0x200 => sliceValid v
  | 0x201 => onlyBits v 0xFFFFFFFFF0000 && decide (v.toNat + 4 * (s.gddrSize / 65536) ≤ s.gddrSize)
  | 0x202 => decide (10 ≤ v.toNat) && decide (v.toNat ≤ 16)
  | 0x203 => decide (64 ≤ v.toNat) && decide (v.toNat ≤ 8192)
  | 0x204 => closqValid v
  | 0x205 => onlyBits v 0xFFFFFFFFFFFF8
  | 0x206 => onlyBits v 0xFFFFFFFFF0000 && decide (v.toNat < s.gddrSize)
  | 0x207 => onlyBits v 0x7
  | 0x208 => decide (16 ≤ v.toNat) && decide (v.toNat ≤ 2048)
  | 0x209 => decide (v.toNat ≤ 786432)
  | 0x20A => skcfgValid v
  | 0x20B => derateValid v
  | 0x20C => onlyBits v 0x7FF
  | 0x20D => decide (v.toNat + 2048 ≤ s.gddrSize)
  | 0x20E => errringValid v
  | n => k.stitchValid (n - 0x210) v

/-- Whether a context register accepts a value (Tables 9.1, 12.2, 19.5). -/
def ctxRegValid (num : Nat) (v : Word) : Bool :=
  match num with
  | 0x100 => onlyBits v 0xFFFFFFFFFE000
  | 0x101 => onlyBits v 0xFFFFFFFFFFFC0
  | 0x102 => decide (v.toNat ≤ 256)
  | 0x103 => wordBits v 0 6 == 0
  | 0x104 => onlyBits v 0xFFFFFFFFFFFE0
  | 0x105 => onlyBits v 0x3FFFF
  | 0x106 => wordBits v 0 2 == 0
  | _ => onlyBits v 0x1F

/-- Whether a team register accepts a value (Table 19.3, R388). -/
def teamRegValid (num : Nat) (v : Word) : Bool :=
  match num with
  | 1 => onlyBits v 0xFFFF00FFFFFF
  | 4 => onlyBits v 0xFFFFF
  | 9 => wordBits v 0 3 == 0
  | _ => true

/-! ### Team and context registers -/

/-- A team's register of numbers 0x000 to 0x00A. -/
def Team.csr (t : Team) (num : Nat) : Word :=
  match num with
  | 0 => t.trap.tpc
  | 1 => t.trap.tcause
  | 2 => t.trap.taddr
  | 3 => t.trap.tinfo
  | 4 => t.trap.tmode
  | 5 => t.trap.ts60
  | 6 => t.trap.ts61
  | 7 => t.trap.ts62
  | 8 => t.trap.ts63
  | 9 => t.nlog
  | _ => t.nlend

/-- The team with one of those registers written. -/
def Team.setCsr (t : Team) (num : Nat) (v : Word) : Team :=
  match num with
  | 0 => { t with trap := { t.trap with tpc := v } }
  | 1 => { t with trap := { t.trap with tcause := v } }
  | 2 => { t with trap := { t.trap with taddr := v } }
  | 3 => { t with trap := { t.trap with tinfo := v } }
  | 4 => { t with trap := { t.trap with tmode := v } }
  | 5 => { t with trap := { t.trap with ts60 := v } }
  | 6 => { t with trap := { t.trap with ts61 := v } }
  | 7 => { t with trap := { t.trap with ts62 := v } }
  | 8 => { t with trap := { t.trap with ts63 := v } }
  | 9 => { t with nlog := v }
  | _ => { t with nlend := v }

/-- A context's register of numbers 0x100 to 0x107, as written. -/
def Ctx.csr (c : Ctx) (num : Nat) : Word :=
  match num with
  | 0x100 => c.regs.ptroot
  | 0x101 => c.regs.rgntab
  | 0x102 => c.regs.rgncnt
  | 0x103 => c.regs.scene
  | 0x104 => c.regs.shdtab
  | 0x105 => c.regs.shdcnt
  | 0x106 => c.tvec
  | _ => c.ctxctl

/-- The context with one of those registers written. -/
def Ctx.setCsr (c : Ctx) (num : Nat) (v : Word) : Ctx :=
  match num with
  | 0x100 => { c with regs := { c.regs with ptroot := v } }
  | 0x101 => { c with regs := { c.regs with rgntab := v } }
  | 0x102 => { c with regs := { c.regs with rgncnt := v } }
  | 0x103 => { c with regs := { c.regs with scene := v } }
  | 0x104 => { c with regs := { c.regs with shdtab := v } }
  | 0x105 => { c with regs := { c.regs with shdcnt := v } }
  | 0x106 => { c with tvec := v }
  | _ => { c with ctxctl := v }

/-- Invalidates every cached treelet of a die (R285, R298). -/
def State.dropTreelets (s : State) (d : Nat) : State :=
  s.modDie d fun k => { k with treelets := [] }

/-- Empties the hint table of every slice (R348). -/
def State.emptyHints (s : State) : State :=
  { s with die0 := { s.die0 with hints := [] }, die1 := { s.die1 with hints := [] } }

/-- Writes an accepted value to a context register; every write of SCENE drops the treelets of the
writer's die and empties the hint tables (R285, R348). -/
def State.writeCtx (s : State) (d ctx num : Nat) (v : Word) : State :=
  let s := s.modCtx ctx fun c => c.setCsr num v
  if num = 0x103 then (s.dropTreelets d).emptyHints else s

/-- Puts the registers of a context in force as TLBINV does; a new SCENE waits for its own rule
(R170, R220, R285, R415). -/
def Ctx.inForce (c : Ctx) : Ctx :=
  { c with
    eff := { c.regs with scene := c.eff.scene }
    scenePend := if c.regs.scene = c.eff.scene then none else some c.regs.scene }

/-- Removes a context's translations that satisfy `p` on every core, its cached region entries, and what the
homes know of its FXADD lines, and puts its registers in force (R220, R368). -/
def State.tlbinv (s : State) (ctx : Nat) (p : Nat → Bool) : State :=
  let clear := fun (k : Core) => { k with
    tlb := k.tlb.filter (fun e => !(e.ctx == ctx && p e.vpn))
    regions := removeAt ctx k.regions }
  let forget := fun (k : Die) => { k with fxLines := k.fxLines.filter (fun l => l.2.1 != ctx) }
  { s with
    cores := s.cores.map (fun (c : Nat × Core) => (c.1, clear c.2))
    die0 := forget s.die0, die1 := forget s.die1 }.modCtx ctx Ctx.inForce

/-! ### Die registers -/

/-- Writes an accepted value to a die register under its own rule (R22, R190, R230, R286, R329,
R388). -/
def State.writeDie (s : State) (d num : Nat) (v : Word) : State :=
  let k := s.die d
  if num = 0x200 then
    if k.pendSlice.isNone && v = k.regs.slicecfg then s
    else s.modDie d fun k => { k with pendSlice := some v }
  else if num = 0x207 then
    if !bitOf v.toNat 0 || wordBits k.regs.migctl 1 2 = 1 then s
    else s.modDie d fun k => { k with regs := { k.regs with migctl := k.regs.migctl ||| 1#64 } }
  else if 0x210 ≤ num then
    let n := num - 0x210
    if !(k.pendStitch.any (fun p => p.1 == n)) && v = k.regs.stitch.getD n 0#64 then s
    else s.modDie d fun k => { k with pendStitch := insertAt n v k.pendStitch }
  else
    let s := s.modDie d fun k => { k with regs := k.regs.set num v }
    if num = 0x208 then s.spillAll d
    else if num = 0x209 then s.poolChanged d
    else s

/-- STATUS.FWOK -/
def HostIf.fwok (h : HostIf) : Bool := bitOf h.status.toNat 1

/-- Whether the mailbox holds the host's request for the write of a die register (R340, R341). -/
def State.mailboxAsks (s : State) (d num : Nat) (v : Word) : Bool :=
  let w := BitVec.ofNat 64 (s.host.mbox.read 8 8)
  s.host.mbox.read 0 2 == 5 && wordBits w 16 12 == num && wordBits w 28 1 == d &&
    s.host.mbox.read 0x10 8 == v.toNat

/-- Whether a team of a die may write its die registers: its context has CTXCTL.SYS = 1 (R328). -/
def State.sysTeam (s : State) (d : Nat) : Bool :=
  s.teams.any fun t => t.isResident && t.ident.die == d && (s.ctx? t.ctx).any (fun c => c.sys && !c.halted)

/-- A write that the partition manager takes for a CTXCTL.SYS team of the die or for the host's mailbox (R328,
R341); not possible with a value that the register refuses, nor while no firmware runs (R338). -/
def State.outsideWrite (s : State) (num : Nat) : Option State :=
  let d := s.arg.die
  if !s.host.fwok || s.nDies ≤ d || !s.dieRegValid d num s.arg.w ||
      !(s.sysTeam d || s.mailboxAsks d num s.arg.w) then none
  else some (s.writeDie d num s.arg.w)

/-- SLICECFG_WRITE: a valid value is held pending (R22). -/
def execSlicecfgWrite (s : State) : Host.Outcome State Fault Refusal :=
  event "SLICECFG_WRITE" (s.outsideWrite 0x200)

/-- STITCH_WRITE: a valid value is held pending (R329). -/
def execStitchWrite (s : State) : Host.Outcome State Fault Refusal :=
  event "STITCH_WRITE" (if 8 ≤ s.arg.n then none else s.outsideWrite (0x210 + s.arg.n))

/-- SORUSCFG_WRITE: BINBLK, and the spills that it asks for (R230). -/
def execSoruscfgWrite (s : State) : Host.Outcome State Fault Refusal :=
  event "SORUSCFG_WRITE" (s.outsideWrite 0x208)

/-- POOLRSV_WRITE: RSV, and the waiters that it leaves without hope (R286). -/
def execPoolrsvWrite (s : State) : Host.Outcome State Fault Refusal :=
  event "POOLRSV_WRITE" (s.outsideWrite 0x209)

/-! ### Landing slots (R327) -/

/-- Whether a destination's landing slot for multicasts is taken: a payload has landed there, or a sender
holds the slot. Cores are 0 to 127, slices 128 and up. -/
def State.landing (s : State) (x : Nat) : Bool :=
  (s.die0.shoot ++ s.die1.shoot).any (fun p => p.1 == x) ||
    (s.die0.multicasts ++ s.die1.multicasts).any (fun m => (m.dests.take m.held).contains x)

/-- The number of a slice of a die as the destination of a multicast. -/
def sliceDest (d slice : Nat) : Nat := 128 + 32 * d + slice

/-- Whether a multicast to every core and slice of the device must wait for a landing slot. -/
def State.anyLanding (s : State) : Bool :=
  !(s.die0.shoot ++ s.die1.shoot).isEmpty || (s.die0.multicasts ++ s.die1.multicasts).any (fun m => m.held != 0)

/-- Evicts `n` lines of a set of the shared cache; a free value says which lines lie in the ways that leave
(R22; log entry 46). -/
def State.evictOver (s : State) (d set : Nat) : Nat → State
  | 0 => s
  | n + 1 =>
    let (i, s) := s.takeFree
    let lines := (s.die d).cache.filter (fun l => cacheSet l.line == set)
    match lines[Config.leavingWay i % lines.length]? with
    | some l => (s.modDie d fun k => k.evict l.line).evictOver d set n
    | none => s

/-- Lines in ways that leave the shared cache are written back where dirty and invalidated (R22). DESIGN CHOICE
(log entry 46): as many lines of a set lie in such ways as the remaining ways cannot hold, so a set that still
fits loses none. -/
def State.leaveWays (s : State) (d : Nat) : State :=
  (((s.die d).cache.map fun l => cacheSet l.line).dedup).foldl (fun (s : State) set =>
    let k := s.die d
    s.evictOver d set ((k.cache.filter fun l => cacheSet l.line == set).length - k.cacheWays)) s

/-- SLICECFG_APPLY: the pending value is applied once the pool is empty and no treelet fetch and no
DSM operation is in flight (R22); it is a multicast to the die's slices, whose landing slots it takes (R327). -/
def State.sliceApply (s : State) (d : Nat) : Option State :=
  let k := s.die d
  match k.pendSlice with
  | none => none
  | some v =>
    if s.poolFree d != k.poolCapacity || k.treelets.any (fun t => !t.lines.isEmpty) ||
        !k.dsmQ.isEmpty || (List.range 32).any (fun n => s.landing (sliceDest d n)) then none
    else
      let s := s.modDie d fun k =>
        let k := { k with regs := { k.regs with slicecfg := v }, pendSlice := none, treelets := [] }
        { k with dsm := k.dsm.filter (fun c => decide (c.1 < k.dsmSize))
                 dsmPoison := k.dsmPoison.filter (fun l => decide (l < k.dsmSize)) }
      some ((s.leaveWays d).poolChanged d)

/-- SLICECFG_APPLY. -/
def execSlicecfgApply (s : State) : Host.Outcome State Fault Refusal :=
  event "SLICECFG_APPLY" (s.sliceApply s.arg.die)

/-- The links that the stitched rectangles of a die add to its mesh, as pairs of tiles (R328). -/
def Die.stitchedLinks (k : Die) : List ((Nat × Nat) × (Nat × Nat)) :=
  (k.regs.stitch.filter (fun v => bitOf v.toNat 31)).flatMap fun v =>
    let r := stitchRect v
    let at_ := fun (n : Nat) => rankTile r.x r.y r.w n
    (stitchLinks (wordBits v 16 3) r.w r.h).map fun p => (at_ p.1, at_ p.2)

/-- The cores that a pending write of stitch entry `n` affects, by their number on the die. -/
def Die.stitchAffects (k : Die) (n core : Nat) : Bool :=
  let hit := fun (v : Word) => bitOf v.toNat 31 && (stitchRect v).has core
  k.pendStitch.any (fun p => p.1 == n) && (hit (k.regs.stitch.getD n 0#64) || hit (k.stitchNext n))

/-- Whether a pending stitch write keeps teams from starting on a core (R329). -/
def State.stitching (s : State) (core : Nat) : Bool :=
  (List.range 8).any fun n => (s.die (core / 64)).stitchAffects n (core % 64)

/-- Whether a ray is in traversal: in a batch, or its step has ended and its result is not yet
written. -/
def Ray.traversing (r : Ray) : Bool :=
  match r.state with
  | .batched | .traversed _ => true
  | _ => false

/-- SCENE_WRITE: a new SYS.SCENE takes effect once no ray of the context is in traversal; the
treelets and hints of the old one go (R415). -/
def State.sceneWrite (s : State) (id : Nat) : Option State :=
  match s.ctx? id with
  | none => none
  | some c => match c.scenePend with
    | none => none
    | some v =>
      let busy := fun (r : Ray) => r.ctx == id && r.traversing
      if (s.die0.rays ++ s.die1.rays).any busy then none
      else
        let s := s.modCtx id fun c => { c with eff := { c.eff with scene := v }, scenePend := none }
        some ((List.range s.nDies).foldl (fun (s : State) d =>
          s.modDie d fun k => { k with treelets := [], hints := [] }) s)

/-- SCENE_WRITE. -/
def execSceneWrite (s : State) : Host.Outcome State Fault Refusal :=
  event "SCENE_WRITE" (s.sceneWrite s.arg.n)

end Sys2Proof.Machine
end

