-- ==== Sys2Proof/Machine/HomeSteps.lean ====
section
/-! DEFINITION. The homes' own steps: requests that waited (spec/07 R177, R179), write leases
(spec/08 R197), barrier arrivals (R216), DSM elements (R217), host and fabric accesses (spec/07
R167, spec/21 R398), write-backs (spec/10 R250) and peer accesses (spec/21 R403 to R405). -/

namespace Sys2Proof.Machine

/-! ### Requests that waited for their home (R177, R179, R180) -/

/-- Request `n` of a home with those before it and those after it. -/
def State.request (s : State) (die n : Nat) : Option (MeshReq × List MeshReq × List MeshReq) :=
  let q := (s.die die).mesh
  match q.drop n with
  | [] => none
  | r :: rest => some (r, q.take n, rest)

/-- Whether a request can be served now: its home is free, and no request for the line has arrived before it,
no pair of a migrated page either (R180, R190). -/
def State.canServe (s : State) (r : MeshReq) (earlier : List MeshReq) : Bool :=
  !s.busyAt r.core r.loc && !(earlier.any fun q => homeKey q.loc == homeKey r.loc) &&
    !(s.die r.loc.unit).olderHeld (homeKey r.loc) r.seq

/-- Whether a request reads its line: a store does not. -/
def MeshReq.reads (r : MeshReq) : Bool :=
  match r.kind with
  | .store _ | .device _ | .host _ => false
  | _ => true

/-- A number for the next reply: replies of one home to one core arrive in the order of their numbers
(R325). -/
def State.sendNumber (s : State) : Nat × State := (s.nextUid, { s with nextUid := s.nextUid + 1 })

/-- Whether a reply of the home of a location to a core was injected before another of that home and is still
on its way (R325). -/
def State.replyBefore (s : State) (core : Nat) (loc : Phys) (sent : Nat) : Bool :=
  (s.core core).replies.any (fun r => homeEnd r.loc == homeEnd loc && decide (r.sent < sent)) ||
    (s.die0.acks ++ s.die1.acks).any fun a =>
      a.core == core && homeEnd a.loc == homeEnd loc && decide (a.sent < sent)

/-- Serves request `n` of a home with `f`, where `f` takes requests of its kind, under the class of service
of its context (R187); a read of a poisoned line is a machine check of the context (Table 19.7). -/
def State.serve (s : State) (die n : Nat) (f : State → MeshReq → Option State) : Option State :=
  match s.request die n with
  | none => none
  | some (r, earlier, later) =>
    if !s.canServe r earlier then none
    else
      let rest := (s.asClass r.ctx).modDie die fun k => { k with mesh := earlier ++ later }
      match f rest r with
      | none => none
      | some s' =>
        if r.reads && s.poisoned r.loc then
          match s.team? r.uid with
          | some t => some (rest.takeStop t (s.poisonStop r.loc))
          | none => some s'
        else some s'

/-- A team whose reply has come: it has become ready where that reply held its next instruction (R42). -/
def State.resumed (s before : State) (uid : Nat) : State :=
  match before.team? uid with
  | some t => if t.goesOn then s.released before uid else s.markReady uid
  | none => s

/-- HOME_READ: home_read for a queued load; its reply goes to the core. A read of the host takes no lease. -/
def State.serveRead (s : State) (r : MeshReq) : Option State :=
  match r.kind with
  | .read => some (s.homeRead r.core r.loc.unit (lineOf r.loc.addr) false)
  | .load d n =>
    let line := lineOf r.loc.addr
    let lease := r.loc.space == .gddr && !r.nc
    let s := if r.loc.space == .gddr then s.homeRead r.core r.loc.unit line lease
      else s.noteRequest r.loc.unit (homeKey r.loc) r.core
    let (sent, s) := s.sendNumber
    let reply : LoadReply :=
      { uid := r.uid, d := d, n := n, loc := r.loc, nc := r.nc
        data := (s.space r.loc.space r.loc.unit).slice line 128
        exp := if lease then s.homeTime r.loc.unit line + (s.die r.loc.unit).leaseLength else 0
        fills := lease
        sent := sent }
    some (s.modCore r.core fun k => { k with replies := k.replies ++ [reply] })
  | _ => none

/-- HOME_READ. -/
def execHomeRead (s : State) : Host.Outcome State Fault Refusal :=
  event "HOME_READ" (s.serve s.arg.die s.arg.n State.serveRead)

/-- LOAD_REPLY: the reply fills the L1 under its lease, unless it has been overtaken (R177, R180, R185), and the
load performs. Replies of one home to one core come in the order in which they were injected (R325). -/
def State.loadReply (s : State) (core n : Nat) : Option State :=
  match (s.core core).replies.drop n with
  | [] => none
  | r :: rest =>
    if s.replyBefore core r.loc r.sent then none
    else
      let before := s
      let line := lineOf r.loc.addr
      let s := s.modCore core fun k => { k with replies := k.replies.take n ++ rest }
      let s := if r.fills then
          s.fillL1 core { die := r.loc.unit, line := line, data := r.data, exp := r.exp } else s
      let load := fun (t : Team) =>
        { t.setS r.d (BitVec.ofNat 64 (r.data.read r.loc.addr r.n)) with pend := none }
      some ((s.modTeam r.uid load).resumed before r.uid)

/-- LOAD_REPLY. -/
def execLoadReply (s : State) : Host.Outcome State Fault Refusal :=
  event "LOAD_REPLY" (s.loadReply s.arg.core s.arg.n)

/-- A host write is performed at the home; the device returns its completion when TIME has reached its GWCT plus
2 (R167). -/
def State.hostStore (s : State) (die a : Nat) (bytes : List Byte) : State :=
  let (s, g) := s.homeStore (deviceRequester 0) die a bytes
  { s with host := { s.host with writeDone := max s.host.writeDone (g + 2) } }

/-- HOME_STORE: a queued store reaches its home's copy; its GWCT travels back. A store of the device itself or of
the fabric awaits no acknowledgement. -/
def State.serveStore (s : State) (r : MeshReq) : Option State :=
  match r.kind with
  | .device bytes => some (s.deviceStore r.loc.unit r.loc.addr bytes)
  | .host bytes => some (s.hostStore r.loc.unit r.loc.addr bytes)
  | .store bytes =>
    if r.uid = 0 then some (s.homeStore r.core r.loc.unit r.loc.addr bytes).1
    else
      let (s, g) := match r.loc.space with
        | .gddr =>
          let (s, g) := s.homeStore r.core r.loc.unit r.loc.addr bytes
          (s.refreshL1 r.core r.loc.unit r.loc.addr bytes.length, g)
        | _ => (s.noteRequest r.loc.unit (homeKey r.loc) r.core).dsmStore r.loc.unit r.loc.addr bytes
      let (sent, s) := s.sendNumber
      some (s.modDie r.loc.unit fun k => { k with
        acks := k.acks ++ [{ uid := r.uid, core := r.core, loc := r.loc, gwct := g, sent := sent }] })
  | _ => none

/-- HOME_STORE. -/
def execHomeStore (s : State) : Host.Outcome State Fault Refusal :=
  event "HOME_STORE" (s.serve s.arg.die s.arg.n State.serveStore)

/-- STORE_ACK: the GWCT of a store joins its team, in the order of its home's replies to the core (R325). -/
def State.storeAck (s : State) (die n : Nat) : Option State :=
  match (s.die die).acks.drop n with
  | [] => none
  | a :: rest =>
    if s.replyBefore a.core a.loc a.sent then none
    else some ((s.modDie die fun k => { k with acks := k.acks.take n ++ rest }).acknowledge a.uid a.gwct)

/-- STORE_ACK. -/
def execStoreAck (s : State) : Host.Outcome State Fault Refusal :=
  event "STORE_ACK" (s.storeAck s.arg.die s.arg.n)

/-- Performs a queued atomic and ends its team's wait. -/
def State.finishAtomic (s : State) (r : MeshReq) (op n : Nat) (b c : Word) (d : Nat) : State :=
  let (s, old, g) := s.atomicAt r.core r.loc r.nc op n b.toNat c.toNat
  let done := fun (t : Team) => { t.setS d (BitVec.ofNat 64 old) with pend := none }
  ((s.joinGwct r.uid g).modTeam r.uid done).markReady r.uid

/-- HOME_ATOMIC: the home bank ALU performs a queued atomic (R197). -/
def State.serveAtomic (s : State) (r : MeshReq) : Option State :=
  match r.kind with
  | .atomic op n b c d =>
    if s.runsAtHome r.core r.loc r.nc then some (s.finishAtomic r op n b c d) else none
  | _ => none

/-- HOME_ATOMIC. -/
def execHomeAtomic (s : State) : Host.Outcome State Fault Refusal :=
  event "HOME_ATOMIC" (s.serve s.arg.die s.arg.n State.serveAtomic)

/-- WRITE_LEASE_GRANT: the home grants the lease that a queued atomic asks for, and the atomic runs in
the L1 (R197). -/
def State.serveGrant (s : State) (r : MeshReq) : Option State :=
  match r.kind with
  | .atomic op n b c d =>
    if s.runsAtHome r.core r.loc r.nc then none
    else some ((s.grantLease r.core r.loc.unit (lineOf r.loc.addr)).finishAtomic r op n b c d)
  | _ => none

/-- WRITE_LEASE_GRANT. -/
def execWriteLeaseGrant (s : State) : Host.Outcome State Fault Refusal :=
  event "WRITE_LEASE_GRANT" (s.serve s.arg.die s.arg.n State.serveGrant)

/-- CBAR_ARRIVAL: the home counts a queued arrival (R216). -/
def State.serveArrival (s : State) (r : MeshReq) : Option State :=
  match r.kind with
  | .barrier mode target d =>
    let (s, gen, g) := s.arrive r.core r.loc target
    let s := (s.joinGwct r.uid g).modTeam r.uid fun t => { t with pend := none }
    some ((s.arrived r.uid d mode r.loc gen).markReady r.uid)
  | _ => none

/-- CBAR_ARRIVAL. -/
def execCbarArrival (s : State) : Host.Outcome State Fault Refusal :=
  event "CBAR_ARRIVAL" (s.serve s.arg.die s.arg.n State.serveArrival)

/-! ### Write leases (R197) -/

/-- The state without the write lease on a line. -/
def State.endLease (s : State) (die line : Nat) : State :=
  s.modDie die fun k => { k with wleases := k.wleases.filter (fun w => w.line != line) }

/-- LEASE_RECALL: the holder releases its write lease; the home has the line's contents. -/
def State.leaseRecall (s : State) (die line : Nat) : Option State :=
  if (s.die die).wleases.any (fun w => w.line == line) then some (s.endLease die line) else none

/-- LEASE_RECALL. -/
def execLeaseRecall (s : State) : Host.Outcome State Fault Refusal :=
  event "LEASE_RECALL" (s.leaseRecall s.arg.die s.arg.n)

/-- WRITE_LEASE_EXPIRY: a write lease ends 256 ticks after its grant. -/
def State.leaseExpiry (s : State) (die line : Nat) : Option State :=
  let now := (s.die die).time
  if (s.die die).wleases.any (fun w => w.line == line && decide (w.expiry ≤ now)) then
    some (s.endLease die line)
  else none

/-- WRITE_LEASE_EXPIRY. -/
def execWriteLeaseExpiry (s : State) : Host.Outcome State Fault Refusal :=
  event "WRITE_LEASE_EXPIRY" (s.leaseExpiry s.arg.die s.arg.n)

/-! ### DSM elements (R217) -/

/-- The rounding of a DSM operation under MODE at issue, RSR as RNE. -/
def DsmReq.rounding (r : DsmReq) : Rounding :=
  let rnd := bitsOf r.mode.toNat 9 3
  { rnd := if rnd = 5 then 0 else rnd, sat := bitOf r.mode.toNat 12, dnz := bitOf r.mode.toNat 13,
    draw := 0 }

/-- A machine check of the context of a request that reads a poisoned line, by the request's team where it has
not exited (Table 19.7). -/
def State.checkUid (s : State) (uid : Nat) (p : Phys) : State :=
  match s.team? uid with
  | some t => s.takeStop t (s.poisonStop p)
  | none => match s.ctxOfUid uid with
    | some ctx => s.machineCheck ctx (s.poisonStruct p) 0 p.unit (homeUnit p) true p.addr
    | none => s

/-- DSM_ELEMENT_OP: operation `n` at a die's bank ALUs, in one order point; one that reads a poisoned line is a
machine check of its context (Table 19.7). -/
def State.dsmElement (s : State) (die n : Nat) : Option State :=
  let q := (s.die die).dsmQ
  match q.drop n with
  | [] => none
  | r :: rest =>
    if (q.take n).any (fun x => x.uid == r.uid && x.addr == r.addr) then none
    else
      let old := BitVec.ofNat 32 ((s.die r.die).dsm.read r.addr 4)
      let v := dsmCombine r.etype r.op r.rounding old r.val
      let at_ : Phys := { space := .dsm, unit := r.die, addr := r.addr }
      let s := s.modDie die fun k => { k with dsmQ := q.take n ++ rest }
      if r.op != 0 && s.poisoned at_ then some ((s.checkUid r.uid at_).replied r.uid)
      else
        let core := (s.coreOfUid r.uid).getD (deviceRequester r.die)
        let (s, g) := (s.noteRequest r.die (homeKey at_) core).dsmStore r.die r.addr (leBytes 4 v.toNat)
        some (s.acknowledge r.uid g)

/-- DSM_ELEMENT_OP. -/
def execDsmElementOp (s : State) : Host.Outcome State Fault Refusal :=
  event "DSM_ELEMENT_OP" (s.dsmElement s.arg.die s.arg.n)

/-! ### Host and fabric (R167, R398) -/

/-- Whether a request is a write of the host. -/
def MeshReq.isHost (r : MeshReq) : Bool :=
  match r.kind with
  | .host _ => true
  | _ => false

/-- Whether a step of the host takes place now: one whose subject says, with `l` = 1, that it follows the
completion of the host's earlier writes waits for it (R167). -/
def State.hostOrdered (s : State) : Bool :=
  s.arg.l != 1 || (decide (s.host.writeDone ≤ s.time 0) && decide (s.host.writeDone ≤ s.time 1) &&
    !(s.die0.mesh ++ s.die1.mesh).any MeshReq.isHost)

/-- The number under which a die's edge interfaces make requests at a home. -/
def edgeRequester (die : Nat) : Nat := 1000 + die

/-- Whether a programmed HDM decoder exposes a line of a die to the host (R330, R334). DEDUCED (log entry 55):
device memory is numbered with die 0's GDDR7 first and die 1's after it. -/
def State.exposed (s : State) (die a : Nat) : Bool :=
  let line := die * s.gddrSize + lineOf a
  s.host.hdm.any fun d => decide (d.2.1 ≤ line) && decide (line + 128 ≤ d.2.1 + d.2.2)

/-- Whether the host's access reaches a line of a die now: firmware runs (R338), an HDM decoder exposes the line
(R330), a way leads there from the CXL controller of die 0, over the pair link for die 1 (R1, R15, R27, R397,
R418), and the host's earlier writes are complete where it waits for them. -/
def State.hostReaches (s : State) (die a : Nat) : Bool :=
  s.host.fwok && s.exposed die a && s.hostOrdered && !s.hostCut die a &&
    (die == 0 || (s.host.linkUp && s.host.clockOk))

/-- What an access that comes from outside to a line of a die leaves: it waits in the mesh where a migration holds
the page, behind those that came before it (R190), it is served by `f`, or it waits at its source. -/
def State.outside (s : State) (kind : ReqKind) (who die a : Nat) (f : State → State) : Option State :=
  if (s.die die).deviceHeld (lineOf a) then
    some (s.modDie die fun k => { k with mesh := k.mesh ++ [deviceReq kind 0xFFFF who die a k.time] })
  else if s.homeBusy who die (lineOf a) then none
  else some (f s)

/-- HOST_READ: a host read of a line applies its bins (R167). -/
def State.hostRead (s : State) (die a : Nat) : Option State :=
  if s.nDies ≤ die || s.gddrSize ≤ a || !s.hostReaches die a then none
  else s.outside .read (edgeRequester 0) die a fun s => s.homeRead (edgeRequester 0) die (lineOf a) false

/-- HOST_READ. -/
def execHostRead (s : State) : Host.Outcome State Fault Refusal :=
  event "HOST_READ" (s.hostRead s.arg.die s.arg.n)

/-- Whether bytes lie in one line of a die's GDDR7. -/
def State.inLine (s : State) (die a : Nat) (bytes : List Byte) : Bool :=
  decide (die < s.nDies) && decide (a + bytes.length ≤ s.gddrSize) &&
    decide (a % 128 + bytes.length ≤ 128)

/-- HOST_WRITE: a host write of bytes of one line, whose completion the device returns when TIME has reached
its GWCT plus 2 (R167), or of the host's own memory where the subject says so. -/
def State.hostWrite (s : State) (own : Bool) (die a : Nat) (bytes : List Byte) : Option State :=
  if !s.hostOrdered then none
  else if own then some { s with host := { s.host with mem := s.host.mem.setBytes a bytes } }
  else if !s.inLine die a bytes || !s.hostReaches die a then none
  else s.outside (.host bytes) (edgeRequester 0) die a fun s => s.hostStore die a bytes

/-- HOST_WRITE. -/
def execHostWrite (s : State) : Host.Outcome State Fault Refusal :=
  event "HOST_WRITE" (s.hostWrite s.arg.ok s.arg.die s.arg.n s.arg.bytes)

/-- The report of a fabric write's window: sender's N and LOG2W, from a port (R398, Table 21.1). -/
def State.reportWindow (s : State) (die port a n log2w : Nat) : State :=
  let k := s.die die
  let own := wordBits k.regs.vwin 0 5
  let diff : Int := (k.time / 2 ^ own : Nat) - (n : Int)
  let r : Report := { kind := 6, code := 1, die := die, unit := port, addr := BitVec.ofNat 64 a }
  let sat : Int := min 32767 (max (-32767) diff)
  let info := BitVec.ofNat 64 (n % 2 ^ 32 + 2 ^ 32 * wrapInt 16 sat)
  if log2w ≠ own then
    s.report { r with code := 2, info := BitVec.ofNat 64 (log2w % 32 + 2 ^ 8 * own) }
  else if 2 ≤ diff then s.reportLimited { r with info := info } true
  else if diff < -1 then s.reportLimited { r with code := 3, info := info } true
  else s

/-- FABRIC_WRITE_ARRIVAL: a port performs a write whatever its window, and reports a slip (R398). The write
enters the mesh at the port's router (R15), and there is none without firmware (R338). -/
def State.fabricWrite (s : State) (e : EventArg) : Option State :=
  let who := edgeRequester e.die
  if !s.host.fwok || !s.inLine e.die e.n e.bytes || s.portCut e.die e.core e.die e.n then none
  else (s.outside (.store e.bytes) who e.die e.n fun s => (s.homeStore who e.die e.n e.bytes).1).map fun s =>
    s.reportWindow e.die e.core e.n e.m e.k

/-- FABRIC_WRITE_ARRIVAL. -/
def execFabricWriteArrival (s : State) : Host.Outcome State Fault Refusal :=
  event "FABRIC_WRITE_ARRIVAL" (s.fabricWrite s.arg)

/-! ### Write-back (R250) -/

/-- SHARED_CACHE_WRITE_BACK: a dirty line reaches GDDR7. -/
def State.writeBack (s : State) (die line : Nat) : Option State :=
  if (s.die die).dirty.contains line then
    some (s.modDie die fun k => k.writeBack line)
  else none

/-- SHARED_CACHE_WRITE_BACK. -/
def execSharedCacheWriteBack (s : State) : Host.Outcome State Fault Refusal :=
  event "SHARED_CACHE_WRITE_BACK" (s.writeBack s.arg.die s.arg.n)

/-! ### Cluster peers (R209, R403 to R405) -/

/-- What a target core answers to a peer access, and the state that the access leaves: code 10 without an
allocation that holds the offset, code 32 for an uncorrectable word (R403). -/
def State.peerServe (s : State) (core : Nat) (r : PeerReq) : State × PeerReply :=
  let fail := fun (code : Nat) =>
    (s.reportPeer r.ctx core code r.offset r.write.isSome,
     ({ uid := r.uid, from_ := core, since := r.since, word := 0#32, failed := true,
        syndrome := peerSyndrome core code r.write.isSome } : PeerReply))
  match s.peerTeam? r.wave r.ctx r.task r.cluster r.rank with
  | none => fail 10
  | some t =>
    if t.coreId ≠ core ∨ 4096 * t.ident.scrG ≤ r.offset then fail 10
    else if (s.core core).badAt (t.ident.scrBase + r.offset) 4 then fail 32
    else
      let a := t.ident.scrBase + r.offset
      let w := BitVec.ofNat 32 ((s.core core).scratch.read a 4)
      let s := match r.write with
        | some v => s.modCore core fun k => k.putScratch a (leBytes 4 v.toNat)
        | none => s
      (s, { uid := r.uid, from_ := core, since := r.since, word := w, failed := false, syndrome := 0#64 })

/-- INBOUND_PEER_ACCESS: the target core serves request `n`; the requests of one core arrive in their order
(R325). -/
def State.inboundPeer (s : State) (core n : Nat) : Option State :=
  let q := (s.core core).inbound
  match q.drop n with
  | [] => none
  | r :: rest =>
    if (q.take n).any (fun x => x.back == r.back) then none
    else
      let s := s.modCore core fun k => { k with inbound := q.take n ++ rest }
      let (s, reply) := s.peerServe core r
      some (s.modCore r.back fun k => { k with peerReplies := k.peerReplies ++ [reply] })

/-- INBOUND_PEER_ACCESS. -/
def execInboundPeerAccess (s : State) : Host.Outcome State Fault Refusal :=
  event "INBOUND_PEER_ACCESS" (s.inboundPeer s.arg.core s.arg.n)

/-- Completes a peer access, or takes REMOTE_ACCESS (R404). -/
def State.peerDone (s : State) (t : Team) (dest : Option Nat) (offset : Nat) (r : PeerReply) :
    State :=
  let t := { t with pend := none, readySince := (s.core t.coreId).cycles }
  if r.failed then
    s.takeTrap t { code := 18, taddr := BitVec.ofNat 64 offset, tinfo := r.syndrome }
  else match dest with
    | some d => s.putTeam (t.setS d (r.word.setWidth 64)).advance
    | none => s.putTeam t.advance

/-- PEER_REPLY: reply `n` reaches its team; a late one is discarded (R405). The replies of one core arrive in
their order (R325). -/
def State.peerReply (s : State) (core n : Nat) : Option State :=
  let q := (s.core core).peerReplies
  match q.drop n with
  | [] => none
  | r :: rest =>
    if (q.take n).any (fun x => x.from_ == r.from_) then none
    else
      let s := s.modCore core fun k => { k with peerReplies := q.take n ++ rest }
      match s.team? r.uid with
      | none => some s
      | some t => match t.pend with
        | some (.peer dest _ offset _ since) =>
          if since = r.since then some (s.peerDone t dest offset r) else some s
        | _ => some s

/-- PEER_REPLY. -/
def execPeerReply (s : State) : Host.Outcome State Fault Refusal :=
  event "PEER_REPLY" (s.peerReply s.arg.core s.arg.n)

/-- PEER_TIMEOUT: the team takes REMOTE_TIMEOUT and its core reports it (R405). -/
def State.peerTimeout (s : State) (uid : Nat) : Option State :=
  match s.team? uid with
  | none => none
  | some t => match t.pend with
    | some (.peer _ _ offset core since) =>
      if s.time t.ident.die < since + s.host.peerTimeout then none
      else
        let info := BitVec.ofNat 64 (core % 64 + 2 ^ 6 * (core / 64))
        let s := s.takeTrap { t with pend := none, readySince := (s.core t.coreId).cycles }
          { code := 19, taddr := BitVec.ofNat 64 offset, tinfo := info }
        some (s.report { kind := 4, code := 19, ctx := t.ctx, die := t.ident.die,
                         unit := t.ident.core, addr := BitVec.ofNat 64 offset, info := info })
    | _ => none

/-- PEER_TIMEOUT. -/
def execPeerTimeout (s : State) : Host.Outcome State Fault Refusal :=
  event "PEER_TIMEOUT" (s.peerTimeout s.arg.n)

end Sys2Proof.Machine
end

