-- ==== Sys2Proof/Machine/Tasks.lean ====
section
/-! DEFINITION. Task records, their dependence counters, the hardware queues and the ready lists
(spec/02 R32 to R39, spec/13 R312 to R314, R322, spec/22 R406, R407), and the steps DEPCNT_UPDATE,
TASK_READY, QUEUE_CONSUME, QUEUE_IDLE_RECHECK, QUEUE_DOORBELL, SUCCESSOR_DECREMENT and
TEAM_EXITED. -/

namespace Sys2Proof.Machine

/-! ### Task records (Table 2.3) -/

/-- The fields of a task record. -/
structure TaskRec where
  depcnt : Nat
  state : Nat
  nosteal : Bool
  prio : Nat
  queue : Nat
  nteams : Nat
  entry : Word
  params : Word
  w20 : Nat
  w24 : Nat
  succ : Word
  next : Nat
  live : Nat
  link : Word
  /-- the reserved bits of offsets 0x04, 0x08 and 0x0C -/
  spare : Nat
  deriving DecidableEq, Repr

/-- RUNG -/
def TaskRec.rung (r : TaskRec) : Nat := bitsOf r.w20 24 7
/-- VREGS -/
def TaskRec.vregs (r : TaskRec) : Nat := bitsOf r.w20 16 7
/-- LANES -/
def TaskRec.lanes (r : TaskRec) : Nat := bitsOf r.w20 0 11
/-- CLH -/
def TaskRec.clh (r : TaskRec) : Nat := bitsOf r.w24 24 4
/-- CLW -/
def TaskRec.clw (r : TaskRec) : Nat := bitsOf r.w24 20 4
/-- ACC -/
def TaskRec.acc (r : TaskRec) : Nat := bitsOf r.w24 16 4
/-- SCRG -/
def TaskRec.scrg (r : TaskRec) : Nat := bitsOf r.w24 0 9

/-- The run budget in granules (R34). -/
def budgetOf (rung vregs lanes : Nat) : Nat :=
  if rung = 0 then min 64 (ceilDiv (vregs * lanes) 256) else rung

/-- The record's run budget. -/
def TaskRec.budget (r : TaskRec) : Nat := budgetOf r.rung r.vregs r.lanes

/-- The record at a location, as its home holds it. -/
def State.record (s : State) (p : Phys) : TaskRec :=
  let get := fun off n => s.peek { p with addr := p.addr + off } n
  let w4 := get 0x04 4
  let w8 := get 0x08 4
  let wC := get 0x0C 4
  { depcnt := get 0 4, state := bitsOf w4 4 2, nosteal := bitOf w4 3, prio := bitsOf w4 0 2
    queue := bitsOf w8 0 15, nteams := bitsOf wC 0 24, entry := BitVec.ofNat 64 (get 0x10 8)
    params := BitVec.ofNat 64 (get 0x18 8), w20 := get 0x20 4, w24 := get 0x24 4
    succ := BitVec.ofNat 64 (get 0x28 8), next := get 0x30 4, live := get 0x34 4
    link := BitVec.ofNat 64 (get 0x38 8)
    spare := bitsOf w4 6 26 + bitsOf w4 2 1 + bitsOf w8 15 17 + bitsOf wC 24 8 }

/-- Whether the words at 0x20 and 0x24 give a shape that R33 allows. -/
def shapeValid (w20 w24 : Nat) : Bool :=
  let rung := bitsOf w20 24 7
  let vregs := bitsOf w20 16 7
  let lanes := bitsOf w20 0 11
  let clh := bitsOf w24 24 4
  let clw := bitsOf w24 20 4
  !bitOf w20 31 && !bitOf w20 23 && bitsOf w20 11 5 == 0 && bitsOf w24 28 4 == 0 &&
    bitsOf w24 9 7 == 0 && decide (rung ≤ 64) && decide (1 ≤ vregs) && decide (vregs ≤ 96) &&
    decide (32 ≤ lanes) && decide (lanes ≤ 1024) && lanes % 32 == 0 && decide (1 ≤ clh) &&
    decide (clh ≤ 8) && decide (1 ≤ clw) && decide (clw ≤ 8) && decide (bitsOf w24 16 4 ≤ 8) &&
    decide (bitsOf w24 0 9 ≤ 256) && decide (clw * clh ≤ 12) && decide (clw * clh * lanes ≤ 8192)

/-- Whether a record's shape is valid (R33). -/
def TaskRec.valid (r : TaskRec) : Bool :=
  shapeValid r.w20 r.w24 && r.spare == 0 && decide (1 ≤ r.nteams) && canonical r.entry &&
    wordBits r.entry 0 2 == 0 && wordBits r.succ 0 3 == 0 && r.nteams % (r.clw * r.clh) == 0

/-- Writes `n` bytes of a record at its home (R36). -/
def State.putRecord (s : State) (p : Phys) (off n v : Nat) : State :=
  s.lineWrite p.unit (p.addr + off) (leBytes n v)

/-- Writes STATE of a record. -/
def State.putState (s : State) (p : Phys) (v : Nat) : State :=
  s.putRecord p 0x04 4 (setBitsOf (s.peek { p with addr := p.addr + 4 } 4) 4 2 v)

/-- Writes STATE, NEXT and LIVE of a record. -/
def State.putProgress (s : State) (p : Phys) (state next live : Nat) : State :=
  ((s.putState p state).putRecord p 0x30 4 next).putRecord p 0x34 4 live

/-- Writes LINK of a record that is queued: a value of the device's own (R32). -/
def State.putLink (s : State) (p : Phys) : State :=
  let (n, s) := s.takeFree
  s.putRecord p 0x38 8 (Config.queueLink n).toNat

/-- The number under which a die's engines make requests at a home. -/
def engineRequester (die : Nat) : Nat := 1000 + die

/-- A record's home serves a die's engines: its bins are applied, other cores' leases released (R179,
R231). -/
def State.reachRecord (s : State) (die : Nat) (p : Phys) : State :=
  s.reachHome (engineRequester die) p.unit (lineOf p.addr)

/-- Whether a record's home cannot serve it now, a write of the device to its line still waiting included (R179,
R190, R397). -/
def State.recordBusy (s : State) (who : Nat) (p : Phys) : Bool :=
  s.homeBusy who p.unit (lineOf p.addr) || (s.die p.unit).deviceHeld (lineOf p.addr)

/-- A record of kind 7 whose unit is a record's home slice (Table 22.1). -/
def State.reportRecord (s : State) (p : Phys) (ctx code info : Nat) : State :=
  s.report { kind := 7, code := code, ctx := ctx, die := p.unit, sl := true,
             unit := homeSlice p.addr, addr := BitVec.ofNat 64 p.addr, info := BitVec.ofNat 64 info }

/-- A record of kind 7 whose unit is a die's distributor. -/
def State.reportDist (s : State) (die ctx code : Nat) (addr : Word) (info : Nat) : State :=
  s.report { kind := 7, code := code, ctx := ctx, die := die, addr := addr,
             info := BitVec.ofNat 64 info }

/-! ### Queue descriptors (Table 13.2) -/

/-- A queue descriptor. -/
structure QDesc where
  ring : Nat
  prod : Nat
  cons : Nat
  ctx : Nat
  homecore : Nat
  enable : Bool
  die : Nat
  isLocal : Bool
  idle : Bool
  log2n : Nat
  cmask : Nat
  reserved : Nat
  deriving DecidableEq, Repr

/-- Where a queue's descriptor lies in die 0's GDDR7 (R311, R312). -/
def State.queueAt (s : State) (q : Nat) : Nat := wordBits s.host.qtbase 21 31 * 2 ^ 21 + 64 * q

/-- The descriptor of a queue. -/
def State.queue (s : State) (q : Nat) : QDesc :=
  let a := s.queueAt q
  let get := fun off n => s.die0.mem.read (a + off) n
  let w0 := get 0 8
  let w10 := get 0x10 4
  { ring := bitsOf w0 6 46 * 64, prod := get 0x08 4, cons := get 0x0C 4, ctx := bitsOf w10 16 16
    homecore := bitsOf w10 8 6, enable := bitOf w10 7, die := bitsOf w10 6 1
    isLocal := bitOf w10 5, idle := bitOf w10 4, log2n := bitsOf w10 0 4, cmask := get 0x18 8
    reserved := bitsOf w0 52 12 + bitsOf w0 0 6 + bitsOf w10 14 2 + get 0x14 4 +
      get 0x20 8 + get 0x28 8 + get 0x30 8 + get 0x38 8 }

/-- Whether a descriptor is one of Table 22.1's bad ones. -/
def QDesc.bad (q : QDesc) : Bool :=
  q.enable && (q.log2n == 0 || q.cmask == 0 || q.reserved != 0)

/-- Whether the distributor reads the queue as enabled (R407). -/
def QDesc.serves (q : QDesc) : Bool := q.enable && !q.bad

/-- Writes a word of a queue's descriptor at its home. -/
def State.putQueue (s : State) (q off v : Nat) : State :=
  s.lineWrite 0 (s.queueAt q + off) (leBytes 4 v)

/-- Writes IDLE of a queue's descriptor (R313). -/
def State.putIdle (s : State) (q : Nat) (v : Bool) : State :=
  s.putQueue q 0x10 (setBitsOf (s.die0.mem.read (s.queueAt q + 0x10) 4) 4 1 (if v then 1 else 0))

/-- The distributor of a die reads a queue's descriptor at its home (R231). -/
def State.reachQueue (s : State) (die q : Nat) : State :=
  s.reachHome (engineRequester die) 0 (lineOf (s.queueAt q))

/-- Whether a queue's descriptor cannot be served to a die now (R179, R190, R397). -/
def State.queueBusy (s : State) (die q : Nat) : Bool :=
  s.homeBusy (engineRequester die) 0 (lineOf (s.queueAt q))

/-! ### DEPCNT_UPDATE (R36, R213, R384) -/

/-- Whether a record has become ready and is not yet on its list (R36). -/
def State.becomesReady (s : State) (p : Phys) : Bool := s.readyQ.any fun r => r.loc == p

/-- What the bank ALU does to an operation's record. -/
def State.depApply (s : State) (op : DepOp) : State :=
  let s := (s.asClass op.ctx).reachRecord op.loc.unit op.loc
  let r := s.record op.loc
  let s := if op.checked then s.reachQueue op.loc.unit r.queue else s
  let who := op.core % 64 + 2 ^ 6 * (op.core / 64)
  let ready := fun (s : State) =>
    { s with readyQ := s.readyQ ++
        [{ loc := op.loc, va := op.va, ctx := op.ctx, core := op.core, host := op.host }] }
  if s.poisoned op.loc then
    s.machineCheck op.ctx (s.poisonStruct op.loc) 0 op.loc.unit (homeSlice op.loc.addr) true op.loc.addr
  else if op.checked && (s.queue r.queue).ctx != op.ctx then s.reportRecord op.loc op.ctx 4 r.queue
  else match op.kind with
    | .dec =>
      if r.depcnt = 0 then s.reportRecord op.loc op.ctx 1 who
      else
        let s := s.putRecord op.loc 0 4 (r.depcnt - 1)
        if r.depcnt = 1 && r.state = 0 && !s.becomesReady op.loc then ready s else s
    | .inc =>
      if r.depcnt = 2 ^ 32 - 1 then s.reportRecord op.loc op.ctx 2 who
      else s.putRecord op.loc 0 4 (r.depcnt + 1)
    | .spawn =>
      if r.state ≠ 0 then s.reportRecord op.loc op.ctx 3 r.state
      else if r.depcnt = 0 then ready s else s

/-- Whether an operation must wait: its home or its queue's, an earlier one of its core to the record, or the
record's own way to its list. -/
def State.depWaits (s : State) (op : DepOp) (earlier : List DepOp) : Bool :=
  s.recordBusy op.core op.loc || s.recordBusy (engineRequester op.loc.unit) op.loc ||
    (op.checked && s.queueBusy op.loc.unit (s.record op.loc).queue) ||
    earlier.any (fun q => q.core == op.core && q.loc == op.loc) ||
    (op.kind == .spawn && s.becomesReady op.loc)

/-- DEPCNT_UPDATE: operation `n` of those on their way. -/
def State.depUpdate (s : State) (n : Nat) : Option State :=
  match s.depQ.drop n with
  | [] => none
  | op :: rest =>
    if s.depWaits op (s.depQ.take n) then none
    else some ({ s with depQ := s.depQ.take n ++ rest }.depApply op)

/-- DEPCNT_UPDATE. -/
def execDepcntUpdate (s : State) : Host.Outcome State Fault Refusal :=
  event "DEPCNT_UPDATE" (s.depUpdate s.arg.n)

/-! ### TASK_READY (R36, R322, R407) -/

/-- The cores of a rectangle by rank, from its top-left core (R12, R41). -/
def rectCores (c w h : Nat) : List Nat := (List.range (w * h)).map (fun r => c + 8 * (r / w) + r % w)

/-- The top-left cores at which a rectangle lies within columns 2 to 9. -/
def rectCorners (w h : Nat) : List Nat :=
  (List.range 64).filter (fun c => decide (c % 8 + w ≤ 8) && decide (c / 8 + h ≤ 8))

/-- Whether some rectangle lies wholly in a mask of cores. -/
def rectInMask (w h mask : Nat) : Bool :=
  (rectCorners w h).any (fun c => (rectCores c w h).all (bitOf mask))

/-- The local list of a core of a die. -/
def Die.localList (k : Die) (core : Nat) : List TaskRef :=
  (k.locals.filter (fun p => p.1 == core)).map Prod.snd

/-- Places a ready task on the local list of its core or on its queue's ready list (R322). -/
def State.enlist (s : State) (r : ReadyOp) (t : TaskRef) (q : QDesc) : State :=
  let core := if r.host then 64 * q.die + q.homecore else r.core
  let here := q.serves && q.isLocal && core / 64 == q.die && bitOf q.cmask (core % 64) &&
    decide (((s.die q.die).localList (core % 64)).length < 16)
  s.modDie q.die fun k =>
    let k := { k with placeDue := true }
    if here then { k with locals := k.locals ++ [(core % 64, t)] }
    else { k with ready := k.ready ++ [t] }

/-- Whether a record is rejected when it would become ready, and the report of it (R407). -/
def State.rejects (_s : State) (p : Phys) (r : TaskRec) (q : QDesc) : Option (State → State) :=
  if !r.valid then
    some fun s => s.reportDist q.die q.ctx 5 (BitVec.ofNat 64 p.addr) (r.w20 + 2 ^ 32 * r.w24)
  else if !rectInMask r.clw r.clh q.cmask then
    some fun s => s.reportDist q.die q.ctx 6 (BitVec.ofNat 64 p.addr) q.cmask
  else none

/-- TASK_READY: task `n` of those that have become ready is put on its list, or rejected; one whose record no
longer reads as pending has been queued already (R36). -/
def State.taskReady (s : State) (n : Nat) : Option State :=
  match s.readyQ.drop n with
  | [] => none
  | r :: rest =>
    if (s.readyQ.take n).any (fun x => x.core == r.core) ||
        s.recordBusy (engineRequester r.loc.unit) r.loc ||
        s.queueBusy r.loc.unit (s.record r.loc).queue then none
    else
      let s := ({ s with readyQ := s.readyQ.take n ++ rest }.asClass r.ctx).reachRecord r.loc.unit r.loc
      let t := s.record r.loc
      let s := s.reachQueue r.loc.unit t.queue
      let q := s.queue t.queue
      if t.state ≠ 0 then some s
      else match s.rejects r.loc t q with
      | some rep => some (rep (s.putProgress r.loc 3 0 0))
      | none =>
        some (((s.putProgress r.loc 1 0 0).putLink r.loc).enlist r
          { loc := r.loc, va := r.va, ctx := q.ctx, queue := t.queue, prio := t.prio } q)

/-- TASK_READY. -/
def execTaskReady (s : State) : Host.Outcome State Fault Refusal :=
  event "TASK_READY" (s.taskReady s.arg.n)

/-! ### QUEUE_CONSUME, QUEUE_IDLE_RECHECK and QUEUE_DOORBELL (R313) -/

/-- The next placement-order entry of the given types that a context must replay on a die (R424). -/
def State.nextLogged (s : State) (ctx die : Nat) (types : List Nat) : Option LogEntry :=
  ((s.replayLog ctx die).filter (fun e => types.contains e.type)).drop
    (s.replayDone ctx (die + 2 * types.headD 0)) |>.head?

/-- Counts a replayed entry of the given types. -/
def State.passLogged (s : State) (ctx die : Nat) (types : List Nat) : State :=
  let key := die + 2 * types.headD 0
  s.modCtx ctx fun c => { c with
    replayPos := insertAt key (lookup 0 key c.replayPos + 1) c.replayPos
    replaySince := insertAt key (s.time die) c.replaySince }

/-- Whether replay lets a queue's next entry be consumed. -/
def State.mayConsume (s : State) (q : Nat) (d : QDesc) (entry : Word) : Bool :=
  !s.replaying d.ctx || (match s.nextLogged d.ctx d.die [2] with
    | some e => e.payload == [BitVec.ofNat 64 (q + 2 ^ 32 * d.cons), entry]
    | none => false)

/-- Submits the record that a ring entry names, or reports the entry (R36, R407); not possible while a home that
this needs cannot serve it (R190, R397). -/
def State.submitEntry (s : State) (d : QDesc) (entryAt : Nat) (entry : Word) : Option State :=
  let bad := fun (s : State) => s.reportDist d.die d.ctx 7 (BitVec.ofNat 64 entryAt) entry.toNat
  if wordBits entry 0 6 ≠ 0 then some (bad s)
  else match s.translateResident (deviceWalker d.die d.ctx) entry .read [0, 1] with
    | .error (.check st code a) => some (s.machineCheck d.ctx st code d.die 0 false a)
    | .error (.trap _) => some (bad s)
    | .error _ => none
    | .ok (s, m) =>
      if s.recordBusy (engineRequester d.die) m.phys then none
      else
        let s := s.reachRecord d.die m.phys
        let r := s.record m.phys
        if s.poisoned m.phys then
          some (s.machineCheck d.ctx (s.poisonStruct m.phys) 0 d.die 0 false m.phys.addr)
        else if r.state = 0 && r.depcnt = 0 && !s.becomesReady m.phys then
          some { s with readyQ := s.readyQ ++ [{ loc := m.phys, va := entry, ctx := d.ctx,
                                                 core := 64 * d.die + d.homecore, host := true }] }
        else some s

/-- Whether a replayed log still holds an entry of a queue's consumption (R424). -/
def State.logsConsume (s : State) (q : Nat) (d : QDesc) (entry : Word) : Bool :=
  (((s.replayLog d.ctx d.die).filter (fun e => e.type == 2)).drop (s.replayDone d.ctx (d.die + 4))).any
    fun e => e.payload == [BitVec.ofNat 64 (q + 2 ^ 32 * d.cons), entry]

/-- Consumes the entry at CONS of a queue. In replay it waits for its turn, and an entry that the log does
not hold is a divergence (R424, R425). -/
def State.consumeEntry (s : State) (q : Nat) (d : QDesc) : Option State :=
  let entryAt := d.ring + 8 * (d.cons % 2 ^ d.log2n)
  if s.homeBusy (engineRequester d.die) 0 (lineOf entryAt) then none
  else
  let s := s.reachHome (engineRequester d.die) 0 (lineOf entryAt)
  let entry := BitVec.ofNat 64 (s.die0.mem.read entryAt 8)
  if !s.mayConsume q d entry then
    if s.logsConsume q d entry then none else some (s.diverge d.ctx d.die 0#64 0)
  else
    let s := s.logEvent d.ctx d.die 2 [BitVec.ofNat 64 (q + 2 ^ 32 * d.cons), entry]
    let s := if s.replaying d.ctx then s.passLogged d.ctx d.die [2] else s
    (s.submitEntry d entryAt entry).map fun s => s.putQueue q 0x0C ((d.cons + 1) % 2 ^ 32)

/-- QUEUE_CONSUME: the distributor takes the next entry of a queue; with none left it sets IDLE and
will look again; a bad descriptor is reported once. -/
def State.queueConsume (s : State) (die q : Nat) : Option State :=
  let before := s
  let s := s.reachQueue die q
  let d := s.queue q
  let k := s.die die
  if 32768 ≤ q || s.nDies ≤ die || d.die ≠ die || !d.enable ||
      before.queueBusy die q then none
  else if d.bad then
    if k.badQueues.contains q then none
    else some ((s.modDie die fun k => { k with badQueues := q :: k.badQueues }).reportDist die d.ctx 10
      (BitVec.ofNat 64 (s.queueAt q)) q)
  else if d.idle || !s.ctxRuns d.ctx then none
  else
    let s := s.modDie die fun k => { k with badQueues := k.badQueues.filter (fun x => x != q) }
    if d.cons ≠ d.prod then s.consumeEntry q d
    else
      let s := s.putIdle q true
      let g := s.gwctOf 0 (lineOf (s.queueAt q))
      some (s.modDie die fun k => { k with queueStop := insertAt q g k.queueStop })

/-- QUEUE_CONSUME. -/
def execQueueConsume (s : State) : Host.Outcome State Fault Refusal :=
  event "QUEUE_CONSUME" (s.queueConsume s.arg.die s.arg.n)

/-- QUEUE_IDLE_RECHECK: past the IDLE store's GWCT plus 2 the distributor reads PROD again. -/
def State.idleRecheck (s : State) (die q : Nat) : Option State :=
  match (s.die die).queueStop.find? (fun p => p.1 == q) with
  | none => none
  | some (_, g) =>
    if s.time die < g + 2 || s.queueBusy die q then none
    else
      let s := (s.modDie die fun k => { k with queueStop := removeAt q k.queueStop }).reachQueue die q
      let d := s.queue q
      some (if d.enable && d.idle && d.prod != d.cons then s.putIdle q false else s)

/-- QUEUE_IDLE_RECHECK. -/
def execQueueIdleRecheck (s : State) : Host.Outcome State Fault Refusal :=
  event "QUEUE_IDLE_RECHECK" (s.idleRecheck s.arg.die s.arg.n)

/-- QUEUE_DOORBELL: a QDB write with queue number `w`[14:0] resumes an enabled idle queue; any other
is discarded (R313). It may follow the completion of the host's earlier writes (R167), and there is none
without firmware (R338). -/
def State.queueDoorbell (s : State) (w : Word) : Option State :=
  let q := wordBits w 0 15
  if s.queueBusy 0 q || !s.hostOrdered || !s.host.fwok then none
  else
    let s := s.reachQueue 0 q
    let d := s.queue q
    some (if d.serves && d.idle then
        (s.putIdle q false).modDie d.die fun k => { k with queueStop := removeAt q k.queueStop }
      else s)

/-- QUEUE_DOORBELL. -/
def execQueueDoorbell (s : State) : Host.Outcome State Fault Refusal :=
  event "QUEUE_DOORBELL" (s.queueDoorbell s.arg.w)

/-! ### Completion of a task (R35, R37, R39) -/

/-- The end of a task: STATE := 3, its hold on LRC ends, and its successor decrements are owed. -/
def State.completeTask (s : State) (p : Phys) (core : Nat) : State :=
  let r := s.record p
  match s.tasks.find? (fun k => k.loc == p) with
  | none => s
  | some k =>
    let s := s.putState p 3
    let g := max k.gwct (s.gwctOf p.unit (lineOf p.addr))
    let s := if k.hold then s.dropLrc (core / 64) k.ctx 1 else s
    { s with
      tasks := s.tasks.filter (fun x => x.loc != p)
      succQ := s.succQ ++ [{ loc := p, ctx := k.ctx, die := core / 64, core := core,
                             succ := r.succ, gwct := g, held := k.hold }] }

/-- Completes a task whose teams have all started and exited (R37). -/
def State.checkTask (s : State) (p : Phys) (core : Nat) : State :=
  let r := s.record p
  if r.state = 2 && r.next = r.nteams && r.live = 0 then s.completeTask p core else s

/-- A list entry's translation as a load of the task's context: the record, or why there is none (R35). -/
def State.succTarget (s : State) (w : Walker) (entry : Word) : Except Stop (State × Phys) := do
  if wordBits entry 0 6 ≠ 0 then raise (trapMisaligned entry 0)
  let (s, m) ← s.translateResident w entry .read [0, 1]
  pure (s, m.phys)

/-- Whether a walk or an access of the device waits for a home, and is no failure (R190, R397). -/
def Stop.waits : Stop → Bool
  | .hold | .holdAt _ => true
  | _ => false

/-- A dropped decrement's record (Table 22.1, code 11). -/
def State.reportSucc (s : State) (x : SuccOp) (va : Word) (index : Nat) : State :=
  s.reportDist x.die x.ctx 11 va (2 ^ 32 * index)

/-- The decrement of a record that a list names. -/
def SuccOp.decrement (x : SuccOp) (va : Word) (p : Phys) : DepOp :=
  { kind := .dec, loc := p, va := va, ctx := x.ctx, core := x.core, checked := false, host := false }

/-- The decrement of entry `i` of a list, or its record; not possible while a home cannot serve it. -/
def State.succOne (s : State) (x : SuccOp) (w : Walker) (i : Nat) (e : Word) : Option State :=
  match s.succTarget w e with
  | .error stop => if stop.waits then none else some (s.reportSucc x e i)
  | .ok (s, p) =>
    if s.depWaits (x.decrement e p) [] then none else some (s.depApply (x.decrement e p))

/-- The decrements of a list, in list order; not possible while a record's home cannot serve one. -/
def State.succEach (s : State) (x : SuccOp) (w : Walker) : Nat → List Word → Option State
  | _, [] => some s
  | i, e :: rest => match s.succOne x w i e with
    | none => none
    | some s' => s'.succEach x w (i + 1) rest

/-- Reads the words of a successor list; a failure gives the address that failed and its index, or nothing
where the list's home cannot serve it now. -/
def State.succWords (s : State) (w : Walker) :
    Nat → Nat → Word → Except (Option (Word × Nat)) (State × List Word)
  | 0, _, _ => .ok (s, [])
  | n + 1, i, va =>
    match s.translateResident w va .read [0, 1] with
    | .error e => .error (if e.waits then none else some (va, i))
    | .ok (s, m) =>
      if s.recordBusy w.requester m.phys then .error none
      else if s.poisoned m.phys then .error (some (va, i))
      else
        let s := s.reachHome w.requester m.phys.unit (lineOf m.phys.addr)
        match s.succWords w n (i + 1) (va + 8#64) with
        | .error e => .error e
        | .ok (s, l) => .ok (s, BitVec.ofNat 64 (s.peek m.phys 8) :: l)

/-- Performs the successor decrements of a complete task, or drops them with their record (R35). -/
def State.succRun (s : State) (x : SuccOp) : Option State :=
  let w := deviceWalker x.die x.ctx
  let s := s.asClass x.ctx
  if x.succ = 0#64 then some s
  else match s.succWords w 1 0 x.succ with
    | .error none => none
    | .error (some (va, _)) => some (s.reportSucc x va 0xFFFF)
    | .ok (s, h) =>
      let header := h.headD 0#64
      if wordBits header 16 48 ≠ 0 then some (s.reportSucc x x.succ 0xFFFF)
      else match s.succWords w (wordBits header 0 16) 0 (x.succ + 8#64) with
        | .error none => none
        | .error (some (va, i)) => some (s.reportSucc x va i)
        | .ok (s, l) => s.succEach x w 0 l

/-- SUCCESSOR_DECREMENT: owed list `n`, once the conditions of R39 hold: TIME stands the skew past the greatest
GWCT of the task's stores, and every one of those has returned its own. -/
def State.successor (s : State) (n : Nat) : Option State :=
  match s.succQ.drop n with
  | [] => none
  | x :: rest =>
    let skew := if s.nDies = 1 then 2 else 8
    if s.time x.die < x.gwct + skew || !s.linkWorks ||
        s.leftovers.any (fun u => !u.wave && u.task == x.loc) then none
    else { s with succQ := s.succQ.take n ++ rest }.succRun x

/-- SUCCESSOR_DECREMENT. -/
def execSuccessorDecrement (s : State) : Host.Outcome State Fault Refusal :=
  event "SUCCESSOR_DECREMENT" (s.successor s.arg.n)

/-! ### TEAM_EXITED (R38) -/

/-- Whether matrix or transform operations of a team remain. -/
def State.pipesBusy (s : State) (t : Team) : Bool :=
  !(s.teamMats t).isEmpty || !(s.teamXfs t).isEmpty

/-- Whether copy operations of a team remain. -/
def State.copiesBusy (s : State) (t : Team) : Bool :=
  (s.core t.coreId).copies.any (fun c => c.uid == t.uid)

/-- Whether copy operations or update pairs of a team remain (R38). -/
def State.tailBusy (s : State) (t : Team) : Bool := s.copiesBusy t || !(s.pairsOf t).isEmpty

/-- A team's slot, run granules, tiles and table bank return to its core (R38, R258). -/
def State.returnSlot (s : State) (t : Team) : State :=
  let s := s.putTeam { t with place := .left, vregs := [], tiles := [], binding := none }
  let s := s.fireWaits fun x k => match k with
    | .bank _ => x.coreId == t.coreId
    | _ => false
  s.modDie t.ident.die fun k => { k with placeDue := true }

/-- A team's scratchpad granules return to its core (R38): it holds no allocation any more. -/
def State.returnScratch (s : State) (t : Team) : State :=
  (s.modTeam t.uid fun t => { t with ident := { t.ident with scrG := 0 } }).modDie t.ident.die fun k =>
    { k with placeDue := true }

/-- A team is gone, and its task counts it as exited (R37); its stores that are not yet acknowledged remain, and
the task's successors wait for them (R38, R39). -/
def State.removeTeam (s : State) (t : Team) : State :=
  let s := { s with
    teams := s.teams.filter (fun x => x.uid != t.uid)
    leftovers := if t.outstanding = 0 then s.leftovers else s.leftovers ++
      [{ uid := t.uid, ctx := t.ctx, core := t.coreId, task := t.ident.taskAt, wave := t.ident.isWave,
         count := t.outstanding }] }
  if t.ident.isWave then s
  else
    let p := t.ident.taskAt
    let s := (s.asClass t.ctx).reachRecord t.ident.die p
    (s.putRecord p 0x34 4 ((s.record p).live - 1)).checkTask p t.coreId

/-- Whether a team that has executed EXIT can return its slot, its granules of the run file and its tiles: its
matrix and transform operations have completed (R38). -/
def State.slotDue (s : State) (t : Team) : Bool := t.place == .exiting && !s.pipesBusy t

/-- Whether such a team can return its scratchpad: its copy operations have completed (R38). -/
def State.scratchDue (s : State) (t : Team) : Bool :=
  (t.place == .exiting || t.place == .left) && t.ident.scrG != 0 && !s.copiesBusy t

/-- Whether a team has exited: nothing that it issued remains (R38). -/
def State.goneDue (s : State) (t : Team) : Bool :=
  t.place == .left && !s.tailBusy t &&
    (t.ident.isWave || !s.recordBusy (engineRequester t.ident.die) t.ident.taskAt)

/-- Whether some resource of a team on a die returns now. -/
def State.returnsDue (s : State) (d : Nat) : Bool :=
  s.teams.any fun t => t.ident.die == d && s.ctxRuns t.ctx && (s.slotDue t || s.scratchDue t)

/-- TEAM_EXITED: what a team can return now it returns, and with nothing left it has exited. A team of a
halted context keeps its resources (R358). -/
def State.teamExited (s : State) (uid : Nat) : Option State :=
  match s.team? uid with
  | none => none
  | some t =>
    if !s.ctxRuns t.ctx || !(s.slotDue t || s.scratchDue t || s.goneDue t) then none
    else
      let s := if s.scratchDue t then s.returnScratch t else s
      let now := fun (s : State) => (s.team? uid).getD t
      let s := if s.slotDue (now s) then s.returnSlot (now s) else s
      some (if s.goneDue (now s) then s.removeTeam (now s) else s)

/-- TEAM_EXITED. -/
def execTeamExited (s : State) : Host.Outcome State Fault Refusal :=
  event "TEAM_EXITED" (s.teamExited s.arg.n)

end Sys2Proof.Machine
end

