-- ==== Sys2Proof/Machine/Transform.lean ====
section
/-! DEFINITION. Row 0xD at issue and the transform pipe's steps (spec/10 R252 to R261, spec/20
R380). -/

namespace Sys2Proof.Machine

/-! ### Fields of an instruction in the pipe (R252, R253) -/

/-- MODE.ETYPE at issue. -/
def XfOp.etype (o : XfOp) : Nat := bitsOf o.mode.toNat 4 5

/-- The rounding at issue, RSR as RNE (R252). -/
def XfOp.rounding (o : XfOp) : Rounding :=
  let rnd := bitsOf o.mode.toNat 9 3
  { rnd := if rnd = 5 then 0 else rnd, sat := bitOf o.mode.toNat 12, dnz := bitOf o.mode.toNat 13,
    draw := 0 }

/-- The block size of sB[1:0] (Table 10.6). -/
def blockSize (sb : Word) : Nat := 8 * 2 ^ wordBits sb 0 2

/-- ceil(L ÷ n). -/
def laneBlocks (l n : Nat) : Nat := ceilDiv l n

/-- The lengths of the registers that an instruction writes, for a source of `l` lanes (R254 to
R261). -/
def resultLengths (k : XfKind) (etype : Nat) (sb : Word) (l : Nat) : List Nat :=
  match k with
  | .xhad | .xact | .xtrn => [l]
  | .xqnt => [laneBlocks l (elemType etype).2, laneBlocks l (blockSize sb)]
  | .xtopk => [min (wordBits sb 0 11) l]
  | .xsort => [l, l]
  | .xtld | .xtbind => []

/-- Whether sB lies in the ranges of Table 10.6 for a source of `l` lanes (R252, R261). -/
def transformOperand (k : XfKind) (sb : Word) (l : Nat) : Bool :=
  match k with
  | .xhad | .xqnt => wordBits sb 3 61 == 0 && wordBits sb 0 2 != 0
  | .xtopk =>
    wordBits sb 17 47 == 0 && wordBits sb 11 5 == 0 && decide (1 ≤ wordBits sb 0 11) &&
      decide (wordBits sb 0 11 ≤ 1024)
  | .xtrn =>
    wordBits sb 11 53 == 0 && decide (1 ≤ wordBits sb 0 11) && decide (wordBits sb 0 11 ≤ 1024) &&
      l % wordBits sb 0 11 == 0
  | .xsort => wordBits sb 1 63 == 0
  | .xact | .xtld | .xtbind => true

/-! ### Results (R255 to R257, R259 to R261) -/

/-- The blocks of `n` values of a list, `k` of them. -/
def chunks (n : Nat) : Nat → List XReal → List (List XReal)
  | 0, _ => []
  | k + 1, v => v.take n :: chunks n k (v.drop n)

/-- The lanes of the buffer as F32 values. -/
def XfOp.values (o : XfOp) : List XReal :=
  o.buffer.map (fun w => Fmt.f32.decode o.rounding.dnz w.toNat)

/-- The padded blocks of the buffer (R245, R255). -/
def XfOp.blocks (o : XfOp) : List (List XReal) :=
  let bs := blockSize o.sb
  (chunks bs (laneBlocks o.buffer.length bs) o.values).map (padZeros bs)

/-- XHAD's lanes (R255). -/
def XfOp.hadamardLanes (o : XfOp) : List W32 :=
  let y := o.blocks.flatMap (hadamard (o.rounding.rnd == 2) (bitOf o.sb.toNat 2))
  (y.take o.buffer.length).map (fun x => BitVec.ofNat 32 (roundFmt .f32 o.rounding x))

/-- XQNT's packed lanes and scale codes (R256). -/
def XfOp.quantLanes (o : XfOp) : List W32 × List W32 :=
  let (ty, ns) := elemType o.etype
  let l := o.buffer.length
  let q := o.blocks.map (quantBlock ty (bitOf o.sb.toNat 2) false { o.rounding with sat := false })
  let elems := (q.flatMap Prod.snd).take l
  ((List.range (laneBlocks l ns)).map (fun j =>
      packElem ty ((List.range ns).map (fun i => elems.getD (j * ns + i) 0))),
   q.map (fun p => BitVec.ofNat 32 p.1))

/-- A field of an activation table (Table 10.8). DESIGN CHOICE (log entry 51): MODE.DNZ does not apply to it;
neither R70 nor R257 says whether a table's fields are inputs. -/
def tableField (bank : Memory) (off : Nat) : XReal := Fmt.f32.decode false (bank.read off 4)

/-- The segment of a value (R257); `free` names the free value of a segment that an infinite bound
leaves open. -/
def segmentOf (lo hi x : XReal) (free : Nat) : Nat :=
  if !lo.lt hi then 0
  else
    let x := match x with
      | .inf neg => if neg then lo else hi
      | x => x
    let q := ((XReal.ofInt 64).mul (x.add false lo.neg)).div (hi.add false lo.neg)
    match q with
    | .fin n d => (min 63 (max 0 (floorDiv n d))).toNat
    | .zero _ => 0
    | .inf neg => if neg then 0 else 63
    | .nan => Config.openSegment free % 64

/-- The activation of a value by a table, exact (R257). -/
def activate (bank : Memory) (rdn : Bool) (x : XReal) (free : Nat) : XReal :=
  if x == .nan then .nan
  else
    let lo := tableField bank 0
    let hi := tableField bank 4
    let s := segmentOf lo hi x free
    let x := match x with
      | .inf neg => if lo.lt hi then (if neg then lo else hi) else x
      | x => x
    ((tableField bank (8 + 8 * s)).mul x).add rdn (tableField bank (12 + 8 * s))

/-- XACT's lanes (R257); `free` is the number of the first of its free values. -/
def XfOp.activateLanes (o : XfOp) (bank : Memory) (free : Nat) : List W32 :=
  let (ty, ns) := elemType o.etype
  o.buffer.zipIdx.map fun p =>
    packElem ty ((List.range ns).map fun j =>
      subRound ty o.rounding (activate bank (o.rounding.rnd == 2)
        (subVal ty o.rounding.dnz (subBits ty p.1 j)) (free + 8 * p.2 + j)))

/-- A lane as XTOPK and XSORT rank it (R259). -/
def XfOp.rankValue (o : XfOp) (w : W32) : XReal :=
  match o.etype with
  | 3 => .ofInt w.toInt
  | 4 => .ofInt w.toNat
  | _ => Fmt.f32.decode o.rounding.dnz w.toNat

/-- Whether a lane (value, index) ranks before another: NaN last, equal values by index. -/
def ranksBefore (desc : Bool) (a b : XReal × Nat) : Bool :=
  if a.1 == .nan || b.1 == .nan then
    (if a.1 == b.1 then decide (a.2 < b.2) else b.1 == .nan)
  else if a.1.eqv b.1 then decide (a.2 < b.2)
  else if desc then b.1.lt a.1 else a.1.lt b.1

/-- Inserts a lane into a ranked list. -/
def insertRanked (desc : Bool) (a : XReal × Nat) : List (XReal × Nat) → List (XReal × Nat)
  | [] => [a]
  | b :: rest =>
    if ranksBefore desc a b then a :: b :: rest else b :: insertRanked desc a rest

/-- The lane indices in rank order. -/
def XfOp.ranked (o : XfOp) (desc : Bool) : List Nat :=
  ((o.buffer.zipIdx.map (fun p => (o.rankValue p.1, p.2))).foldr (insertRanked desc) []).map Prod.snd

/-- XTRN's lanes (R261). -/
def XfOp.transposed (o : XfOp) : List W32 :=
  let r := wordBits o.sb 0 11
  let c := o.buffer.length / r
  (List.range o.buffer.length).map fun j => o.buffer.getD (j % r * c + j / r) 0#32

/-- The registers that an instruction writes, one lane per entry. -/
def XfOp.results (o : XfOp) (bank : Memory) (free : Nat) : List (List W32) :=
  let index := fun (l : List Nat) => l.map (BitVec.ofNat 32)
  match o.kind with
  | .xhad => [o.hadamardLanes]
  | .xqnt => [o.quantLanes.1, o.quantLanes.2]
  | .xact => [o.activateLanes bank free]
  | .xtopk => [index ((o.ranked (!bitOf o.sb.toNat 16)).take (wordBits o.sb 0 11))]
  | .xtrn => [o.transposed]
  | .xsort =>
    let p := o.ranked (bitOf o.sb.toNat 0)
    [p.map (fun i => o.buffer.getD i 0#32), index p]
  | .xtld | .xtbind => []

/-- Raw runs, one per lane, coalesced when C asks (R254). -/
def rawLanes (coal : Bool) (ws : List W32) : VReg :=
  let v : VReg := ws.map (fun w => { val := w, cnt := 1 })
  if coal then v.coalesce else v

/-! ### Issue (R252, R253, R380) -/

/-- The binding that a team will have when the instructions it has queued are done (R258). -/
def State.bindingOf (s : State) (t : Team) : Option Nat :=
  match ((s.teamXfs t).filter (fun x => x.kind == .xtbind)).getLast? with
  | some x => if x.bank = 2 then none else some x.bank
  | none => t.binding

/-- An instruction for the pipe of a team as it stands. -/
def Team.xfOp (t : Team) (uid : Nat) (k : XfKind) (d a : Nat) (c : BitVec 1) (sb : Word) : XfOp :=
  { uid := uid, kind := k, dst := d, src := a, coal := c == 1#1, mode := t.mode, sb := sb,
    bank := 0, offset := 0, pc := t.pc, buffer := [], started := false, reserved := some 0 }

/-- The state with an instruction at the tail of the core's pipe. -/
def State.queueXf (s : State) (t : Team) (o : XfOp) : State :=
  s.modCore t.coreId fun k => { k with xfs := k.xfs ++ [o] }

/-- Holds while the pipe's queue of 16 is full (R253). -/
def State.pipeRoom (s : State) (t : Team) : Except Stop Unit :=
  if 16 ≤ (s.core t.coreId).xfs.length then .error .hold else .ok ()

/-- Enters a transform instruction with its reservation; where the slots do not suffice the team
stays at it until its final step (R380). -/
def State.enterPipe (s : State) (t : Team) (o : XfOp) (l : Nat) : State :=
  let r := (resultLengths o.kind o.etype o.sb l).sum
  let d := (o.dests.map (fun n => (t.vregs.getD n []).length)).sum
  let f := 256 * t.budget - s.occupancy t
  if f + d < r then s.queueXf t { o with reserved := none }
  else (s.queueXf t { o with reserved := some (r - d) }).putTeam t.advance

/-- Issue of a transform with a vector destination. -/
def transformForm (i : Instr) (k : XfKind) (etypes : List Nat) (d a : Field) (b : Option Field)
    (c : BitVec 1) (s : State) : Host.Outcome State Fault Refusal :=
  issue i s fun t => do
    s.pipeRoom t
    t.needEtype etypes
    let sb := (b.map (s.sread t)).getD 0#64
    let l := (t.vread a).len
    if !transformOperand k sb l then raise (trapOperand (b.map BitVec.toNat |>.getD 0) sb)
    else
      match k, s.bindingOf t with
      | .xact, none => .error (.trapOpen { code := 11 })
      | _, bank =>
        pure (s.enterPipe t { t.xfOp t.uid k d.toNat a.toNat c sb with bank := bank.getD 2 } l)

/-- XHAD: rotates blocks of F32 lanes (R255). -/
def execXhad (d a b : Field) (c : BitVec 1) (s : State) : Host.Outcome State Fault Refusal :=
  transformForm (.xhad d a b c) .xhad [0] d a (some b) c s

/-- XQNT: quantises blocks of F32 lanes (R256). -/
def execXqnt (d a b : Field) (c : BitVec 1) (s : State) : Host.Outcome State Fault Refusal :=
  transformForm (.xqnt d a b c) .xqnt [7, 8, 9, 10, 11, 12] d a (some b) c s

/-- XACT: the activation of the bound bank (R257). -/
def execXact (d a : Field) (c : BitVec 1) (s : State) : Host.Outcome State Fault Refusal :=
  transformForm (.xact d a c) .xact [0, 1, 2] d a none c s

/-- XTOPK: the indices of the first ranked lanes (R259). -/
def execXtopk (d a b : Field) (c : BitVec 1) (s : State) : Host.Outcome State Fault Refusal :=
  transformForm (.xtopk d a b c) .xtopk [0, 3, 4] d a (some b) c s

/-- XTRN: the transpose of the lanes as a matrix (R261). -/
def execXtrn (d a b : Field) (c : BitVec 1) (s : State) : Host.Outcome State Fault Refusal :=
  transformForm (.xtrn d a b c) .xtrn etypesNum d a (some b) c s

/-- XSORT: the ranked words and their indices (R260). -/
def execXsort (d a b : Field) (c : BitVec 1) (s : State) : Host.Outcome State Fault Refusal :=
  transformForm (.xsort d a b c) .xsort [0, 3, 4] d a (some b) c s

/-- Whether a bank is loading: an XTLD that names it is in the pipe or saved with a team of the
core (R258). -/
def State.bankLoading (s : State) (core b : Nat) : Bool :=
  let loads := fun (x : XfOp) => x.kind == .xtld && x.bank == b
  (s.core core).xfs.any loads ||
    s.teams.any (fun t => t.coreId == core && t.savedXf.any loads)

/-- XTLD: loads a bank; yields at its own address while a team is bound to it (R258). -/
def execXtld (a k : Field) (s : State) : Host.Outcome State Fault Refusal :=
  issue (.xtld a k) s fun t => do
    s.pipeRoom t
    if s.bindingOf t = some k.toNat then .error (.trapOpen { code := 11 })
    else do
      let o := s.sread t a
      t.needScr o 4 0
      t.needScrRange o.toNat 520
      if s.bankLoading t.coreId k.toNat then .error .hold
      else if s.bankBound t.coreId k.toNat then pure (s.putTeam (t.waitFor (.bank k.toNat)))
      else
        let x := { t.xfOp t.uid .xtld 0 0 0#1 0#64 with bank := k.toNat, offset := o.toNat }
        pure ((s.queueXf t x).putTeam t.advance)

/-- XTBIND: binds the team to a bank, or releases its binding (R258). -/
def execXtbind (k : Field) (s : State) : Host.Outcome State Fault Refusal :=
  issue (.xtbind k) s fun t => do
    s.pipeRoom t
    if k.toNat ≠ 2 ∧ s.bankLoading t.coreId k.toNat then .error .hold
    else pure ((s.queueXf t { t.xfOp t.uid .xtbind 0 0 0#1 0#64 with bank := k.toNat }).putTeam
      t.advance)

/-! ### The pipe's steps (R253, R258, R380) -/

/-- Tests the waits for a bank of a core (R258). -/
def State.fireBanks (s : State) (core : Nat) : State :=
  s.fireWaits fun t w => match w with
    | .bank _ => t.coreId == core
    | _ => false

/-- The instruction that a core's pipe executes, with those queued before it and after it. -/
def State.xfHead (s : State) (core : Nat) : Option (List XfOp × XfOp × List XfOp) :=
  s.engineHead XfOp.uid [] (s.core core).xfs

/-- TRANSFORM_START: step 0 copies the sources into the operand buffer, once the team's earlier stores,
atomics and pairs are acknowledged (R186). An uncorrectable scratchpad word is a machine check (R411). -/
def State.xfStart (s : State) (core : Nat) : Option State :=
  match s.xfHead core with
  | none => none
  | some (before, o, rest) =>
    match s.team? o.uid with
    | none => none
    | some t =>
      if o.started || !s.forkHolds o.uid then none
      else if o.kind = .xtld && (s.core core).badAt (t.ident.scrBase + o.offset) 520 then
        some (s.machineCheck t.ctx 5 0 (core / 64) (core % 64) false (t.ident.scrBase + o.offset))
      else
        let v := { t with mode := o.mode }.vread (BitVec.ofNat 7 o.src)
        let buffer := match o.kind with
          | .xtbind => []
          | .xtld => (List.range 130).map (fun k => BitVec.ofNat 32 (s.scrRead t (o.offset + 4 * k) 4))
          | _ => (List.range v.len).map v.lane
        some ((s.modCore core fun k =>
          { k with xfs := before ++ { o with started := true, buffer := buffer } :: rest }).released s o.uid)

/-- A core's bank with its contents replaced. -/
def Core.setBank (k : Core) (b : Nat) (m : Memory) : Core :=
  if b = 1 then { k with bank1 := m } else { k with bank0 := m }

/-- Bank `b` of a core. -/
def Core.bank (k : Core) (b : Nat) : Memory := if b = 1 then k.bank1 else k.bank0

/-- The final step of a transform with a vector destination (R380). -/
def State.xfWrite (s : State) (t : Team) (o : XfOp) : State :=
  let bank := (s.core t.coreId).bank o.bank
  let ws := o.dests.zip ((o.results bank s.free).map (rawLanes o.coal))
  let s := if o.kind = .xact then { s with free := s.free + 8192 } else s
  match o.reserved with
  | some _ => s.putTeam (t.setVs ws)
  | none => match s.writeVs t ws with
    | .ok t' => s.putTeam t'.advance
    | .error e => s.takeStop t e

/-- TRANSFORM_COMPLETE: the final step. -/
def State.xfComplete (s : State) (core : Nat) : Option State :=
  match s.xfHead core with
  | none => none
  | some (before, o, rest) =>
    match s.team? o.uid with
    | none => none
    | some t =>
      if !o.started then none
      else
        let s' := s.modCore core fun k => { k with xfs := before ++ rest }
        let s' : State := match o.kind with
          | .xtld =>
            let bytes := o.buffer.flatMap (fun (w : W32) => leBytes 4 w.toNat)
            s'.modCore core fun k => k.setBank o.bank (Memory.setBytes [] 0 bytes)
          | .xtbind =>
            let b := if o.bank = 2 then none else some o.bank
            (s'.putTeam { t with binding := b }).fireBanks core
          | _ => s'.xfWrite t o
        some (s'.released s o.uid)

/-- TRANSFORM_START. -/
def execTransformStart (s : State) : Host.Outcome State Fault Refusal :=
  event "TRANSFORM_START" (s.xfStart s.arg.core)

/-- TRANSFORM_COMPLETE. -/
def execTransformComplete (s : State) : Host.Outcome State Fault Refusal :=
  event "TRANSFORM_COMPLETE" (s.xfComplete s.arg.core)

end Sys2Proof.Machine
end

