-- ==== Sys2Proof/Machine/Frames.lean ====
section
/-! DEFINITION. Save frames (spec/02 R51 to R53, spec/19 R361, R362): what a pre-empted team's frame
holds, saving it, reading it back, and the step TEAM_PREEMPTED. -/

namespace Sys2Proof.Machine

/-! ### The words of a frame (Table 19.6a) -/

/-- The 64-bit words of a mask. -/
def maskWords (m : Mask) : List Word := (List.range 16).map (fun k => m.extractLsb' (64 * k) 64)

/-- The mask of 16 words. -/
def maskOfWords (ws : List Word) : Mask :=
  BitVec.ofNat 1024 (((List.range 16).map (fun k => (ws.getD k 0#64).toNat * 2 ^ (64 * k))).sum)

/-- The number under which the device knows a kind of wait. -/
def WaitKind.index : WaitKind → Nat
  | .counter _ _ => 0
  | .watch _ _ => 1
  | .barrier _ _ => 2
  | .pool _ => 3
  | .bank _ => 4

/-- What a wait's address field holds: the physical address, or the number that it waits on. -/
def WaitKind.addressWord : WaitKind → Word
  | .counter k _ => BitVec.ofNat 64 k
  | .watch p _ => BitVec.ofNat 64 p.addr
  | .barrier p _ => BitVec.ofNat 64 p.addr
  | .pool p => BitVec.ofNat 64 p
  | .bank b => BitVec.ofNat 64 b

/-- What a wait's value field holds. -/
def WaitKind.valueWord : WaitKind → Word
  | .counter _ b => b
  | .watch _ v => v
  | .barrier _ g => g.setWidth 64
  | _ => 0#64

/-- A wait of a kind with the address and the value that a frame gives it. The physical address of a watched
word stays the one that the device has followed since: a migration of its page moves the armed wait, not the
frame (R46). -/
def WaitKind.reread (address value : Word) : WaitKind → WaitKind
  | .counter _ _ => .counter address.toNat value
  | .watch p _ => .watch p value
  | .barrier p _ => .barrier p (value.setWidth 32)
  | .pool _ => .pool address.toNat
  | .bank _ => .bank address.toNat

/-- The armed wait's three words. -/
def Team.waitWords (t : Team) : List Word :=
  match t.wait with
  | some w => [Config.waitCode w.kind.index, w.kind.addressWord, w.kind.valueWord]
  | none => [0#64, 0#64, 0#64]

/-- Whether a team leaves a step state. -/
def Team.hasStep (t : Team) : Bool := t.savedMat.isSome || !t.savedXf.isEmpty

/-- The words that stand for a team's step state, in the device's own form. -/
def stepWords (base : Nat) : List Word :=
  (List.range 2688).map (fun i => Config.stepStateWord (4096 * base + i + 1))

/-- The check word of a step state. -/
def stepCheck (base : Nat) : Word := Config.stepStateWord (4096 * base)

/-- The word at offset 0x08. -/
def Team.frameState (t : Team) : Word :=
  BitVec.ofNat 64 (t.mode.toNat + 2 ^ 32 * t.cc.toNat + 2 ^ 36 * t.stack.length + 2 ^ 42 * t.allot +
    2 ^ 49 * t.budget + 2 ^ 56 * t.accmap)

/-- The word at offset 0x20. -/
def Team.frameFlags (t : Team) : Word :=
  let bind := match t.binding with
    | some b => b
    | none => 3
  BitVec.ofNat 64 (t.ident.core + 2 ^ 6 * t.ident.die + (if t.inHandler then 2 ^ 7 else 0) +
    (if t.wait.isSome then 2 ^ 8 else 0) + (if t.hasStep then 2 ^ 9 else 0) + 2 ^ 10 * bind)

/-- The words of a tile's 32 KiB. -/
def tileWords (words : List (Nat × W32)) : List Word :=
  (List.range 4096).map fun j => lookup 0#32 (2 * j + 1) words ++ lookup 0#32 (2 * j) words

/-- The tile of those words, its words that are not zero. -/
def tileOfWords (ws : List Word) : List (Nat × W32) :=
  (List.range 8192).filterMap fun i =>
    let w := (ws.getD (i / 2) 0#64).extractLsb' (32 * (i % 2)) 32
    if w = 0#32 then none else some (i, w)

/-- The parts of a team's frame: offsets with their words. -/
def Team.frameParts (t : Team) : List (Nat × List Word) :=
  let wave := if t.ident.isWave then t.ident.waveid % 2 ^ 32 else 2 ^ 32 - 1
  [(0x0, [t.pc, t.frameState, BitVec.ofNat 64 (t.ident.teamid + 2 ^ 32 * wave), t.ident.task,
          t.frameFlags, if t.hasStep then stepCheck t.stepBase else 0#64]),
   (0x40, (List.range 64).map t.getS),
   (0x240, (List.range 3).flatMap fun n =>
      let l := t.loop n
      [l.count.setWidth 64, l.start, l.stop]),
   (0x290, [t.key, t.ctr]), (0x2A0, t.waitWords),
   (0x300, (List.range 11).map t.csr),
   (0x400, (List.range 16).flatMap (fun n => maskWords (t.mask n)))] ++
  ((List.range 32).zip t.stack.reverse).map (fun p =>
    (0xC00 + 256 * p.1, maskWords p.2.mask ++ [p.2.mode.setWidth 64])) ++
  (if t.hasStep then [(0x2C00, stepWords t.stepBase)] else []) ++
  t.tiles.map (fun p => (0x8000 + 0x8000 * p.1, tileWords p.2)) ++
  ((List.range 96).zip t.vregs).map (fun p =>
    (0x48000 + 0x2008 * p.1, (wordsOf (p.2.length + 1) p.2.image).map (BitVec.ofNat 64)))

/-! ### Frames of a context (R361) -/

/-- Where frame `f` of a save area lies. -/
def frameAt (save : Word) (f : Nat) : Word := save + BitVec.ofNat 64 (0x10000 + 0x110000 * f)

/-- The lowest frame of a context that no team holds or is to take. -/
def State.freeFrame? (s : State) (c : Ctx) : Option Nat :=
  let taken := (s.teams.filter (fun t => t.ctx == c.id)).filterMap Team.frame
  (List.range c.nframe).find? (fun f => !taken.contains f)

/-- Sets or clears a bit of the frame map; a poisoned word of it is a machine check (R365), and a home that
cannot serve holds the step. -/
def State.mapBit (s : State) (w : Walker) (save : Word) (f : Nat) (v : Bool) : Except Stop State := do
  let va := save + BitVec.ofNat 64 (8 * (f / 64))
  let (s, m) ← s.translateResident w va .both [0, 1]
  if s.recordBusy w.requester m.phys then throw .hold
  if s.poisoned m.phys then throw (s.poisonStop m.phys)
  let s := s.reachHome w.requester m.phys.unit (lineOf m.phys.addr)
  let old := s.peek m.phys 8
  s.ctxWrite w va [BitVec.ofNat 64 (setBitsOf old (f % 64) 1 (if v then 1 else 0))]

/-- Writes the parts of a frame. -/
def State.writeParts (s : State) (w : Walker) (base : Word) :
    List (Nat × List Word) → Except Stop State
  | [] => .ok s
  | (off, ws) :: rest => do
    let s ← s.ctxWrite w (base + BitVec.ofNat 64 off) ws
    s.writeParts w base rest

/-- Reads `n` words of a frame at their homes, which apply their bins first (R231, R361); a poisoned one is a
machine check (R365), and a home that cannot serve holds the restoration. -/
def State.frameWords (s : State) (w : Walker) : Nat → Word → Except Stop (State × List Word)
  | 0, _ => .ok (s, [])
  | n + 1, va => do
    let (s, m) ← s.translateResident w va .read [0, 1]
    if s.recordBusy w.requester m.phys then .error .hold
    else if s.poisoned m.phys then .error (s.poisonStop m.phys)
    else
      let s := s.reachHome w.requester m.phys.unit (lineOf m.phys.addr)
      let v := BitVec.ofNat 64 (s.peek m.phys 8)
      let (s, rest) ← s.frameWords w n (va + 8#64)
      pure (s, v :: rest)

/-! ### Leaving (R51, R52) -/

/-- The team as it leaves: its operations withdrawn at a step boundary (R253, R280). -/
def State.withdrawn (s : State) (t : Team) (base : Nat) : Team :=
  { t with
    savedMat := ((s.teamMats t).head?).map (fun o => { o with started := false })
    savedXf := s.teamXfs t
    stepBase := base }

/-- Adds what a team releases to the hold of a pre-emption on its core (R349). -/
def PreHold.release (h : PreHold) (t : Team) : PreHold :=
  let sum := fun (p : HoldPart) => lookup 0 t.ident.sched p.granules + t.budget
  let add := fun (p : HoldPart) => { p with
    tiles := p.tiles + t.tiles.length
    granules := insertAt t.ident.sched (sum p) p.granules }
  { h with parts := mapWhere (fun p => p.core == t.coreId) add h.parts }

/-- The state after a team has left its slot with frame `f` saved: resources return, the scratchpad
stays (R52). -/
def State.leave (s : State) (t : Team) (f : Nat) : State :=
  let s := s.modCore t.coreId fun k => { k with
    mats := k.mats.filter (fun o => o.uid != t.uid)
    xfs := k.xfs.filter (fun x => x.uid != t.uid) }
  let s := s.putTeam { t with
    place := .preempted s.nextUid, frame := some f, preemptReq := false, yielded := false }
  let s := s.modDie t.ident.die fun k => { k with
    placeDue := true
    hold := k.hold.map (fun h => h.release t) }
  { s with nextUid := s.nextUid + 1 }

/-- Saves a team to frame `f` of its context and takes it off its core; it waits while a load or an atomic of
it is outstanding or a home cannot serve, and answers why the save area cannot be written. -/
def State.saveTeam (s : State) (t : Team) (f : Nat) : Except Stop State :=
  match s.ctx? t.ctx with
  | none => .error .hold
  | some c =>
    if !t.isResident || t.pend.isSome then .error .hold
    else do
      let (n, s) := (s.asClass t.ctx).takeFree
      let t := s.withdrawn t n
      let w := deviceWalker t.ident.die t.ctx
      let s ← s.mapBit w c.save f true
      let s ← s.writeParts w (frameAt c.save f) t.frameParts
      pure (s.leave t f)

/-- A record of code 9: no frame is free for a pre-emption (R408); limited per core. -/
def State.reportNoFrame (s : State) (core ctx : Nat) (addr : Nat) : State :=
  let n := ((s.ctx? ctx).map Ctx.nframe).getD 0
  s.reportLimited { kind := 7, code := 9, ctx := ctx, die := core / 64, unit := core % 64,
                    addr := BitVec.ofNat 64 addr, info := BitVec.ofNat 64 n } false

/-- The physical address of a candidate's task record, 0 for a wave. -/
def State.candAddr (s : State) (d : Nat) : Candidate → Nat
  | .team uid => ((s.team? uid).map (fun t => t.ident.taskAt.addr)).getD 0
  | .wave _ => 0
  | .queued q => (((s.die d).ready.find? (fun t => t.queue == q)).map (fun t => t.loc.addr)).getD 0
  | .listed c => ((((s.die d).localList c).head?).map (fun t => t.loc.addr)).getD 0

/-- The physical address of the task record for which a die holds resources (Table 22.1, code 9). -/
def State.heldAddr (s : State) (d : Nat) : Nat :=
  match (s.die d).hold with
  | some h => s.candAddr d h.cand
  | none => 0

/-- What follows where a team could not be saved: the step waits for a home (R190, R397), an uncorrectable word
is a machine check of the context (R365, R390), and a save area that cannot be written ends the request as where
no frame is free. -/
def State.notSaved (s : State) (t : Team) : Stop → Option State
  | .hold | .holdAt _ => none
  | .check st code a => some (s.takeStop t (.check st code a))
  | _ => some ((s.putTeam { t with preemptReq := false, frame := none }).reportNoFrame
      t.coreId t.ctx (s.heldAddr t.ident.die))

/-- TEAM_PREEMPTED: a team asked to leave is at an instruction boundary and leaves. -/
def State.teamPreempted (s : State) (uid : Nat) : Option State :=
  match s.team? uid with
  | none => none
  | some t =>
    if !t.preemptReq || !t.isResident || t.pend.isSome || !s.ctxRuns t.ctx then none
    else match t.frame with
      | none => some ((s.putTeam { t with preemptReq := false }).reportNoFrame t.coreId t.ctx
          (s.heldAddr t.ident.die))
      | some f => match s.saveTeam t f with
        | .ok s' => some s'
        | .error e => s.notSaved t e

/-- TEAM_PREEMPTED. -/
def execTeamPreempted (s : State) : Host.Outcome State Fault Refusal :=
  event "TEAM_PREEMPTED" (s.teamPreempted s.arg.n)

/-! ### Coming back (R53, R362) -/

/-- An invalid frame is a machine check of the context (R362). -/
def frameCheck (va : Word) : Stop := .check 0 0 va.toNat

/-- Reads the run images of `n` registers from register `k` on. -/
def State.readImages (s : State) (w : Walker) (base : Word) (e : Nat) :
    Nat → Nat → Except Stop (State × List VReg)
  | 0, _ => .ok (s, [])
  | n + 1, k => do
    let va := base + BitVec.ofNat 64 (0x48000 + 0x2008 * k)
    let (s, h) ← s.frameWords w 1 va
    let header := (h.headD 0#64).toNat
    if !headerValid header e then .error (frameCheck va)
    else
      let (s, ws) ← s.frameWords w (bitsOf header 16 11) (va + 8#64)
      let entries := ws.map BitVec.toNat
      if !entriesValid header entries then .error (frameCheck va)
      else
        let (s, rest) ← s.readImages w base e n (k + 1)
        pure (s, imageRuns entries :: rest)

/-- Reads the tiles of the given names. -/
def State.readTiles (s : State) (w : Walker) (base : Word) :
    List Nat → Except Stop (State × List (Nat × List (Nat × W32)))
  | [] => .ok (s, [])
  | k :: rest => do
    let (s, ws) ← s.frameWords w 4096 (base + BitVec.ofNat 64 (0x8000 + 0x8000 * k))
    let (s, more) ← s.readTiles w base rest
    pure (s, (k, tileOfWords ws) :: more)

/-- Reads `n` mask-stack entries, oldest first, from entry `i` on. -/
def State.readStack (s : State) (w : Walker) (base : Word) :
    Nat → Nat → Except Stop (State × List StackEntry)
  | 0, _ => .ok (s, [])
  | n + 1, i => do
    let (s, ws) ← s.frameWords w 17 (base + BitVec.ofNat 64 (0xC00 + 256 * i))
    let (s, rest) ← s.readStack w base n (i + 1)
    pure (s, { mask := maskOfWords ws, mode := (ws.getD 16 0#64).setWidth 16 } :: rest)

/-- Whether a step state's check word and words are those saved (R362). -/
def State.stepMatches (s : State) (w : Walker) (base : Word) (check : Word) (n : Nat) :
    Except Stop (State × Bool) := do
  let (s, ws) ← s.frameWords w 2688 (base + 0x2C00#64)
  pure (s, check == stepCheck n && ws == stepWords n)

/-- The team that a frame holds: every item of R52 as the frame gives it. -/
def State.readFrame (s : State) (t : Team) (base : Word) : Except Stop (State × Team) := do
  let w := deviceWalker t.ident.die t.ctx
  let (s, head) ← s.frameWords w 6 base
  let (s, sregs) ← s.frameWords w 64 (base + 0x40#64)
  let (s, lcs) ← s.frameWords w 9 (base + 0x240#64)
  let (s, gen) ← s.frameWords w 2 (base + 0x290#64)
  let (s, armed) ← s.frameWords w 3 (base + 0x2A0#64)
  let (s, csrs) ← s.frameWords w 11 (base + 0x300#64)
  let (s, masks) ← s.frameWords w 256 (base + 0x400#64)
  let w8 := head.getD 1 0#64
  let flags := (head.getD 4 0#64).toNat
  let (s, stack) ← s.readStack w base (wordBits w8 36 6) 0
  let (s, tiles) ← s.readTiles w base ((List.range 8).filter (fun k => bitOf w8.toNat (56 + k)))
  let (s, vregs) ← s.readImages w base t.ident.elanes (wordBits w8 42 7) 0
  let (s, ok) ← if bitOf flags 9 then s.stepMatches w base (head.getD 5 0#64) t.stepBase else .ok (s, true)
  if !ok then throw (frameCheck base)
  let t := { t with
    pc := head.getD 0 0#64
    mode := w8.setWidth 16
    cc := w8.extractLsb' 32 4
    budget := wordBits w8 49 7
    inHandler := bitOf flags 7
    wait := if bitOf flags 8 then
        t.wait.map fun x => { x with kind := x.kind.reread (armed.getD 1 0#64) (armed.getD 2 0#64) }
      else none
    binding := if bitsOf flags 10 2 = 3 then none else some (bitsOf flags 10 2)
    key := gen.getD 0 0#64
    ctr := gen.getD 1 0#64
    stack := stack.reverse
    tiles := tiles
    vregs := vregs }
  let t := (List.range 64).foldl (fun (t : Team) n => t.setS n (sregs.getD n 0#64)) t
  let t := (List.range 3).foldl (fun (t : Team) n => t.setLoop n
    { count := (lcs.getD (3 * n) 0#64).setWidth 32, start := lcs.getD (3 * n + 1) 0#64
      stop := lcs.getD (3 * n + 2) 0#64 }) t
  let t := (List.range 11).foldl (fun (t : Team) n => t.setCsr n (csrs.getD n 0#64)) t
  pure (s, (List.range 16).foldl (fun (t : Team) n =>
    t.setMask n (maskOfWords (masks.drop (16 * n)))) t)

/-- The team takes a slot again, as the youngest of its scheduler (R43, R53); its operations rejoin
their queues and its wait is tested. -/
def State.rejoin (s : State) (t : Team) (sched slot : Nat) : State :=
  let cycles := (s.core t.coreId).cycles
  let s := s.modCore t.coreId fun k => { k with
    mats := k.mats ++ t.savedMat.toList
    xfs := k.xfs ++ t.savedXf }
  let s := s.putTeam { t with
    place := .resident, order := s.nextUid, frame := none, preemptReq := false, displacedBy := none
    savedMat := none, savedXf := [], lastIssue := cycles, readySince := cycles
    ident := { t.ident with sched := sched, slot := slot } }
  let s := { s with nextUid := s.nextUid + 1 }
  s.fireWaits fun x _ => x.uid == t.uid

/-- TEAM_RESTORE: the frame is read back and its map bit cleared; a frame that is not valid is a
machine check of the context and the team stays out. Not possible where the frame cannot be read. -/
def State.restore (s : State) (t : Team) (sched slot : Nat) : Option State :=
  match s.ctx? t.ctx, t.frame with
  | some c, some f =>
    let s := s.asClass t.ctx
    match s.readFrame t (frameAt c.save f) with
    | .error (.check st code a) => some (s.takeStop t (.check st code a))
    | .error _ => none
    | .ok (s, t') =>
      match (s.rejoin t' sched slot).mapBit (deviceWalker t.ident.die t.ctx) c.save f false with
      | .ok s => some s
      | .error (.check st code a) => some (s.takeStop t (.check st code a))
      | .error _ => none
  | _, _ => none

end Sys2Proof.Machine
end

