-- ==== Sys2Proof/Machine/Placement.lean ====
section
/-! DEFINITION. The distributor (spec/02 R37, R40, R41, R47, R53, spec/12 R294, spec/13 R316 to
R320, spec/14 R343, R344, spec/18 R349, spec/22 R424): candidates, cores, and the step
PLACEMENT_ATTEMPT. -/

namespace Sys2Proof.Machine

/-! ### What a start needs, and where it fits (R40) -/

/-- The resources of a start: run granules, scratchpad granules, tiles. -/
structure Need where
  budget : Nat
  scrg : Nat
  acc : Nat
  deriving DecidableEq, Repr

/-- The teams that hold slots of a scheduler, but for those that `gone` leaves out. -/
def State.slotTeams (s : State) (gone : Team → Bool) (core sched : Nat) : List Team :=
  s.teams.filter fun t => t.onCore && t.coreId == core && t.ident.sched == sched && !gone t

/-- The teams that hold slots of a core. -/
def State.coreTeams (s : State) (gone : Team → Bool) (core : Nat) : List Team :=
  s.teams.filter fun t => t.onCore && t.coreId == core && !gone t

/-- The free run granules of a scheduler. -/
def State.granulesLeft (s : State) (gone : Team → Bool) (core sched : Nat) : Nat :=
  64 - ((s.slotTeams gone core sched).map Team.budget).sum

/-- The free tiles of a core. -/
def State.tilesLeft (s : State) (gone : Team → Bool) (core : Nat) : Nat :=
  8 - ((s.coreTeams gone core).map (fun t => t.tiles.length)).sum

/-- Whether a scheduler has the slot and the granules of a start. -/
def State.schedFits (s : State) (gone : Team → Bool) (core : Nat) (n : Need) (sched : Nat) : Bool :=
  decide ((s.slotTeams gone core sched).length < 8) && decide (n.budget ≤ s.granulesLeft gone core sched)

/-- The lowest run of `n` scratchpad granules outside the allocations that stand, each a first granule and a
count (R40). DESIGN CHOICE (log entry 51): a team with SCRG = 0, which has no first granule, gets SCRBASE
0. -/
def firstGap (held : List (Nat × Nat)) (n : Nat) : Option Nat :=
  if n = 0 then some 0
  else (List.range (257 - n)).find? fun g =>
    held.all (fun h => h.2 == 0 || decide (g + n ≤ h.1) || decide (h.1 + h.2 ≤ g))

/-- The scratchpad allocations of a core: every team of it holds its own until its copies have completed
(R38). -/
def State.scratchHeld (s : State) (core : Nat) : List (Nat × Nat) :=
  (s.teams.filter (fun t => t.coreId == core)).map fun t => (t.ident.scrBase / 4096, t.ident.scrG)

/-- The lowest run of free scratchpad granules of a core that holds `n` (R40). -/
def State.firstFit (s : State) (core n : Nat) : Option Nat := firstGap (s.scratchHeld core) n

/-- Whether a core has all resources of a start at once. -/
def State.coreFits (s : State) (gone : Team → Bool) (core : Nat) (n : Need) : Bool :=
  decide (n.acc ≤ s.tilesLeft gone core) && (s.firstFit core n.scrg).isSome &&
    (List.range 4).any (s.schedFits gone core n)

/-- The scheduler that takes a start on a core: the fewest teams, then the most free granules, then
the lowest number (R319). -/
def State.pickSched (s : State) (gone : Team → Bool) (core : Nat) (n : Need) : Option Nat :=
  leastBy (fun x => 512 * (s.slotTeams gone core x).length + 4 * (64 - s.granulesLeft gone core x) + x)
    ((List.range 4).filter (s.schedFits gone core n))

/-- The lowest free slot of a scheduler. -/
def State.freeSlot (s : State) (core sched : Nat) : Nat :=
  let used := (s.slotTeams (fun _ => false) core sched).map (fun t => t.ident.slot)
  ((List.range 8).find? (fun x => !used.contains x)).getD 0

/-! ### Candidates (R317) -/

/-- A candidate with what its start needs and where it may start. -/
structure Offer where
  cand : Candidate
  ctx : Nat
  prio : Nat
  need : Need
  mask : Nat
  w : Nat
  h : Nat
  /-- the only core, for a restoration or a local list -/
  only : Option Nat
  restores : Bool
  deriving DecidableEq, Repr

/-- Whether a team waits for nothing any more. -/
def Team.waitOver (t : Team) : Bool :=
  match t.wait with
  | none => true
  | some w => w.fired

/-- The pre-empted teams of a die that may be restored, in order of pre-emption. DEDUCED (log entry 49): a
team that was pre-empted while yielded is a candidate once its wait has been met, when R45 makes it
eligible. -/
def State.outTeams (s : State) (d : Nat) : List Team :=
  let ts := s.teams.filter fun t =>
    t.ident.die == d && t.place.isOut && t.displacedBy.isNone && s.ctxRuns t.ctx && t.waitOver
  sortBy (fun a b => decide (a.place.orderOut ≤ b.place.orderOut)) ts

/-- The offer of a pre-empted team. -/
def Team.offer (t : Team) : Offer :=
  { cand := .team t.uid, ctx := t.ctx, prio := t.ident.prio
    need := { budget := t.budget, scrg := 0, acc := t.tiles.length }
    mask := 2 ^ 64 - 1, w := 1, h := 1, only := some t.coreId, restores := true }

/-- The offer of a wave. -/
def Wave.offer (w : Wave) : Offer :=
  { cand := .wave w.waveid, ctx := w.ctx, prio := w.prio
    need := { budget := budgetOf (bitsOf w.w20 24 7) (bitsOf w.w20 16 7) (bitsOf w.w20 0 11)
              scrg := bitsOf w.w24 0 9, acc := bitsOf w.w24 16 4 }
    mask := 2 ^ 64 - 1, w := 1, h := 1, only := none, restores := false }

/-- The offer of a task at the head of its list. -/
def State.taskOffer (s : State) (t : TaskRef) (c : Candidate) (only : Option Nat) : Offer :=
  let r := s.record t.loc
  { cand := c, ctx := t.ctx, prio := t.prio
    need := { budget := r.budget, scrg := r.scrg, acc := r.acc }
    mask := (s.queue t.queue).cmask, w := r.clw, h := r.clh, only := only, restores := false }

/-- The heads of a die's lists: queue or list number, candidate, task (R317, R322). A list whose
queue does not serve or whose context is halted has none (R214, R358). -/
def State.listHeads (s : State) (d : Nat) : List (Nat × Candidate × TaskRef × Option Nat) :=
  let k := s.die d
  let runs := fun (t : TaskRef) => (s.queue t.queue).serves && s.ctxRuns t.ctx
  let queues := ((k.ready.map TaskRef.queue).dedup).filterMap fun q =>
    (k.ready.find? (fun t => t.queue == q)).map (fun t => (q, Candidate.queued q, t, (none : Option Nat)))
  let lists := ((k.locals.map Prod.fst).dedup).filterMap fun c =>
    ((k.localList c).head?).map fun t => (32768 + c, Candidate.listed c, t, some (64 * d + c))
  (queues ++ lists).filter (fun h => runs h.2.2.1)

/-- Where a list's number stands in the rotation of a class: after the list that last started a team
of the class. -/
def Die.rotation (k : Die) (c q : Nat) : Nat :=
  match k.served.find? (fun p => p.1 == c) with
  | some p => if p.2 < q then q else q + 2 ^ 17
  | none => q

/-- The candidates of a die in the order of R317. -/
def State.offers (s : State) (d : Nat) : List Offer :=
  let k := s.die d
  (List.range 4).flatMap fun c =>
    let out := ((s.outTeams d).filter (fun t => t.ident.prio == c)).map Team.offer
    let waves := (k.waves.filter (fun w => w.prio == c && s.ctxRuns w.ctx)).map Wave.offer
    let heads := (s.listHeads d).filter (fun h => h.2.2.1.prio == c)
    let le := fun (a b : Nat × Candidate × TaskRef × Option Nat) =>
      decide (k.rotation c a.1 ≤ k.rotation c b.1)
    let sorted := heads.foldr (fun h l => insertSorted le h l) []
    out ++ waves ++ sorted.map (fun h => s.taskOffer h.2.2.1 h.2.1 h.2.2.2)

/-! ### Choosing the core (R319) -/

/-- The derating level of a core (R318). -/
def Core.derate (k : Core) : Nat := max k.thermal k.droop

/-- Whether nothing but its resources keeps a core from a candidate: its level for a start (R318),
a trip (R421), an unreachable slice (R418), a stitch that waits (R329), a steal on its way (R323),
D3hot (R335), a pre-emption's hold (R349). -/
def State.coreOpen (s : State) (c : Candidate) (restores : Bool) (core : Nat) : Bool :=
  let k := s.core core
  let hold := match (s.die (core / 64)).hold with
    | none => true
    | some h => (h.cand == c) == h.parts.any (fun p => p.core == core)
  (restores || decide (k.derate < 2)) && !k.tripped && !k.cut && !s.stitching core &&
    k.steal.victim.isNone && k.steal.claimed.isNone && !s.host.d3hot && hold

/-- Whether a candidate may start on a core, the teams of `gone` left out. -/
def State.eligible (s : State) (gone : Team → Bool) (o : Offer) (core : Nat) : Bool :=
  bitOf o.mask (core % 64) && s.coreOpen o.cand o.restores core && s.coreFits gone core o.need

/-- The cores of a die that a candidate names. -/
def Offer.cores (o : Offer) (d : Nat) : List Nat :=
  match o.only with
  | some c => [c]
  | none => (List.range 64).map (fun c => 64 * d + c)

/-- The cores on which a candidate would start: one, or a cluster's rectangle by rank. -/
def State.pickCores (s : State) (gone : Team → Bool) (d : Nat) (o : Offer) : Option (List Nat) :=
  if o.w * o.h = 1 then
    (leastBy (fun c => 2 ^ 14 * (s.core c).derate + 2 ^ 7 * (s.coreTeams gone c).length + c % 64)
      ((o.cores d).filter (s.eligible gone o))).map fun c => [c]
  else
    let rect := fun c => (rectCores c o.w o.h).map (fun x => 64 * d + x)
    let corners := match o.only with
      | some c => (rectCorners o.w o.h).filter (fun x => 64 * d + x == c)
      | none => rectCorners o.w o.h
    (corners.find? (fun c => (rect c).all (s.eligible gone o))).map rect

/-- Where one team starts. -/
structure Spot where
  core : Nat
  sched : Nat
  slot : Nat
  deriving DecidableEq, Repr

/-- The spots of a candidate's teams. -/
def State.pickSpots (s : State) (d : Nat) (o : Offer) : Option (List Spot) :=
  let none_ := fun (_ : Team) => false
  (s.pickCores none_ d o).bind fun cs => cs.mapM fun c =>
    (s.pickSched none_ c o.need).map fun x => { core := c, sched := x, slot := s.freeSlot c x }

/-! ### Replay of placements (R424) -/

/-- The number by which the log knows a team. -/
def Ident.logNumber (i : Ident) : Nat := if i.isWave then i.waveid else i.teamid

/-- The words of an entry of TYPE 3 for a spot. -/
def placementEntry (task : Word) (id : Nat) (wave restores : Bool) (p : Spot) : List Word :=
  [task, BitVec.ofNat 64 (id % 2 ^ 32 + (if wave then 2 ^ 32 else 0) + (if restores then 2 ^ 33 else 0) +
    2 ^ 34 * (p.core % 64) + 2 ^ 40 * p.sched + 2 ^ 42 * p.slot)]

/-- The identity of a candidate's next team: task address, number, whether it is a wave. -/
def State.offerId (s : State) (d : Nat) (o : Offer) : Word × Nat × Bool :=
  let ofRef := fun (t : Option TaskRef) => match t with
    | some t => (t.va, (s.record t.loc).next, false)
    | none => (0#64, 0, false)
  match o.cand with
  | .team uid => match s.team? uid with
    | some t => (t.ident.task, t.ident.logNumber, t.ident.isWave)
    | none => (0#64, 0, false)
  | .wave w => (0#64, w, true)
  | .queued q => ofRef ((s.die d).ready.find? (fun t => t.queue == q))
  | .listed c => ofRef ((s.die d).localList c).head?

/-- The spot that an entry of TYPE 3 or 4 names for a team, and whether a slot is named. -/
def LogEntry.spot (e : LogEntry) (s : State) (d : Nat) (o : Offer) : Option Spot :=
  let b := e.payload.getD 1 0#64
  if e.type = 3 then
    some { core := 64 * d + wordBits b 34 6, sched := wordBits b 40 2, slot := wordBits b 42 3 }
  else
    let c := 64 * d + wordBits b 32 6
    (s.pickSched (fun _ => false) c o.need).map fun x => { core := c, sched := x, slot := s.freeSlot c x }

/-- Whether an entry is that of a team. -/
def LogEntry.isFor (e : LogEntry) (task : Word) (id : Nat) (wave restores : Bool) : Bool :=
  let b := e.payload.getD 1 0#64
  e.payload.getD 0 0#64 == task && wordBits b 0 32 == id % 2 ^ 32 &&
    (if e.type = 3 then (bitOf b.toNat 32 == wave) && (bitOf b.toNat 33 == restores)
     else !wave && !restores)

/-- Whether the resources of a spot are free. -/
def State.spotFree (s : State) (o : Offer) (p : Spot) : Bool :=
  let none_ := fun (_ : Team) => false
  !((s.slotTeams none_ p.core p.sched).any (fun t => t.ident.slot == p.slot)) &&
    s.schedFits none_ p.core o.need p.sched && decide (o.need.acc ≤ s.tilesLeft none_ p.core) &&
    (s.firstFit p.core o.need.scrg).isSome

/-- The placements of a context that replay has still to make on a die. -/
def State.placementsLeft (s : State) (ctx d : Nat) : List LogEntry :=
  ((s.replayLog ctx d).filter (fun e => e.type == 3 || e.type == 4)).drop (s.replayDone ctx (d + 6))

/-- Whether an entry restores a team that is not out: replay does not force pre-emptions, so there is
nothing to restore (R424). -/
def State.staleRestore (s : State) (ctx d : Nat) (e : LogEntry) : Bool :=
  e.type == 3 && bitOf (e.payload.getD 1 0#64).toNat 33 &&
    !(s.teams.any fun t => t.ctx == ctx && t.ident.die == d && t.place.isOut &&
      e.isFor t.ident.task t.ident.logNumber t.ident.isWave true)

/-- How many restorations without a team to restore come first in the log. -/
def State.staleCount (s : State) (ctx d : Nat) : Nat :=
  ((s.placementsLeft ctx d).takeWhile (s.staleRestore ctx d)).length

/-- Passes the restorations without a team to restore. -/
def State.skipStale (s : State) (ctx d : Nat) : State :=
  let n := s.staleCount ctx d
  s.modCtx ctx fun c => { c with replayPos := insertAt (d + 6) (lookup 0 (d + 6) c.replayPos + n) c.replayPos }

/-- The spots that the log gives a candidate's next teams, when they are the next in logged order, their
cores open and the spots free. -/
def State.loggedSpots (s : State) (d : Nat) (o : Offer) : Option (List Spot) :=
  let n := o.w * o.h
  let (task, id, wave) := s.offerId d o
  let es := ((s.placementsLeft o.ctx d).drop (s.staleCount o.ctx d)).take n
  if es.length < n then none
  else
    ((List.range n).zip es).mapM fun p =>
      if p.2.isFor task (id + p.1) wave o.restores then
        (p.2.spot s d o).bind fun q =>
          if s.coreOpen o.cand o.restores q.core && s.spotFree o q then some q else none
      else none

/-- Where a candidate starts now, if it can. -/
def State.spots (s : State) (d : Nat) (o : Offer) : Option (List Spot) :=
  if s.replaying o.ctx then s.loggedSpots d o else s.pickSpots d o

/-! ### Starting (R37, R41, R47, R294) -/

/-- A core to which a team comes wakes: in 20 µs from OFF; an IDLE one with its next issue (R335). -/
def State.wakeCore (s : State) (core : Nat) : State :=
  s.modCore core fun k => match k.power with
    | .off => { k with wakeAt := some (k.wakeAt.getD (s.time (core / 64) + 20000)) }
    | _ => k

/-- A context has run since device reset (R333). -/
def State.noteRun (s : State) : State := { s with host := { s.host with ranOnce := true } }

/-- A team is resident: its core wakes, and its entry is logged or passed in replay (R363, R424). -/
def State.arrived_ (s : State) (ctx d : Nat) (entry : List Word) (core : Nat) : State :=
  let s := s.logEvent ctx d 3 entry
  let s := if s.replaying ctx then s.passLogged ctx d [3] else s
  (s.wakeCore core).noteRun

/-- A team that was out is back: its entry names it as restored. One whose frame was not valid is not
back (R362). -/
def State.arrivedBack (s : State) (t : Team) (p : Spot) : State :=
  if (s.team? t.uid).any Team.isResident then
    s.arrived_ t.ctx t.ident.die
      (placementEntry t.ident.task t.ident.logNumber t.ident.isWave true p) p.core
  else s

/-- The teams of a task start, by rank from TEAMID NEXT on (R37, R41). -/
def State.startTask (s : State) (d : Nat) (t : TaskRef) (spots : List Spot) : State :=
  let s := (s.asClass t.ctx).reachRecord d t.loc
  let r := s.record t.loc
  let n := spots.length
  let s := s.putProgress t.loc 2 (r.next + n) (r.live + n)
  let s := if s.tasks.any (fun k => k.loc == t.loc) then s
    else { s with tasks := s.tasks ++ [{ loc := t.loc, ctx := t.ctx, gwct := 0, hold := false }] }
  ((List.range n).zip spots).foldl (fun (s : State) (p : Nat × Spot) =>
    let id : Ident :=
      { teamid := r.next + p.1, nteams := r.nteams, lanes := r.lanes, elanes := r.lanes, die := d
        core := p.2.core % 64, sched := p.2.sched, slot := p.2.slot, clw := r.clw, clh := r.clh
        rank := p.1, isWave := false, waveid := 0, shader := 0, task := t.va, taskAt := t.loc
        prio := t.prio, scrBase := 4096 * (s.firstFit p.2.core r.scrg).getD 0, scrG := r.scrg }
    let team := Team.atStart s.nextUid t.ctx id r.entry r.params r.vregs r.budget r.acc s.nextUid
      (s.core p.2.core).cycles
    { s with teams := s.teams ++ [team], nextUid := s.nextUid + 1 }.arrived_ t.ctx d
      (placementEntry t.va id.teamid false false p.2) p.2.core) s

/-- The words that the rays of a wave hold at word `k`. -/
def State.rayWords (s : State) (d : Nat) (rays : List Nat) (k : Nat) : VReg :=
  VReg.coalesce (rays.map fun n =>
    { val := ((s.ray? d n).map (fun r => r.words.getD k 0#32)).getD 0#32, cnt := 1 })

/-- A wave starts: its rays in lane order, its key in s1 and its count in s2 (R47, R294). Bits [1:0] of PC are
always zero (Table 3.1, R79), whatever the shader's ENTRY holds there (log entry 51). -/
def State.startWave (s : State) (d : Nat) (w : Wave) (p : Spot) : State :=
  let n := w.rays.length
  let vregs := bitsOf w.w20 16 7
  let scrg := bitsOf w.w24 0 9
  let id : Ident :=
    { teamid := 0, nteams := 1, lanes := 32 * ceilDiv n 32, elanes := n, die := d
      core := p.core % 64, sched := p.sched, slot := p.slot, clw := 1, clh := 1, rank := 0
      isWave := true, waveid := w.waveid, shader := w.shader, task := 0#64
      taskAt := { space := .gddr, unit := d, addr := 0 }, prio := w.prio
      scrBase := 4096 * (s.firstFit p.core scrg).getD 0, scrG := scrg }
  let team := Team.atStart s.nextUid w.ctx id (w.entry &&& ~~~3#64) w.params vregs w.offer.need.budget w.offer.need.acc
    s.nextUid (s.core p.core).cycles
  let team := { team with
    sregs := (team.sregs.set 1 (BitVec.ofNat 64 w.key)).set 2 (BitVec.ofNat 64 n)
    vregs := (List.range vregs).map fun k => if k < 32 then s.rayWords d w.rays k else zeroVReg n
    rays := (List.range n).zip w.rays }
  let uid := s.nextUid
  let s := ((List.range n).zip w.rays).foldl (fun (s : State) (q : Nat × Nat) =>
    s.modRay d q.2 fun r => { r with state := .held uid q.1 }) s
  let s := { s with teams := s.teams ++ [team], nextUid := s.nextUid + 1 }
  let s := s.modDie d fun k => { k with
    waves := k.waves.filter (fun x => x.waveid != w.waveid), waveFullSince := none }
  s.arrived_ w.ctx d (placementEntry 0#64 w.waveid true false p) p.core

/-- The task at the head of the list that a candidate names. -/
def Die.headTask (k : Die) : Candidate → Option Phys
  | .queued q => (k.ready.find? (fun t => t.queue == q)).map TaskRef.loc
  | .listed c => ((k.localList c).head?).map TaskRef.loc
  | _ => none

/-- A die whose lists have changed: the next task of a list is another candidate than the one before it, so
neither the count of R321 nor a hold goes over to it (R349). -/
def Die.newHeads (old new : Die) : Die :=
  let same := fun (c : Candidate) => old.headTask c == new.headTask c
  { new with
    first := new.first.filter (fun p => same p.1)
    hold := new.hold.filter (fun h => same h.cand) }

/-- Drops a task from its list once its last team has started (R317). -/
def State.dropStarted (s : State) (d : Nat) (t : TaskRef) : State :=
  let r := s.record t.loc
  if r.next < r.nteams then s
  else s.modDie d fun k => k.newHeads { k with
    ready := k.ready.filter (fun x => x.loc != t.loc)
    locals := k.locals.filter (fun x => x.2.loc != t.loc) }

/-- Whether the multicast that starts a cluster must wait for a landing slot of its cores (R327). -/
def State.clusterWaits (s : State) (spots : List Spot) : Bool :=
  decide (1 < spots.length) && spots.any (fun p => s.landing p.core)

/-- Starts or restores a candidate on its spots. -/
def State.startOffer (s : State) (d : Nat) (o : Offer) (spots : List Spot) : Option State :=
  let s := s.skipStale o.ctx d
  let task := fun (t : Option TaskRef) (number : Nat) => match t with
    | none => none
    | some t =>
      if s.recordBusy (engineRequester d) t.loc || s.clusterWaits spots then none
      else
        let s := (s.startTask d t spots).dropStarted d t
        some (s.modDie d fun k => { k with served := insertAt o.prio number k.served })
  match o.cand, spots with
  | .team uid, p :: _ => match s.team? uid with
    | none => none
    | some t => (s.restore t p.sched p.slot).map fun s => s.arrivedBack t p
  | .wave n, p :: _ => ((s.die d).waves.find? (fun w => w.waveid == n)).map fun w => s.startWave d w p
  | .queued q, _ => task ((s.die d).ready.find? (fun t => t.queue == q)) q
  | .listed c, _ => task ((s.die d).localList c).head? (32768 + c)
  | _, [] => none

/-- Every core that a candidate fits is not idle from now on (R323). -/
def State.noteFit (s : State) (d : Nat) (o : Offer) : State :=
  ((o.cores d).filter (s.eligible (fun _ => false) o)).foldl (fun (s : State) c =>
    s.modCore c fun k => { k with idleSince := some (s.time d) }) s

/-- The first candidate of a list that can start, and the state after its start. -/
def State.startFirst (s : State) (d : Nat) : List Offer → Option (State × Offer)
  | [] => none
  | o :: rest =>
    match (s.spots d o).bind (fun ps => (s.noteFit d o).startOffer d o ps) with
    | some s' => some (s', o)
    | none => s.startFirst d rest

/-! ### PLACEMENT_ATTEMPT (R317, R321, R343, R349) -/

/-- The first candidate with the time since when it has failed (R321). -/
def Die.failedFirst (k : Die) (c : Candidate) : Option (Candidate × Nat) :=
  match k.first with
  | some (x, since) => if x = c then some (x, since) else some (c, k.time)
  | none => some (c, k.time)

/-- Ends a hold whose candidate is no longer the first (R349). -/
def Die.endHold (k : Die) (c : Option Candidate) : Die :=
  match k.hold with
  | some h => if some h.cand = c then k else { k with hold := none }
  | none => k

/-- Whether a die's distributor makes an attempt in this cycle: it has made none in it, every return of the
cycle has been counted (R344), and a placement point or a start calls for one (R316, R343), the point that
comes every 256 cycles being one where a candidate or a hold is there. -/
def State.attemptDue (s : State) (d : Nat) (offers : List Offer) : Bool :=
  let k := s.die d
  decide (k.attemptAt ≤ s.baseCycles) && !s.returnsDue d &&
    (k.placeDue ||
      ((!offers.isEmpty || k.hold.isSome || k.first.isSome) && decide (k.attemptAt + 255 ≤ s.baseCycles)))

/-- One attempt of a die's distributor (R317). -/
def State.attempt (s : State) (d : Nat) : Option State :=
  let offers := s.offers d
  if s.nDies ≤ d || !s.attemptDue d offers then none
  else
    let head := offers.head?.map Offer.cand
    let now := s.baseCycles + 1
    let s := s.modDie d fun k => { k.endHold head with attemptAt := now }
    match head with
    | none => some (s.modDie d fun k => { k with placeDue := false, first := none })
    | some c => match s.startFirst d offers with
      | none => some (s.modDie d fun k => { k with placeDue := false, first := k.failedFirst c })
      | some (s', o) =>
        if o.cand = c then
          some (s'.modDie d fun k => { k with placeDue := true, first := none, hold := none })
        else some (s'.modDie d fun k => { k with placeDue := true, first := k.failedFirst c })

/-- PLACEMENT_ATTEMPT. -/
def execPlacementAttempt (s : State) : Host.Outcome State Fault Refusal :=
  event "PLACEMENT_ATTEMPT" (s.attempt s.arg.die)

end Sys2Proof.Machine
end

