-- ==== Sys2Proof/Machine/Traverse.lean ====
section
/-! DEFINITION. The traversal of a ray: bin keys (spec/12 R289), the BVH formats (R295 to R297), the
treelet cache (R298, R299, spec/22 R415), the exact intersection tests and the walk of R300, and the
faults of Table 22.3. -/

namespace Sys2Proof.Machine

/-! ### Exact vectors (R300) -/

/-- The value of an F32 word (R68). -/
def f32Val (w : W32) : XReal := Fmt.f32.decode false w.toNat

/-- Difference of exact values. -/
def XReal.sub (a b : XReal) : XReal := XReal.add false a b.neg

/-- Whether a value is neither a NaN nor an infinity. -/
def XReal.isFinite : XReal → Bool
  | .nan | .inf _ => false
  | _ => true

/-- Order of two values that are not NaN. -/
def XReal.le (a b : XReal) : Bool := a != .nan && b != .nan && !b.lt a

/-- The lesser of two values that are not NaN. -/
def XReal.lesser (a b : XReal) : XReal := if b.lt a then b else a

/-- The greater of two values that are not NaN. -/
def XReal.greater (a b : XReal) : XReal := if a.lt b then b else a

/-- The magnitude, a NaN counting as 0 (R289). -/
def XReal.size : XReal → XReal
  | .nan => .zero false
  | .inf _ => .inf false
  | .zero _ => .zero false
  | .fin n d => .fin n.natAbs d

/-- Three coordinates. -/
structure Vec3 where
  x : XReal
  y : XReal
  z : XReal
  deriving DecidableEq, Repr

/-- Difference. -/
def Vec3.sub (a b : Vec3) : Vec3 := ⟨a.x.sub b.x, a.y.sub b.y, a.z.sub b.z⟩

/-- Inner product. -/
def Vec3.dot (a b : Vec3) : XReal :=
  XReal.add false (XReal.add false (a.x.mul b.x) (a.y.mul b.y)) (a.z.mul b.z)

/-- Cross product. -/
def Vec3.cross (a b : Vec3) : Vec3 :=
  ⟨(a.y.mul b.z).sub (a.z.mul b.y), (a.z.mul b.x).sub (a.x.mul b.z),
   (a.x.mul b.y).sub (a.y.mul b.x)⟩

/-- Whether every coordinate is finite. -/
def Vec3.isFinite (a : Vec3) : Bool := a.x.isFinite && a.y.isFinite && a.z.isFinite

/-! ### The scene descriptor and bin keys (Table 12.3, R289) -/

/-- The words of a scene descriptor that the device reads. -/
structure Scene where
  bvh : Word
  root : Nat
  cs : Int
  gx : W32
  gy : W32
  gz : W32
  done : Word
  deriving DecidableEq, Repr

/-- Word `i`, of 4 bytes, of a number read from memory. -/
def word32 (v i : Nat) : W32 := BitVec.ofNat 32 (bitsOf v (32 * i) 32)

/-- The descriptor held in 64 bytes. -/
def Scene.ofNat (v : Nat) : Scene :=
  { bvh := BitVec.ofNat 64 (bitsOf v 0 64), root := bitsOf v 64 32, cs := signedOf 8 (bitsOf v 96 8)
    gx := word32 v 4, gy := word32 v 5, gz := word32 v 6, done := BitVec.ofNat 64 (bitsOf v 256 64) }

/-- SYS.SCENE.DESC of a context as in effect: the descriptor's address, 0 for none. -/
def State.sceneAt (s : State) (ctx : Nat) : Word :=
  match s.ctx? ctx with
  | some c => c.eff.scene &&& ~~~63#64
  | none => 0#64

/-- A cell coordinate: floor((O - G) * 2^-CS) clamped to 0 to 15 (R289). -/
def cellOf (o g : W32) (cs : Int) : Nat :=
  let scale : XReal := if 0 ≤ cs then .fin 1 (2 ^ cs.toNat) else .fin (2 ^ (-cs).toNat) 1
  if !(f32Val o).isFinite || !(f32Val g).isFinite then 0
  else match ((f32Val o).sub (f32Val g)).mul scale with
    | .fin n d => min 15 (floorDiv n d).toNat
    | _ => 0

/-- The axis of greatest |D|, ties to the lower axis (R289). -/
def majorAxis (x y z : W32) : Nat :=
  let mx := (f32Val x).size
  let my := (f32Val y).size
  let mz := (f32Val z).size
  if (mx.greater my).lt mz then 2 else if mx.lt my then 1 else 0

/-- The key of a record: a traversal key, or a shader key (Table 12.5). -/
def binKey (words : List W32) (sc : Option Scene) (shader : Option Nat) : Nat :=
  let w := fun (k : Nat) => words.getD k 0#32
  let cell := fun (k : Nat) (g : Scene → W32) => match sc with
    | some c => cellOf (w k) (g c) c.cs
    | none => cellOf (w k) 0#32 0
  let sgn := fun (k : Nat) => if (w k).msb then 1 else 0
  sgn 4 + 2 * sgn 5 + 4 * sgn 6 + 2 ^ 3 * majorAxis (w 4) (w 5) (w 6) +
    2 ^ 5 * cell 0 Scene.gx + 2 ^ 9 * cell 1 Scene.gy + 2 ^ 13 * cell 2 Scene.gz +
    (match shader with
     | some n => 2 ^ 17 * (n % 2 ^ 16) + 2 ^ 33
     | none => 0)

/-- The slice of a key (R289). -/
def keySlice (key : Nat) : Nat :=
  (List.range 7).foldl (fun x i => x ^^^ bitsOf key (5 * i) 5) 0

/-! ### Reading at a home (R177, R298, R415) -/

/-- Why a read of the scene does not answer. -/
inductive RayStop where
  /-- a record of Table 22.3: code, ADDR and INFO; the ray is freed -/
  | fault (code : Nat) (addr : Word) (info : Nat)
  /-- a machine check: STRUCT and the line (R365, R415) -/
  | check (struct addr : Nat)
  /-- the home cannot serve the line now -/
  | wait
  deriving DecidableEq, Repr

/-- The line of a location served at its home without a lease. -/
def State.readLine (s : State) (w : Walker) (who : Nat) (p : Phys) : Except RayStop State :=
  if s.homeBusy w.requester p.unit (lineOf p.addr) then .error .wait
  else if s.poisoned p then .error (.check (s.poisonStruct p) (lineOf p.addr))
  else .ok (s.homeRead who p.unit (lineOf p.addr) false)

/-- The lines of `n` bytes from a location on. -/
def linesOf (p : Phys) (n : Nat) : List Phys :=
  (List.range ((p.addr % 128 + n + 127) / 128)).map fun i => { p with addr := lineOf p.addr + 128 * i }

/-- Translates an address of the scene with RD required (R288). -/
def State.sceneMap (s : State) (w : Walker) (va : Word) : Except RayStop (State × Phys) :=
  match s.translateResident w va .read [0, 1] with
  | .ok (s, m) => .ok (s, m.phys)
  | .error (.trap r) => .error (.fault 2 va r.code)
  | .error (.check st _ a) => .error (.check st a)
  | .error _ => .error .wait

/-- The `n` bytes at an address, each line read at its home. -/
def State.sceneRead (s : State) (w : Walker) (va : Word) (n : Nat) : Except RayStop (State × Nat) := do
  let (s, p) ← s.sceneMap w va
  let s ← (linesOf p n).foldlM (fun (s : State) q => s.readLine w w.requester q) s
  pure (s, s.peek p n)

/-- The descriptor of a context, absent while DESC is 0 (R289). -/
def State.sceneOf (s : State) (w : Walker) : Except RayStop (State × Option Scene) :=
  let desc := s.sceneAt w.ctx
  if desc = 0#64 then .ok (s, none)
  else do
    let (s, v) ← s.sceneRead w desc 64
    pure (s, some (Scene.ofNat v))

/-! ### Treelets (R298, R299) -/

/-- The base of the treelet of an address. -/
def treeletBase (a : Nat) : Nat := a / 16384 * 16384

/-- The control loops of a slice. -/
def Die.sliceLoop (k : Die) (slice : Nat) : SliceLoop := lookup SliceLoop.atReset slice k.loops

/-- Applies a change to a slice's loops. -/
def State.modLoop (s : State) (d slice : Nat) (f : SliceLoop → SliceLoop) : State :=
  s.modDie d fun k => { k with loops := insertAt slice (f (k.sliceLoop slice)) k.loops }

/-- The list without the last element that satisfies `p`. -/
def eraseLast {α : Type} (p : α → Bool) (l : List α) : List α := (eraseFirst p l.reverse).reverse

/-- Makes a treelet the most recently used of its slice; one that is not cached is fetched, with all
its lines to arrive, the least recently used leaving where the slice is full. -/
def State.touchTreelet (s : State) (d ctx base : Nat) : State :=
  let k := s.die d
  let same := fun (t : Treelet) => homeSlice t.base == homeSlice base
  let others := k.treelets.filter (fun t => t.base != base)
  match k.treelets.find? (fun t => t.base == base) with
  | some t => s.modDie d fun k => { k with treelets := t :: others }
  | none =>
    let kept := if 32 * k.trlw ≤ (others.filter same).length then eraseLast same others else others
    let t : Treelet := { base := base, ctx := ctx, data := []
                         lines := (List.range 128).map (fun i => base + 128 * i) }
    s.modDie d fun k => { k with treelets := t :: kept }

/-- Counts a treelet read of a slice, and whether it missed (Table 13.8). -/
def State.countTreelet (s : State) (d base : Nat) (miss : Bool) : State :=
  s.modLoop d (homeSlice base) fun l =>
    { l with reads := l.reads + 1, misses := l.misses + (if miss then 1 else 0) }

/-- A line that a fetch has read arrives in its treelet. -/
def State.landLine (s : State) (d line : Nat) : State :=
  let src := (s.die d).mem
  let land := fun (t : Treelet) =>
    { t with data := t.data.copyRange src line 128, lines := t.lines.filter (fun l => l != line) }
  s.modDie d fun k => { k with
    treelets := mapWhere (fun (t : Treelet) => t.base == treeletBase line) land k.treelets }

/-- The line of a location in its treelet; one still to arrive is read at its home. -/
def State.treeletLine (s : State) (w : Walker) (p : Phys) : Except RayStop State :=
  if (s.die p.unit).treelets.any (fun t => t.lines.contains (lineOf p.addr)) then do
    let s ← s.readLine w (engineRequester p.unit) p
    pure (s.landLine p.unit (lineOf p.addr))
  else if requesterDie w.requester != p.unit && !s.linkWorks then .error .wait
  else .ok s

/-- The `n` bytes of a node or triangle, through the treelet cache of its home slice, or at the
home while TRLW is 0 (R415). -/
def State.bvhRead (s : State) (w : Walker) (va : Word) (n : Nat) :
    Except RayStop (State × Phys × Nat) := do
  let (s, p) ← s.sceneMap w va
  if (s.die p.unit).trlw = 0 then
    let s ← (linesOf p n).foldlM (fun (s : State) q => s.readLine w w.requester q) s
    pure (s, p, s.peek p n)
  else
    let base := treeletBase p.addr
    let miss := !(s.die p.unit).treelets.any (fun t => t.base == base)
    let s := (s.touchTreelet p.unit w.ctx base).countTreelet p.unit base miss
    let s ← (linesOf p n).foldlM (fun (s : State) q => s.treeletLine w q) s
    let data := (((s.die p.unit).treelets.find? (fun t => t.base == base)).map Treelet.data).getD []
    pure (s, p, data.read p.addr n)

/-! ### The intersection tests (R296, R297, R300) -/

/-- A ray as traversal sees it. -/
structure RayIn where
  o : Vec3
  d : Vec3
  tmin : XReal
  tmax : XReal
  cullf : Bool
  cullb : Bool
  any : Bool
  deriving DecidableEq, Repr

/-- The ray of a record (Table 12.1). -/
def RayIn.ofWords (words : List W32) : RayIn :=
  let v := fun (k : Nat) => f32Val (words.getD k 0#32)
  let flags := (words.getD 12 0#32).toNat
  { o := ⟨v 0, v 1, v 2⟩, d := ⟨v 4, v 5, v 6⟩, tmin := v 3, tmax := v 7
    cullf := bitOf flags 27, cullb := bitOf flags 26, any := bitOf flags 25 }

/-- Whether a ray misses before anything is tested (R300). -/
def RayIn.misses (r : RayIn) : Bool :=
  !r.o.isFinite || !r.d.isFinite || r.tmin == .nan || r.tmax == .nan || r.tmax.lt r.tmin

/-- One axis of the slab test: the bounds on t so far, narrowed, or nothing where it fails. -/
def slabAxis (lo hi o d : XReal) (b : XReal × XReal) : Option (XReal × XReal) :=
  match d with
  | .zero _ => if lo.le o && o.le hi then some b else none
  | _ =>
    let t1 := (lo.sub o).div d
    let t2 := (hi.sub o).div d
    some (b.1.greater (t1.lesser t2), b.2.lesser (t1.greater t2))

/-- slab(s): the tn of a box that is hit. -/
def slabHit (r : RayIn) (tcur : XReal) (lo hi : Vec3) : Option XReal :=
  if !(lo.x.le hi.x && lo.y.le hi.y && lo.z.le hi.z) then none
  else do
    let b ← slabAxis lo.x hi.x r.o.x r.d.x (.inf true, .inf false)
    let b ← slabAxis lo.y hi.y r.o.y r.d.y b
    let b ← slabAxis lo.z hi.z r.o.z r.d.z b
    if b.1.le b.2 && r.tmin.le b.2 && b.1.le tcur then some b.1 else none

/-- tri(a): t, u and v of a triangle that is hit. -/
def triHit (r : RayIn) (tcur : XReal) (v0 v1 v2 : Vec3) : Option (XReal × XReal × XReal) :=
  if !(v0.isFinite && v1.isFinite && v2.isFinite) then none
  else
    let zero : XReal := .zero false
    let e1 := v1.sub v0
    let e2 := v2.sub v0
    let p := r.d.cross e2
    let det := e1.dot p
    if det.eqv zero || (det.lt zero && r.cullb) || (zero.lt det && r.cullf) then none
    else
      let w := r.o.sub v0
      let u := (w.dot p).div det
      let q := w.cross e1
      let v := (r.d.dot q).div det
      let t := (e2.dot q).div det
      if zero.le u && zero.le v && (XReal.add false u v).le (.fin 1 1) && r.tmin.le t && t.le tcur
      then some (t, u, v) else none

/-! ### The walk (R300) -/

/-- An accepted hit. -/
structure Hit where
  addr : Word
  t : XReal
  u : XReal
  v : XReal
  tri : W32
  geom : W32
  hshd : Nat
  deriving DecidableEq, Repr

/-- What the walk of a ray is given: who reads, the BVH's base, the ray, its number, its die and the
key under which it was batched. -/
structure WalkEnv where
  w : Walker
  base : Word
  ray : RayIn
  num : Nat
  key : Nat
  deriving DecidableEq, Repr

/-- Where a walk stands: the state, the stack with the address that holds each reference, top first,
and the best hit. -/
structure Walk where
  s : State
  stack : List (Nat × Word)
  tcur : XReal
  best : Option Hit
  leaf : Bool

/-- Whether a reference that is not empty is malformed (R295). -/
def refMalformed (ref : Nat) : Bool :=
  let kind := bitsOf ref 30 2
  decide (2 ≤ kind) || (kind == 0 && (bitsOf ref 27 3 != 0 || bitsOf ref 0 27 % 4 != 0))

/-- The empty reference. -/
def refEmpty : Nat := 0xFFFFFFFF

/-- The slots of a node that are hit, with their tn. -/
def nodeHits (env : WalkEnv) (tcur : XReal) (v : Nat) : List (XReal × Nat) :=
  (List.range 8).filterMap fun i =>
    let f := fun (k : Nat) => f32Val (word32 v (8 * k + i))
    let child := (word32 v (48 + i)).toNat
    if child = refEmpty then none
    else (slabHit env.ray tcur ⟨f 0, f 2, f 4⟩ ⟨f 1, f 3, f 5⟩).map (fun tn => (tn, child))

/-- Visits a box node. -/
def Walk.node (k : Walk) (env : WalkEnv) (off : Nat) : Except RayStop Walk := do
  let va := env.base + BitVec.ofNat 64 (64 * off)
  let (s, _, v) ← k.s.bvhRead env.w va 256
  let hits := sortBy (fun (a b : XReal × Nat) => !b.1.lt a.1) (nodeHits env k.tcur v)
  let stack := hits.map (fun h => (h.2, va)) ++ k.stack
  if 64 < stack.length then .error (.fault 4 (BitVec.ofNat 64 env.num) 0)
  else pure { k with s := s, stack := stack }

/-- Tests one triangle of a leaf; true once traversal ends. -/
def Walk.triangle (k : Walk) (env : WalkEnv) (va : Word) : Except RayStop (Walk × Bool) := do
  let (s, p, v) ← k.s.bvhRead env.w va 64
  let index := 512 * keySlice env.key + env.key % 512
  let hint := fun (s : State) => s.modDie env.w.die fun d => { d with
    hints := insertAt index { p with addr := treeletBase p.addr } d.hints }
  let k := if k.leaf then { k with s := s } else { k with s := hint s, leaf := true }
  let f := fun (i : Nat) => f32Val (word32 v i)
  let closer := fun (t : XReal) => match k.best with
    | none => true
    | some b => t.lt k.tcur || decide (va.toNat < b.addr.toNat)
  match triHit env.ray k.tcur ⟨f 0, f 1, f 2⟩ ⟨f 3, f 4, f 5⟩ ⟨f 6, f 7, f 8⟩ with
  | none => pure (k, false)
  | some (t, u, w) =>
    if !closer t then pure (k, false)
    else
      let hit : Hit := { addr := va, t := t, u := u, v := w, tri := word32 v 9, geom := word32 v 10
                         hshd := (word32 v 11).toNat % 2 ^ 16 }
      pure ({ k with best := some hit, tcur := t }, env.ray.any)

/-- Tests the triangles of a leaf in order. -/
def Walk.leafTests (env : WalkEnv) : Walk → List Nat → Except RayStop (Walk × Bool)
  | k, [] => .ok (k, false)
  | k, off :: rest => do
    let (k, ends) ← k.triangle env (env.base + BitVec.ofNat 64 (64 * off))
    if ends then pure (k, true) else Walk.leafTests env k rest

/-- Pops and visits until the stack is empty or the first hit of ANY; `n` more visits are allowed
(R300, Table 22.3). -/
def Walk.run (env : WalkEnv) : Nat → Walk → Except RayStop Walk
  | 0, k => if k.stack.isEmpty then .ok k else .error (.fault 5 (BitVec.ofNat 64 env.num) 0)
  | n + 1, k =>
    match k.stack with
    | [] => .ok k
    | (ref, at_) :: rest =>
      let k := { k with stack := rest }
      if refMalformed ref then .error (.fault 3 at_ ref)
      else if bitsOf ref 30 2 = 0 then do
        let k ← k.node env (bitsOf ref 0 27)
        Walk.run env n k
      else do
        let (k, ends) ← Walk.leafTests env k (rangeFrom (bitsOf ref 0 27) (bitsOf ref 27 3 + 1))
        if ends then pure k else Walk.run env n k

/-- The base of the BVH; one that is not a multiple of 16,384 is open (log entry 8). -/
def bvhBase (b : Word) : Word :=
  if b.toNat % 16384 = 0 then b else (Config.openBase b.toNat) &&& ~~~16383#64

/-- The traversal of one ray: its hit, or a miss (R300). While DESC is 0 every ray misses and nothing
is read (R345). -/
def State.traverse (s : State) (w : Walker) (r : Ray) : Except RayStop (State × Option Hit) :=
  let ray := RayIn.ofWords r.words
  if ray.misses then .ok (s, none)
  else do
    let (s, sc) ← s.sceneOf w
    match sc with
    | none => pure (s, none)
    | some sc =>
      let env : WalkEnv := { w := w, base := bvhBase sc.bvh, ray := ray, num := r.num, key := r.key }
      let stack := if sc.root = refEmpty then [] else [(sc.root, s.sceneAt w.ctx + 8#64)]
      let k ← Walk.run env 65536
        { s := s, stack := stack, tcur := ray.tmax, best := none, leaf := false }
      pure (k.s, k.best)

end Sys2Proof.Machine
end

