-- ==== Sys2Proof/Machine/RaySteps.lean ====
section
/-! DEFINITION. The device steps of rays (spec/12 R287 to R294, R298 to R301, spec/22 R412 to R415,
R424): bins, batches, waves, traversal, the DONE decrement and the pressure record. -/

namespace Sys2Proof.Machine

/-! ### Records and lost rays (Table 22.3) -/

/-- Appends a record of kind 8 whose unit is a core. -/
def State.reportRay (s : State) (core ctx code : Nat) (addr : Word) (info : Nat) : State :=
  s.reportLimited { kind := 8, code := code, ctx := ctx, die := core / 64, unit := core % 64,
                    addr := addr, info := BitVec.ofNat 64 info } true

/-- A ray leaves the traversal unit that holds it, if one does: its result has entered a bin, or it is freed.
A batch with no ray left leaves the unit (R291, R414). -/
def State.leaveBatch (s : State) (d num : Nat) : State :=
  let drop := fun (b : Batch) => { b with rays := b.rays.filter (fun r => r != num) }
  { s with cores := s.cores.map fun p =>
      if p.1 / 64 = d then
        (p.1, { p.2 with batches := (p.2.batches.map drop).filter (fun b => !b.rays.isEmpty) })
      else p }

/-- A ray of a traversal unit, or on its way to a bin, is freed. -/
def State.loseRay (s : State) (d num : Nat) : State := ((s.leaveBatch d num).freeRay d num).testPool d

/-- A ray that no shader can take is freed and reported (R293). -/
def State.noShader (s : State) (d ctx key num shader : Nat) : State :=
  (s.reportLimited { kind := 8, code := 1, ctx := ctx, die := d, sl := true, unit := keySlice key
                     addr := BitVec.ofNat 64 num, info := BitVec.ofNat 64 shader } true).loseRay d num

/-! ### Shader entries (R293, Table 4.11) -/

/-- A shader entry. -/
structure Shader where
  entry : Word
  params : Word
  w20 : Nat
  w24 : Nat
  deriving DecidableEq, Repr

/-- VREGS of a shader. -/
def Shader.vregs (h : Shader) : Nat := bitsOf h.w20 16 7
/-- LANES of a shader. -/
def Shader.lanes (h : Shader) : Nat := bitsOf h.w20 0 11
/-- The run budget of a shader in granules. -/
def Shader.budget (h : Shader) : Nat := budgetOf (bitsOf h.w20 24 7) h.vregs h.lanes
/-- The most rays that a wave of a shader can start with (R292). -/
def Shader.most (h : Shader) : Nat := (256 * h.budget + 32 - h.vregs) / 32

/-- R293: the shape obeys R33 with CLW = CLH = 1, VREGS is at least 32, and one ray fits. DESIGN CHOICE (log
entry 51): ENTRY[1:0], which R293 does not name, is not tested, so a wave starts at the entry as it stands. -/
def Shader.valid (h : Shader) : Bool :=
  shapeValid h.w20 h.w24 && bitsOf h.w24 20 4 == 1 && bitsOf h.w24 24 4 == 1 &&
    decide (32 ≤ h.vregs) && decide (1 ≤ h.most)

/-- The entry of a shader number in a context's table, absent at or above COUNT or where it is not
valid. -/
def State.shader (s : State) (d ctx num : Nat) : Except RayStop (State × Option Shader) :=
  match s.ctx? ctx with
  | none => .ok (s, none)
  | some c =>
    if wordBits c.eff.shdcnt 0 16 ≤ num then .ok (s, none)
    else do
      let p : Phys := { space := .gddr, unit := d
                        addr := wordBits c.eff.shdtab 5 47 * 32 + 32 * num }
      let w := deviceWalker d ctx
      let s ← s.readLine w w.requester p
      let params := s.peek { p with addr := p.addr + 8 } 8
      let h : Shader :=
        { entry := BitVec.ofNat 64 (s.peek p 8)
          params := if params = 2 ^ 64 - 1 then 0#64 else BitVec.ofNat 64 params
          w20 := s.peek { p with addr := p.addr + 0x10 } 4
          w24 := s.peek { p with addr := p.addr + 0x14 } 4 }
      pure (s, if h.valid then some h else none)

/-! ### The effective limits (Table 12.2, R285) -/

/-- TARGET -/
def Die.target (k : Die) : Nat := wordBits k.regs.skcfg 0 11
/-- TAGE -/
def Die.tage (k : Die) : Nat := wordBits k.regs.skcfg 32 16

/-- The effective AGE of a slice. -/
def Die.effAge (k : Die) (slice : Nat) : Nat :=
  let age := wordBits k.regs.skcfg 16 16
  if bitOf k.regs.skcfg.toNat 58 then min age (max (age / 4) (k.sliceLoop slice).age) else age

/-- The effective PF of a slice. -/
def Die.effPf (k : Die) (slice : Nat) : Nat :=
  let pf := wordBits k.regs.skcfg 48 10
  if bitOf k.regs.skcfg.toNat 59 then min pf (max 1 (k.sliceLoop slice).pf) else pf

/-! ### Batches (R291) -/

/-- Whether two bins are the same one. -/
def SkBin.same (a b : SkBin) : Bool :=
  a.slice == b.slice && a.key == b.key && a.ctx == b.ctx && a.rays == b.rays

/-- The arrival of a bin's first ray. -/
def SkBin.first (b : SkBin) : Nat := (b.rays.head?.map Prod.snd).getD 0

/-- Whether a bin is a shader bin. -/
def SkBin.isShader (b : SkBin) : Bool := bitOf b.key 33

/-- A bin without the rays of a list; an empty bin is free. -/
def State.takeFromBin (s : State) (d : Nat) (b : SkBin) (taken : List Nat) : State :=
  let rest := b.rays.filter (fun r => !taken.contains r.1)
  s.modDie d fun k => { k with
    skBins := if rest.isEmpty then eraseFirst b.same k.skBins
              else mapWhere b.same
                (fun (x : SkBin) => { x with rays := rest, prefetched := false }) k.skBins }

/-- The rays of a batch whose traversal has not ended. -/
def State.batchLeft (s : State) (d : Nat) (b : Batch) : List Ray :=
  (b.rays.filterMap (s.ray? d)).filter (fun r => r.state == .batched)

/-- The rays that a core's traversal unit has queued or in traversal. -/
def State.rayLoad (s : State) (core : Nat) : Nat :=
  ((s.core core).batches.map (fun b => (s.batchLeft (core / 64) b).length)).sum

/-- The core whose traversal unit takes the next batch of a die: the fewest rays, ties to the lower
number; none while every unit is full. -/
def State.batchCore (s : State) (d : Nat) : Option Nat :=
  leastBy s.rayLoad
    (((List.range 64).map (fun i => 64 * d + i)).filter fun c => decide ((s.core c).batches.length < 8))

/-- A traversal bin sends its first rays, at most 32, to a traversal unit, which wakes with its core (R335). -/
def State.formBatch (s : State) (d : Nat) (b : SkBin) : Option State :=
  (s.batchCore d).map fun core =>
    let rays := (b.rays.take 32).map Prod.fst
    let s := rays.foldl (fun (s : State) n =>
      s.modRay d n fun r => { r with state := .batched, key := b.key, src := none }) s
    let s := (s.takeFromBin d b rays).wakeCore core
    s.modCore core fun k => { k with batches := k.batches ++ [{ key := b.key, ctx := b.ctx, rays := rays }] }

/-! ### Waves (R292, R424) -/

/-- The words of a wave's ray numbers, two to a word, padded to 16 bytes. -/
def rayNumberWords : List Nat → List Word
  | [] => []
  | [a] => [BitVec.ofNat 64 a, 0#64]
  | [a, b] => [BitVec.ofNat 64 (a + 2 ^ 32 * b), 0#64]
  | [a, b, c] => [BitVec.ofNat 64 (a + 2 ^ 32 * b), BitVec.ofNat 64 c]
  | a :: b :: c :: e :: rest =>
    BitVec.ofNat 64 (a + 2 ^ 32 * b) :: BitVec.ofNat 64 (c + 2 ^ 32 * e) :: rayNumberWords rest

/-- The payload of a wave's log entry (Table 22.7). -/
def wavePayload (key waveid : Nat) (rays : List Nat) : List Word :=
  BitVec.ofNat 64 key :: BitVec.ofNat 64 (waveid + 2 ^ 32 * rays.length) :: rayNumberWords rays

/-- Queues a wave of the given rays of a bin. -/
def State.queueWave (s : State) (d : Nat) (b : SkBin) (h : Shader) (waveid : Nat) (rays : List Nat)
    (byAge : Bool) : State :=
  let prio := match s.ctx? b.ctx with
    | some c => wordBits c.eff.shdcnt 16 2
    | none => 0
  let w : Wave :=
    { waveid := waveid, ctx := b.ctx, shader := bitsOf b.key 17 16, key := b.key, rays := rays
      prio := prio, since := s.time d, entry := h.entry, params := h.params, w20 := h.w20
      w24 := h.w24 }
  let s := rays.foldl (fun (s : State) n => s.modRay d n fun r => { r with state := .inWave }) s
  let s := s.takeFromBin d b rays
  let s := s.modLoop d b.slice fun l =>
    { l with formed := l.formed + 1, byAge := l.byAge + (if byAge then 1 else 0) }
  let s := s.modDie d fun k => { k with
    waves := k.waves ++ [w]
    waveFullSince := if k.waves.length + 1 = 4096 then some k.time else none
    placeDue := true }
  s.logEvent b.ctx d 5 (wavePayload b.key waveid rays)

/-- The ray numbers of an entry of TYPE 5, in lane order. -/
def LogEntry.waveRays (e : LogEntry) : List Nat :=
  ((e.payload.drop 2).flatMap fun w => [wordBits w 0 32, wordBits w 32 32]).take
    (wordBits (e.payload.getD 1 0#64) 32 32)

/-- The rays of a logged wave, where the next entry of TYPE 5 is for the bin and all of them wait in
it (R424): WAVEID and the rays in lane order. -/
def State.loggedWave (s : State) (d : Nat) (b : SkBin) : Option (Nat × List Nat) :=
  match s.nextLogged b.ctx d [5] with
  | none => none
  | some e =>
    if (e.payload.headD 0#64).toNat = b.key && e.waveRays.all (fun n => b.rays.any (fun r => r.1 == n))
    then some (wordBits (e.payload.getD 1 0#64) 0 32, e.waveRays) else none

/-- Whether a shader bin is due: it holds T rays, or its age has reached the effective AGE. -/
def State.waveDue (s : State) (d : Nat) (b : SkBin) (h : Shader) : Bool :=
  let k := s.die d
  decide (min k.target h.lanes ≤ b.rays.length) || decide (b.first + k.effAge b.slice ≤ k.time)

/-- A shader bin forms its next wave; nothing while the wave queue is full, or while replay awaits a
ray. A bin whose shader has become invalid loses its rays. -/
def State.formWave (s : State) (d : Nat) (b : SkBin) (h : Option Shader) : Option State :=
  let k := s.die d
  match h with
  | none =>
    let nums := b.rays.map Prod.fst
    some (nums.foldl (fun (s : State) n => s.noShader d b.ctx b.key n (bitsOf b.key 17 16))
      (s.takeFromBin d b nums))
  | some h =>
    if 4096 ≤ k.waves.length then none
    else if s.replaying b.ctx then
      (s.loggedWave d b).map fun p =>
        (s.queueWave d b h p.1 p.2 false).passLogged b.ctx d [5]
    else
      let t := min k.target h.lanes
      let n := min (min b.rays.length t) h.most
      let s := s.modDie d fun k => { k with waveCount := k.waveCount + 1 }
      some (s.queueWave d b h (k.waveCount % 2 ^ 32) ((b.rays.take n).map Prod.fst)
        (decide (b.rays.length < t)))

/-! ### Entering a bin (R290) -/

/-- The bins of a slice. -/
def Die.binsOf (k : Die) (slice : Nat) : List SkBin := k.skBins.filter (fun b => b.slice == slice)

/-- Empties a bin at once, as batches or as waves, while it holds a ray that it held at first; another bin of its
key and context is not emptied (R290). -/
def State.emptyBin (d : Nat) (old : SkBin) : Nat → State → Option State
  | 0, s => some s
  | n + 1, s =>
    let is := fun (b : SkBin) => b.slice == old.slice && b.key == old.key && b.ctx == old.ctx &&
      b.rays.any (fun r => old.rays.contains r)
    match (s.die d).skBins.find? is with
    | none => some s
    | some b =>
      let next := if b.isShader then match (s.asClass b.ctx).shader d b.ctx (bitsOf b.key 17 16) with
          | .ok (s, h) => s.formWave d b h
          | .error _ => none
        else s.formBatch d b
      next.bind (State.emptyBin d old n)

/-- A slice with a free bin: the oldest is emptied where all 512 are in use; nothing where it cannot
be (R414). -/
def State.freeBin (s : State) (d slice : Nat) : Option State :=
  let bins := (s.die d).binsOf slice
  if bins.length < 512 then some s
  else match leastBy SkBin.first bins with
    | none => some s
    | some b => State.emptyBin d b 1024 s

/-- Puts a ray into its bin. -/
def State.joinBin (s : State) (d : Nat) (r : Ray) (key : Nat) : Option State :=
  let slice := keySlice key
  let mine := fun (b : SkBin) =>
    b.slice == slice && b.key == key && b.ctx == r.ctx && decide (b.rays.length < 1024)
  let seated := fun (s : State) => (s.leaveBatch d r.num).modRay d r.num fun x => { x with
    state := if bitOf key 33 then .shaderBin else .traversalBin
    key := if bitOf key 33 then x.key else key
    src := none }
  let arrival := (r.num, s.time d)
  if (s.die d).skBins.any mine then
    let join := fun (b : SkBin) => { b with rays := b.rays ++ [arrival] }
    some (seated (s.modDie d fun k => { k with skBins := mapWhere mine join k.skBins }))
  else
    (s.freeBin d slice).map fun s => seated (s.modDie d fun k => { k with
      skBins := k.skBins ++ [{ slice := slice, key := key, ctx := r.ctx, rays := [arrival],
                               prefetched := false }] })

/-- Prefetches the hinted treelet of a traversal bin that has reached the effective PF, once for each
filling (R299). -/
def State.prefetch (s : State) (d : Nat) (b : SkBin) : State :=
  let k := s.die d
  if b.isShader || b.prefetched || b.rays.length < k.effPf b.slice then s
  else
    let s := s.modDie d fun k => { k with
      skBins := mapWhere b.same (fun (x : SkBin) => { x with prefetched := true }) k.skBins }
    match k.hints.find? (fun h => h.1 == 512 * b.slice + b.key % 512) with
    | none => s
    | some (_, p) =>
      let home := s.die p.unit
      if home.trlw = 0 || home.treelets.any (fun t => t.base == p.addr) then s
      else s.touchTreelet p.unit b.ctx p.addr

/-- What follows a ray's entry: the prefetch, then the batch or wave of a full bin. -/
def State.afterEntry (s : State) (d : Nat) (key ctx : Nat) (h : Option Shader) : State :=
  let here := fun (s : State) =>
    (s.die d).skBins.find? (fun b => b.key == key && b.ctx == ctx)
  match here s with
  | none => s
  | some b =>
    let s := s.prefetch d b
    match here s with
    | none => s
    | some b =>
      if b.isShader then match h with
        | some x => if s.waveDue d b x then (s.formWave d b h).getD s else s
        | none => s
      else if 32 ≤ b.rays.length then (s.formBatch d b).getD s else s

/-- A ray enters the bin of its key. -/
def State.enterKeyed (s : State) (d : Nat) (r : Ray) (sc : Option Scene) (shader : Option Nat) :
    Option State :=
  let key := binKey r.words sc shader
  let go := fun (s : State) (h : Option Shader) =>
    (s.joinBin d r key).map fun s => s.afterEntry d key r.ctx h
  match shader with
  | none => go s none
  | some num => match s.shader d r.ctx num with
    | .error (.check st a) => some (s.machineCheck r.ctx st 0 d (keySlice key) true a)
    | .error _ => none
    | .ok (s, none) => some (s.noShader d r.ctx key r.num num)
    | .ok (s, some h) => go s (some h)

/-- A ray that is about to enter a bin is keyed and joins or takes a bin. A descriptor that cannot be
read frees it (R412); which core that record names is open (log entry 8). -/
def State.enterBin (s : State) (d : Nat) (r : Ray) : Option State :=
  match r.state with
    | .entering shader =>
      if !s.ctxRuns r.ctx then none
      else match (s.asClass r.ctx).sceneOf (deviceWalker d r.ctx) with
        | .ok (s, sc) => s.enterKeyed d r sc shader
        | .error (.fault code addr info) =>
          let (f, s) := s.takeFree
          let core := 64 * d + (Config.openRecord (2 * f)).toNat % 64
          some ((s.reportRay core r.ctx code addr info).loseRay d r.num)
        | .error (.check st a) => some (s.machineCheck r.ctx st 0 d 0 false a)
        | .error .wait => none
    | _ => none

/-- RAY_ENTERS_BIN: ray `n` of a die enters its bin; the team whose instruction it held may have become ready
(R42, R414). -/
def State.rayEnters (s : State) (d n : Nat) : Option State :=
  (s.ray? d n).bind fun r => (s.enterBin d r).map fun s' =>
    match r.src with
    | some uid => s'.released s uid
    | none => s'

/-- RAY_ENTERS_BIN. -/
def execRayEntersBin (s : State) : Host.Outcome State Fault Refusal :=
  event "RAY_ENTERS_BIN" (s.rayEnters s.arg.die s.arg.n)

/-! ### Bins that have become due (R291, R292) -/

/-- TRAVERSAL_BIN_AGE: the oldest due traversal bin of a slice forms a batch. -/
def State.traversalBinAge (s : State) (d slice : Nat) : Option State :=
  let k := s.die d
  let due := (k.binsOf slice).filter fun b =>
    !b.isShader && s.ctxRuns b.ctx &&
      (decide (32 ≤ b.rays.length) || decide (b.first + k.tage ≤ k.time))
  (leastBy SkBin.first due).bind (s.formBatch d)

/-- TRAVERSAL_BIN_AGE. -/
def execTraversalBinAge (s : State) : Host.Outcome State Fault Refusal :=
  event "TRAVERSAL_BIN_AGE" (s.traversalBinAge s.arg.die s.arg.n)

/-- The shader bins of a slice in order of first arrival, then of key. -/
def Die.shaderBins (k : Die) (slice : Nat) : List SkBin :=
  sortBy (fun (a b : SkBin) => decide (a.first < b.first) || (a.first == b.first && decide (a.key ≤ b.key)))
    ((k.binsOf slice).filter SkBin.isShader)

/-- Whether a shader bin can form a wave now: due, or logged in replay. -/
def State.waveReady (s : State) (d : Nat) (b : SkBin) : Bool :=
  s.ctxRuns b.ctx && (match s.shader d b.ctx (bitsOf b.key 17 16) with
    | .ok (s, some h) =>
      if s.replaying b.ctx then (s.loggedWave d b).isSome else s.waveDue d b h
    | .ok (_, none) => true
    | .error _ => false)

/-- SHADER_BIN_AGE: the first due shader bin of a slice forms a wave. -/
def State.shaderBinAge (s : State) (d slice : Nat) : Option State :=
  match ((s.die d).shaderBins slice).find? (s.waveReady d) with
  | none => none
  | some b => match (s.asClass b.ctx).shader d b.ctx (bitsOf b.key 17 16) with
    | .ok (s, h) => s.formWave d b h
    | .error _ => none

/-- SHADER_BIN_AGE. -/
def execShaderBinAge (s : State) : Host.Outcome State Fault Refusal :=
  event "SHADER_BIN_AGE" (s.shaderBinAge s.arg.die s.arg.n)

/-! ### Traversal (R298, R300, R301) -/

/-- An exact quantity as the record holds it (R301): the reals of R300 have one zero, written +0. -/
def recordWord (x : XReal) : W32 :=
  match x with
  | .zero _ => 0#32
  | x => BitVec.ofNat 32 (roundFmt .f32 .rne x)

/-- The fields that a hit writes (R301). -/
def Hit.fields (h : Hit) : W32 × W32 × W32 × W32 × W32 × Nat :=
  let f := recordWord
  (f h.t, f h.u, f h.v, h.tri, h.geom, h.hshd)

/-- Traverses one ray of a core's batch; nothing while a home cannot serve a line. -/
def State.stepRay (s : State) (core : Nat) (r : Ray) : Option State :=
  let d := core / 64
  let w : Walker := { die := d, tlb := some core, ctx := r.ctx }
  match (s.asClass r.ctx).traverse w r with
  | .ok (s, hit) => some (s.modRay d r.num fun r => { r with state := .traversed (hit.map Hit.fields) })
  | .error (.fault code addr info) => some ((s.reportRay core r.ctx code addr info).loseRay d r.num)
  | .error (.check st a) => some (s.machineCheck r.ctx st 0 d (core % 64) false a)
  | .error .wait => none

/-- Traverses the rays of a batch in turn; a ray that waits leaves the others to go on. -/
def State.stepBatch (core : Nat) : State → List Ray → Bool → Option State
  | s, [], moved => if moved then some s else none
  | s, r :: rest, moved =>
    if !s.ctxRuns r.ctx then (if moved then some s else none)
    else match s.stepRay core r with
      | some s => State.stepBatch core s rest true
      | none => State.stepBatch core s rest moved

/-- TRAVERSAL_STEP: a core's traversal unit traverses the rays of its first batch that has some left and
whose context runs. The batch stays in the unit until the results have entered their bins (R414). -/
def State.traversalStep (s : State) (core : Nat) : Option State :=
  let next := (s.core core).batches.find? fun b =>
    s.ctxRuns b.ctx && !(s.batchLeft (core / 64) b).isEmpty
  match next with
  | none => none
  | some b =>
    if s.host.d3hot || (s.core core).power == .off then none
    else State.stepBatch core s (s.batchLeft (core / 64) b) false

/-- TRAVERSAL_STEP. -/
def execTraversalStep (s : State) : Host.Outcome State Fault Refusal :=
  event "TRAVERSAL_STEP" (s.traversalStep s.arg.core)

/-- TREELET_LINE_ARRIVAL: a line of a treelet being fetched is read at its home and arrives. -/
def State.treeletArrival (s : State) (d line : Nat) : Option State :=
  match (s.die d).treelets.find? (fun t => t.lines.contains line) with
  | none => none
  | some t =>
    let w : Walker := { die := d, tlb := none, ctx := t.ctx }
    match (s.asClass t.ctx).readLine w w.requester { space := .gddr, unit := d, addr := line } with
    | .ok s => some (s.landLine d line)
    | .error (.check st a) =>
      if s.ctxRuns t.ctx then some (s.machineCheck t.ctx st 0 d (homeSlice line) true a) else none
    | .error _ => none

/-- TREELET_LINE_ARRIVAL. -/
def execTreeletLineArrival (s : State) : Host.Outcome State Fault Refusal :=
  event "TREELET_LINE_ARRIVAL" (s.treeletArrival s.arg.die s.arg.n)

/-- A record as the end of its step leaves it, and the shader that follows (R301). -/
def resultWords (words : List W32) (hit : Option (W32 × W32 × W32 × W32 × W32 × Nat)) :
    List W32 × Nat :=
  let w12 := words.getD 12 0#32
  let w13 := words.getD 13 0#32
  match hit with
  | none => (words.set 12 (w12 &&& 0xFEFFFFFF#32), bitsOf w13.toNat 16 16)
  | some (t, u, v, tri, geom, hshd) =>
    let h := if hshd = 0xFFFF then bitsOf w13.toNat 0 16 else hshd
    let words := (words.set 12 (w12 ||| 0x01000000#32)).set 13
      (BitVec.ofNat 32 (setBitsOf w13.toNat 0 16 h))
    (((((words.set 14 t).set 15 tri).set 16 u).set 17 v).set 18 geom, h)

/-- TRAVERSAL_RESULT: a ray whose step has ended takes its result and goes to its shader's bin, or is
freed where there is no shader. -/
def State.traversalResult (s : State) (d n : Nat) : Option State :=
  match s.ray? d n with
  | none => none
  | some r => match r.state with
    | .traversed hit =>
      if !s.ctxRuns r.ctx then none
      else
        let (words, next) := resultWords r.words hit
        if next = 0xFFFF then some (s.loseRay d n)
        else some (s.modRay d n fun r => { r with
          words := words, state := .entering (some next), since := s.time d, src := none })
    | _ => none

/-- TRAVERSAL_RESULT. -/
def execTraversalResult (s : State) : Host.Outcome State Fault Refusal :=
  event "TRAVERSAL_RESULT" (s.traversalResult s.arg.die s.arg.n)

/-! ### The DONE decrement (R287) -/

/-- Takes the first DONE decrement off those a context owes. -/
def State.paidDone (s : State) (id : Nat) : State :=
  s.modCtx id fun c => { c with doneDue := c.doneDue.drop 1 }

/-- A DONE decrement that cannot be made (Table 22.1, code 11). -/
def State.reportDone (s : State) (d id : Nat) (va : Word) : State :=
  (s.paidDone id).reportDist d id 11 va 1

/-- Decrements the record at DONE, whose address the scene descriptor holds. Which core the record of
a counter at 0 names is open (log entry 8). -/
def State.sendDone (s : State) (d id : Nat) (done : Word) : Option State :=
  if done = 0#64 then some (s.paidDone id)
  else if wordBits done 0 6 ≠ 0 then some (s.reportDone d id done)
  else match s.sceneMap (deviceWalker d id) done with
    | .error (.fault _ va _) => some (s.reportDone d id va)
    | .error (.check st a) => some (s.machineCheck id st 0 d 0 false a)
    | .error .wait => none
    | .ok (s, p) =>
      if s.recordBusy (engineRequester d) p then none
      else
        let (f, s) := s.takeFree
        let core := 64 * d + (Config.openRecord (2 * f)).toNat % 64
        some ((s.paidDone id).depApply { kind := .dec, loc := p, va := done, ctx := id, core := core,
                                         checked := false, host := true })

/-- DONE_DECREMENT: a context whose LRC has reached 0, whose waves have exited and whose stores are
acknowledged and in order decrements its DONE record. -/
def State.doneDecrement (s : State) (id : Nat) : Option State :=
  match s.ctx? id with
  | none => none
  | some c => match c.doneDue with
    | [] => none
    | d :: _ =>
      let skew := if s.nDies = 1 then 2 else 8
      if c.halted || s.teams.any (fun t => t.ctx == id && t.ident.isWave) ||
          s.leftovers.any (fun x => x.ctx == id && (x.wave || s.heldTask x.task)) ||
          s.time d < c.doneG + skew then none
      else match (s.asClass id).sceneOf (deviceWalker d id) with
        | .ok (s, none) => some (s.paidDone id)
        | .ok (s, some sc) => s.sendDone d id sc.done
        | .error (.fault _ va _) => some (s.reportDone d id va)
        | .error (.check st a) => some (s.machineCheck id st 0 d 0 false a)
        | .error .wait => none

/-- DONE_DECREMENT. -/
def execDoneDecrement (s : State) : Host.Outcome State Fault Refusal :=
  event "DONE_DECREMENT" (s.doneDecrement s.arg.n)

/-! ### Pressure (R412, R414) -/

/-- Whether a ray waits at its source because a slice grants it no bin (R414). -/
def State.binless (s : State) (d slice : Nat) (r : Ray) : Bool :=
  match r.state with
  | .entering shader =>
    s.ctxRuns r.ctx && (match s.sceneOf (deviceWalker d r.ctx) with
      | .ok (s, sc) =>
        let key := binKey r.words sc shader
        keySlice key == slice && (s.joinBin d r key).isNone
      | .error _ => false)
  | _ => false

/-- Whether a slice has been under pressure for 100,000 ticks: the wave queue full, or a ray waiting
for one of its bins (R412, R414). -/
def State.pressed (s : State) (d slice : Nat) : Bool :=
  let k := s.die d
  let long := fun (since : Nat) => decide (since + 100000 ≤ k.time)
  long (k.sliceLoop slice).pressed &&
    ((match k.waveFullSince with
      | some t => long t
      | none => false) ||
     k.rays.any (fun r => long r.since && s.binless d slice r))

/-- POOL_PRESSURE: a slice under pressure reports it. -/
def State.poolPressure (s : State) (d slice : Nat) : Option State :=
  if 32 ≤ slice || !s.pressed d slice then none
  else
    let k := s.die d
    let s := s.modLoop d slice fun l => { l with pressed := k.time }
    some (s.report { kind := 8, code := 6, die := d, sl := true, unit := slice
                     info := BitVec.ofNat 64 k.waves.length })

/-- POOL_PRESSURE. -/
def execPoolPressure (s : State) : Host.Outcome State Fault Refusal :=
  event "POOL_PRESSURE" (s.poolPressure s.arg.die s.arg.n)

end Sys2Proof.Machine
end

