-- ==== Sys2Proof/Machine/Schedule.lean ====
section
/-! DEFINITION. Pre-emption for a candidate (spec/13 R321, spec/18 R349), donated slots (spec/02 R55),
stealing (spec/13 R323, spec/22 R416) and waking (spec/02 R45), and the steps PREEMPT_FOR_CANDIDATE,
DONATION_START, DONATION_END, STEAL_REQUEST, STEAL_CLAIM, STEAL_REPLY and TEAM_WAKE. -/

namespace Sys2Proof.Machine

/-! ### PREEMPT_FOR_CANDIDATE (R321, R349) -/

/-- Whether a team's release returns something that a start on its core still lacks. -/
def State.helps (s : State) (gone : Team → Bool) (n : Need) (t : Team) : Bool :=
  let core := t.coreId
  let x := t.ident.sched
  (decide (s.tilesLeft gone core < n.acc) && !t.tiles.isEmpty) ||
    (!(List.range 4).any (s.schedFits gone core n) &&
      ((8 ≤ (s.slotTeams gone core x).length) || (s.granulesLeft gone core x < n.budget && t.budget != 0)))

/-- Asks teams of a list to leave until a start fits on their core; a team without a free frame ends
the choice with its record (R361, R408). -/
def State.askOut (s : State) (n : Need) (addr : Nat) : List Nat → List Team → State
  | _, [] => s
  | out, t :: rest =>
    let gone := fun (x : Team) => out.contains x.uid
    if s.coreFits gone t.coreId n then s
    else if !s.helps gone n t then s.askOut n addr out rest
    else match (s.ctx? t.ctx).bind (s.freeFrame? ·) with
      | none => s.reportNoFrame t.coreId t.ctx addr
      | some f =>
        (s.modTeam t.uid fun t => { t with preemptReq := true, frame := some f }).askOut n addr
          (t.uid :: out) rest

/-- Classes from the lowest, and within a class the youngest first. -/
def outFirst (a b : Team) : Bool :=
  decide (b.ident.prio < a.ident.prio) ||
    (decide (a.ident.prio = b.ident.prio) && decide (b.order ≤ a.order))

/-- Whether a team of a die has been asked to leave and is still there. -/
def State.leaving (s : State) (d : Nat) : Bool := s.teams.any (fun t => t.ident.die == d && t.preemptReq)

/-- PREEMPT_FOR_CANDIDATE: the first candidate has failed for 10,000 ticks and does not fit; teams of
lower classes leave the core on which it would start without them. Where none can leave for want of
a frame, nothing is held and the candidate waits, its count begun again (R408, log entry 32). Where the candidate still does not fit once they
have left, more leave, and what the first ones released stays held (R349). -/
def State.preemptFor (s : State) (d : Nat) : Option State :=
  match (s.die d).first, (s.offers d).head? with
  | some (c, since), some o =>
    let gone := fun (t : Team) => t.isResident && decide (o.prio < t.ident.prio)
    let s' := s.modDie d fun k => { k with hold := none }
    if o.cand ≠ c || s.time d < since + 10000 || s.leaving d || s.replaying o.ctx ||
        (s'.pickCores (fun _ => false) d o).isSome then none
    else
      ((s.pickCores gone d o).or (s'.pickCores gone d o)).map fun cs =>
        let old := (s.die d).hold
        let part := fun (x : Nat) =>
          ((old.bind fun h => if h.cand = c then h.parts.find? (fun p => p.core == x) else none)).getD
            { core := x, tiles := 0, granules := [] }
        let s := s'.modDie d fun k => { k with hold := some { cand := c, parts := cs.map part } }
        let s := cs.foldl (fun (s : State) x =>
          let ts := s.teams.filter (fun t => t.coreId == x && gone t)
          s.askOut o.need (s.candAddr d o.cand) [] (sortBy outFirst ts)) s
        if s.leaving d then s
        else s.modDie d fun k => { k with hold := old, first := some (c, k.time) }
  | _, _ => none

/-- PREEMPT_FOR_CANDIDATE. -/
def execPreemptForCandidate (s : State) : Host.Outcome State Fault Refusal :=
  event "PREEMPT_FOR_CANDIDATE" (s.preemptFor s.arg.die)

/-! ### Donated slots (R55) -/

/-- Takes watching teams of a list off their core until `n` fits there; without a frame, nothing. -/
def State.displace (s : State) (p : Team) (n : Need) : List Team → Except Stop (Option State)
  | [] => .ok (some s)
  | t :: rest =>
    let none_ := fun (_ : Team) => false
    if s.coreFits none_ p.coreId n then .ok (some s)
    else if !s.helps none_ n t then s.displace p n rest
    else match (s.ctx? t.ctx).bind (s.freeFrame? ·) with
      | none => .ok none
      | some f => match s.saveTeam t f with
        | .error e => .error e
        | .ok s => (s.modTeam t.uid fun t => { t with displacedBy := some p.uid }).displace p n rest

/-- Where a pre-empted team fits on its core; in replay the spot that the log gives it (R424). -/
def State.spotHere (s : State) (t : Team) : Option Spot :=
  if s.replaying t.ctx then (s.loggedSpots t.ident.die t.offer).bind List.head?
  else if !s.coreOpen (.team t.uid) true t.coreId || !s.coreFits (fun _ => false) t.coreId t.offer.need then none
  else (s.pickSched (fun _ => false) t.coreId t.offer.need).map fun x =>
    { core := t.coreId, sched := x, slot := s.freeSlot t.coreId x }

/-- Restores a pre-empted team to its core where it fits. -/
def State.restoreHere (s : State) (t : Team) : Option State :=
  (s.spotHere t).bind fun p =>
    ((s.skipStale t.ctx t.ident.die).restore t p.sched p.slot).map fun s => s.arrivedBack t p

/-- A team in a donated slot. A wait that was armed before is no yield in that slot (R55). -/
def Team.donee (t : Team) : Team :=
  { t with donated := true, donationOver := false, cameWaiting := t.wait.isSome }

/-- What follows where a donation could not save a team: the step waits for a home, an uncorrectable word is a
machine check of the context, and a save area that cannot be written counts as no frame (R361, R390). -/
def State.unsavedDonation (s : State) (core : Nat) (p : Team) : Stop → Option State
  | .hold | .holdAt _ => none
  | .check st code a => some (s.takeStop p (.check st code a))
  | _ => some (s.reportNoFrame core p.ctx p.ident.taskAt.addr)

/-- DONATION_START: after 50,000 ticks of watching, the pre-empted team takes a donated slot. -/
def State.donationStart (s : State) (core ctx : Nat) : Option State :=
  let due := match s.watchSince.find? (fun p => p.1 == core + 128 * ctx) with
    | some (_, since) => decide (since + 50000 ≤ s.time (core / 64))
    | none => false
  if !due || !s.spins core ctx || !s.ctxRuns ctx then none
  else match s.lockHolder? core ctx with
    | none => none
    | some p =>
      let watchers := s.teams.filter fun t =>
        t.coreId == core && t.ctx == ctx && t.isResident && t.watching
      let young := sortBy (fun (a b : Team) => decide (b.order ≤ a.order)) watchers
      match s.displace p p.offer.need young with
      | .error e => s.unsavedDonation core p e
      | .ok none => some (s.reportNoFrame core ctx p.ident.taskAt.addr)
      | .ok (some s) => (s.restoreHere p).map fun s => s.modTeam p.uid Team.donee

/-- DONATION_START. -/
def execDonationStart (s : State) : Host.Outcome State Fault Refusal :=
  event "DONATION_START" (s.donationStart s.arg.core s.arg.n)

/-- Brings back the teams that a donation displaced; one that does not fit waits as a candidate. A halted
context's teams stay out (R358). -/
def State.undisplace (s : State) (uid : Nat) : State :=
  let out := sortBy (fun (a b : Team) => decide (a.place.orderOut ≤ b.place.orderOut))
    (s.teams.filter (fun t => t.displacedBy == some uid))
  let s := { s with teams := mapWhere (fun t => t.displacedBy == some uid)
                      (fun t => { t with displacedBy := none }) s.teams }
  out.foldl (fun (s : State) t =>
    if s.ctxRuns t.ctx then (s.restoreHere { t with displacedBy := none }).getD s else s) s

/-- Whether something has ended a resident donee's donation: a watched word that changed since, or a yield of the
donee in its slot (R55). -/
def Team.donationDone (t : Team) : Bool :=
  t.donationOver || t.yielded || (t.wait.isSome && !t.cameWaiting)

/-- DONATION_END: the donee leaves at a changed watched word, at its exit or at its yield, and the
displaced teams come back. -/
def State.donationEnd (s : State) (uid : Nat) : Option State :=
  match s.team? uid with
  | none =>
    if s.teams.any (fun t => t.displacedBy == some uid && s.ctxRuns t.ctx) then some (s.undisplace uid)
    else none
  | some p =>
    if !p.donated || !s.ctxRuns p.ctx then none
    else if !p.isResident then
      some ((s.putTeam { p with donated := false }).undisplace uid)
    else if !p.donationDone || p.pend.isSome then none
    else
      let p := { p with donated := false, donationOver := false, cameWaiting := false }
      let s := s.putTeam p
      match (s.ctx? p.ctx).bind (s.freeFrame? ·) with
      | none => some ((s.reportNoFrame p.coreId p.ctx p.ident.taskAt.addr).undisplace uid)
      | some f => match s.saveTeam p f with
        | .ok s => some (s.undisplace uid)
        | .error e => (s.unsavedDonation p.coreId p e).map fun s => s.undisplace uid

/-- DONATION_END. -/
def execDonationEnd (s : State) : Host.Outcome State Fault Refusal :=
  event "DONATION_END" (s.donationEnd s.arg.n)

/-! ### Stealing (R323, R416) -/

/-- The mesh distance of two cores of a die (R12). -/
def meshDistance (a b : Nat) : Nat :=
  (max (a % 8) (b % 8) - min (a % 8) (b % 8)) + (max (a / 8 % 8) (b / 8 % 8) - min (a / 8 % 8) (b / 8 % 8))

/-- The next victim of a thief: the nearest core that it has not asked in this round. -/
def nextVictim (core : Nat) (tried : List Nat) : Option Nat :=
  leastBy (fun v => 64 * meshDistance core v + v % 64)
    (((List.range 64).map (fun c => core / 64 * 64 + c)).filter
      (fun v => v != core && !tried.contains v))

/-- Whether a core is idle: it has a free slot and no candidate has fitted it for 1,000 ticks. -/
def State.coreIdle (s : State) (core : Nat) : Bool :=
  let k := s.core core
  decide ((k.idleSince.getD 0) + 1000 ≤ s.time (core / 64)) &&
    (List.range 4).any (fun x => decide ((s.slotTeams (fun _ => false) core x).length < 8))

/-- The free resources of a core, as its steal request carries them (R323). -/
def State.freeOf (s : State) (core : Nat) : Carried :=
  let none_ := fun (_ : Team) => false
  { scheds := (List.range 4).map fun x => (8 - (s.slotTeams none_ core x).length, s.granulesLeft none_ core x)
    tiles := s.tilesLeft none_ core
    scratch := s.scratchHeld core }

/-- Whether a shape fits the resources that a steal request carries (R323 step 2, R40). -/
def Carried.fits (c : Carried) (n : Need) : Bool :=
  c.scheds.any (fun x => decide (1 ≤ x.1) && decide (n.budget ≤ x.2)) && decide (n.acc ≤ c.tiles) &&
    (firstGap c.scratch n.scrg).isSome

/-- STEAL_REQUEST: an idle core with a derating level below 2 asks its next victim. -/
def State.stealRequest (s : State) (core : Nat) : Option State :=
  let k := s.core core
  let held := match (s.die (core / 64)).hold with
    | some h => h.parts.any (fun p => p.core == core)
    | none => false
  if 64 * s.nDies ≤ core || !s.coreIdle core || 2 ≤ k.derate || k.tripped || k.cut || k.power == .off ||
      s.stitching core || s.host.d3hot || held || k.steal.victim.isSome || k.steal.claimed.isSome ||
      s.time (core / 64) < k.steal.retry then none
  else (nextVictim core k.steal.tried).map fun v =>
    s.modCore core fun k => { k with
      steal := { k.steal with victim := some v, carries := some (s.freeOf core), answered := false } }

/-- STEAL_REQUEST. -/
def execStealRequest (s : State) : Host.Outcome State Fault Refusal :=
  event "STEAL_REQUEST" (s.stealRequest s.arg.core)

/-- Whether a core can take a team that it steals: nothing has closed it since it asked (R418, R421,
R335). -/
def State.thiefOpen (s : State) (core : Nat) : Bool :=
  let k := s.core core
  !k.tripped && !k.cut && !s.host.d3hot

/-- The oldest local task of a victim that a thief may take, whose shape fits what the request carries (R323
step 2). -/
def State.stealable (s : State) (thief victim : Nat) : Option (TaskRef × TaskRec) :=
  let ok := fun (t : TaskRef) =>
    let r := s.record t.loc
    let q := s.queue t.queue
    let n : Need := { budget := r.budget, scrg := r.scrg, acc := r.acc }
    r.next < r.nteams && !r.nosteal && r.clw * r.clh = 1 && bitOf q.cmask (thief % 64) && q.serves &&
      s.ctxRuns t.ctx && !s.replaying t.ctx && (s.core thief).steal.carries.any (fun c => c.fits n)
  if !s.thiefOpen thief || s.stitching thief then none
  else (((s.die (victim / 64)).localList (victim % 64)).find? ok).map (fun t => (t, s.record t.loc))

/-- What a thief keeps for a team that it has claimed, until the answer lands (R323, R326). -/
def State.reserveFor (s : State) (core : Nat) (r : TaskRec) : Option Reserve :=
  let n : Need := { budget := r.budget, scrg := r.scrg, acc := r.acc }
  (s.pickSched (fun _ => false) core n).map fun x =>
    { sched := x, slot := s.freeSlot core x, budget := r.budget, acc := r.acc
      scrBase := 4096 * (s.firstFit core r.scrg).getD 0, scrG := r.scrg }

/-- STEAL_CLAIM: the victim claims a TEAMID for the thief, which keeps the team's resources from then on, or
refuses; one that is OFF refuses. It waits while the record's home cannot serve it (R190). -/
def State.stealClaim (s : State) (core : Nat) : Option State :=
  let st := (s.core core).steal
  match st.victim with
  | none => none
  | some v =>
    if st.answered then none
    else
      let answer := fun (s : State) (c : Option (Phys × Word × Nat × Nat)) (h : Option Reserve) =>
        s.modCore core fun k => { k with
          steal := { k.steal with answered := true, claimed := c, carries := none, reserve := h } }
      if (s.core v).power == .off then some (answer s none none)
      else match s.stealable core v with
        | none => some (answer s none none)
        | some (t, r) =>
          if s.recordBusy (engineRequester (core / 64)) t.loc then none else
          let d := core / 64
          let keep := s.reserveFor core r
          let s := (s.asClass t.ctx).reachRecord d t.loc
          let s := s.putProgress t.loc 2 (r.next + 1) (r.live + 1)
          let s := if s.tasks.any (fun k => k.loc == t.loc) then s
            else { s with tasks := s.tasks ++ [{ loc := t.loc, ctx := t.ctx, gwct := 0, hold := false }] }
          let s := s.logEvent t.ctx d 4
            [t.va, BitVec.ofNat 64 (r.next + 2 ^ 32 * (core % 64) + 2 ^ 40 * (v % 64))]
          some (answer (s.dropStarted d t) (some (t.loc, t.va, t.ctx, r.next)) keep)

/-- STEAL_CLAIM. -/
def execStealClaim (s : State) : Host.Outcome State Fault Refusal :=
  event "STEAL_CLAIM" (s.stealClaim s.arg.core)

/-- Starts a claimed team on what its thief has kept for it; one whose context has halted is not started
(R416). -/
def State.startClaimed (s : State) (core : Nat) (p : Phys) (va : Word) (ctx teamid : Nat)
    (keep : Option Reserve) : State :=
  let r := s.record p
  match keep with
  | none => s
  | some h =>
    if !s.ctxRuns ctx then s
    else
      let id : Ident :=
        { teamid := teamid, nteams := r.nteams, lanes := r.lanes, elanes := r.lanes, die := core / 64
          core := core % 64, sched := h.sched, slot := h.slot, clw := 1, clh := 1, rank := 0
          isWave := false, waveid := 0, shader := 0, task := va, taskAt := p, prio := r.prio
          scrBase := h.scrBase, scrG := h.scrG }
      let team := Team.atStart s.nextUid ctx id r.entry r.params r.vregs h.budget h.acc s.nextUid
        (s.core core).cycles
      ({ s with teams := s.teams ++ [team], nextUid := s.nextUid + 1 }.wakeCore core).noteRun

/-- STEAL_REPLY: the thief starts the claimed team, or goes on to the next victim; after a refusal
from every core it waits 1,000 ticks. A thief that has tripped meanwhile takes the team once it takes
teams again (R421). -/
def State.stealReply (s : State) (core : Nat) : Option State :=
  let st := (s.core core).steal
  match st.victim with
  | none => none
  | some v =>
    if !st.answered || (st.claimed.isSome && !s.thiefOpen core) then none
    else
      let rest := fun (tried : List Nat) (retry : Nat) (s : State) =>
        s.modCore core fun k => { k with
          steal := { tried := tried, victim := none, claimed := none, carries := none, reserve := none
                     answered := false, retry := retry } }
      match st.claimed with
      | some (p, va, ctx, id) =>
        let s := rest [] 0 (s.startClaimed core p va ctx id st.reserve)
        some (s.modCore core fun k => { k with idleSince := some (s.time (core / 64)) })
      | none =>
        let tried := v :: st.tried
        if (nextVictim core tried).isSome then some (rest tried st.retry s)
        else some (rest [] (s.time (core / 64) + 1000) s)

/-- STEAL_REPLY. -/
def execStealReply (s : State) : Host.Outcome State Fault Refusal :=
  event "STEAL_REPLY" (s.stealReply s.arg.core)

/-! ### TEAM_WAKE (R44, R45) -/

/-- Whether the wake-up of a wait is sent to its core: that of WATCH and CBAR is, and needs the core's landing
slot (R327). -/
def WaitKind.isSent : WaitKind → Bool
  | .watch _ _ | .barrier _ _ => true
  | _ => false

/-- A team whose wait has been met; where the wait was a yield of a donee, the donation is over (R55). -/
def Team.woken (t : Team) (cycles : Nat) : Team :=
  { t with
    wait := none, readySince := cycles, cameWaiting := false
    donationOver := t.donationOver || (t.donated && !t.cameWaiting) }

/-- TEAM_WAKE: a resident team whose wait has been met is ready at its continuation. -/
def State.teamWake (s : State) (uid : Nat) : Option State :=
  match s.team? uid with
  | none => none
  | some t => match t.wait with
    | some { kind, fired := true } =>
      if !t.isResident || !s.ctxRuns t.ctx || (kind.isSent && s.landing t.coreId) then none
      else some (s.putTeam (t.woken (s.core t.coreId).cycles))
    | _ => none

/-- TEAM_WAKE. -/
def execTeamWake (s : State) : Host.Outcome State Fault Refusal :=
  event "TEAM_WAKE" (s.teamWake s.arg.n)

end Sys2Proof.Machine
end

