-- ==== Sys2Proof/Machine/System.lean ====
section
/-! DEFINITION. Row 0xF: control registers, return from a handler, TLB invalidation, halt, monitors,
markers and breakpoints (spec/19 R354, R366 to R371). -/

namespace Sys2Proof.Machine

/-! ### CSRR and CSRW (R367, R387) -/

/-- The control register of a number as a team reads it. -/
def State.csr (s : State) (t : Team) (num : Nat) : Word :=
  if num < 0x100 then t.csr num
  else if num < 0x200 then ((s.ctx? t.ctx).map (fun c => c.csr num)).getD 0#64
  else (s.die t.ident.die).regs.get num

/-- CSRR: s[D] := the register. -/
def execCsrr (d : Field) (i : BitVec 16) (s : State) : Host.Outcome State Fault Refusal :=
  issueTeam (.csrr d i) s fun t => (t.setD d (s.csr t i.toNat)).advance

/-- Whether Table 19.9 lets a team write a register. -/
def State.mayWrite (s : State) (t : Team) (num : Nat) : Bool :=
  if num = 9 || num = 10 then true
  else if num < 0x200 then s.privileged t
  else (match s.ctx? t.ctx with
    | some c => c.sys
    | none => false)

/-- Whether a write would change CTXCTL.SYS (R360). -/
def State.changesSys (s : State) (t : Team) (num : Nat) (v : Word) : Bool :=
  num == 0x107 && (match s.ctx? t.ctx with
    | some c => bitOf v.toNat 4 != c.sys
    | none => false)

/-- The state after a permitted CSRW; a value that the register refuses changes nothing. -/
def State.writeCsr (s : State) (t : Team) (num : Nat) (v : Word) : State :=
  if num < 0x100 then
    if teamRegValid num v then s.putTeam (t.setCsr num v).advance else s.putTeam t.advance
  else
    let s := s.putTeam t.advance
    if num < 0x200 then
      if ctxRegValid num v then s.writeCtx t.ident.die t.ctx num v else s
    else if s.dieRegValid t.ident.die num v then s.writeDie t.ident.die num v
    else s

/-- CSRW: the register := sread(D), under its own rules. -/
def execCsrw (d : Field) (i : BitVec 16) (s : State) : Host.Outcome State Fault Refusal :=
  issue (.csrw d i) s fun t =>
    let num := i.toNat
    let v := s.sread t d
    if !s.mayWrite t num || s.changesSys t num v then
      raise { code := 20, tinfo := BitVec.ofNat 64 num }
    else .ok (s.writeCsr t num v)

/-! ### ERET, TLBINV and HALT (R354, R368, R369) -/

/-- ERET: returns from the handler; its own faults are nested, and halt the context (R354, R355). -/
def execEret (s : State) : Host.Outcome State Fault Refusal :=
  issue .eret s fun t =>
    let mode := t.trap.tmode.toNat
    if 5 < bitsOf mode 9 3 || 12 < bitsOf mode 4 5 then
      .error (.nested { code := 16, tinfo := t.trap.tmode })
    else if wordBits t.trap.tpc 0 2 ≠ 0 then .error (.nested { code := 15, taddr := t.trap.tpc })
    else .ok (s.putTeam t.eret)

/-- Whether an access that satisfies the tests is not yet performed or acknowledged: a request that waits for
its home, a load's reply or a store's acknowledgement on its way, a pair that has left its stream buffer or has
not yet entered it, a DSM element (R391). `loc` tests where an access lies, `team` whose it is. -/
def State.inFlight (s : State) (loc : Phys → Bool) (team : Nat → Bool) : Bool :=
  (s.die0.mesh ++ s.die1.mesh).any (fun r => loc r.loc && team r.uid) ||
    s.cores.any (fun c => c.2.replies.any (fun r => loc r.loc && team r.uid) ||
      c.2.entering.any (fun e => team e.uid && e.groups.any (fun g =>
        g.any (fun p => loc { space := .gddr, unit := p.die, addr := p.addr })))) ||
    (s.die0.flight ++ s.die1.flight).any
      (fun p => loc { space := .gddr, unit := p.die, addr := p.addr } && team p.uid) ||
    (s.die0.acks ++ s.die1.acks).any (fun a => loc a.loc && team a.uid) ||
    (s.die0.dsmQ ++ s.die1.dsmQ).any
      (fun r => loc { space := .dsm, unit := r.die, addr := r.addr } && team r.uid)

/-- Whether an access that a context translated is not yet settled, an operation on a task record included
(R391). -/
def State.unsettled (s : State) (ctx : Nat) : Bool :=
  s.depQ.any (fun o => o.ctx == ctx && o.checked) ||
    s.inFlight (fun _ => true) fun uid => s.ctxOfUid uid == some ctx

/-- Whether a page meets [a, a + n); a length of 0 names every page. -/
def pageMeets (a n vpn : Nat) : Bool :=
  n == 0 || (decide (vpn * 65536 < a + n) && decide (a < (vpn + 1) * 65536))

/-- TLBINV: a fence of scope PAIR (DIE on VSX1-M), then the shootdown of the context's translations
of a range; held until every unit can acknowledge it, which none across a pair link that is down can, and
until its multicast has every landing slot (R327, R391, R397). -/
def execTlbinv (a b : Field) (s : State) : Host.Outcome State Fault Refusal :=
  issue (.tlbinv a b) s fun t => do
    s.needFence t 3
    if s.unsettled t.ctx || s.anyLanding || (s.nDies == 2 && !s.linkWorks) then .error .hold
    else
      let meets := pageMeets (s.sread t a).toNat (s.sread t b).toNat
      pure (((s.putTeam t.advance).tlbinv t.ctx meets).dropTreelets t.ident.die)

/-- HALT: halts the context with its operand in the record, whose PC is the team's TPC (Table 19.4). -/
def execHalt (a : Field) (s : State) : Host.Outcome State Fault Refusal :=
  issue (.halt a) s fun t =>
    .ok ((s.putTeam t.advance).haltCtx t.ctx
      (t.report { kind := 1, code := 0, info := s.sread t a, pc := t.trap.tpc }))

/-! ### MONR, MARK and BKPT (R370, R371) -/

/-- Whether a monitor is one of a core (Table 13.9). -/
def monitorOfCore (mon : Nat) : Bool := decide (mon ≤ 3)

/-- The record of a monitor's unit on a die; one without samples is all zero. -/
def Die.monitor (k : Die) (mon unit : Nat) : MonRec :=
  (k.monitors.find? (fun m => m.mon == mon && m.unit == unit)).getD
    { mon := mon, unit := unit, min := 0, max := 0, count := 0, bins := List.replicate 16 0,
      rearm := 0 }

/-- The 8-byte word `k` of a monitor record (R337, R370). -/
def MonRec.word (m : MonRec) (k : Nat) : Word :=
  match k with
  | 0 => BitVec.ofInt 32 m.max ++ BitVec.ofInt 32 m.min
  | 1 => BitVec.ofNat 64 m.count
  | k => BitVec.ofNat 64 (m.bins.getD (2 * (k - 2)) 0 + 2 ^ 32 * m.bins.getD (2 * (k - 2) + 1) 0)

/-- MONR: one word of a monitor record. -/
def execMonr (d a b : Field) (s : State) : Host.Outcome State Fault Refusal :=
  issue (.monr d a b) s fun t =>
    let x := s.sread t a
    let y := s.sread t b
    let mon := wordBits x 0 3
    let channel := wordBits x 8 5
    let named := mon = 4 || mon = 5
    if !onlyBits x (if named then 0x1F07 else 0x7) then raise (trapOperand a.toNat x)
    else if 9 < y.toNat then raise (trapOperand b.toNat y)
    else
      let unit := if monitorOfCore mon then t.ident.core else if named then channel else 0
      .ok (s.putTeam ((t.setD d (((s.die t.ident.die).monitor mon unit).word y.toNat)).advance))

/-- The MARK entry that a replaying team meets next, with its immediate (R424). -/
def State.nextMark (s : State) (t : Team) : Option LogEntry :=
  ((s.replayLog t.ctx t.ident.die).filter fun e =>
    e.type == 7 && e.payload.take 2 == t.logIds).drop t.marks |>.head?

/-- The comparison of a MARK with its entry in replay (R424, R425). -/
def State.matchMark (s : State) (t : Team) (i : BitVec 16) : Except Stop Unit :=
  if !s.replaying t.ctx then .ok ()
  else match s.nextMark t with
    | none => .error (.diverged 0#64 0)
    | some e =>
      if (e.payload.drop 2).headD 0#64 = i.setWidth 64 then .ok ()
      else .error (.diverged e.at_ e.seq)

/-- MARK: appends its entry where the context records. -/
def execMark (i : BitVec 16) (s : State) : Host.Outcome State Fault Refusal :=
  issue (.mark i) s fun t => do
    s.matchMark t i
    let s' ← s.appendLog t.ctx t.ident.die 7 (t.logIds ++ [i.setWidth 64, 0#64])
    let n := if s.replaying t.ctx then t.marks + 1 else t.marks
    pure (s'.modTeam t.uid fun t => { t.advance with marks := n })

/-- BKPT: raises BREAKPOINT where debugging is enabled; the return PC is PC + 4. -/
def execBkpt (i : BitVec 16) (s : State) : Host.Outcome State Fault Refusal :=
  issue (.bkpt i) s fun t =>
    if ((s.ctx? t.ctx).map Ctx.dbg).getD false then
      raise { code := 23, code16 := i.toNat, after := true }
    else .ok (s.putTeam t.advance)

end Sys2Proof.Machine
end

