-- ==== Sys2Proof/Machine/Timing.lean ====
section
/-! DEFINITION. Power states, derating, control loops, monitors, the noise source and the end of a
rate-limit interval (spec/06 R161, spec/13 R318, R335 to R337, spec/19 R429, spec/20 R382, spec/22
R420 to R422). What a step senses (a temperature, a clock step, an error rate) is its subject. -/

namespace Sys2Proof.Machine

/-- The cores of a die. -/
def dieCores (d : Nat) : List Nat := (List.range 64).map (fun c => 64 * d + c)

/-- An alarm (Table 22.4). -/
def State.alarm (s : State) (d code : Nat) (sl : Bool) (unit : Nat) : State :=
  s.reportLimited { kind := 3, code := code, die := d, sl := sl, unit := unit } false

/-! ### RECORD_INTERVAL_CLOSE (R429) -/

/-- RECORD_INTERVAL_CLOSE: interval `n` of a die ends 1,000,000 ticks after it opened. -/
def State.intervalClose (s : State) (d n : Nat) : Option State :=
  let k := s.die d
  match k.intervals.drop n with
  | [] => none
  | i :: rest =>
    if k.time < i.opened + 1000000 then none
    else
      let s := s.modDie d fun k => { k with intervals := k.intervals.take n ++ rest }
      some (if i.count = 0 then s else s.appendWords i.closing)

/-- RECORD_INTERVAL_CLOSE. -/
def execRecordIntervalClose (s : State) : Host.Outcome State Fault Refusal :=
  event "RECORD_INTERVAL_CLOSE" (s.intervalClose s.arg.die s.arg.n)

/-! ### Power states (R335) -/

/-- Whether a team of a core could issue if its clock ran. -/
def State.coreWanted (s : State) (core : Nat) : Bool :=
  s.teams.any fun t => t.coreId == core && s.waitsTurn t

/-- CORE_CLOCK_GATE: a core where no team has issued for 1,000 cycles becomes IDLE. -/
def State.clockGate (s : State) (core : Nat) : Option State :=
  let k := s.core core
  if 64 * s.nDies ≤ core || k.power != .run || s.coreWanted core || k.cycles < k.lastIssueAt + 1000
  then none
  else some (s.setCore core { k with power := .idle })

/-- CORE_CLOCK_GATE. -/
def execCoreClockGate (s : State) : Host.Outcome State Fault Refusal :=
  event "CORE_CLOCK_GATE" (s.clockGate s.arg.core)

/-- CORE_POWER_GATE: a core that has been empty for 1 ms becomes OFF. -/
def State.powerGate (s : State) (core : Nat) : Option State :=
  let k := s.core core
  if 64 * s.nDies ≤ core || k.power == .off || s.coreBusy core k ||
      s.time (core / 64) < k.emptySince + 1000000 then none
  else some (s.setCore core { k with power := .off, wakeAt := none })

/-- CORE_POWER_GATE. -/
def execCorePowerGate (s : State) : Host.Outcome State Fault Refusal :=
  event "CORE_POWER_GATE" (s.powerGate s.arg.core)

/-- CORE_WAKE: an IDLE core with a team to issue returns to RUN, and so does an OFF core 20 µs after a
team came to it. -/
def State.coreWake (s : State) (core : Nat) : Option State :=
  let k := s.core core
  let due := match k.power with
    | .run => false
    | .idle => s.coreWanted core
    | .off => match k.wakeAt with
      | some t => decide (t ≤ s.time (core / 64)) && !k.tripped
      | none => false
  if s.host.d3hot || !due then none
  else some (s.setCore core { k with power := .run, wakeAt := none, lastIssueAt := k.cycles })

/-- CORE_WAKE. -/
def execCoreWake (s : State) : Host.Outcome State Fault Refusal :=
  event "CORE_WAKE" (s.coreWake s.arg.core)

/-- D3HOT_ENTRY: every core is OFF and GDDR7 refreshes itself; contents are kept. -/
def State.d3hotEntry (s : State) : Option State :=
  if s.host.d3hot then none
  else
    let s := { s with host := { s.host with d3hot := true } }
    some (((List.range s.nDies).flatMap dieCores).foldl (fun (s : State) c =>
      s.modCore c fun k => { k with power := .off, wakeAt := none }) s)

/-- D3HOT_ENTRY. -/
def execD3hotEntry (s : State) : Host.Outcome State Fault Refusal :=
  event "D3HOT_ENTRY" s.d3hotEntry

/-- D3HOT_EXIT: the cores may wake; those with a team or a batch of rays do so in 20 µs. -/
def State.d3hotExit (s : State) : Option State :=
  if !s.host.d3hot then none
  else
    let s := { s with host := { s.host with d3hot := false } }
    let working := (s.cores.filter (fun p => !p.2.batches.isEmpty)).map Prod.fst
    some (((s.teams.filter Team.onCore).map Team.coreId ++ working).foldl
      (fun (s : State) c => s.wakeCore c) s)

/-- D3HOT_EXIT. -/
def execD3hotExit (s : State) : Host.Outcome State Fault Refusal :=
  event "D3HOT_EXIT" s.d3hotExit

/-! ### Derating (R318) -/

/-- A threshold of SYS.DERATE: T1 to T3. -/
def Die.tempLimit (k : Die) (n : Nat) : Nat := wordBits k.regs.derate (8 * (n - 1)) 8
/-- D1 to D3 -/
def Die.droopLimit (k : Die) (n : Nat) : Nat := wordBits k.regs.derate (16 + 8 * n) 8
/-- HYS -/
def Die.hysteresis (k : Die) : Nat := wordBits k.regs.derate 48 4

/-- The greatest level of 1 to 3 that satisfies `p`, else 0. -/
def topLevel (p : Nat → Bool) : Nat := if p 3 then 3 else if p 2 then 2 else if p 1 then 1 else 0

/-- The level that a falling one reaches: it stays at `n` while `p n` holds. -/
def fallTo (p : Nat → Bool) : Nat → Nat
  | 0 => 0
  | n + 1 => if p (n + 1) then n + 1 else fallTo p n

/-- The thermal level at a temperature. -/
def Die.thermalLevel (k : Die) (now : Nat) (temp : Int) : Nat :=
  let up := topLevel fun n => decide ((k.tempLimit n : Int) ≤ temp)
  let down := fallTo (fun n => decide ((k.tempLimit n : Int) - k.hysteresis ≤ temp)) now
  max up down

/-- A core after `events` more droop events: its level rises at once, and falls after ten periods of
10,000 ticks below a level's limit. -/
def Die.droopSample (k : Die) (c : Core) (events : Nat) : Core :=
  let count := c.droopCount + events
  let rise := topLevel fun n => decide (k.droopLimit n ≤ count)
  let c := { c with droopCount := count, droop := max c.droop rise }
  if k.time < c.droopSince + 10000 then c
  else
    let cool := [1, 2, 3].map fun n =>
      if count < k.droopLimit n then c.coolPeriods.getD (n - 1) 0 + 1 else 0
    { c with
      droopCount := 0, droopSince := k.time, coolPeriods := cool
      droop := fallTo (fun n => decide (cool.getD (n - 1) 0 < 10)) c.droop }

/-- DERATE_SAMPLE: a core's levels from its temperature and the droop events since its last sample; a
tripped core below T1 may take teams again (R421), and wakes where its traversal unit has a batch. -/
def State.derateSample (s : State) (core : Nat) (temp : Int) (events : Nat) : Option State :=
  if 64 * s.nDies ≤ core then none
  else
    let k := s.die (core / 64)
    let before := s.core core
    let s := s.modCore core fun c =>
      let c := k.droopSample c events
      { c with
        temp := temp, thermal := k.thermalLevel c.thermal temp
        tripped := c.tripped && decide ((k.tempLimit 1 : Int) ≤ temp) }
    some (if before.tripped && !(s.core core).tripped && !before.batches.isEmpty then s.wakeCore core else s)

/-- DERATE_SAMPLE. -/
def execDerateSample (s : State) : Host.Outcome State Fault Refusal :=
  event "DERATE_SAMPLE" (s.derateSample s.arg.core s.arg.v s.arg.n)

/-- Halts every context with a team on a core, with a machine check. -/
def State.checkCore (s : State) (core struct code : Nat) : State :=
  let here := fun (id : Nat) => s.teams.any (fun t => t.ctx == id && t.coreId == core && t.onCore)
  ((s.ctxs.map Ctx.id).filter here).foldl (fun (s : State) id =>
    s.machineCheck id struct code (core / 64) (core % 64) false 0) s

/-- THERMAL_TRIP: a core at T3 + 10 °C halts its contexts and goes OFF (R421). -/
def State.thermalTrip (s : State) (core : Nat) : Option State :=
  let k := s.core core
  if 64 * s.nDies ≤ core || k.tripped || k.temp < (s.die (core / 64)).tempLimit 3 + 10 then none
  else some ((s.checkCore core 0 1).modCore core fun k =>
    { k with tripped := true, power := .off, wakeAt := none })

/-- THERMAL_TRIP. -/
def execThermalTrip (s : State) : Host.Outcome State Fault Refusal :=
  event "THERMAL_TRIP" (s.thermalTrip s.arg.core)

/-! ### Control loops (R336) -/

/-- CLOCK_LOOP: a core's clock takes the step that its loop has chosen, in units of f / 64, between f / 4
and f, and at most f / 2 at level 3; held at the floor for 1 ms it raises an alarm. -/
def State.clockLoop (s : State) (core step : Nat) : Option State :=
  let k := s.core core
  let now := s.time (core / 64)
  let top := if k.derate = 3 then 32 else 64
  if 64 * s.nDies ≤ core || step < 16 || top < step then none
  else
    let since := if step = 16 then some (k.clockFloorSince.getD now) else none
    let s := s.setCore core { k with clock := step, clockFloorSince := since }
    match since with
    | some t => some (if t + 1000000 ≤ now then s.alarm (core / 64) 1 false (core % 64) else s)
    | none => some s

/-- CLOCK_LOOP. -/
def execClockLoop (s : State) : Host.Outcome State Fault Refusal :=
  event "CLOCK_LOOP" (s.clockLoop s.arg.core s.arg.v.toNat)

/-- GDDR7_EQUALISATION: a channel is retrained; an eye margin still below its floor raises an alarm. -/
def State.gddrEqualise (s : State) (d channel : Nat) (good : Bool) : Option State :=
  if s.nDies ≤ d || 32 ≤ channel then none
  else some (if good then s else s.alarm d 2 true channel)

/-- GDDR7_EQUALISATION. -/
def execGddr7Equalisation (s : State) : Host.Outcome State Fault Refusal :=
  event "GDDR7_EQUALISATION" (s.gddrEqualise s.arg.die s.arg.n s.arg.ok)

/-- SERDES_ADAPTATION: the lanes of an edge interface adapt; an error rate that stays too high raises an
alarm. -/
def State.serdesAdapt (s : State) (d interface : Nat) (good : Bool) : Option State :=
  if s.nDies ≤ d || 64 ≤ interface then none
  else some (if good then s else s.alarm d 3 false interface)

/-- SERDES_ADAPTATION. -/
def execSerdesAdaptation (s : State) : Host.Outcome State Fault Refusal :=
  event "SERDES_ADAPTATION" (s.serdesAdapt s.arg.die s.arg.n s.arg.ok)

/-- WAVE_AGE_LOOP: the effective AGE of a slice at the end of a period. -/
def State.waveAgeLoop (s : State) (d slice : Nat) : Option State :=
  let k := s.die d
  let l := k.sliceLoop slice
  let age := wordBits k.regs.skcfg 16 16
  let now := k.effAge slice
  let waiting := !k.waves.isEmpty
  if s.nDies ≤ d || 32 ≤ slice || !bitOf k.regs.skcfg.toNat 58 then none
  else
    let next := if waiting then now * 5 / 4
      else if l.formed < 2 * l.byAge then now * 3 / 4 else now
    let s := s.modLoop d slice fun l =>
      { l with age := min age (max (age / 4) next), byAge := 0, formed := 0 }
    some (if waiting && now = age / 4 then s.alarm d 4 true slice else s)

/-- WAVE_AGE_LOOP. -/
def execWaveAgeLoop (s : State) : Host.Outcome State Fault Refusal :=
  event "WAVE_AGE_LOOP" (s.waveAgeLoop s.arg.die s.arg.n)

/-- PREFETCH_THRESHOLD_LOOP: the effective PF of a slice at the end of a period; a period without
treelet reads leaves it. -/
def State.prefetchLoop (s : State) (d slice : Nat) : Option State :=
  let k := s.die d
  let l := k.sliceLoop slice
  let pf := wordBits k.regs.skcfg 48 10
  let now := k.effPf slice
  if s.nDies ≤ d || 32 ≤ slice || !bitOf k.regs.skcfg.toNat 59 then none
  else
    let high := decide (l.reads < 8 * l.misses)
    let next := if high then now - 1 else if 64 * l.misses < l.reads then now + 1 else now
    let s := s.modLoop d slice fun l => { l with pf := min pf (max 1 next), reads := 0, misses := 0 }
    some (if high && now = 1 then s.alarm d 5 true slice else s)

/-- PREFETCH_THRESHOLD_LOOP. -/
def execPrefetchThresholdLoop (s : State) : Host.Outcome State Fault Refusal :=
  event "PREFETCH_THRESHOLD_LOOP" (s.prefetchLoop s.arg.die s.arg.n)

/-! ### Monitors (R337, R422) -/

/-- LO and STEP of a monitor's bins (Table 13.9). -/
def monitorScale (mon : Nat) : Int × Nat :=
  match mon with
  | 0 => (40, 5)
  | 1 => (0, 5)
  | 2 => (16, 3)
  | 3 => (0, 64)
  | 4 => (100, 32)
  | 5 => (0, 256)
  | 6 => (0, 500)
  | _ => (-400, 50)

/-- The bin of a sample. -/
def monitorBin (mon : Nat) (v : Int) : Nat :=
  let (lo, step) := monitorScale mon
  min 15 (floorDiv (v - lo) step).toNat

/-- How many units of a die a monitor has. -/
def monitorUnits (mon : Nat) : Nat := if mon ≤ 3 then 64 else if mon ≤ 5 then 32 else 1

/-- The thresholds of a monitor: at reset the whole range. -/
def State.thresholds (s : State) (mon : Nat) : Int × Int :=
  match s.host.thresholds.find? (fun p => p.1 == mon) with
  | some p => p.2
  | none => (-(2 ^ 31), 2 ^ 31 - 1)

/-- A monitor record with one more sample. -/
def MonRec.sample (m : MonRec) (v : Int) (outside : Bool) : MonRec :=
  let b := monitorBin m.mon v
  { m with
    min := if m.count = 0 then v else Min.min m.min v
    max := if m.count = 0 then v else Max.max m.max v
    count := (m.count + 1) % 2 ^ 64
    bins := m.bins.set b (Min.min (m.bins.getD b 0 + 1) (2 ^ 32 - 1))
    rearm := if outside then 16 else m.rearm - 1 }

/-- MONITOR_SAMPLE: monitor `mon` of a unit takes a sample; one outside its thresholds raises an alarm,
which is armed again by 16 samples within them. -/
def State.monitorSample (s : State) (d mon unit : Nat) (v : Int) : Option State :=
  if s.nDies ≤ d || 8 ≤ mon || monitorUnits mon ≤ unit || v < -(2 ^ 31) || 2 ^ 31 ≤ v then none
  else
    let m := (s.die d).monitor mon unit
    let (lo, hi) := s.thresholds mon
    let outside := decide (hi < v) || decide (v < lo)
    let others := (s.die d).monitors.filter (fun x => !(x.mon == mon && x.unit == unit))
    let s := s.modDie d fun k => { k with monitors := m.sample v outside :: others }
    some (if outside && m.rearm = 0 then
        s.alarm d (if hi < v then 6 else 7) (mon == 4 || mon == 5) unit
      else s)

/-- MONITOR_SAMPLE. -/
def execMonitorSample (s : State) : Host.Outcome State Fault Refusal :=
  event "MONITOR_SAMPLE" (s.monitorSample s.arg.die s.arg.n s.arg.m s.arg.v)

/-! ### The noise source (R161, R382) -/

/-- The health test fails: the words conditioned from the failing bits, the newest `n`, are lost; a
second failure within 1,000,000 ticks is final. -/
def State.noiseFail (s : State) (core n : Nat) : State :=
  let now := s.time (core / 64)
  let s := s.modCore core fun k => { k with
    noise := k.noise.take (k.noise.length - n)
    noiseFailAt := some now
    noiseFailed := match k.noiseFailAt with
      | some t => decide (now < t + 1000000)
      | none => false }
  s.alarm (core / 64) 0 false (core % 64)

/-- NOISE_WORD: the source of a core delivers a word into its buffer of 8, or fails its health test. -/
def State.noiseStep (s : State) (core n : Nat) (good : Bool) : Option State :=
  let k := s.core core
  if 64 * s.nDies ≤ core || k.noiseFailed then none
  else if !good then some (s.noiseFail core n)
  else if 8 ≤ k.noise.length then none
  else
    let (f, s) := s.takeFree
    some (s.modCore core fun k => { k with noise := k.noise ++ [Config.noiseWord f] })

/-- NOISE_WORD. -/
def execNoiseWord (s : State) : Host.Outcome State Fault Refusal :=
  event "NOISE_WORD" (s.noiseStep s.arg.core s.arg.n s.arg.ok)

end Sys2Proof.Machine
end

