-- ==== Sys2Proof/Machine/Links.lean ====
section
/-! DEFINITION. The mesh and its stitching, the pair link, the clocks, PTP, the scale-out ports, reservations
and the divergence of a replay (spec/01 R13, R15, spec/13 R325 to R329, R333, spec/21 R396, R397, R399, R400,
spec/22 R417 to R419, R425). What a step senses (a skew, an offset, a failed link) is its subject. -/

namespace Sys2Proof.Machine

/-! ### MESH_LINK_FAIL (R418, R419) -/

/-- Whether a tile lies in a rectangle. -/
def Rect.holds (r : Rect) (p : Nat × Nat) : Bool :=
  decide (r.x ≤ p.1) && decide (p.1 < r.x + r.w) && decide (r.y ≤ p.2) && decide (p.2 < r.y + r.h)

/-- STITCH_CLEAR: a valid entry whose rectangle holds the failed link loses VALID and is reported. -/
def State.stitchClear (s : State) (d : Nat) (sl : Bool) (unit : Nat) (p q : Nat × Nat) (n : Nat) :
    State :=
  let v := (s.die d).regs.stitch.getD n 0#64
  let r := stitchRect v
  if bitOf v.toNat 31 && r.holds p && r.holds q then
    (s.modDie d fun k => { k with
      regs := { k.regs with stitch := k.regs.stitch.set n (v &&& 0x7FFFFFFF#64) } }).report
      { kind := 5, code := 5, die := d, sl := sl, unit := unit, info := BitVec.ofNat 64 n }
  else s

/-- The machine check of a second mismatch: of the context that owns the packet, or of every context
of the die where the packet carries control state (cause 2). -/
def State.linkCheck (s : State) (d cause ctx : Nat) (sl : Bool) (unit : Nat) : State :=
  if cause = 1 then (if (s.ctx? ctx).isSome then s.machineCheck ctx 9 0 d unit sl 0 else s)
  else if cause = 2 then s.machineCheckAll d 9
  else s

/-- MESH_LINK_FAIL: the link of tile `unit`, a core or a slice, in direction `dir` fails at a second
mismatch (cause 1 or 2) or at its sixteenth replay (cause 0). -/
def State.meshLinkFail (s : State) (d : Nat) (sl : Bool) (unit dir cause ctx : Nat) : Option State :=
  let p := if sl then sliceTile unit else coreTile unit
  match nextTile p dir with
  | none => none
  | some q =>
    let link := (p.1 + 12 * p.2, dir)
    if s.nDies ≤ d || 4 ≤ dir || (if sl then 32 else 64) ≤ unit ||
        (s.die d).linkFails.any (fun f => linkJoins f p q) then none
    else
      let s := (s.linkCheck d cause ctx sl unit).modDie d fun k => { k with
        linkFails := link :: k.linkFails }
      let s := s.report { kind := 5, code := 4, die := d, sl := sl, unit := unit
                          info := BitVec.ofNat 64 dir }
      let s := (List.range 8).foldl (fun (s : State) n => s.stitchClear d sl unit p q n) s
      let lost := (List.range (64 * s.nDies)).filter fun c => !(s.core c).cut && s.coreCut c
      some (lost.foldl (fun (s : State) c => (s.checkCore c 9 0).modCore c fun k => { k with cut := true }) s)

/-- MESH_LINK_FAIL. -/
def execMeshLinkFail (s : State) : Host.Outcome State Fault Refusal :=
  event "MESH_LINK_FAIL"
    (s.meshLinkFail s.arg.die s.arg.ok s.arg.n s.arg.k s.arg.l s.arg.m)

/-! ### STITCH_APPLY (R329) -/

/-- Where a tile of a die sends to reach one of another die, or the tile itself: the ends of the way on die
`d`. -/
def waysOn (d : Nat) (die : Nat) (tile : Nat × Nat) : List (Nat × Nat) :=
  if die = d then [tile] else pairRouters

/-- The ends, on die `d`, of the ways of a packet between tiles of two dies; none where both are elsewhere. -/
def packetWays (d : Nat) (a : Nat × (Nat × Nat)) (b : Nat × (Nat × Nat)) : List ((Nat × Nat) × (Nat × Nat)) :=
  if a.1 = d || b.1 = d then (waysOn d a.1 a.2).flatMap fun p => (waysOn d b.1 b.2).map fun q => (p, q) else []

/-- Where a request enters the mesh: the tile of its core, or for the others a router of the CXL controller of
their die (R15). -/
def requesterEnd (n : Nat) : Nat × (Nat × Nat) :=
  match requesterCore n with
  | some c => coreEnd c
  | none => (requesterDie n, (5, 0))

/-- The ways of the packets in flight on a die: requests, replies and acknowledgements, pairs, DSM operations,
operations on records, peer accesses with their replies, and steals. -/
def State.packets (s : State) (d : Nat) : List ((Nat × Nat) × (Nat × Nat)) :=
  let reqs := (s.die0.mesh ++ s.die1.mesh).map fun r => (requesterEnd r.core, homeEnd r.loc)
  let acks := (s.die0.acks ++ s.die1.acks).map fun a => (homeEnd a.loc, coreEnd a.core)
  let dsm := (s.die0.dsmQ ++ s.die1.dsmQ).filterMap fun r => (s.coreOfUid r.uid).map fun c =>
    (coreEnd c, homeEnd { space := .dsm, unit := r.die, addr := r.addr })
  let pairs := (s.die0.flight ++ s.die1.flight).map fun p =>
    (coreEnd p.core, homeEnd { space := .gddr, unit := p.die, addr := p.addr })
  let deps := s.depQ.map fun o => (coreEnd o.core, homeEnd o.loc)
  let ofCore := fun (c : Nat × Core) =>
    c.2.replies.map (fun r => (homeEnd r.loc, coreEnd c.1)) ++
    c.2.inbound.map (fun r => (coreEnd r.back, coreEnd c.1)) ++
    c.2.peerReplies.map (fun r => (coreEnd r.from_, coreEnd c.1)) ++
    (c.2.steal.victim.toList.map fun v => (coreEnd c.1, coreEnd v))
  (reqs ++ acks ++ dsm ++ pairs ++ deps ++ s.cores.flatMap ofCore).flatMap fun w => packetWays d w.1 w.2

/-- Whether a packet between two tiles may use a link of the cores that a pending stitch write affects: by either
dimension order (R418), or by the links that a stitched rectangle adds, wherever it holds both tiles (R328). -/
def Die.crosses (k : Die) (n : Nat) (p q : Nat × Nat) : Bool :=
  let hit := fun (t : Nat × Nat) =>
    decide (2 ≤ t.1) && decide (t.1 ≤ 9) && k.stitchAffects n (8 * t.2 + (t.1 - 2))
  (routeLinks true p q ++ routeLinks false p q).any (fun l => hit l.1 || hit l.2) ||
    (hit p && hit q && k.stitchedLinks.any fun l => hit l.1 || hit l.2)

/-- STITCH_APPLY: the links are rewired once no team is resident on the affected cores and no packet is in
flight on their links (R329). Multicasts and the lines of treelets on their way count wherever they go. The
topology itself changes only timing (R419). -/
def State.stitchApply (s : State) (d n : Nat) : Option State :=
  let k := s.die d
  let busy := s.teams.any fun t =>
    t.onCore && t.ident.die == d && k.stitchAffects n t.ident.core
  let casts := s.die0.multicasts.isEmpty && s.die1.multicasts.isEmpty && s.die0.shoot.isEmpty &&
    s.die1.shoot.isEmpty
  let moving := !casts || k.treelets.any (fun t => !t.lines.isEmpty) ||
    (s.packets d).any (fun w => k.crosses n w.1 w.2)
  if !(k.pendStitch.any (fun p => p.1 == n)) || busy || moving then none
  else some (s.modDie d fun k => { k with
    regs := { k.regs with stitch := k.regs.stitch.set n (k.stitchNext n) }
    pendStitch := removeAt n k.pendStitch })

/-- STITCH_APPLY. -/
def execStitchApply (s : State) : Host.Outcome State Fault Refusal :=
  event "STITCH_APPLY" (s.stitchApply s.arg.die s.arg.n)

/-! ### TIME_CHECK (R396) -/

/-- The number of a tile of a die: its cores from 0, its slices from 64. -/
def tileNumber (sl : Bool) (unit : Nat) : Nat := if sl then 64 + unit else unit

/-- TIME_CHECK: a tile that differs from the reference by more than 1 tick takes the reference's TIME, holding
its own until the reference passes it where it was ahead; a core ends every lease in its L1; the contexts
that may have seen a wrong order halt. -/
def State.timeCheck (s : State) (d : Nat) (sl : Bool) (unit : Nat) (skew : Int) : Option State :=
  if s.nDies ≤ d || (if sl then 32 else 64) ≤ unit then none
  else if skew.natAbs ≤ 1 then some s
  else
    let now := s.tileTime d (tileNumber sl unit) + skew.toNat
    let s := if 0 < skew then s.modDie d fun k => { k with held := insertAt (tileNumber sl unit) now k.held }
      else s
    let s := if sl then s else s.dropLines (64 * d + unit) (fun _ _ => true)
    let s := s.report { kind := 2, code := 0, die := d, sl := sl, unit := unit, struct := 9 }
    some (if sl then (dieCores d).foldl (fun (s : State) c => s.checkCore c 9 0) s
          else s.checkCore (64 * d + unit) 9 0)

/-- TIME_CHECK. -/
def execTimeCheck (s : State) : Host.Outcome State Fault Refusal :=
  event "TIME_CHECK" (s.timeCheck s.arg.die s.arg.ok s.arg.n s.arg.v)

/-! ### The pair link (R397) -/

/-- Ends every lease of a core on lines homed on the other die: read leases, write leases and those that a
reply on its way would bring. -/
def State.endFarLeases (s : State) : State :=
  let near := fun (s : State) (d : Nat) => s.modDie d fun k =>
    { k with wleases := k.wleases.filter (fun w => w.core / 64 == d) }
  near (near ((s.cores.map Prod.fst).foldl
    (fun (s : State) c => s.dropLines c fun d _ => d != c / 64) s) 0) 1

/-- CLOCK_CHECK: die 1 finds the clock and the link in order, or one of them lost: the clock with a skew,
or the link with a set of failed ports. -/
def State.clockCheck (s : State) (good clock : Bool) (skew : Int) (ports unit : Nat) : Option State :=
  if s.nDies = 1 || !s.linkWorks then none
  else if good then some s
  else
    let s := s.endFarLeases
    let h : HostIf := { s.host with
      linkUp := clock, clockOk := !clock, linkDownAt := s.time 1, linkCode := if clock then 1 else 2,
      linkTimedOut := false }
    some ({ s with host := h }.report
      { kind := 5, code := if clock then 1 else 2, die := 1, unit := unit % 64
        info := if clock then BitVec.ofInt 64 skew else BitVec.ofNat 64 (ports % 16) })

/-- CLOCK_CHECK. -/
def execClockCheck (s : State) : Host.Outcome State Fault Refusal :=
  event "CLOCK_CHECK" (s.clockCheck s.arg.ok (s.arg.k == 0) s.arg.v s.arg.m s.arg.n)

/-- PAIR_LINK_RESTORE: the link and the clock are back, and held requests go on. -/
def State.linkRestore (s : State) (unit : Nat) : Option State :=
  if s.nDies = 1 || s.linkWorks then none
  else
    let since := s.time 1 - s.host.linkDownAt
    some ({ s with host := { s.host with linkUp := true, clockOk := true } }.report
      { kind := 5, code := 3, die := 1, unit := unit % 64, info := BitVec.ofNat 64 since })

/-- PAIR_LINK_RESTORE. -/
def execPairLinkRestore (s : State) : Host.Outcome State Fault Refusal :=
  event "PAIR_LINK_RESTORE" (s.linkRestore s.arg.n)

/-- The same machine with its pair link in order. -/
def State.withLink (s : State) : State :=
  { s with host := { s.host with linkUp := true, clockOk := true } }

/-- What an instruction that accesses memory as it issues, or sends a shootdown, does now; nothing for the
others, whose requests wait in queues of their own. -/
def State.tryAccess (s : State) (i : Instr) : Option (Host.Outcome State Fault Refusal) :=
  match i with
  | .vld d a b c => some (execVld d a b c s)
  | .vlds d a b c => some (execVlds d a b c s)
  | .vst d a b => some (execVst d a b s)
  | .vsts d a b => some (execVsts d a b s)
  | .vldb d a b c => some (execVldb d a b c s)
  | .preq d a b => some (execPreq d a b s)
  | .rsave d a b => some (execRsave d a b s)
  | .rload d a c => some (execRload d a c s)
  | .watch a b => some (execWatch a b s)
  | .dsmop d a b => some (execDsmop d a b s)
  | .dsmred d a b => some (execDsmred d a b s)
  | .tlbinv a b => some (execTlbinv a b s)
  | _ => none

/-- Whether the issuing team's instruction is held as it issues. -/
def State.heldAtIssue (s : State) (i : Instr) : Bool :=
  match s.tryAccess i with
  | some (.next r) => r.stalled
  | _ => false

/-- Whether a team's next instruction, or its fetch, waits for what the state `up` has alone. -/
def State.teamWaitsFor (s up : State) (t : Team) : Bool :=
  let (s', i) := s.nextInstr t
  let (u', j) := up.nextInstr t
  s.canIssue t && (i != j || ((s'.begin t).heldAtIssue i && !(u'.begin t).heldAtIssue j))

/-- Whether a context owes successor decrements that wait for what the state `up` has alone. -/
def State.succWaitsFor (s up : State) (x : SuccOp) : Bool := (s.succRun x).isNone && (up.succRun x).isSome

/-- Whether a copy operation of a core waits for what the state `up` has alone. -/
def State.copyWaitsFor (s up : State) (core : Nat) (o : CopyOp) : Bool :=
  o.result.isNone && (s.copyStart core o.id).isNone && (up.copyStart core o.id).isSome

/-- The rays in a core's batches whose traversal waits for what the state `up` has alone. -/
def State.raysWaitingFor (s up : State) (core : Nat) : List Ray :=
  ((s.core core).batches.flatMap (s.batchLeft (core / 64))).filter fun r =>
    s.ctxRuns r.ctx && (s.stepRay core r).isNone && (up.stepRay core r).isSome

/-- The contexts with a log entry that waits for what the state `up` has alone. -/
def State.logsWaitingFor (s up : State) : List Nat :=
  (s.ctxs.filter fun c => !c.logWait.isEmpty &&
    (up.flushLogs.ctx? c.id).map Ctx.logWait != (s.flushLogs.ctx? c.id).map Ctx.logWait).map Ctx.id

/-- The contexts with a request that waits for the pair link. -/
def State.heldAcross (s : State) : List Nat :=
  let up := s.withLink
  let mesh := (s.die0.mesh ++ s.die1.mesh).filterMap fun r =>
    if requesterDie r.core = r.loc.unit then none else some r.ctx
  let pairs := (s.die0.flight ++ s.die1.flight ++ s.cores.flatMap (fun p =>
    p.2.streams.flatMap Prod.snd)).filterMap fun p => if p.core / 64 = p.die then none else some p.ctx
  let deps := s.depQ.filterMap fun x => if x.core / 64 = x.loc.unit then none else some x.ctx
  let succs := (s.succQ.filter (s.succWaitsFor up)).map SuccOp.ctx
  let teams := (s.teams.filter (s.teamWaitsFor up)).map Team.ctx
  let copies := s.cores.flatMap fun c => (c.2.copies.filter (s.copyWaitsFor up c.1)).map CopyOp.ctx
  let rays := s.cores.flatMap fun c => (s.raysWaitingFor up c.1).map Ray.ctx
  (mesh ++ pairs ++ deps ++ succs ++ teams ++ copies ++ rays ++ s.logsWaitingFor up).dedup

/-- PAIR_LINK_RESTORE_TIMEOUT: after 1,000,000 ticks without the link every context with a held cross-die
request halts. -/
def State.linkTimeout (s : State) : Option State :=
  if s.nDies = 1 || s.linkWorks || s.host.linkTimedOut || s.time 1 < s.host.linkDownAt + 1000000 then
    none
  else
    let ids := (s.ctxs.map Ctx.id).filter s.heldAcross.contains
    let s := { s with host := { s.host with linkTimedOut := true } }
    some (ids.foldl (fun (s : State) id =>
      s.haltCtx id { kind := 1, code := 19, ctx := id }) s)

/-- PAIR_LINK_RESTORE_TIMEOUT. -/
def execPairLinkRestoreTimeout (s : State) : Host.Outcome State Fault Refusal :=
  event "PAIR_LINK_RESTORE_TIMEOUT" s.linkTimeout

/-! ### PTP (R333, R399) -/

/-- STATUS.PTPLOCK: the offset has stayed within 100 ns for 16 syncs. -/
def Die.ptpLock (k : Die) : Bool := decide (16 ≤ k.ptpGood)

/-- PTP_SYNC: TIME is slewed forward by `slew` ticks, at most 100 ppm since the last sync once a context has
run, and PTPLOCK follows the estimated offset. -/
def State.ptpSync (s : State) (offset : Int) (slew : Nat) : Option State :=
  let k := s.die0
  if s.host.ranOnce && (k.time - k.ptpLast) / 10000 < slew then none
  else
    let good := if offset.natAbs ≤ 100 then min 16 (k.ptpGood + 1) else 0
    let falls := k.ptpLock && good < 16
    let rises := !k.ptpLock && good == 16
    let now := k.time + slew
    let s := { s with
      die0 := { k with
        time := now, ptpOffset := offset, ptpGood := good, ptpLast := now
        ptpSince := if falls then now else k.ptpSince }
      die1 := { s.die1 with time := s.die1.time + slew } }
    some (if falls then s.report { kind := 6, code := 4, info := BitVec.ofInt 64 offset }
      else if rises then s.report { kind := 6, code := 5, info := BitVec.ofNat 64 (now - k.ptpSince) }
      else s)

/-- PTP_SYNC. -/
def execPtpSync (s : State) : Host.Outcome State Fault Refusal :=
  event "PTP_SYNC" (s.ptpSync s.arg.v s.arg.n)

/-! ### Scale-out ports (R400) -/

/-- Whether a port carries scale-out traffic (Table 13.7). -/
def State.scaleOut (s : State) (port : Nat) : Bool :=
  decide (port < 8) && (s.product == .m || decide (4 ≤ port))

/-- Ends the copy operations of a die that a dead port keeps from starting, as engine faults. -/
def State.endWaiting (s : State) (d : Nat) : State :=
  let ops := (dieCores d).flatMap fun c =>
    ((s.core c).copies.filter (fun o => o.result.isNone)).map (fun o => (c, o.id))
  ops.foldl (fun (s : State) p =>
    match s.copyStart p.1 p.2 with
    | none => s
    | some s' =>
      if (s'.core p.1).copies.any (fun o => o.id == p.2 && (match o.result with
        | some r => r.ecode == 6
        | none => false)) then s'
      else s) s

/-- SCALEOUT_PORT_DOWN: a port that has been down beyond the peer timeout ends what waits for it; before
that (`change` 1 and 2) a port goes down or comes back. -/
def State.portDown (s : State) (d port change : Nat) : Option State :=
  let down := (s.die d).ports.find? (fun p => p.port == port)
  if s.nDies ≤ d || !s.scaleOut port then none
  else match change, down with
    | 1, none => some (s.modDie d fun k => { k with
        ports := { port := port, since := k.time, reported := false } :: k.ports })
    | 2, some _ => some (s.modDie d fun k => { k with ports := k.ports.filter (fun p => p.port != port) })
    | 0, some p =>
      if p.reported || s.time d < p.since + s.host.peerTimeout then none
      else
        let mark := fun (p : PortDown) => { p with reported := true }
        let s := s.modDie d fun k => { k with ports := mapWhere (fun p => p.port == port) mark k.ports }
        some ((s.endWaiting d).report
          { kind := 5, code := 6, die := d, unit := port, info := BitVec.ofNat 64 port })
    | _, _ => none

/-- SCALEOUT_PORT_DOWN. -/
def execScaleoutPortDown (s : State) : Host.Outcome State Fault Refusal :=
  event "SCALEOUT_PORT_DOWN" (s.portDown s.arg.die s.arg.n s.arg.k)

/-! ### RESERVATION_TIMEOUT (R417) -/

/-- How long a reservation may stay ungranted, in ticks. -/
def reservationLimit : Nat := 1000000

/-- Whether a request has waited for its home too long at a die, for something other than a lost pair link. -/
def State.overdue (s : State) (d : Nat) (r : MeshReq) : Bool :=
  decide (r.since + reservationLimit ≤ s.time d) && (requesterDie r.core == d || s.linkWorks)

/-- Whether the oldest pair of a core's stream buffer has waited too long for its place in an intake. -/
def State.streamOverdue (s : State) (core : Nat) (p : Nat × List Pair) : Bool :=
  match p.2 with
  | [] => false
  | q :: _ =>
    decide (lookup (s.time (core / 64)) p.1 (s.core core).streamSince + reservationLimit ≤ s.time (core / 64)) &&
      (core / 64 == q.die || s.linkWorks)

/-- Whether a team of a die has waited too long for records of the pool. -/
def Die.waiterOverdue (k : Die) (uid : Nat) : Bool :=
  decide (lookup k.time uid k.waiterSince + reservationLimit ≤ k.time)

/-- Whether a ray has waited too long for a bin. -/
def State.rayOverdue (s : State) (d : Nat) (r : Ray) : Bool :=
  decide (r.since + reservationLimit ≤ s.time d) && (List.range 32).any (fun slice => s.binless d slice r)

/-- The same machine without the migration of a die. -/
def State.withoutMigration (s : State) (d : Nat) : State :=
  s.modDie d fun k => { k with migration := { k.migration with step := .idle } }

/-- Whether the migration of a die holds something: a pair, an operation on a record or a record's way to its
list, a copy operation, an access of a team as it issues or its fetch, a traversal's read, or a log entry
(R190, R394). -/
def State.migrationHolds (s : State) (d : Nat) : Bool :=
  let k := s.die d
  let up := s.withoutMigration d
  let held := fun (p : Phys) => p.space == .gddr && p.unit == d && k.migrates (lineOf p.addr)
  k.flight.any (fun p => k.migrates (lineOf p.addr)) || s.depQ.any (fun o => held o.loc) ||
    s.readyQ.any (fun r => held r.loc) || s.succQ.any (s.succWaitsFor up) ||
    s.teams.any (s.teamWaitsFor up) || !(s.logsWaitingFor up).isEmpty ||
    s.cores.any fun c => c.2.copies.any (s.copyWaitsFor up c.1) || !(s.raysWaitingFor up c.1).isEmpty

/-- Whether a migration of a die holds something too long (R394). -/
def State.migrationOverdue (s : State) (d : Nat) : Bool :=
  let k := s.die d
  k.migration.step != .idle && decide (k.migration.since + reservationLimit ≤ k.time) && s.migrationHolds d

/-- Whether something is overdue at a die. -/
def State.anyOverdue (s : State) (d : Nat) : Bool :=
  let k := s.die d
  k.mesh.any (s.overdue d) || k.multicasts.any (fun m => decide (m.since + reservationLimit ≤ k.time)) ||
    s.cores.any (fun c => c.1 / 64 == d && c.2.streams.any (s.streamOverdue c.1)) ||
    k.waiters.any k.waiterOverdue || k.rays.any (s.rayOverdue d) || s.migrationOverdue d

/-- The watch on everything that is ungranted at a die starts afresh. -/
def State.watchAfresh (s : State) (d : Nat) : State :=
  let now := s.time d
  let mesh := mapWhere (s.overdue d) (fun (r : MeshReq) => { r with since := now }) (s.die d).mesh
  let rays := mapWhere (s.rayOverdue d) (fun (r : Ray) => { r with since := now }) (s.die d).rays
  let s := s.modDie d fun k => { k with
    mesh := mesh, rays := rays
    multicasts := k.multicasts.map (fun m => { m with since := now })
    waiterSince := k.waiters.foldl (fun l u => insertAt u now l) k.waiterSince
    migration := { k.migration with since := now } }
  { s with cores := s.cores.map fun c =>
      if c.1 / 64 = d then
        (c.1, { c.2 with streamSince := c.2.streams.foldl (fun l p => insertAt p.1 now l) c.2.streamSince })
      else c }

/-- RESERVATION_TIMEOUT: a reservation of R326 or R327 ungranted for 1,000,000 ticks (a home's service, a place
in an intake, a landing slot, a bin, records of the pool), or a request that a migration holds so long, is a
machine check of every context on the die. -/
def State.reservationTimeout (s : State) (d : Nat) : Option State :=
  if s.nDies ≤ d || !s.anyOverdue d then none
  else some ((s.watchAfresh d).machineCheckAll d 8)

/-- RESERVATION_TIMEOUT. -/
def execReservationTimeout (s : State) : Host.Outcome State Fault Refusal :=
  event "RESERVATION_TIMEOUT" (s.reservationTimeout s.arg.die)

/-! ### REPLAY_DIVERGENCE (R425) -/

/-- How long a logged wave or placement may stay impossible, in ticks. -/
def replayLimit : Nat := 10000000

/-- The next entry of a replaying context on a die that has not become possible within 10,000,000 ticks since the
one of its kind before it: a wave, or a placement or steal. -/
def State.replayOverdue (s : State) (d : Nat) (c : Ctx) : Option LogEntry :=
  let late := fun (key : Nat) => decide (lookup 0 key c.replaySince + replayLimit ≤ s.time d)
  let wave := if late (d + 10) then s.nextLogged c.id d [5] else none
  let placed := if late (d + 6) then ((s.placementsLeft c.id d).drop (s.staleCount c.id d)).head? else none
  wave.or placed

/-- Whether a candidate of a replaying context could start, and no entry that is left names it. -/
def State.offerUnlogged (s : State) (d : Nat) (o : Offer) : Bool :=
  let (task, id, wave) := s.offerId d o
  (s.pickSpots d o).isSome && !(s.placementsLeft o.ctx d).any fun e => e.isFor task id wave o.restores

/-- Whether a shader bin of a replaying context is due, and no entry that is left names its oldest ray. -/
def State.binUnlogged (s : State) (d : Nat) (b : SkBin) : Bool :=
  let left := ((s.replayLog b.ctx d).filter (fun e => e.type == 5)).drop (s.replayDone b.ctx (d + 10))
  let named := fun (n : Nat) => left.any fun e => e.waveRays.contains n
  b.isShader && (b.rays.head?).any (fun r => !named r.1) &&
    (match s.shader d b.ctx (bitsOf b.key 17 16) with
      | .ok (s, some h) => s.waveDue d b h
      | _ => false)

/-- Whether a due wave, placement or restoration of a replaying context has no matching entry. -/
def State.replayUnmatched (s : State) (d id : Nat) : Bool :=
  (s.offers d).any (fun o => o.ctx == id && s.offerUnlogged d o) ||
    (s.die d).skBins.any (fun b => b.ctx == id && s.binUnlogged d b)

/-- REPLAY_DIVERGENCE: a logged wave, placement or steal of a replaying context that has not become possible
within 10,000,000 ticks halts it, and so does a due wave, placement or restoration without a matching entry
(R425). -/
def State.replayDivergence (s : State) (d id : Nat) : Option State :=
  match s.ctx? id with
  | none => none
  | some c =>
    if !s.replaying id || c.halted then none
    else match s.replayOverdue d c with
      | some e => some (s.diverge id d e.at_ e.seq)
      | none => if s.replayUnmatched d id then some (s.diverge id d 0#64 0) else none

/-- REPLAY_DIVERGENCE. -/
def execReplayDivergence (s : State) : Host.Outcome State Fault Refusal :=
  event "REPLAY_DIVERGENCE" (s.replayDivergence s.arg.die s.arg.n)

end Sys2Proof.Machine
end

