-- ==== Sys2Proof/Machine/Migration.lean ====
section
/-! DEFINITION. The migration engine and its shootdown (spec/07 R189 to R191, spec/13 R327, spec/21
R391, R393, R394), and the steps MIGRATION_START, MIGRATION_COPY, MIGRATION_FINISH, SHOOTDOWN and
MULTICAST_DELIVER. -/

namespace Sys2Proof.Machine

/-! ### Pages -/

/-- The memory without the bytes of [a, a + n). -/
def Memory.clear (m : Memory) (a n : Nat) : Memory :=
  m.filter (fun c => decide (c.1 < a) || decide (a + n ≤ c.1))

/-- The memory whose bytes from `d` on are its own from `a` on, for `n` bytes. -/
def Memory.movePage (m : Memory) (d a n : Nat) : Memory :=
  (m.slice a n).foldl (fun m c => Memory.setByte m (d + (c.1 - a)) c.2) (m.clear d n)

/-- The memory whose `n` bytes from `a` on are those of another. -/
def Memory.takePage (m src : Memory) (a n : Nat) : Memory :=
  (src.slice a n).foldl (fun m c => Memory.setByte m c.1 c.2) (m.clear a n)

/-- The lines of a page. -/
def pageLines (page : Nat) : List Nat := (List.range 512).map (fun i => page * 65536 + 128 * i)

/-- STATUS of SYS.MIGCTL. -/
def Die.migStatus (k : Die) (status : Nat) : Die :=
  { k with regs := { k.regs with migctl := BitVec.ofNat 64 (2 * status) } }

/-- Writes PINS and MIG of a page's lock entry; its reserved bits stay. -/
def State.putLock (s : State) (d page pins : Nat) (mig : Bool) : State :=
  let (s, old) := s.readLock d page
  s.writeLock d page (setBitsOf old 0 17 (pins + if mig then 2 ^ 16 else 0))

/-- The migration engine reads or writes a word at its home (R179, R231). -/
def State.migReach (s : State) (d a : Nat) : State := s.reachHome (deviceRequester d) d (lineOf a)

/-! ### MIGRATION_START (Table 7.11, steps 1 and 2) -/

/-- Whether step 1 refuses the page of a leaf, given the page's lock entry. DESIGN CHOICE (log entry 53): Table
7.11 gives no outcome for a PFN at or beyond the die's GDDR7, which is refused like the others. -/
def State.migRefused (s : State) (leaf : Word) (lock : Nat) : Bool :=
  leafLoc leaf != 0 || !leafResident leaf || !bitOf leaf.toNat 0 ||
    decide (s.gddrSize ≤ leafPfn leaf * 65536) || bitsOf lock 0 16 != 0 || bitOf lock 16

/-- The requests for a page that wait for their homes as its migration begins have arrived before any later one
(R190). -/
def Die.holdPage (k : Die) (page : Nat) : Die :=
  { k with
    mesh := mapWhere (fun r => r.loc.space == .gddr && r.loc.addr / 65536 == page)
      (fun r => { r with seq := some (r.seq.getD r.since) }) k.mesh
    flight := mapWhere (fun p => p.addr / 65536 == page)
      (fun p => { p with seq := some (p.seq.getD k.time) }) k.flight }

/-- MIGRATION_START: a GO write takes steps 1 and 2. DESIGN CHOICE (log entry 53): an MIGPTE at or beyond the die's
GDDR7, for which Table 7.11 gives no outcome, is refused with STATUS 3. -/
def State.migStart (s : State) (d : Nat) : Option State :=
  let k := s.die d
  if s.nDies ≤ d || !bitOf k.regs.migctl.toNat 0 || k.migration.step != .idle then none
  else
    let a := k.regs.migpte.toNat
    let s := (s.migReach d a).modDie d fun k => k.migStatus 1
    let leaf := BitVec.ofNat 64 ((s.die d).mem.read a 8)
    let (s, lock) := s.readLock d (leafPfn leaf)
    if s.gddrSize ≤ a || s.migRefused leaf lock then some (s.modDie d fun k => k.migStatus 3)
    else
      some ((s.putLock d (leafPfn leaf) 1 true).modDie d fun k => { k.holdPage (leafPfn leaf) with
        migration := { step := .holding, since := k.time, leafAddr := a, leaf := leaf
                       srcPage := leafPfn leaf, dstPage := k.regs.migdst.toNat / 65536 } })

/-- MIGRATION_START. -/
def execMigrationStart (s : State) : Host.Outcome State Fault Refusal :=
  event "MIGRATION_START" (s.migStart s.arg.die)

/-! ### MIGRATION_COPY (steps 3 to 5) -/

/-- Whether step 3's waits are over: no write lease on the page, and its homes' TIME past EXP plus 2 of each
of its lines (R176, R396). -/
def State.migSettled (s : State) (d page : Nat) : Bool :=
  let k := s.die d
  !k.wleases.any (fun w => w.line / 65536 == page && decide (k.time < w.expiry)) &&
    (pageLines page).all (fun l => decide (k.lineExp l = 0) || decide (k.lineExp l + 2 ≤ s.homeTime d l))

/-- A line of the source page at its place in the destination. -/
def moveLine (src dst line : Nat) : Nat := dst * 65536 + (line - src * 65536)

/-- The lines of a page that hold an uncorrectable word (R394). -/
def Die.badLines (k : Die) (page : Nat) : List Nat :=
  ((k.poison ++ k.dramPoison).filter (fun l => l / 65536 == page)).dedup

/-- The lines of a page leave the shared cache (R188). -/
def Die.evictPage (k : Die) (page : Nat) : Die :=
  (k.cache.filter (fun l => l.line / 65536 == page)).foldl (fun k l => k.evict l.line) k

/-- Copies the page in GDDR7: contents, poison, and what the home knows of its FXADD lines, which the source's
no longer are (R232). Every write lease
of the source page has been released (step 3). -/
def Die.copyPage (k : Die) (src dst : Nat) : Die :=
  let bad := k.badLines src
  let k := k.evictPage dst
  let mem := k.mem.movePage (dst * 65536) (src * 65536) 65536
  { k with
    mem := mem
    dram := k.dram.takePage mem (dst * 65536) 65536
    dramPoison := bad.map (moveLine src dst) ++ k.dramPoison.filter (fun l => l / 65536 != dst)
    wleases := k.wleases.filter (fun w => w.line / 65536 != src)
    fxLines := k.fxLines.filter (fun p => p.1 / 65536 != dst && p.1 / 65536 != src) ++
      (k.fxLines.filter (fun p => p.1 / 65536 == src)).map (fun p => (moveLine src dst p.1, p.2)) }

/-- A poisoned source word is reported at its destination, and halts nothing (R394). -/
def State.reportMoved (s : State) (d src dst : Nat) : State :=
  ((s.die d).badLines src).foldl (fun (s : State) l =>
    s.report { kind := 2, code := 0, die := d, sl := true, unit := homeSlice (moveLine src dst l),
               struct := 10, addr := BitVec.ofNat 64 (moveLine src dst l) }) s

/-- The destinations of a multicast to every core and slice, in the order of acquisition (R327): the cores
that hold anything, as the others have nothing to remove, then the slices, from 128 on. -/
def State.everyTile (s : State) : List Nat :=
  sortBy (fun a b => decide (a ≤ b)) (s.cores.map Prod.fst) ++
    (List.range (32 * s.nDies)).map (fun i => 128 + i)

/-- MIGRATION_COPY: the page is copied, its leaf rewritten with every field but PFN as it stands now, and the
shootdown sent. -/
def State.migCopy (s : State) (d : Nat) : Option State :=
  let m := (s.die d).migration
  if m.step != .holding || !s.migSettled d m.srcPage then none
  else
    let s := (pageLines m.srcPage).foldl (fun (s : State) l => s.applyLine d l) s
    let s := s.reportMoved d m.srcPage m.dstPage
    let s := s.modDie d fun k => k.copyPage m.srcPage m.dstPage
    let s := s.migReach d m.leafAddr
    let leaf := setBitsOf ((s.die d).mem.read m.leafAddr 8) 16 36 m.dstPage
    let s := s.lineWrite d m.leafAddr (leBytes 8 leaf)
    let cast : Multicast := { dests := s.everyTile, held := 0, leafDie := d, leafAddr := m.leafAddr
                              since := s.time d }
    some (s.modDie d fun k => { k with
      migration := { m with step := .shooting }
      multicasts := k.multicasts ++ [cast] })

/-- MIGRATION_COPY. -/
def execMigrationCopy (s : State) : Host.Outcome State Fault Refusal :=
  event "MIGRATION_COPY" (s.migCopy s.arg.die)

/-! ### The shootdown (R327, R391) -/

/-- MULTICAST_DELIVER: a multicast takes the landing slot of its next destination, or, once it holds every
slot, lands at all its destinations. None crosses a pair link that is down (R397). -/
def State.multicast (s : State) (d n : Nat) : Option State :=
  let q := (s.die d).multicasts
  match q.drop n with
  | [] => none
  | m :: rest =>
    if s.nDies == 2 && !s.linkWorks then none
    else match m.dests.drop m.held with
      | x :: _ =>
        if s.landing x then none
        else some (s.modDie d fun k => { k with multicasts := q.take n ++ { m with held := m.held + 1 } :: rest })
      | [] => some (s.modDie d fun k => { k with
          multicasts := q.take n ++ rest
          shoot := k.shoot ++ m.dests.map (fun c => (c, m.leafDie, m.leafAddr)) })

/-- MULTICAST_DELIVER. -/
def execMulticastDeliver (s : State) : Host.Outcome State Fault Refusal :=
  event "MULTICAST_DELIVER" (s.multicast s.arg.die s.arg.n)

/-- Whether every access that a core made to a page is performed and acknowledged (R391). DEDUCED: a request
that the migration itself holds at the source home (R190) delays no acknowledgement, since R190 serves it
only after all of them (log entry 49). -/
def State.pageSettled (s : State) (core d page : Nat) : Bool :=
  !(s.core core).replies.any (fun r => r.loc.space == .gddr && r.loc.unit == d && r.loc.addr / 65536 == page) &&
    !(s.die0.acks ++ s.die1.acks).any (fun a => a.core == core)

/-- SHOOTDOWN: a core removes the entries built from the leaf and acknowledges, once its accesses under them
are settled; a slice, which holds no such entry, acknowledges. -/
def State.shootdown (s : State) (d core : Nat) : Option State :=
  match (s.die d).shoot.find? (fun x => x.1 == core) with
  | none => none
  | some (c, leafDie, leafAddr) =>
    if core < 128 && !s.pageSettled core leafDie (s.die leafDie).migration.srcPage then none
    else
    let s := if 128 ≤ core then s else s.modCore core fun k => { k with
      tlb := k.tlb.filter (fun e => !(e.leafDie == leafDie && e.leafAddr == leafAddr)) }
    some (s.modDie d fun k => { k with shoot := eraseFirst (fun x => x == (c, leafDie, leafAddr)) k.shoot })

/-- SHOOTDOWN. -/
def execShootdown (s : State) : Host.Outcome State Fault Refusal :=
  event "SHOOTDOWN" (s.shootdown s.arg.die s.arg.core)

/-! ### MIGRATION_FINISH (steps 6 and 7) -/

/-- A location of the source page at its place in the destination; any other as it is. -/
def Phys.moved (d src dst : Nat) (p : Phys) : Phys :=
  if p.space == .gddr && p.unit == d && p.addr / 65536 == src then
    { p with addr := moveLine src dst p.addr } else p

/-- An armed wait's kind with its location moved. -/
def WaitKind.moved (f : Phys → Phys) : WaitKind → WaitKind
  | .watch p v => .watch (f p) v
  | .barrier p g => .barrier (f p) g
  | k => k

/-- An outstanding access with its location moved. -/
def Pend.moved (f : Phys → Phys) : Pend → Pend
  | .load d n p acquire => .load d n (f p) acquire
  | .atomic d n p => .atomic d n (f p)
  | .barrier d m p => .barrier d m (f p)
  | p => p

/-- A team with every location of the page moved. -/
def Team.moved (f : Phys → Phys) (t : Team) : Team :=
  { t with
    wait := t.wait.map (fun w => { w with kind := w.kind.moved f })
    pend := t.pend.map (Pend.moved f)
    ident := { t.ident with taskAt := f t.ident.taskAt } }

/-- A die with every location of the page moved. -/
def Die.moved (f : Phys → Phys) (d src dst : Nat) (k : Die) : Die :=
  let ref := fun (t : TaskRef) => { t with loc := f t.loc }
  let pair := fun (p : Pair) =>
    if p.die == d && p.addr / 65536 == src then { p with addr := moveLine src dst p.addr } else p
  { k with
    mesh := k.mesh.map (fun r => { r with loc := f r.loc })
    flight := k.flight.map pair
    ready := k.ready.map ref
    locals := k.locals.map (fun p => (p.1, ref p.2)) }

/-- A core with every location of the page moved; no L1 line of the page is left. A pair still in a stream
buffer keeps its old translation (R391). -/
def Core.moved (f : Phys → Phys) (d src : Nat) (k : Core) : Core :=
  { k with
    l1 := k.l1.filter (fun l => !(l.die == d && l.line / 65536 == src))
    copies := k.copies.map (fun c => { c with task := f c.task })
    inbound := k.inbound.map (fun r => { r with task := f r.task })
    steal := { k.steal with claimed := k.steal.claimed.map (fun c => (f c.1, c.2)) } }

/-- Forwards everything that waits for the page to its destination. -/
def State.forward (s : State) (d src dst : Nat) : State :=
  let f := Phys.moved d src dst
  { s with
    teams := s.teams.map (Team.moved f)
    cores := s.cores.map (fun (c : Nat × Core) => (c.1, c.2.moved f d src))
    die0 := s.die0.moved f d src dst
    die1 := s.die1.moved f d src dst
    tasks := s.tasks.map (fun (k : TaskState) => { k with loc := f k.loc })
    depQ := s.depQ.map (fun (o : DepOp) => { o with loc := f o.loc })
    readyQ := s.readyQ.map (fun (r : ReadyOp) => { r with loc := f r.loc })
    succQ := s.succQ.map (fun (x : SuccOp) => { x with loc := f x.loc })
    leftovers := s.leftovers.map (fun (x : Leftover) => { x with task := f x.task }) }

/-- MIGRATION_FINISH: after every acknowledgement the held requests go on, the armed waits re-read
their words, and STATUS is done. -/
def State.migFinish (s : State) (d : Nat) : Option State :=
  let k := s.die d
  let m := k.migration
  if m.step != .shooting || k.multicasts.any (fun c => c.leafAddr == m.leafAddr) ||
      k.shoot.any (fun x => x.2.2 == m.leafAddr) then none
  else
    let s := s.forward d m.srcPage m.dstPage
    let s := s.fireWaits fun _ w => match w with
      | .watch p _ | .barrier p _ => p.space == .gddr && p.unit == d && p.addr / 65536 == m.dstPage
      | _ => false
    let s := s.putLock d m.srcPage 0 false
    some (s.modDie d fun k => { k.migStatus 2 with migration := { m with step := .idle } })

/-- MIGRATION_FINISH. -/
def execMigrationFinish (s : State) : Host.Outcome State Fault Refusal :=
  event "MIGRATION_FINISH" (s.migFinish s.arg.die)

end Sys2Proof.Machine
end

