-- ==== Sys2Proof/Machine/Host.lean ====
section
/-! DEFINITION. The host's side (spec/13 R311, R315, R330, R334, R338 to R342, spec/19 R358 to R360,
R430, spec/22 R422, R424): the register block, the firmware mailbox and its requests, power-up, device
reset and CXL training. -/

namespace Sys2Proof.Machine

/-! ### The register block (Table 13.1) -/

/-- Whether an error record is pending: TAIL differs from HEAD (R359). -/
def State.errPending (s : State) : Bool :=
  let ring := s.die0.regs.errring
  let base := wordBits ring 12 40 * 4096
  ring != 0#64 && s.deviceRead 0 base 4 != s.deviceRead 0 (base + 4) 4

/-- STATUS: READY, FWOK and STAGE as held, PTPLOCK and ERR as they stand. -/
def State.statusWord (s : State) : Word :=
  s.host.status ||| (if s.die0.ptpLock then 4#64 else 0#64) ||| (if s.errPending then 8#64 else 0#64)

/-- What a read of a register of the block returns: unlisted offsets read as zero. -/
def State.barRead (s : State) (off : Nat) : Word :=
  if off = 0 then (match s.product with
    | .m => 0x56580001#64
    | .w2 => 0x56580002#64)
  else if off = 8 then s.statusWord
  else if off = 0x10 then s.host.qtbase
  else if 0x1000 ≤ off && off < 0x2000 then BitVec.ofNat 64 (s.host.mbox.read (off - 0x1000) 4)
  else 0#64

/-! ### The mailbox (R340) -/

/-- The `n`-byte value at an offset of MBOX. -/
def State.mbox (s : State) (off n : Nat) : Nat := s.host.mbox.read off n

/-- The 8-byte word at an offset of MBOX. -/
def State.mboxWord (s : State) (off : Nat) : Word := BitVec.ofNat 64 (s.mbox off 8)

/-- MBOX with bytes written. -/
def State.mboxBytes (s : State) (off : Nat) (bytes : List Byte) : State :=
  { s with host := { s.host with mbox := s.host.mbox.setBytes off bytes } }

/-- OP of the request in progress; 0 for none. -/
def State.mboxOp (s : State) : Nat := s.mbox 0 2

/-- The firmware answers: RESULT, OP := 0, vector 2. -/
def State.answer (s : State) (result : Nat) : State :=
  ((s.mboxBytes 4 (leBytes 4 result)).mboxBytes 0 (leBytes 4 0)).raiseMsix 2

/-- The codes of Table 13.10. -/
def mboxCodes : List Nat := [1, 2, 3, 4, 5, 6, 7, 0x10, 0x11, 0x20, 0x30, 0x31, 0x32]

/-- A request of the mailbox: `body` gives the state that it leaves, or refuses. While FWOK is 0 every
request but FWLOAD is refused. -/
def State.mboxRequest (s : State) (code : Nat) (body : State → Option State) : Option State :=
  if s.mboxOp ≠ code then none
  else if !s.host.fwok && code ≠ 0x20 then some (s.answer 1)
  else match body s with
    | some s' => some (s'.answer 0)
    | none => some (s.answer 1)

/-! ### REGISTER_WRITE (R5, R285, R311, R318, R367) -/

/-- Die registers that take a value at once and do nothing more. -/
def plainDieReg (num : Nat) : Bool :=
  (0x201 ≤ num && num ≤ 0x206) || (0x20A ≤ num && num ≤ 0x20D)

/-- A host write to the register block. QDB and CDB have steps of their own; a write of MBOX while OP is
not 0 is the host's error, and the model has no such step (log entry 34). OP[31:16] is reserved and reads as
zero (R5, R340). Without firmware only the mailbox takes writes (R338). DESIGN CHOICE (log entry 53): a write of
QTBASE with a reserved bit set, for which R5 gives no outcome, is discarded whole. -/
def State.barWrite (s : State) (off : Nat) (w : Word) (bytes : List Byte) : Option State :=
  if off = 0x18 || off = 0x1C then none
  else if off = 0x10 then
    some (if s.host.fwok && onlyBits w 0xFFFFFFFE00000 then { s with host := { s.host with qtbase := w } } else s)
  else if 0x1000 ≤ off && off < 0x2000 then
    if s.mboxOp ≠ 0 then none
    else
      let s := (s.mboxBytes (off - 0x1000) (bytes.take (0x2000 - off))).mboxBytes 2 [0#8, 0#8]
      some (if s.mboxOp = 0 || mboxCodes.contains s.mboxOp then s else s.answer 2)
  else some s

/-- A write of a control register that has no behaviour of its own; one that is not valid leaves it
unchanged. CTXCTL.SYS keeps its value. There is none without firmware (R338). -/
def State.csrPlain (s : State) (num ctx die : Nat) (w : Word) : Option State :=
  if !s.host.fwok then none
  else if 0x100 ≤ num && num ≤ 0x107 then
    match s.ctx? ctx with
    | none => none
    | some c =>
      some (if ctxRegValid num w && (num != 0x107 || bitOf w.toNat 4 == c.sys) then
          s.writeCtx die ctx num w else s)
  else if plainDieReg num && die < s.nDies then
    some (if s.dieRegValid die num w then s.writeDie die num w else s)
  else none

/-- REGISTER_WRITE; it may follow the completion of the host's earlier writes (R167). -/
def execRegisterWrite (s : State) : Host.Outcome State Fault Refusal :=
  event "REGISTER_WRITE" (if !s.hostOrdered then none else match s.arg.target with
    | .bar off => s.barWrite off s.arg.w s.arg.bytes
    | .csr num ctx die => s.csrPlain num ctx die s.arg.w)

/-- COMPLETION_DOORBELL: a CDB write takes one from a counter; one that names no die is discarded
(R315). It may follow the completion of the host's earlier writes (R167), and there is none without firmware
(R338). -/
def State.completionDoorbell (s : State) (w : Word) : Option State :=
  let d := wordBits w 14 1
  if !s.hostOrdered || !s.host.fwok then none
  else some (if s.nDies ≤ d then s
    else s.decCounter (64 * d + wordBits w 8 6) (wordBits w 0 8) 3 0xFFFF)

/-- COMPLETION_DOORBELL. -/
def execCompletionDoorbell (s : State) : Host.Outcome State Fault Refusal :=
  event "COMPLETION_DOORBELL" (s.completionDoorbell s.arg.w)

/-! ### Contexts (R340, R358, R360, R430) -/

/-- The context of a descriptor of 128 bytes, refused where a reserved bit is set, a field lies outside its
range or an address is misaligned (Table 19.5). -/
def ctxOfDescriptor (m : Memory) (base : Nat) : Option Ctx :=
  let w := fun (off : Nat) => BitVec.ofNat 64 (m.read (base + off) 8)
  let n := fun (off : Nat) => m.read (base + off) 4
  let regs : CtxRegs :=
    { ptroot := w 0x00, rgntab := w 0x08, rgncnt := BitVec.ofNat 64 (n 0x10), scene := w 0x20
      shdtab := w 0x18, shdcnt := BitVec.ofNat 64 (n 0x14) }
  let ok := ctxRegValid 0x100 (w 0x00) && ctxRegValid 0x101 (w 0x08) &&
    ctxRegValid 0x102 (BitVec.ofNat 64 (n 0x10)) && ctxRegValid 0x105 (BitVec.ofNat 64 (n 0x14)) &&
    ctxRegValid 0x104 (w 0x18) && ctxRegValid 0x103 (w 0x20) && ctxRegValid 0x106 (w 0x28) &&
    ctxRegValid 0x107 (BitVec.ofNat 64 (n 0x30)) && bitsOf (n 0x34) 21 11 == 0 &&
    decide (1 ≤ bitsOf (n 0x34) 16 5) && decide (bitsOf (n 0x34) 16 5 ≤ 16) &&
    wordBits (w 0x40) 0 16 == 0 && decide (n 0x48 ≤ 2048) && n 0x4C == 0 &&
    wordBits (w 0x50) 0 4 == 0 && m.read (base + 0x60) 32 == 0
  if !ok then none
  else some
    { id := bitsOf (n 0x34) 0 16, regs := regs, eff := regs, scenePend := none, tvec := w 0x28
      ctxctl := BitVec.ofNat 64 (n 0x30), prlog2n := bitsOf (n 0x34) 16 5, prbase := w 0x38
      save := w 0x40, nframe := n 0x48, rlbase := w 0x50, rlsize := w 0x58, halted := false, lrc := 0
      doneDue := [], doneG := 0, logPos := 0, logWait := [], replay := none, replayPos := [], replaySince := [] }

/-- The state without a context's translations, cached region entries and FXADD lines (R232). -/
def State.forgetCtx (s : State) (id : Nat) : State :=
  let clear := fun (k : Core) => { k with
    tlb := k.tlb.filter (fun e => e.ctx != id), regions := removeAt id k.regions }
  let clearDie := fun (k : Die) => { k with fxLines := k.fxLines.filter (fun p => p.2.1 != id) }
  { s with
    cores := s.cores.map (fun (c : Nat × Core) => (c.1, clear c.2))
    die0 := clearDie s.die0, die1 := clearDie s.die1 }

/-- Installs a context, unless its number is in use. -/
def State.install (s : State) (c : Ctx) : Option State :=
  if (s.ctx? c.id).isSome then none
  else some { s.forgetCtx c.id with ctxs := s.ctxs ++ [c] }

/-- CTXINSTALL. -/
def execCtxinstall (s : State) : Host.Outcome State Fault Refusal :=
  event "CTXINSTALL" (s.mboxRequest 1 fun s => (ctxOfDescriptor s.host.mbox 0x40).bind s.install)

/-- Every completion counter of a core becomes 0, and the waits on them are tested (R120). -/
def State.zeroCounters (s : State) (core : Nat) : State :=
  let s := ((s.core core).counters.map Prod.fst).foldl (fun (s : State) k => s.setCounter core k 0#32) s
  s.modCore core fun k => { k with counters := [] }

/-- Frees the teams of a context with their slots, frames, tiles and scratchpads; the completion counters of
their cores become 0. -/
def State.freeTeams (s : State) (c : Ctx) : State :=
  let mine := fun (t : Team) => t.ctx == c.id
  let s := (s.teams.filter mine).foldl (fun (s : State) t =>
    let s := match t.frame with
      | some f => match s.mapBit (deviceWalker t.ident.die c.id) c.save f false with
        | .ok s => s
        | .error _ => s
      | none => s
    (s.zeroCounters t.coreId).modCore t.coreId fun k => { k with
      entering := k.entering.filter (fun e => e.uid != t.uid)
      mats := k.mats.filter (fun x => x.uid != t.uid)
      xfs := k.xfs.filter (fun x => x.uid != t.uid)
      streams := k.streams.map (fun q => (q.1, q.2.filter (fun p => p.uid != t.uid))) }) s
  { s with teams := s.teams.filter (fun t => !mine t) }

/-- Removes a context's tasks, waves, rays and bins from the device; a team that a thief has claimed does not
start. The decrements that complete tasks owe are still made (R35, R430). -/
def State.freeWork (s : State) (id : Nat) : State :=
  let clearDie := fun (k : Die) => k.newHeads { k with
    ready := k.ready.filter (fun t => t.ctx != id)
    locals := k.locals.filter (fun t => t.2.ctx != id)
    waves := k.waves.filter (fun w => w.ctx != id)
    waveFullSince := if k.waves.any (fun w => w.ctx == id) then none else k.waveFullSince
    skBins := k.skBins.filter (fun b => b.ctx != id)
    rays := k.rays.filter (fun r => r.ctx != id)
    waiters := k.waiters.filter (fun u => s.teams.any (fun t => t.uid == u))
    placeDue := true }
  let clearCore := fun (k : Core) => { k with
    batches := k.batches.filter (fun b => b.ctx != id)
    steal := match k.steal.claimed with
      | some (_, _, c, _) => if c = id then { k.steal with claimed := none, reserve := none } else k.steal
      | none => k.steal }
  { s with
    die0 := clearDie s.die0, die1 := clearDie s.die1
    cores := s.cores.map (fun (c : Nat × Core) => (c.1, clearCore c.2))
    tasks := s.tasks.filter (fun t => t.ctx != id)
    readyQ := s.readyQ.filter (fun t => t.ctx != id) }

/-- A context after its reset: it stays installed, not halted and no longer in replay. -/
def Ctx.afterReset (c : Ctx) : Ctx :=
  { c with halted := false, lrc := 0, doneDue := [], doneG := 0, logWait := [], replay := none, replayPos := []
           replaySince := [] }

/-- Resets a context (R340, R358, R430). -/
def State.resetCtx (s : State) (id : Nat) : Option State :=
  match s.ctx? id with
  | none => none
  | some c => some (((s.freeTeams c).freeWork id).modCtx id Ctx.afterReset)

/-- Whether the frame map of a context that is reset waits for its home (R190). -/
def State.mapWaits (s : State) (id : Nat) : Bool :=
  (s.ctx? id).any fun c => s.teams.any fun t => t.ctx == id && t.frame.any fun f =>
    match s.mapBit (deviceWalker t.ident.die id) c.save f false with
    | .error e => e.waits
    | .ok _ => false

/-- Whether copy operations of a context are still in flight. -/
def State.copying (s : State) (id : Nat) : Bool :=
  s.cores.any fun p => p.2.copies.any (fun o => o.ctx == id)

/-- CTXRESET: the reset follows the end of the context's copy operations in flight (R358). -/
def execCtxreset (s : State) : Host.Outcome State Fault Refusal :=
  event "CTXRESET" (if s.host.fwok && (s.copying (s.mbox 8 2) || s.mapWaits (s.mbox 8 2)) then none
    else s.mboxRequest 2 fun s => s.resetCtx (s.mbox 8 2))

/-- The queues whose descriptor's word at 0x10 is not zero. -/
def State.describedQueues (s : State) : List Nat :=
  let qt := s.queueAt 0
  (s.die0.mem.filterMap fun c =>
    if qt ≤ c.1 && c.1 < qt + 2 ^ 21 && (c.1 - qt) % 64 == 0x10 then some ((c.1 - qt) / 64) else none)

/-- Whether a context holds a team, a ray or a bin. -/
def State.holdsWork (s : State) (id : Nat) : Bool :=
  s.teams.any (fun t => t.ctx == id) || (s.die0.rays ++ s.die1.rays).any (fun r => r.ctx == id) ||
    (s.die0.bins ++ s.die1.bins).any (fun b => b.ctx == id) ||
    (s.die0.skBins ++ s.die1.skBins).any (fun b => b.ctx == id)

/-- Uninstalls a context that holds nothing and whose queues are disabled. -/
def State.uninstall (s : State) (id : Nat) : Option State :=
  let serves := s.describedQueues.any fun q => (s.queue q).ctx == id && (s.queue q).enable
  let waves := (s.die0.waves ++ s.die1.waves).any (fun w => w.ctx == id)
  if (s.ctx? id).isNone || s.holdsWork id || waves || serves then none
  else some { s.forgetCtx id with ctxs := s.ctxs.filter (fun c => c.id != id) }

/-- CTXREMOVE. -/
def execCtxremove (s : State) : Host.Outcome State Fault Refusal :=
  event "CTXREMOVE" (s.mboxRequest 3 fun s => s.uninstall (s.mbox 8 2))

/-! ### CSRREAD and CSRWRITE (R341) -/

/-- The register that a request names: its number, its context and its die; refused where it names none. -/
def State.csrNamed (s : State) : Option (Nat × Nat × Nat) :=
  let w := s.mboxWord 8
  let num := wordBits w 16 12
  let id := wordBits w 0 16
  let d := wordBits w 28 1
  let ctxReg := decide (0x100 ≤ num) && decide (num ≤ 0x107) && (s.ctx? id).isSome
  let dieReg := ((decide (0x200 ≤ num) && decide (num ≤ 0x20E)) ||
    (decide (0x210 ≤ num) && decide (num ≤ 0x217))) && decide (d < s.nDies)
  if wordBits w 29 35 = 0 && (ctxReg || dieReg) then some (num, id, d) else none

/-- The value of a named register. -/
def State.csrValue (s : State) (num id d : Nat) : Word :=
  if num < 0x200 then ((s.ctx? id).map (fun c => c.csr num)).getD 0#64 else (s.die d).regs.get num

/-- CSRREAD: the register's value is the reply. -/
def execCsrread (s : State) : Host.Outcome State Fault Refusal :=
  event "CSRREAD" (s.mboxRequest 4 fun s => s.csrNamed.map fun p =>
    s.mboxBytes 0x10 (leBytes 8 (s.csrValue p.1 p.2.1 p.2.2).toNat))

/-- Writes a named register; after a change to a context register its translations are invalidated, and the
change is in force. -/
def State.csrWrite (s : State) (num id d : Nat) (v : Word) : Option State :=
  if num < 0x200 then
    if !ctxRegValid num v then none
    else
      let s := (s.writeCtx d id num v).tlbinv id (fun _ => true)
      some ((List.range s.nDies).foldl (fun (s : State) d => s.dropTreelets d) s)
  else if s.dieRegValid d num v then some (s.writeDie d num v) else none

/-- CSRWRITE: a context register is written once the context's translated accesses have settled (R391). -/
def execCsrwrite (s : State) : Host.Outcome State Fault Refusal :=
  let waits := match s.csrNamed with
    | some (num, id, _) => decide (num < 0x200) && s.unsettled id
    | none => false
  event "CSRWRITE" (if s.host.fwok && waits then none
    else s.mboxRequest 5 fun s => s.csrNamed.bind fun p => s.csrWrite p.1 p.2.1 p.2.2 (s.mboxWord 0x10))

/-! ### ERRRING and PEERTO (R359, R405) -/

/-- Sets SYS.ERRRING and writes the new ring's header: LOST takes the records counted without a ring. -/
def State.setRing (s : State) (v : Word) : Option State :=
  if !errringValid v then none
  else
    let base := wordBits v 12 40 * 4096
    let s := (List.range s.nDies).foldl (fun (s : State) d =>
      s.modDie d fun k => { k with regs := { k.regs with errring := v } }) s
    let s := ((s.deviceWrite 0 base 4 0).deviceWrite 0 (base + 4) 4 0).deviceWrite 0 (base + 8) 4
      s.host.preRingCount
    some { s with host := { s.host with preRingCount := 0 } }

/-- ERRRING. -/
def execErrring (s : State) : Host.Outcome State Fault Refusal :=
  event "ERRRING" (s.mboxRequest 6 fun s => s.setRing (s.mboxWord 0x10))

/-- PEERTO: the peer timeout, 10,000 to 1,000,000 ticks. -/
def execPeerto (s : State) : Host.Outcome State Fault Refusal :=
  event "PEERTO" (s.mboxRequest 7 fun s =>
    let v := s.mbox 0x10 8
    if v < 10000 || 1000000 < v then none
    else some { s with host := { s.host with peerTimeout := v } })

/-! ### Attestation (R339, R342) -/

/-- The 64-byte SHAKE256 digest of a byte string. -/
def digest (bytes : List Byte) : List Byte := (List.range 64).map (Config.shake256 bytes)

/-- The numbers of the die registers, in order. -/
def dieRegNumbers : List Nat := rangeFrom 0x200 15 ++ rangeFrom 0x210 8

/-- The bytes that the configuration measurement covers. -/
def State.configBytes (s : State) (d : Nat) : List Byte :=
  dieRegNumbers.flatMap (fun n => leBytes 8 ((s.die d).regs.get n).toNat) ++
    leBytes 8 s.host.qtbase.toNat

/-- The report of Table 13.11. -/
def State.attestation (s : State) (d : Nat) (nonce : List Byte) : List Byte :=
  let body := nonce ++ leBytes 16 d ++ digest s.host.fwRunning ++ digest (s.configBytes d) ++
    digest (leBytes 8 (s.die d).regs.slicecfg.toNat)
  body ++ (List.range 3309).map (Config.signature d body)

/-- ATTEST: the signed report. -/
def execAttest (s : State) : Host.Outcome State Fault Refusal :=
  event "ATTEST" (s.mboxRequest 0x10 fun s =>
    let d := s.mbox 8 8
    if s.nDies ≤ d then none
    else some (s.mboxBytes 0x100 (s.attestation d (s.host.mbox.bytes 0x40 32))))

/-- CERT: one certificate of a die's chain, its length, and the number of certificates. -/
def execCert (s : State) : Host.Outcome State Fault Refusal :=
  event "CERT" (s.mboxRequest 0x11 fun s =>
    let w := s.mboxWord 8
    let d := wordBits w 8 1
    let chain := Config.certificates d
    match chain[wordBits w 0 8]? with
    | none => none
    | some c =>
      if s.nDies ≤ d || wordBits w 9 55 ≠ 0 then none
      else some (((s.mboxBytes 0x10 (leBytes 8 c.length)).mboxBytes 0x18
        (leBytes 8 chain.length)).mboxBytes 0x100 (c.take 3840)))

/-! ### Firmware (R334, R338, R340) -/

/-- The bytes of a die's page-lock table: 4 for each page of its local GDDR7 (R173). -/
def State.lockTableSize (s : State) : Nat := s.gddrSize / 65536 * 4

/-- A die as the firmware initialises it: the check bits of its SRAMs, and every register at its reset value but
for SYS.PLTBASE, which names a zeroed table at the top of local GDDR7 (R173, R334). -/
def Die.bringUp (k : Die) (top size : Nat) : Die :=
  let base := top - size
  let inside := fun (l : Nat) => decide (base ≤ l) && decide (l < top)
  { k with
    regs := { DieRegs.atReset with pltbase := BitVec.ofNat 64 base }
    pendSlice := none, pendStitch := []
    mem := k.mem.clear base size, dram := k.dram.clear base size
    poison := [], dsmPoison := [], dramPoison := k.dramPoison.filter (fun l => !inside l) }

/-- Firmware initialises the check bits of every SRAM, and sets every register to its reset value on each die
(R334). -/
def State.bringUp (s : State) : State :=
  let s := (List.range s.nDies).foldl (fun (s : State) d =>
    s.modDie d fun k => k.bringUp s.gddrSize s.lockTableSize) s
  { s with
    cores := s.cores.map (fun (c : Nat × Core) => (c.1, { c.2 with badScratch := [] }))
    host := { s.host with qtbase := 0#64 } }

/-- The firmware that the boot ROM accepts runs: FWOK, the stages of bring-up, the registers at their reset
values, and READY where CXL has trained (R334). -/
def State.startFirmware (s : State) : State :=
  if Config.firmwareValid s.host.fwStored then
    let stage := (Config.bringUpStage.setWidth 64) <<< 8
    let s := s.bringUp
    { s with host := { s.host with
        fwRunning := s.host.fwStored
        status := (if s.host.cxlLanes = 0 then 0#64 else 1#64) ||| 2#64 ||| stage } }
  else { s with host := { s.host with status := s.host.status &&& 1#64 } }

/-- The state with the chunks received so far. -/
def State.setChunks (s : State) (bytes : List Byte) : State :=
  { s with host := { s.host with fwChunks := bytes } }

/-- The end of an image: a verified one replaces the stored firmware, and runs at once while FWOK is 0. -/
def State.endImage (s : State) (image : List Byte) : State :=
  let s := s.setChunks []
  if !Config.firmwareValid image then s.answer 1
  else
    let s := { s with host := { s.host with fwStored := image } }
    (if s.host.fwok then s else s.startFirmware).answer 0

/-- FWLOAD: one chunk of an image; one out of place discards those before it. -/
def State.fwload (s : State) : State :=
  let w := s.mboxWord 8
  let n := s.mbox 0x10 8
  let have_ := s.host.fwChunks
  if n = 0 || 3840 < n || wordBits w 32 31 ≠ 0 then s.answer 1
  else if wordBits w 0 32 ≠ have_.length then (s.setChunks []).answer 1
  else
    let image := have_ ++ s.host.mbox.bytes 0x100 n
    if bitOf w.toNat 63 then s.endImage image else (s.setChunks image).answer 0

/-- FWLOAD. -/
def execFwload (s : State) : Host.Outcome State Fault Refusal :=
  event "FWLOAD" (if s.mboxOp = 0x20 then some s.fwload else none)

/-- POWER_ON: everything is as at reset but for the stored firmware and what lies outside the device; the
boot ROM verifies the firmware and starts it. -/
def State.powerOn (s : State) : State :=
  let r := State.reset
  { r with
    product := s.product, fabric := s.fabric, free := s.free, agenda := s.agenda, elapsed := s.elapsed
    nextUid := s.nextUid, intakeCap := s.intakeCap, landingCap := s.landingCap
    host := { r.host with mem := s.host.mem, fwStored := s.host.fwStored } }.startFirmware

/-- POWER_ON. -/
def execPowerOn (s : State) : Host.Outcome State Fault Refusal :=
  event "POWER_ON" (some s.powerOn)

/-- A die after device reset: its memory keeps what it held (log entry 35). -/
def Die.deviceReset (k : Die) : Die :=
  { Die.atReset with
    mem := k.mem, dram := k.dram, cache := k.cache, dirty := k.dirty, poison := k.poison
    dramPoison := k.dramPoison }

/-- DEVICE_RESET: registers, counters, predictors and hint tables as at reset; memory is kept; newly loaded
firmware starts. -/
def State.deviceReset (s : State) : State :=
  let r := State.reset
  { r with
    product := s.product, fabric := s.fabric, free := s.free, agenda := s.agenda, elapsed := s.elapsed
    nextUid := s.nextUid, intakeCap := s.intakeCap, landingCap := s.landingCap, die0 := s.die0.deviceReset, die1 := s.die1.deviceReset
    host := { r.host with mem := s.host.mem, fwStored := s.host.fwStored } }.startFirmware

/-- DEVICE_RESET. -/
def execDeviceReset (s : State) : Host.Outcome State Fault Refusal :=
  event "DEVICE_RESET" (some s.deviceReset)

/-- CXL_LINK_TRAINING: the link trains at 16 lanes and 128 GT/s, or falls back; with firmware running the
device becomes ready (R330, R334). -/
def State.cxlTrain (s : State) (lanes rate : Nat) : Option State :=
  if lanes = 0 || 16 < lanes || rate = 0 || 128 < rate then none
  else
    let ready := if s.host.fwok then 1#64 else 0#64
    some { s with host := { s.host with
      cxlLanes := lanes, cxlRate := rate, status := s.host.status ||| ready } }

/-- CXL_LINK_TRAINING. -/
def execCxlLinkTraining (s : State) : Host.Outcome State Fault Refusal :=
  event "CXL_LINK_TRAINING" (s.cxlTrain s.arg.n s.arg.m)

/-! ### Monitors and replay (R337, R422, R424) -/

/-- MONREAD: the 80-byte record of a monitor. -/
def execMonread (s : State) : Host.Outcome State Fault Refusal :=
  event "MONREAD" (s.mboxRequest 0x30 fun s =>
    let w := s.mboxWord 8
    let mon := wordBits w 0 3
    let unit := wordBits w 8 6
    let d := wordBits w 16 1
    if s.nDies ≤ d || monitorUnits mon ≤ unit || !onlyBits w 0x13F07 then none
    else
      let m := (s.die d).monitor mon unit
      some (s.mboxBytes 0x100 ((List.range 10).flatMap fun k => leBytes 8 (m.word k).toNat)))

/-- SETTHR: the thresholds of a monitor; a pair with LO > HI is refused. -/
def execSetthr (s : State) : Host.Outcome State Fault Refusal :=
  event "SETTHR" (s.mboxRequest 0x31 fun s =>
    let w := s.mboxWord 8
    let lo := signedOf 32 (s.mbox 0x10 4)
    let hi := signedOf 32 (s.mbox 0x14 4)
    let mon := w.toNat
    if hi < lo || 8 ≤ mon then none
    else some { s with host := { s.host with
      thresholds := (mon, lo, hi) :: s.host.thresholds.filter (fun p => p.1 != mon) } })

/-- The waves and the placements of both dies are awaited from now on (R425). -/
def State.replayStart (s : State) : List (Nat × Nat) :=
  [(6, s.time 0), (7, s.time 1), (10, s.time 0), (11, s.time 1)]

/-- REPLAY: installs a context that reads its inputs from a log; refused while another context holds a team,
a ray or a bin. -/
def State.installReplay (s : State) : Option State :=
  match ctxOfDescriptor s.host.mbox 0x40 with
  | none => none
  | some c =>
    if c.recording || s.ctxs.any (fun x => s.holdsWork x.id) then none
    else s.install { c with replay := some (s.mboxWord 8, s.mbox 0x10 8), replaySince := s.replayStart }

/-- REPLAY. -/
def execReplay (s : State) : Host.Outcome State Fault Refusal :=
  event "REPLAY" (s.mboxRequest 0x32 State.installReplay)

end Sys2Proof.Machine
end

