-- ==== Sys2Proof/Machine/Auto.lean ====
section
/-! DEFINITION. The device steps that act by themselves while the schedule names nothing, in a fixed
order: those that are due, and those that only an idle device takes (log entry 6). -/

namespace Sys2Proof.Machine

/-- A step about a die, and something of it by number. -/
def EventArg.ofDie (d n : Nat) : EventArg := { EventArg.none with die := d, n := n }

/-- A step about a core, and something of it by number. -/
def EventArg.ofCore (c n : Nat) : EventArg := { EventArg.none with die := c / 64, core := c, n := n }

/-- A step about the numbered things of a die. -/
def eachOf {α : Type} (e : Instr) (d : Nat) (l : List α) : List (Instr × EventArg) :=
  (List.range l.length).map fun n => (e, .ofDie d n)

/-- A step about a number. -/
def eachNumber (e : Instr) (l : List Nat) : List (Instr × EventArg) := l.map fun n => (e, .ofDie 0 n)

/-- The mailbox request that waits, if any. -/
def State.requestSteps (s : State) : List (Instr × EventArg) :=
  let table : List (Nat × Instr) :=
    [(1, .ctxinstall), (2, .ctxreset), (3, .ctxremove), (4, .csrread), (5, .csrwrite), (6, .errring),
     (7, .peerto), (0x10, .attest), (0x11, .cert), (0x20, .fwload), (0x30, .monread), (0x31, .setthr),
     (0x32, .replay)]
  (table.filter (fun p => p.1 == s.mboxOp)).map fun p => (p.2, EventArg.none)

/-- What the homes of a die have to do. -/
def State.homeSteps (s : State) (d : Nat) : List (Instr × EventArg) :=
  let k := s.die d
  let mesh := fun (e : Instr) => eachOf e d k.mesh
  mesh .homeRead ++ mesh .homeStore ++ mesh .homeAtomic ++ mesh .writeLeaseGrant ++ mesh .cbarArrival ++
    eachOf .storeAck d k.acks ++ eachOf .dsmElementOp d k.dsmQ ++
    eachOf .homeAcceptPair d k.flight ++
    k.wleases.map (fun w => (Instr.writeLeaseExpiry, EventArg.ofDie d w.line)) ++
    eachOf .multicastDeliver d k.multicasts ++
    k.shoot.map (fun p => (Instr.shootdown, { EventArg.ofCore p.1 0 with die := d }))

/-- What a core and its engines have to do. -/
def State.coreSteps (s : State) (c : Nat) : List (Instr × EventArg) :=
  let k := s.core c
  let one := fun (e : Instr) => (e, EventArg.ofCore c 0)
  [one .coreWake, one .loadReply, one .inboundPeerAccess, one .peerReply] ++
    k.streams.map (fun p => (Instr.pairInject, EventArg.ofCore c p.1)) ++
    k.copies.flatMap (fun o => [(.copyStart, .ofCore c o.id), (.copyComplete, .ofCore c o.id)]) ++
    [one .matrixComplete, one .matrixStep, one .matrixOpStart, one .transformComplete,
     one .transformStart, one .traversalStep, one .stealClaim, one .stealReply, one .thermalTrip]

/-- What the work on its way has to do: tasks, teams, contexts. -/
def State.workSteps (s : State) : List (Instr × EventArg) :=
  let uids := s.teams.map Team.uid
  let ids := s.ctxs.map Ctx.id
  eachOf .depcntUpdate 0 s.depQ ++ eachOf .taskReady 0 s.readyQ ++
    eachOf .successorDecrement 0 s.succQ ++ eachNumber .teamExited uids ++ eachNumber .teamWake uids ++
    eachNumber .donationEnd (uids ++ s.teams.filterMap Team.displacedBy).dedup ++
    eachNumber .teamPreempted uids ++ eachNumber .peerTimeout uids ++
    eachNumber .doneDecrement ids ++ eachNumber .sceneWrite ids

/-- What the rays of a die have to do. -/
def State.raySteps (s : State) (d : Nat) : List (Instr × EventArg) :=
  let k := s.die d
  let slices := (k.skBins.map SkBin.slice).dedup
  (.poolGrant, .ofDie d 0) ::
    k.rays.flatMap (fun r => match r.state with
      | .entering _ => [(.rayEntersBin, .ofDie d r.num)]
      | .traversed _ => [(.traversalResult, .ofDie d r.num)]
      | _ => []) ++
    slices.flatMap (fun n => [(.traversalBinAge, .ofDie d n), (.shaderBinAge, .ofDie d n)]) ++
    k.treelets.flatMap (fun t => (t.lines.take 1).map fun l => (Instr.treeletLineArrival, EventArg.ofDie d l))

/-- What the managers and the distributor of a die have to do, but for placement. -/
def State.dieSteps (s : State) (d : Nat) : List (Instr × EventArg) :=
  let k := s.die d
  let one := fun (e : Instr) => (e, EventArg.ofDie d 0)
  [one .migrationStart, one .migrationCopy, one .migrationFinish, one .slicecfgApply] ++
    k.pendStitch.map (fun p => (Instr.stitchApply, EventArg.ofDie d p.1)) ++
    s.describedQueues.dedup.flatMap (fun q => [(.queueConsume, .ofDie d q), (.queueIdleRecheck, .ofDie d q)]) ++
    s.watchSince.map (fun p => (Instr.donationStart, EventArg.ofCore (p.1 % 128) (p.1 / 128))) ++
    eachOf .recordIntervalClose d k.intervals ++
    (List.range (if k.rays.isEmpty then 0 else 32)).map (fun n => (Instr.poolPressure, EventArg.ofDie d n)) ++
    k.ports.map (fun p => (Instr.scaleoutPortDown, EventArg.ofDie d p.port)) ++
    [one .reservationTimeout] ++
    s.ctxs.map (fun c => (Instr.replayDivergence, EventArg.ofDie d c.id))

/-- Placement, which a waiting candidate may try at any time: an attempt that is due comes before a
pre-emption. -/
def State.placementSteps (s : State) (d : Nat) : List (Instr × EventArg) :=
  let attempt : Instr × EventArg := (.placementAttempt, .ofDie d 0)
  let preempt : Instr × EventArg := (.preemptForCandidate, .ofDie d 0)
  if (s.die d).placeDue then [attempt, preempt] else [preempt, attempt]

/-- Steps that only the lack of all others lets happen: noise for a waiting draw, bins, idle cores. -/
def State.idleSteps (s : State) : List (Instr × EventArg) :=
  let cores := (s.teams.map Team.coreId).dedup
  let bins := fun (d : Nat) => (s.die d).bins.map (fun b => (Instr.binApply, EventArg.ofDie d b.line))
  (cores.filter (fun c => (s.core c).noise.isEmpty && !(s.core c).noiseFailed)).map
      (fun c => (Instr.noiseWord, { EventArg.ofCore c 0 with ok := true })) ++
    bins 0 ++ bins 1 ++ cores.map (fun c => (Instr.stealRequest, EventArg.ofCore c 0)) ++
    s.cores.flatMap (fun p => [(.corePowerGate, .ofCore p.1 0), (.coreClockGate, .ofCore p.1 0)])

/-- The device steps that are due, with their subjects; placement comes last (log entry 6). -/
def State.dueSteps (s : State) : List (Instr × EventArg) :=
  let dies := List.range s.nDies
  let cores := (s.cores.map Prod.fst ++ s.teams.map Team.coreId).dedup
  s.requestSteps ++ dies.flatMap s.homeSteps ++ cores.flatMap s.coreSteps ++ s.workSteps ++
    dies.flatMap s.raySteps ++ dies.flatMap s.dieSteps ++ [(.pairLinkRestoreTimeout, EventArg.none)] ++
    dies.flatMap s.placementSteps

end Sys2Proof.Machine
end

