-- ==== Sys2Proof/Machine/Decoding.lean ====
section
/-! DEFINITION. The steps of a word that decoding rejects and of a fetch that fails (spec/04 R87,
R88, spec/20 R374, R375). -/

namespace Sys2Proof.Machine

/-- The cause with which decoding rejects a word for a team, in the order of Table 4.6; absent for a
word that stands for an instruction. -/
def illegalWordCause (privileged : Bool) (w : W32) : Option Nat :=
  match decodeWord w 0#32 with
  | .ok (.illegalInstr _) => some 1
  | .ok _ => none
  | .error _ =>
    if illegalColumn w then some 1
    else if privilegedWord w && !privileged then some 2
    else match decodeRaw w 0#32 with
      | .ok i => i.illegalCause
      | .error _ => some 3

/-- An effect of a step that takes the issuing team's place: held where the team cannot issue. -/
def issueBare (name : String) (i : Instr) (s : State) (f : Team → Option State) :
    Host.Outcome State Fault Refusal :=
  match s.team? s.cur with
  | none => .fault .noIssuingTeam
  | some t =>
    if !s.canIssue t || s.interlocked t i then .next { s with stalled := true }
    else event name (f t)

/-- ILLEGAL_INSTR: the trap of code 1 with the first failing check's cause and the word. -/
def execIllegalInstr (w : W32) (s : State) : Host.Outcome State Fault Refusal :=
  issueBare "ILLEGAL_INSTR" (.illegalInstr w) s fun t =>
    (illegalWordCause (s.privileged t) w).map fun c =>
      s.takeTrap t (trapIllegal c (w.setWidth 64))

/-- INSTRUCTION_FETCH_FAULT: the trap, or the machine check, of the first word whose fetch failed. -/
def execInstructionFetchFault (s : State) : Host.Outcome State Fault Refusal :=
  issueBare "INSTRUCTION_FETCH_FAULT" .instructionFetchFault s fun t =>
    match s.fetch t with
    | .error e => some (s.takeStop t e)
    | .ok _ => none

end Sys2Proof.Machine
end

