-- ==== Sys2Proof/Machine/Mask.lean ====
section
/-! DEFINITION. Row 0x4: MODE, the mask stack and whole-mask operations (spec/05 R123 to R126). -/

namespace Sys2Proof.Machine

/-! ### MODE (R123) -/

/-- MSET: MODE[15:0] := IMM16; a reserved value is rejected by decoding. -/
def execMset (i : BitVec 16) (s : State) : Host.Outcome State Fault Refusal :=
  issueTeam (.mset i) s fun t => { t.advance with mode := i }

/-- Whether MSETR or ERET may put a value into MODE (R123, R354). -/
def modeValue (v : Word) : Bool :=
  wordBits v 16 48 == 0 && !modeReserved (v.extractLsb' 0 16)

/-- MSETR: MODE[15:0] := sread(A)[15:0], or MODE_VALUE. -/
def execMsetr (a : Field) (s : State) : Host.Outcome State Fault Refusal :=
  issue (.msetr a) s fun t =>
    let v := s.sread t a
    if modeValue v then .ok (s.putTeam { t.advance with mode := v.extractLsb' 0 16 })
    else raise { code := 16, tinfo := v }

/-- MGET: s[D] := zero_extend(MODE). -/
def execMget (d : Field) (s : State) : Host.Outcome State Fault Refusal :=
  issueTeam (.mget d) s fun t => (t.setD d (t.mode.setWidth 64)).advance

/-! ### The mask stack (R125) -/

/-- MODE with another guard. -/
def withGuard (m : BitVec 16) (g : Nat) : BitVec 16 := BitVec.ofNat 16 (setBitsOf m.toNat 0 4 g)

/-- MASK_STACK (Table 20.4). -/
def trapMaskStack (depth : Nat) : Trap := { code := 13, tinfo := BitVec.ofNat 64 depth }

/-- MPUSH: pushes the guard and MODE, narrows the guard by mA into mD. -/
def execMpush (d a : Field) (s : State) : Host.Outcome State Fault Refusal :=
  issue (.mpush d a) s fun t =>
    if 32 ≤ t.stack.length then raise (trapMaskStack t.stack.length)
    else
      let g := t.guard
      let t' := { t with stack := { mask := g, mode := t.mode } :: t.stack }
      .ok (s.putTeam { (t'.setMask d.toNat (g &&& t.mask a.toNat)).advance with
        mode := withGuard t.mode d.toNat })

/-- MELSE: the complement within the entry's guard; the entry stays. -/
def execMelse (d a : Field) (s : State) : Host.Outcome State Fault Refusal :=
  issue (.melse d a) s fun t =>
    match t.stack with
    | [] => raise (trapMaskStack 0)
    | e :: _ =>
      .ok (s.putTeam { (t.setMask d.toNat (e.mask &&& ~~~(t.mask a.toNat))).advance with
        mode := withGuard t.mode d.toNat })

/-- MPOP: restores MODE, and the guard mask of that MODE unless it is m0. -/
def execMpop (s : State) : Host.Outcome State Fault Refusal :=
  issue .mpop s fun t =>
    match t.stack with
    | [] => raise (trapMaskStack 0)
    | e :: rest =>
      let t' := { t with stack := rest, mode := e.mode }
      .ok (s.putTeam (t'.setMask t'.guardReg e.mask).advance)

/-! ### Whole masks (Table 5.9) -/

/-- A mask operation that writes mD. -/
def maskForm (i : Instr) (d : Field) (m : Team → Mask) (s : State) :
    Host.Outcome State Fault Refusal :=
  issueTeam i s fun t => (t.setMask d.toNat (m t)).advance

/-- A mask operation that writes s[D]. -/
def maskScalarForm (i : Instr) (d : Field) (v : Team → Word) (s : State) :
    Host.Outcome State Fault Refusal :=
  issueTeam i s fun t => (t.setD d (v t)).advance

/-- MAND: mD := mA AND mB. -/
def execMand (d a b : Field) (s : State) : Host.Outcome State Fault Refusal :=
  maskForm (.mand d a b) d (fun t => t.mask a.toNat &&& t.mask b.toNat) s

/-- MOR: mD := mA OR mB. -/
def execMor (d a b : Field) (s : State) : Host.Outcome State Fault Refusal :=
  maskForm (.mor d a b) d (fun t => t.mask a.toNat ||| t.mask b.toNat) s

/-- MXOR: mD := mA XOR mB. -/
def execMxor (d a b : Field) (s : State) : Host.Outcome State Fault Refusal :=
  maskForm (.mxor d a b) d (fun t => t.mask a.toNat ^^^ t.mask b.toNat) s

/-- MANDN: mD := mA AND NOT mB. -/
def execMandn (d a b : Field) (s : State) : Host.Outcome State Fault Refusal :=
  maskForm (.mandn d a b) d (fun t => t.mask a.toNat &&& ~~~(t.mask b.toNat)) s

/-- MNOT: mD := NOT mA. -/
def execMnot (d a : Field) (s : State) : Host.Outcome State Fault Refusal :=
  maskForm (.mnot d a) d (fun t => ~~~(t.mask a.toNat)) s

/-- MMOV: mD := mA. -/
def execMmov (d a : Field) (s : State) : Host.Outcome State Fault Refusal :=
  maskForm (.mmov d a) d (fun t => t.mask a.toNat) s

/-- MCNT: the number of set bits of mA. -/
def execMcnt (d a : Field) (s : State) : Host.Outcome State Fault Refusal :=
  maskScalarForm (.mcnt d a) d
    (fun t => BitVec.ofNat 64 (popcount 1024 (t.mask a.toNat).toNat)) s

/-- MFFS: the lowest set bit index of mA; all ones if none. -/
def execMffs (d a : Field) (s : State) : Host.Outcome State Fault Refusal :=
  maskScalarForm (.mffs d a) d
    (fun t => match lowestSet 1024 (t.mask a.toNat).toNat with
      | some k => BitVec.ofNat 64 k
      | none => BitVec.allOnes 64) s

/-- MTOS: s[D] := mA[64j + 63 : 64j], j := sread(B)[3:0]. -/
def execMtos (d a b : Field) (s : State) : Host.Outcome State Fault Refusal :=
  maskScalarForm (.mtos d a b) d
    (fun t => (t.mask a.toNat).extractLsb' (64 * wordBits (s.sread t b) 0 4) 64) s

/-- MFRS: mD[64j + 63 : 64j] := sread(A), j := sread(B)[3:0]; other bits kept. -/
def execMfrs (d a b : Field) (s : State) : Host.Outcome State Fault Refusal :=
  maskForm (.mfrs d a b) d
    (fun t => BitVec.ofNat 1024 (setBitsOf (t.mask d.toNat).toNat
      (64 * wordBits (s.sread t b) 0 4) 64 (s.sread t a).toNat)) s

/-- MLEN: bits 0 to min(sread(A), E) − 1 set, the rest clear. -/
def execMlen (d a : Field) (s : State) : Host.Outcome State Fault Refusal :=
  maskForm (.mlen d a) d
    (fun t => BitVec.ofNat 1024 (2 ^ min (s.sread t a).toNat t.ident.elanes - 1)) s

/-- The summary of a mask: bit g is the OR of word g (R30). -/
def summary (m : Mask) : Nat :=
  ((List.range 32).map (fun g => if bitsOf m.toNat (32 * g) 32 = 0 then 0 else 2 ^ g)).sum

/-- MALL: s[D] := zero_extend(summary of mA). -/
def execMall (d a : Field) (s : State) : Host.Outcome State Fault Refusal :=
  maskScalarForm (.mall d a) d (fun t => BitVec.ofNat 64 (summary (t.mask a.toNat))) s

end Sys2Proof.Machine
end

