-- ==== Sys2Proof/Machine/Rays.lean ====
section
/-! DEFINITION. Row 0xE: TRACE, SPAWN, RETIRE, DEFER, EPEND and POOLQ (spec/12 R302 to R308). -/

namespace Sys2Proof.Machine

/-- RAY_CONTEXT unless the team is a wave (R306, R310). -/
def Team.needWave (t : Team) : Except Stop Unit :=
  if t.ident.isWave then .ok () else raise { code := 17 }

/-- The guarded lanes below E that hold a ray, with their ray numbers, in ascending order. -/
def Team.heldLanes (t : Team) : List (Nat × Nat) :=
  (t.guarded t.ident.elanes).filterMap fun i =>
    (t.rays.find? (fun p => p.1 == i)).map (fun p => (i, p.2))

/-- Word 12 of a record as the program's writes leave it (R282, R303): [31:28] zero, and HIT zero
where the word is written. -/
def recordFlags (written : Bool) (w : W32) : W32 :=
  if written then w &&& 0x0EFFFFFF#32 else w &&& 0x0FFFFFFF#32

/-- A record with the words that a mask selects taken from lane `i` (R303). -/
def Team.writeRecord (t : Team) (mask i : Nat) (words : List W32) : List W32 :=
  (List.range 32).map fun k =>
    let w := if bitOf mask k then (t.vread (BitVec.ofNat 7 k)).lane i else words.getD k 0#32
    if k = 12 then recordFlags (bitOf mask 12) w else w

/-- The lanes that have handed their rays back. -/
def Team.loseRays (t : Team) (lanes : List (Nat × Nat)) : Team :=
  { t with rays := t.rays.filter (fun p => !(lanes.any (fun q => q.1 == p.1))) }

/-- Hands the ray of a lane on after its record is written: to a bin, or out of the pool where no
shader follows (R303). -/
def State.handRay (s : State) (t : Team) (mask : Nat) (defer : Bool) (l : Nat × Nat) : State :=
  match s.ray? t.ident.die l.2 with
  | none => s
  | some r =>
    let words := t.writeRecord mask l.1 r.words
    let shader := bitsOf (words.getD 13 0#32).toNat 0 16
    if defer && shader = 0xFFFF then s.freeRay t.ident.die l.2
    else s.modRay t.ident.die l.2 fun r => { r with
      words := words, since := s.time t.ident.die, src := some t.uid
      state := .entering (if defer then some shader else none) }

/-- TRACE and DEFER (R303). -/
def rayForm (i : Instr) (defer : Bool) (d a : Field) (s : State) :
    Host.Outcome State Fault Refusal :=
  issue i s fun t => do
    t.needWave
    let mask := wordBits (s.sread t a) 0 32
    let lanes := t.heldLanes
    let s := lanes.foldl (fun (s : State) l => s.handRay t mask defer l) s
    pure ((s.putTeam (((t.loseRays lanes).setD d (BitVec.ofNat 64 lanes.length)).advance)).testPool t.ident.die)

/-- TRACE: the rays enter the traversal bins of their keys. -/
def execTrace (d a : Field) (s : State) : Host.Outcome State Fault Refusal :=
  rayForm (.trace d a) false d a s

/-- DEFER: the rays enter the shader bins of their hit shaders. -/
def execDefer (d a : Field) (s : State) : Host.Outcome State Fault Refusal :=
  rayForm (.defer d a) true d a s

/-- The record that SPAWN builds for lane `i` (R304). -/
def Team.newRecord (t : Team) (a mask i : Nat) : List W32 :=
  (List.range 32).map fun k =>
    let w := if bitOf mask k then (t.vread (BitVec.ofNat 7 (a + k))).lane i else 0#32
    if k = 12 then recordFlags true w else w

/-- The records of a SPAWN that the pool placed when it granted the request are written, in lane order
(R286, R304). -/
def State.writePlaced (s : State) (t : Team) (records : List (List W32)) : State :=
  (t.placed.zip records).foldl (fun (s : State) p => s.modRay t.ident.die p.1 fun r => { r with
    words := p.2, state := .entering none, since := s.time t.ident.die, src := some t.uid }) s

/-- SPAWN: reserves its records, or yields as a pool waiter, then creates the rays (R286, R304). Records that
the pool granted to a waiter are placed and counted already. -/
def execSpawn (d a b : Field) (s : State) : Host.Outcome State Fault Refusal :=
  issue (.spawn d a b) s fun t => do
    let mask := wordBits (s.sread t b) 0 32
    let lanes := t.guarded t.ident.elanes
    let p := lanes.length
    if t.granted != p && decide (s.poolMost t < p) then raise (trapOperand b.toNat (BitVec.ofNat 64 p))
    else if p = 0 then pure (s.putTeam ((t.setD d 0#64).advance))
    else if t.granted != p && !s.poolGrants t p then
      let s := s.modDie t.ident.die fun k => { k with
        waiters := k.waiters ++ [t.uid], waiterSince := insertAt t.uid k.time k.waiterSince }
      pure (s.putTeam (t.waitFor (.pool p)))
    else
      let records := lanes.map (t.newRecord a.toNat mask)
      let s := if t.granted = p then s.writePlaced t records
        else records.foldl (fun (s : State) r => s.placeRay t r) (s.countRays t p)
      let t := { t with granted := 0, placed := [] }
      pure (s.putTeam ((t.setD d (BitVec.ofNat 64 p)).advance))

/-- The pairs that RETIRE emits (R305). -/
def Team.retirePairs (t : Team) (base : Word) (d : Nat) (lanes : List (Nat × Nat)) : List Emitted :=
  lanes.flatMap fun l => (List.range 3).map fun c =>
    { va := base + BitVec.ofNat 64 (12 * ((t.vread 11#7).lane l.1).toNat + 4 * c)
      val := (t.vread (BitVec.ofNat 7 (d + c))).lane l.1
      ray := some (t.ident.die, l.2) }

/-- The ray of a lane after RETIRE has emitted its pairs: freed with the last acceptance, at once
where none of its pairs went on its way. -/
def State.retireRay (s : State) (d : Nat) (ps : List Pair) (num : Nat) : State :=
  let n := (ps.filter (fun p => p.ray == some (d, num))).length
  if n = 0 then s.freeRay d num
  else s.modRay d num fun r => { r with state := .retiring n }

/-- The pairs of a RETIRE by group of 32 lanes, in lane order. -/
def Team.laneGroups (t : Team) (lanes : List (Nat × Nat)) (ps : List Pair) : List (List Pair) :=
  ((List.range 32).map fun g =>
    let here := (lanes.filter (fun l => l.1 / 32 == g)).map fun l => some (t.ident.die, l.2)
    ps.filter (fun p => here.contains p.ray)).filter (fun g => !g.isEmpty)

/-- The groups of a RETIRE enter the stream buffer, each as soon as there is room for it (R305). -/
def State.retireEnter (s : State) (t : Team) (groups : List (List Pair)) : State :=
  if groups.isEmpty then s
  else
    let e : Entering := { uid := t.uid, sched := t.ident.sched, groups := groups }
    s.modCore t.coreId fun k =>
      { k with entering := k.entering ++ [e] }.enterGroups e.sched (s.time t.ident.die)

/-- RETIRE: contributes three channels per ray and frees it (R305). -/
def execRetire (d a : Field) (s : State) : Host.Outcome State Fault Refusal :=
  issue (.retire d a) s fun t => do
    t.needWave
    let base := s.sread t a
    needAligned base 4
    let lanes := t.heldLanes
    let ps := if d = 96#7 then [] else t.retirePairs base d.toNat lanes
    if 1024 < (s.streamOf t).length + 96 then .error .hold else pure ()
    let (s, pairs) ← s.fates t ps
    let s := s.retireEnter t (t.laneGroups lanes pairs)
    let s := lanes.foldl (fun (s : State) l => s.retireRay t.ident.die pairs l.2) s
    pure ((s.putTeam (t.loseRays lanes).advance).testPool t.ident.die)

/-- EPEND: ends the wave as EXIT does (R306). -/
def execEpend (s : State) : Host.Outcome State Fault Refusal :=
  issue .epend s fun t => .ok (s.endTeam t)

/-- POOLQ: FREE, the capacity, LRC, or the rays held, from the A code (R307). -/
def execPoolq (d k : Field) (s : State) : Host.Outcome State Fault Refusal :=
  issue (.poolq d k) s fun t =>
    let v := match k.toNat with
      | 0 => s.poolFree t.ident.die
      | 1 => (s.die t.ident.die).poolCapacity
      | 2 => ((s.ctx? t.ctx).map Ctx.lrc).getD 0
      | _ => if t.ident.isWave then t.rays.length else 0
    .ok (s.putTeam ((t.setD d (BitVec.ofNat 64 v)).advance))

end Sys2Proof.Machine
end

