-- ==== Sys2Proof/Machine/ScalarFloat.lean ====
section
/-! DEFINITION. Row 0x2: scalar floating point (spec/05 R108 to R112). -/

namespace Sys2Proof.Machine

/-- The format that Q selects in row 0x2 (Table 4.2). -/
def fmtOf (q : BitVec 1) : Fmt := if q = 0#1 then .f64 else .f32

/-- A source of row 0x2: decoded in its format and read through R70. -/
def State.freal (s : State) (t : Team) (f : Fmt) (a : Field) : XReal :=
  f.decode t.dnz (s.sreadN t a f.width)

/-- The old s[D] as a source of FFMA. -/
def Team.freal (t : Team) (f : Fmt) (d : Field) : XReal :=
  f.decode t.dnz ((t.sreg d).toNat % 2 ^ f.width)

/-- Whether an exact zero sum of mixed sign is −0 (R69): MODE.RND is RDN. -/
def Team.rdn (t : Team) : Bool := t.rnd == 2

/-- A row 0x2 instruction that writes the rounded value of an exact result (R108). -/
def floatForm (i : Instr) (d : Field) (q : BitVec 1) (x : Team → XReal) (s : State) :
    Host.Outcome State Fault Refusal :=
  issueTeam i s fun t =>
    (t.setD d (BitVec.ofNat 64 (roundFmt (fmtOf q) t.roundingNoDraw (x t)))).advance

/-- A row 0x2 instruction that writes bits computed from its operands. -/
def bitsForm (i : Instr) (d : Field) (v : Team → Nat) (s : State) :
    Host.Outcome State Fault Refusal :=
  issueTeam i s fun t => (t.setD d (BitVec.ofNat 64 (v t))).advance

/-- The magnitude of a value. -/
def XReal.abs (x : XReal) : XReal := if x.isNeg then x.neg else x

/-- FRND's value: the chosen integer, a zero with the sign of the operand (R111). -/
def XReal.rndInt (z : Rounding) (x : XReal) : XReal :=
  match x with
  | .fin n d => .ofRat (roundInt z n d) 1 (decide (n < 0))
  | y => y

/-- The bit that FCLASS sets (R112). -/
def classOf (f : Fmt) (bits : Nat) : Nat :=
  match f.decode false bits with
  | .inf true => 0
  | .inf false => 7
  | .nan => 8
  | .zero true => 3
  | .zero false => 4
  | .fin n _ =>
    if n < 0 then (if f.isSubnormal bits then 2 else 1)
    else (if f.isSubnormal bits then 5 else 6)

/-- FADD: round(a + b). -/
def execFadd (d a b : Field) (w : BitVec 1) (s : State) : Host.Outcome State Fault Refusal :=
  floatForm (.fadd d a b w) d w
    (fun t => XReal.add t.rdn (s.freal t (fmtOf w) a) (s.freal t (fmtOf w) b)) s

/-- FSUB: round(a − b). -/
def execFsub (d a b : Field) (w : BitVec 1) (s : State) : Host.Outcome State Fault Refusal :=
  floatForm (.fsub d a b w) d w
    (fun t => XReal.add t.rdn (s.freal t (fmtOf w) a) (s.freal t (fmtOf w) b).neg) s

/-- FMUL: round(a × b). -/
def execFmul (d a b : Field) (w : BitVec 1) (s : State) : Host.Outcome State Fault Refusal :=
  floatForm (.fmul d a b w) d w
    (fun t => (s.freal t (fmtOf w) a).mul (s.freal t (fmtOf w) b)) s

/-- FFMA: round(a × b + d) with one rounding. -/
def execFfma (d a b : Field) (w : BitVec 1) (s : State) : Host.Outcome State Fault Refusal :=
  floatForm (.ffma d a b w) d w
    (fun t => XReal.add t.rdn ((s.freal t (fmtOf w) a).mul (s.freal t (fmtOf w) b))
      (t.freal (fmtOf w) d)) s

/-- FDIV: round(a ÷ b). -/
def execFdiv (d a b : Field) (w : BitVec 1) (s : State) : Host.Outcome State Fault Refusal :=
  floatForm (.fdiv d a b w) d w
    (fun t => (s.freal t (fmtOf w) a).div (s.freal t (fmtOf w) b)) s

/-- FSQRT: round(√a). -/
def execFsqrt (d a : Field) (w : BitVec 1) (s : State) : Host.Outcome State Fault Refusal :=
  bitsForm (.fsqrt d a w) d
    (fun t => sqrtRound (fmtOf w) t.roundingNoDraw s.free (s.freal t (fmtOf w) a)) s

/-- FMIN: the lesser operand (R109). -/
def execFmin (d a b : Field) (w : BitVec 1) (s : State) : Host.Outcome State Fault Refusal :=
  bitsForm (.fmin d a b w) d
    (fun t => fminBits (fmtOf w) t.dnz (s.sreadN t a (fmtOf w).width)
      (s.sreadN t b (fmtOf w).width)) s

/-- FMAX: the greater operand (R109). -/
def execFmax (d a b : Field) (w : BitVec 1) (s : State) : Host.Outcome State Fault Refusal :=
  bitsForm (.fmax d a b w) d
    (fun t => fmaxBits (fmtOf w) t.dnz (s.sreadN t a (fmtOf w).width)
      (s.sreadN t b (fmtOf w).width)) s

/-- FABS: a with its sign cleared; a NaN gives the canonical NaN. -/
def execFabs (d a : Field) (w : BitVec 1) (s : State) : Host.Outcome State Fault Refusal :=
  bitsForm (.fabs d a w) d
    (fun t => roundFmt (fmtOf w) .rne (s.freal t (fmtOf w) a).abs) s

/-- FNEG: a with its sign inverted; a NaN gives the canonical NaN. -/
def execFneg (d a : Field) (w : BitVec 1) (s : State) : Host.Outcome State Fault Refusal :=
  bitsForm (.fneg d a w) d
    (fun t => roundFmt (fmtOf w) .rne (s.freal t (fmtOf w) a).neg) s

/-- FCMP: CC under R110. -/
def execFcmp (a b : Field) (w : BitVec 1) (s : State) : Host.Outcome State Fault Refusal :=
  issueTeam (.fcmp a b w) s fun t =>
    Team.advance { t with cc := ccFloat (s.freal t (fmtOf w) a) (s.freal t (fmtOf w) b) }

/-- FCVT: between F32 and F64, into the format of Q (R111). -/
def execFcvt (d a : Field) (w : BitVec 1) (s : State) : Host.Outcome State Fault Refusal :=
  floatForm (.fcvt d a w) d w (fun t => s.freal t (fmtOf (~~~w)) a) s

/-- FTOI: to I64 under MODE.RND, saturating (R111). -/
def execFtoi (d a : Field) (w : BitVec 1) (s : State) : Host.Outcome State Fault Refusal :=
  bitsForm (.ftoi d a w) d
    (fun t => roundToInt true 64 t.roundingNoDraw (s.freal t (fmtOf w) a)) s

/-- ITOF: from a signed 64-bit integer (R111). -/
def execItof (d a : Field) (w : BitVec 1) (s : State) : Host.Outcome State Fault Refusal :=
  floatForm (.itof d a w) d w (fun t => .ofInt (signedOf 64 (s.sread t a).toNat)) s

/-- FCLASS: one bit for the operand's class (R112). -/
def execFclass (d a : Field) (w : BitVec 1) (s : State) : Host.Outcome State Fault Refusal :=
  bitsForm (.fclass d a w) d
    (fun t => 2 ^ classOf (fmtOf w) (s.sreadN t a (fmtOf w).width)) s

/-- FRND: the integer chosen under MODE.RND, in the same format (R111). -/
def execFrnd (d a : Field) (w : BitVec 1) (s : State) : Host.Outcome State Fault Refusal :=
  bitsForm (.frnd d a w) d
    (fun t => roundFmt (fmtOf w) .rne ((s.freal t (fmtOf w) a).rndInt t.roundingNoDraw)) s

end Sys2Proof.Machine
end

