-- ==== Sys2Proof/Machine/Dispatch.lean ====
section
/-! DEFINITION. The dispatch: one arm per instruction, each a direct call of its meaning. -/

namespace Sys2Proof.Machine

/-- The outcome of one instruction or device step. -/
def exec (i : Instr) (s : State) : Host.Outcome State Fault Refusal :=
  match i with
  | .add d a b w => Sys2Proof.Machine.execAdd d a b w s
  | .sub d a b w => Sys2Proof.Machine.execSub d a b w s
  | .mul d a b w => Sys2Proof.Machine.execMul d a b w s
  | .mulh d a b w => Sys2Proof.Machine.execMulh d a b w s
  | .mulhn d a b w => Sys2Proof.Machine.execMulhn d a b w s
  | .div d a b w => Sys2Proof.Machine.execDiv d a b w s
  | .divn d a b w => Sys2Proof.Machine.execDivn d a b w s
  | .rem d a b w => Sys2Proof.Machine.execRem d a b w s
  | .remn d a b w => Sys2Proof.Machine.execRemn d a b w s
  | .and d a b w => Sys2Proof.Machine.execAnd d a b w s
  | .or d a b w => Sys2Proof.Machine.execOr d a b w s
  | .xor d a b w => Sys2Proof.Machine.execXor d a b w s
  | .andn d a b w => Sys2Proof.Machine.execAndn d a b w s
  | .shl d a b w => Sys2Proof.Machine.execShl d a b w s
  | .shr d a b w => Sys2Proof.Machine.execShr d a b w s
  | .sra d a b w => Sys2Proof.Machine.execSra d a b w s
  | .rotl d a b w => Sys2Proof.Machine.execRotl d a b w s
  | .min d a b w => Sys2Proof.Machine.execMin d a b w s
  | .max d a b w => Sys2Proof.Machine.execMax d a b w s
  | .minn d a b w => Sys2Proof.Machine.execMinn d a b w s
  | .maxn d a b w => Sys2Proof.Machine.execMaxn d a b w s
  | .cmp a b w => Sys2Proof.Machine.execCmp a b w s
  | .cmpn a b w => Sys2Proof.Machine.execCmpn a b w s
  | .sel d a b w => Sys2Proof.Machine.execSel d a b w s
  | .clz d a w => Sys2Proof.Machine.execClz d a w s
  | .ctz d a w => Sys2Proof.Machine.execCtz d a w s
  | .popc d a w => Sys2Proof.Machine.execPopc d a w s
  | .brev d a w => Sys2Proof.Machine.execBrev d a w s
  | .bfx d a b w => Sys2Proof.Machine.execBfx d a b w s
  | .bfi d a b w => Sys2Proof.Machine.execBfi d a b w s
  | .mov d a w => Sys2Proof.Machine.execMov d a w s
  | .addi d a imm => Sys2Proof.Machine.execAddi d a imm s
  | .andi d a imm => Sys2Proof.Machine.execAndi d a imm s
  | .ori d a imm => Sys2Proof.Machine.execOri d a imm s
  | .xori d a imm => Sys2Proof.Machine.execXori d a imm s
  | .shli d a imm => Sys2Proof.Machine.execShli d a imm s
  | .shri d a imm => Sys2Proof.Machine.execShri d a imm s
  | .srai d a imm => Sys2Proof.Machine.execSrai d a imm s
  | .cmpi a imm => Sys2Proof.Machine.execCmpi a imm s
  | .cmpni a imm => Sys2Proof.Machine.execCmpni a imm s
  | .movi d imm => Sys2Proof.Machine.execMovi d imm s
  | .movhi d imm => Sys2Proof.Machine.execMovhi d imm s
  | .movxi d imm => Sys2Proof.Machine.execMovxi d imm s
  | .movti d imm => Sys2Proof.Machine.execMovti d imm s
  | .ldlit d lit => Sys2Proof.Machine.execLdlit d lit s
  | .lea d a b q => Sys2Proof.Machine.execLea d a b q s
  | .gets d k => Sys2Proof.Machine.execGets d k s
  | .fadd d a b f => Sys2Proof.Machine.execFadd d a b f s
  | .fsub d a b f => Sys2Proof.Machine.execFsub d a b f s
  | .fmul d a b f => Sys2Proof.Machine.execFmul d a b f s
  | .ffma d a b f => Sys2Proof.Machine.execFfma d a b f s
  | .fdiv d a b f => Sys2Proof.Machine.execFdiv d a b f s
  | .fsqrt d a f => Sys2Proof.Machine.execFsqrt d a f s
  | .fmin d a b f => Sys2Proof.Machine.execFmin d a b f s
  | .fmax d a b f => Sys2Proof.Machine.execFmax d a b f s
  | .fabs d a f => Sys2Proof.Machine.execFabs d a f s
  | .fneg d a f => Sys2Proof.Machine.execFneg d a f s
  | .fcmp a b f => Sys2Proof.Machine.execFcmp a b f s
  | .fcvt d a f => Sys2Proof.Machine.execFcvt d a f s
  | .ftoi d a f => Sys2Proof.Machine.execFtoi d a f s
  | .itof d a f => Sys2Proof.Machine.execItof d a f s
  | .fclass d a f => Sys2Proof.Machine.execFclass d a f s
  | .frnd d a f => Sys2Proof.Machine.execFrnd d a f s
  | .br o => Sys2Proof.Machine.execBr o s
  | .bcc c o => Sys2Proof.Machine.execBcc c o s
  | .bmz m o => Sys2Proof.Machine.execBmz m o s
  | .bmnz m o => Sys2Proof.Machine.execBmnz m o s
  | .call o => Sys2Proof.Machine.execCall o s
  | .callr d a => Sys2Proof.Machine.execCallr d a s
  | .ret a => Sys2Proof.Machine.execRet a s
  | .jmpr a => Sys2Proof.Machine.execJmpr a s
  | .loop a l n => Sys2Proof.Machine.execLoop a l n s
  | .loopi k l n => Sys2Proof.Machine.execLoopi k l n s
  | .lbrk d => Sys2Proof.Machine.execLbrk d s
  | .waitc a b => Sys2Proof.Machine.execWaitc a b s
  | .watch a b => Sys2Proof.Machine.execWatch a b s
  | .trapi imm => Sys2Proof.Machine.execTrapi imm s
  | .mset imm => Sys2Proof.Machine.execMset imm s
  | .msetr a => Sys2Proof.Machine.execMsetr a s
  | .mget d => Sys2Proof.Machine.execMget d s
  | .mpush d a => Sys2Proof.Machine.execMpush d a s
  | .melse d a => Sys2Proof.Machine.execMelse d a s
  | .mand d a b => Sys2Proof.Machine.execMand d a b s
  | .mor d a b => Sys2Proof.Machine.execMor d a b s
  | .mxor d a b => Sys2Proof.Machine.execMxor d a b s
  | .mandn d a b => Sys2Proof.Machine.execMandn d a b s
  | .mnot d a => Sys2Proof.Machine.execMnot d a s
  | .mmov d a => Sys2Proof.Machine.execMmov d a s
  | .mcnt d a => Sys2Proof.Machine.execMcnt d a s
  | .mffs d a => Sys2Proof.Machine.execMffs d a s
  | .mtos d a b => Sys2Proof.Machine.execMtos d a b s
  | .mfrs d a b => Sys2Proof.Machine.execMfrs d a b s
  | .mlen d a => Sys2Proof.Machine.execMlen d a s
  | .mall d a => Sys2Proof.Machine.execMall d a s
  | .vadd d a b c => Sys2Proof.Machine.execVadd d a b c s
  | .vsub d a b c => Sys2Proof.Machine.execVsub d a b c s
  | .vmul d a b c => Sys2Proof.Machine.execVmul d a b c s
  | .vfma d a b c => Sys2Proof.Machine.execVfma d a b c s
  | .vfms d a b c => Sys2Proof.Machine.execVfms d a b c s
  | .vmin d a b c => Sys2Proof.Machine.execVmin d a b c s
  | .vmax d a b c => Sys2Proof.Machine.execVmax d a b c s
  | .vabs d a c => Sys2Proof.Machine.execVabs d a c s
  | .vneg d a c => Sys2Proof.Machine.execVneg d a c s
  | .vand d a b c => Sys2Proof.Machine.execVand d a b c s
  | .vor d a b c => Sys2Proof.Machine.execVor d a b c s
  | .vxor d a b c => Sys2Proof.Machine.execVxor d a b c s
  | .vnot d a c => Sys2Proof.Machine.execVnot d a c s
  | .vshl d a b c => Sys2Proof.Machine.execVshl d a b c s
  | .vshr d a b c => Sys2Proof.Machine.execVshr d a b c s
  | .vsra d a b c => Sys2Proof.Machine.execVsra d a b c s
  | .vcmpeq d a b => Sys2Proof.Machine.execVcmpeq d a b s
  | .vcmpne d a b => Sys2Proof.Machine.execVcmpne d a b s
  | .vcmplt d a b => Sys2Proof.Machine.execVcmplt d a b s
  | .vcmple d a b => Sys2Proof.Machine.execVcmple d a b s
  | .vsel d a b c => Sys2Proof.Machine.execVsel d a b c s
  | .vmov d a c => Sys2Proof.Machine.execVmov d a c s
  | .vbcast d a b c => Sys2Proof.Machine.execVbcast d a b c s
  | .vidx d a b c => Sys2Proof.Machine.execVidx d a b c s
  | .vclamp d a b c => Sys2Proof.Machine.execVclamp d a b c s
  | .vmulp d a b c => Sys2Proof.Machine.execVmulp d a b c s
  | .vdotp d a b c => Sys2Proof.Machine.execVdotp d a b c s
  | .vcvt d a t c => Sys2Proof.Machine.execVcvt d a t c s
  | .vpack d a b c => Sys2Proof.Machine.execVpack d a b c s
  | .vunpk d a h c => Sys2Proof.Machine.execVunpk d a h c s
  | .vrcp d a c => Sys2Proof.Machine.execVrcp d a c s
  | .vrsq d a c => Sys2Proof.Machine.execVrsq d a c s
  | .vsqrt d a c => Sys2Proof.Machine.execVsqrt d a c s
  | .vdiv d a b c => Sys2Proof.Machine.execVdiv d a b c s
  | .vexp2 d a c => Sys2Proof.Machine.execVexp2 d a c s
  | .vlog2 d a c => Sys2Proof.Machine.execVlog2 d a c s
  | .vsin d a c => Sys2Proof.Machine.execVsin d a c s
  | .vcos d a c => Sys2Proof.Machine.execVcos d a c s
  | .vtanh d a c => Sys2Proof.Machine.execVtanh d a c s
  | .vfloor d a c => Sys2Proof.Machine.execVfloor d a c s
  | .vfrac d a c => Sys2Proof.Machine.execVfrac d a c s
  | .vcompact d a c => Sys2Proof.Machine.execVcompact d a c s
  | .vexpand d a c => Sys2Proof.Machine.execVexpand d a c s
  | .vshfl d a b c => Sys2Proof.Machine.execVshfl d a b c s
  | .vrotl d a b c => Sys2Proof.Machine.execVrotl d a b c s
  | .vextr d a b => Sys2Proof.Machine.execVextr d a b s
  | .vins d a b c => Sys2Proof.Machine.execVins d a b c s
  | .rcoal d a c => Sys2Proof.Machine.execRcoal d a c s
  | .rcnt d a => Sys2Proof.Machine.execRcnt d a s
  | .rallot d n => Sys2Proof.Machine.execRallot d n s
  | .rpool d a => Sys2Proof.Machine.execRpool d a s
  | .rsave d a b => Sys2Proof.Machine.execRsave d a b s
  | .rload d a c => Sys2Proof.Machine.execRload d a c s
  | .vredadd d a => Sys2Proof.Machine.execVredadd d a s
  | .vredmin d a => Sys2Proof.Machine.execVredmin d a s
  | .vredmax d a => Sys2Proof.Machine.execVredmax d a s
  | .vredand d a => Sys2Proof.Machine.execVredand d a s
  | .vredor d a => Sys2Proof.Machine.execVredor d a s
  | .vscan d a c => Sys2Proof.Machine.execVscan d a c s
  | .vrng d a c => Sys2Proof.Machine.execVrng d a c s
  | .rngseed a b => Sys2Proof.Machine.execRngseed a b s
  | .rngget d q => Sys2Proof.Machine.execRngget d q s
  | .ld d a b z => Sys2Proof.Machine.execLd d a b z s
  | .ldx d a z lit => Sys2Proof.Machine.execLdx d a z lit s
  | .st d a b z => Sys2Proof.Machine.execSt d a b z s
  | .lda d a b z => Sys2Proof.Machine.execLda d a b z s
  | .stl d a q z => Sys2Proof.Machine.execStl d a q z s
  | .atadd d a b z => Sys2Proof.Machine.execAtadd d a b z s
  | .atmin d a b z => Sys2Proof.Machine.execAtmin d a b z s
  | .atmax d a b z => Sys2Proof.Machine.execAtmax d a b z s
  | .atminn d a b z => Sys2Proof.Machine.execAtminn d a b z s
  | .atmaxn d a b z => Sys2Proof.Machine.execAtmaxn d a b z s
  | .atand d a b z => Sys2Proof.Machine.execAtand d a b z s
  | .ator d a b z => Sys2Proof.Machine.execAtor d a b z s
  | .atxor d a b z => Sys2Proof.Machine.execAtxor d a b z s
  | .atxch d a b z => Sys2Proof.Machine.execAtxch d a b z s
  | .atcas d a b z => Sys2Proof.Machine.execAtcas d a b z s
  | .fence q => Sys2Proof.Machine.execFence q s
  | .linv a b => Sys2Proof.Machine.execLinv a b s
  | .vld d a b c => Sys2Proof.Machine.execVld d a b c s
  | .vlds d a b c => Sys2Proof.Machine.execVlds d a b c s
  | .vst d a b => Sys2Proof.Machine.execVst d a b s
  | .vsts d a b => Sys2Proof.Machine.execVsts d a b s
  | .vldb d a b c => Sys2Proof.Machine.execVldb d a b c s
  | .preq d a b => Sys2Proof.Machine.execPreq d a b s
  | .sld d a b => Sys2Proof.Machine.execSld d a b s
  | .sst d a b => Sys2Proof.Machine.execSst d a b s
  | .sgath d a b c => Sys2Proof.Machine.execSgath d a b c s
  | .sscat d a b => Sys2Proof.Machine.execSscat d a b s
  | .sldt d a b c => Sys2Proof.Machine.execSldt d a b c s
  | .sldc d a c => Sys2Proof.Machine.execSldc d a c s
  | .sstc d a b => Sys2Proof.Machine.execSstc d a b s
  | .clds d a b => Sys2Proof.Machine.execClds d a b s
  | .csts d a b => Sys2Proof.Machine.execCsts d a b s
  | .upd d a b => Sys2Proof.Machine.execUpd d a b s
  | .upds d a => Sys2Proof.Machine.execUpds d a s
  | .uflush a b => Sys2Proof.Machine.execUflush a b s
  | .tdec a => Sys2Proof.Machine.execTdec a s
  | .tinc a => Sys2Proof.Machine.execTinc a s
  | .tspawn a => Sys2Proof.Machine.execTspawn a s
  | .cset a b => Sys2Proof.Machine.execCset a b s
  | .cadd a b => Sys2Proof.Machine.execCadd a b s
  | .cget d a => Sys2Proof.Machine.execCget d a s
  | .cbar d a b => Sys2Proof.Machine.execCbar d a b s
  | .dsmop d a b => Sys2Proof.Machine.execDsmop d a b s
  | .dsmred d a b => Sys2Proof.Machine.execDsmred d a b s
  | .cpy d a b => Sys2Proof.Machine.execCpy d a b s
  | .cpyg d a b => Sys2Proof.Machine.execCpyg d a b s
  | .cpyx d a b => Sys2Proof.Machine.execCpyx d a b s
  | .cpyq d a b => Sys2Proof.Machine.execCpyq d a b s
  | .cpyt d a b => Sys2Proof.Machine.execCpyt d a b s
  | .discard d a b => Sys2Proof.Machine.execDiscard d a b s
  | .prefetch d a b => Sys2Proof.Machine.execPrefetch d a b s
  | .cpya d a b => Sys2Proof.Machine.execCpya d a b s
  | .cwalk d a b => Sys2Proof.Machine.execCwalk d a b s
  | .mcfg d a b => Sys2Proof.Machine.execMcfg d a b s
  | .mzero d a => Sys2Proof.Machine.execMzero d a s
  | .mma d a => Sys2Proof.Machine.execMma d a s
  | .mmag d a b => Sys2Proof.Machine.execMmag d a b s
  | .mmas d a b => Sys2Proof.Machine.execMmas d a b s
  | .mmad d a => Sys2Proof.Machine.execMmad d a s
  | .mlda d a => Sys2Proof.Machine.execMlda d a s
  | .msta d a => Sys2Proof.Machine.execMsta d a s
  | .mtov d a b c => Sys2Proof.Machine.execMtov d a b c s
  | .malloc d a => Sys2Proof.Machine.execMalloc d a s
  | .xhad d a b c => Sys2Proof.Machine.execXhad d a b c s
  | .xqnt d a b c => Sys2Proof.Machine.execXqnt d a b c s
  | .xact d a c => Sys2Proof.Machine.execXact d a c s
  | .xtld a k => Sys2Proof.Machine.execXtld a k s
  | .xtbind k => Sys2Proof.Machine.execXtbind k s
  | .xtopk d a b c => Sys2Proof.Machine.execXtopk d a b c s
  | .xtrn d a b c => Sys2Proof.Machine.execXtrn d a b c s
  | .xsort d a b c => Sys2Proof.Machine.execXsort d a b c s
  | .trace d a => Sys2Proof.Machine.execTrace d a s
  | .spawn d a b => Sys2Proof.Machine.execSpawn d a b s
  | .retire d a => Sys2Proof.Machine.execRetire d a s
  | .defer d a => Sys2Proof.Machine.execDefer d a s
  | .poolq d k => Sys2Proof.Machine.execPoolq d k s
  | .csrr d imm => Sys2Proof.Machine.execCsrr d imm s
  | .csrw d imm => Sys2Proof.Machine.execCsrw d imm s
  | .tlbinv a b => Sys2Proof.Machine.execTlbinv a b s
  | .halt a => Sys2Proof.Machine.execHalt a s
  | .monr d a b => Sys2Proof.Machine.execMonr d a b s
  | .mark imm => Sys2Proof.Machine.execMark imm s
  | .bkpt imm => Sys2Proof.Machine.execBkpt imm s
  | .illegalInstr w => Sys2Proof.Machine.execIllegalInstr w s
  | .yield => Sys2Proof.Machine.execYield s
  | .exit => Sys2Proof.Machine.execExit s
  | .nop => Sys2Proof.Machine.execNop s
  | .mpop => Sys2Proof.Machine.execMpop s
  | .epend => Sys2Proof.Machine.execEpend s
  | .eret => Sys2Proof.Machine.execEret s
  | .recordIntervalClose => Sys2Proof.Machine.execRecordIntervalClose s
  | .queueDoorbell => Sys2Proof.Machine.execQueueDoorbell s
  | .completionDoorbell => Sys2Proof.Machine.execCompletionDoorbell s
  | .registerWrite => Sys2Proof.Machine.execRegisterWrite s
  | .ctxinstall => Sys2Proof.Machine.execCtxinstall s
  | .ctxreset => Sys2Proof.Machine.execCtxreset s
  | .ctxremove => Sys2Proof.Machine.execCtxremove s
  | .csrread => Sys2Proof.Machine.execCsrread s
  | .csrwrite => Sys2Proof.Machine.execCsrwrite s
  | .errring => Sys2Proof.Machine.execErrring s
  | .peerto => Sys2Proof.Machine.execPeerto s
  | .attest => Sys2Proof.Machine.execAttest s
  | .cert => Sys2Proof.Machine.execCert s
  | .fwload => Sys2Proof.Machine.execFwload s
  | .monread => Sys2Proof.Machine.execMonread s
  | .setthr => Sys2Proof.Machine.execSetthr s
  | .replay => Sys2Proof.Machine.execReplay s
  | .slicecfgWrite => Sys2Proof.Machine.execSlicecfgWrite s
  | .slicecfgApply => Sys2Proof.Machine.execSlicecfgApply s
  | .stitchWrite => Sys2Proof.Machine.execStitchWrite s
  | .stitchApply => Sys2Proof.Machine.execStitchApply s
  | .soruscfgWrite => Sys2Proof.Machine.execSoruscfgWrite s
  | .sceneWrite => Sys2Proof.Machine.execSceneWrite s
  | .poolrsvWrite => Sys2Proof.Machine.execPoolrsvWrite s
  | .migrationStart => Sys2Proof.Machine.execMigrationStart s
  | .migrationCopy => Sys2Proof.Machine.execMigrationCopy s
  | .migrationFinish => Sys2Proof.Machine.execMigrationFinish s
  | .powerOn => Sys2Proof.Machine.execPowerOn s
  | .d3hotEntry => Sys2Proof.Machine.execD3hotEntry s
  | .coreClockGate => Sys2Proof.Machine.execCoreClockGate s
  | .corePowerGate => Sys2Proof.Machine.execCorePowerGate s
  | .coreWake => Sys2Proof.Machine.execCoreWake s
  | .taskReady => Sys2Proof.Machine.execTaskReady s
  | .depcntUpdate => Sys2Proof.Machine.execDepcntUpdate s
  | .queueConsume => Sys2Proof.Machine.execQueueConsume s
  | .queueIdleRecheck => Sys2Proof.Machine.execQueueIdleRecheck s
  | .placementAttempt => Sys2Proof.Machine.execPlacementAttempt s
  | .teamExited => Sys2Proof.Machine.execTeamExited s
  | .successorDecrement => Sys2Proof.Machine.execSuccessorDecrement s
  | .preemptForCandidate => Sys2Proof.Machine.execPreemptForCandidate s
  | .teamPreempted => Sys2Proof.Machine.execTeamPreempted s
  | .donationStart => Sys2Proof.Machine.execDonationStart s
  | .donationEnd => Sys2Proof.Machine.execDonationEnd s
  | .stealRequest => Sys2Proof.Machine.execStealRequest s
  | .stealClaim => Sys2Proof.Machine.execStealClaim s
  | .stealReply => Sys2Proof.Machine.execStealReply s
  | .derateSample => Sys2Proof.Machine.execDerateSample s
  | .thermalTrip => Sys2Proof.Machine.execThermalTrip s
  | .teamWake => Sys2Proof.Machine.execTeamWake s
  | .clockLoop => Sys2Proof.Machine.execClockLoop s
  | .gddr7Equalisation => Sys2Proof.Machine.execGddr7Equalisation s
  | .waveAgeLoop => Sys2Proof.Machine.execWaveAgeLoop s
  | .prefetchThresholdLoop => Sys2Proof.Machine.execPrefetchThresholdLoop s
  | .monitorSample => Sys2Proof.Machine.execMonitorSample s
  | .homeRead => Sys2Proof.Machine.execHomeRead s
  | .loadReply => Sys2Proof.Machine.execLoadReply s
  | .homeStore => Sys2Proof.Machine.execHomeStore s
  | .storeAck => Sys2Proof.Machine.execStoreAck s
  | .homeAtomic => Sys2Proof.Machine.execHomeAtomic s
  | .writeLeaseGrant => Sys2Proof.Machine.execWriteLeaseGrant s
  | .leaseRecall => Sys2Proof.Machine.execLeaseRecall s
  | .writeLeaseExpiry => Sys2Proof.Machine.execWriteLeaseExpiry s
  | .pairInject => Sys2Proof.Machine.execPairInject s
  | .homeAcceptPair => Sys2Proof.Machine.execHomeAcceptPair s
  | .binApply => Sys2Proof.Machine.execBinApply s
  | .dsmElementOp => Sys2Proof.Machine.execDsmElementOp s
  | .cbarArrival => Sys2Proof.Machine.execCbarArrival s
  | .hostRead => Sys2Proof.Machine.execHostRead s
  | .hostWrite => Sys2Proof.Machine.execHostWrite s
  | .fabricWriteArrival => Sys2Proof.Machine.execFabricWriteArrival s
  | .shootdown => Sys2Proof.Machine.execShootdown s
  | .multicastDeliver => Sys2Proof.Machine.execMulticastDeliver s
  | .copyStart => Sys2Proof.Machine.execCopyStart s
  | .copyComplete => Sys2Proof.Machine.execCopyComplete s
  | .matrixOpStart => Sys2Proof.Machine.execMatrixOpStart s
  | .matrixStep => Sys2Proof.Machine.execMatrixStep s
  | .matrixComplete => Sys2Proof.Machine.execMatrixComplete s
  | .transformStart => Sys2Proof.Machine.execTransformStart s
  | .transformComplete => Sys2Proof.Machine.execTransformComplete s
  | .noiseWord => Sys2Proof.Machine.execNoiseWord s
  | .poolGrant => Sys2Proof.Machine.execPoolGrant s
  | .rayEntersBin => Sys2Proof.Machine.execRayEntersBin s
  | .traversalBinAge => Sys2Proof.Machine.execTraversalBinAge s
  | .shaderBinAge => Sys2Proof.Machine.execShaderBinAge s
  | .traversalStep => Sys2Proof.Machine.execTraversalStep s
  | .treeletLineArrival => Sys2Proof.Machine.execTreeletLineArrival s
  | .traversalResult => Sys2Proof.Machine.execTraversalResult s
  | .doneDecrement => Sys2Proof.Machine.execDoneDecrement s
  | .poolPressure => Sys2Proof.Machine.execPoolPressure s
  | .inboundPeerAccess => Sys2Proof.Machine.execInboundPeerAccess s
  | .peerReply => Sys2Proof.Machine.execPeerReply s
  | .peerTimeout => Sys2Proof.Machine.execPeerTimeout s
  | .reservationTimeout => Sys2Proof.Machine.execReservationTimeout s
  | .meshLinkFail => Sys2Proof.Machine.execMeshLinkFail s
  | .timeCheck => Sys2Proof.Machine.execTimeCheck s
  | .clockCheck => Sys2Proof.Machine.execClockCheck s
  | .pairLinkRestore => Sys2Proof.Machine.execPairLinkRestore s
  | .pairLinkRestoreTimeout => Sys2Proof.Machine.execPairLinkRestoreTimeout s
  | .ptpSync => Sys2Proof.Machine.execPtpSync s
  | .scaleoutPortDown => Sys2Proof.Machine.execScaleoutPortDown s
  | .replayDivergence => Sys2Proof.Machine.execReplayDivergence s
  | .instructionFetchFault => Sys2Proof.Machine.execInstructionFetchFault s
  | .deviceReset => Sys2Proof.Machine.execDeviceReset s
  | .d3hotExit => Sys2Proof.Machine.execD3hotExit s
  | .serdesAdaptation => Sys2Proof.Machine.execSerdesAdaptation s
  | .sharedCacheWriteBack => Sys2Proof.Machine.execSharedCacheWriteBack s
  | .cxlLinkTraining => Sys2Proof.Machine.execCxlLinkTraining s

end Sys2Proof.Machine
end

