-- ==== Sys2Proof/Machine/Step.lean ====
section
/-! DEFINITION. One step of the machine: time passes, then one turn (log entries 6, 7); and how the
next instruction is placed (log entry 5). -/

namespace Sys2Proof.Machine

/-- One step. -/
def step (s : State) : Host.Outcome State Fault Refusal := s.passTime.turn exec State.dueSteps State.idleSteps

/-- The state with the instruction of bits `w` stored where the next step fetches. -/
def State.withFetchWord (s : State) (nbits w : Nat) : State := s.placeNext (w % 2 ^ nbits % 2 ^ 64)

end Sys2Proof.Machine
end

