-- ==== Sys2Proof/Safety.lean ====
section
/-! DEFINITION. What claims are stated in: the canonical form of every memory, when a team's
instruction issues and passes the decoding checks, and the state that an instruction leaves. -/

namespace Sys2Proof.Machine

/-! ### The invariant -/

/-- Every memory of a die is in canonical form. -/
def Die.memWf (d : Die) : Bool :=
  d.mem.wf && d.dram.wf && d.dsm.wf && d.treelets.all (fun t => t.data.wf)

/-- Every memory of a core is in canonical form. -/
def Core.memWf (k : Core) : Bool :=
  k.scratch.wf && k.bank0.wf && k.bank1.wf && k.l1.all (fun l => l.data.wf) &&
    k.replies.all (fun r => r.data.wf)

/-- Every memory of the machine is in canonical form. -/
def State.memWf (s : State) : Bool :=
  s.die0.memWf && s.die1.memWf && s.host.mem.wf && s.host.mbox.wf &&
    s.cores.all (fun p => p.2.memWf) && s.fabric.all (fun p => p.2.wf)

/-! ### Issuing -/

/-- An instruction is not held by what the state alone says: the team named by `cur` may issue (R42), no load of
it awaits its reply (R182), no operation in flight holds the instruction (R129, R253, R278, R380). -/
structure MayIssue (s : State) (t : Team) (i : Instr) : Prop where
  cur : s.team? s.cur = some t
  can : s.canIssue t = true
  settled : t.pend = none
  free : s.interlocked t i = false

/-- An instruction of a team whose load awaits its reply, which later instructions may overtake (R182): nothing
but that load could hold it. -/
structure Overtakes (s : State) (t : Team) (i : Instr) (d : Nat) : Prop where
  cur : s.team? s.cur = some t
  can : s.canIssue t = true
  loading : t.loading = some d
  free : s.interlocked { t with pend := none } i = false

/-- An instruction of the team `t` issues and passes every check of Table 4.6 (R42, R88), the vector registers
that a mask names included (R303, R304, R305). Where it reads TIME, the read is neither recorded nor
replayed; the log of such reads has statements of its own. -/
structure Issues (s : State) (t : Team) (i : Instr) : Prop extends MayIssue s t i where
  priv : i.privileged = true → s.privileged t = true
  formed : i.wellFormed = true
  implied : ∀ n ∈ s.rayVectors t i, n ≤ 95
  allot : ∀ n ∈ s.namedVectors t i, n < t.allot
  quiet : i.timeReads = 0 ∨ s.logsTime t = false

/-- The state after an instruction that only leaves its team as `u`: every other part of the state
is as before, but that the reads of TIME are counted. -/
def State.after (s : State) (i : Instr) (u : Team) : State := (s.putTeam u).countReads u.uid i.timeReads

/-- An instruction completes: it leaves a next state, in which the issuing team is `u`, and of the state
and the team `P` holds. -/
def Completes (s : State) (i : Instr) (P : State → Team → Prop) : Prop :=
  ∃ s' u, Sys2Proof.Machine.exec i s = .next s' ∧ s'.team? s.cur = some u ∧ P s' u

end Sys2Proof.Machine
end

