-- ==== Sys2Proof/Certificates/Slice0/Obligations.lean ====
section
/-! DEFINITION. The statements for the provers: decoding, single steps, results and completion of every
instruction and device step, traps, frames, and the invariant that every step keeps. -/

namespace Sys2Proof.Machine

/-! ### Words of the statements -/

/-- x read as a w-bit two's-complement value (R103). -/
def sx (w x : Nat) : Int := if x < 2 ^ (w - 1) then (x : Int) else (x : Int) - 2 ^ w

/-- An exact integer modulo 2^w (R103). -/
def modW (w : Nat) (r : Int) : Nat := (r % 2 ^ w).toNat

/-- The number whose bit k is `f k`, for k below w. -/
def bitsWhere (w : Nat) (f : Nat → Bool) : Nat := ((List.range w).map fun k => if f k then 2 ^ k else 0).sum

/-- Table 5.3 with R104 and R105, from the width, a, b and the old d: the three-operand rows. -/
def table53 : List ((Field → Field → Field → BitVec 1 → Instr) × (Nat → Nat → Nat → Nat → Nat)) :=
  [(.add, fun w a b _ => (a + b) % 2 ^ w),
   (.sub, fun w a b _ => (a + 2 ^ w - b) % 2 ^ w),
   (.mul, fun w a b _ => a * b % 2 ^ w),
   (.mulh, fun w a b _ => modW w (sx w a * sx w b / 2 ^ w)),
   (.mulhn, fun w a b _ => a * b / 2 ^ w),
   (.div, fun w a b _ => if b = 0 then 2 ^ w - 1 else modW w ((sx w a).tdiv (sx w b))),
   (.divn, fun w a b _ => if b = 0 then 2 ^ w - 1 else a / b),
   (.rem, fun w a b _ => if b = 0 then a else modW w ((sx w a).tmod (sx w b))),
   (.remn, fun _ a b _ => a % b),
   (.and, fun _ a b _ => a &&& b), (.or, fun _ a b _ => a ||| b), (.xor, fun _ a b _ => a ^^^ b),
   (.andn, fun w a b _ => bitsWhere w (fun k => a.testBit k && !b.testBit k)),
   (.shl, fun w a b _ => a * 2 ^ (b % w) % 2 ^ w), (.shr, fun w a b _ => a / 2 ^ (b % w)),
   (.sra, fun w a b _ => modW w (sx w a / 2 ^ (b % w))),
   (.rotl, fun w a b _ => bitsWhere w (fun k => a.testBit ((k + w - b % w) % w))),
   (.min, fun w a b _ => if sx w a ≤ sx w b then a else b),
   (.max, fun w a b _ => if sx w a ≤ sx w b then b else a),
   (.minn, fun _ a b _ => if a ≤ b then a else b), (.maxn, fun _ a b _ => if a ≤ b then b else a),
   (.sel, fun _ a b d => if d ≠ 0 then a else b),
   (.bfx, fun _ a b _ => a / 2 ^ (b % 64) % 2 ^ (b / 256 % 64 + 1)),
   (.bfi, fun w a b d => bitsWhere w fun k =>
     if b % 64 ≤ k && k < b % 64 + (b / 256 % 64 + 1) then a.testBit (k - b % 64) else d.testBit k)]

/-- Table 5.3: the rows with one source. -/
def table53One : List ((Field → Field → BitVec 1 → Instr) × (Nat → Nat → Nat)) :=
  [(.clz, fun w a => if a = 0 then w else w - 1 - Nat.log2 a),
   (.ctz, fun w a => ((List.range w).find? (fun k => a.testBit k)).getD w),
   (.popc, fun w a => ((List.range w).filter (fun k => a.testBit k)).length),
   (.brev, fun w a => bitsWhere w (fun k => a.testBit (w - 1 - k))),
   (.mov, fun _ a => a)]

/-- An immediate extended with its sign to 64 bits (R106). -/
def sext9 (i : BitVec 9) : Word := i.signExtend 64

/-- Table 5.4: the rows that write s[D] from sread(A) and an immediate of 9 bits. -/
def table54 : List ((Field → Field → BitVec 9 → Instr) × (Word → BitVec 9 → Word)) :=
  [(.addi, fun a i => a + sext9 i), (.andi, fun a i => a &&& sext9 i), (.ori, fun a i => a ||| sext9 i),
   (.xori, fun a i => a ^^^ sext9 i)]

/-- Table 5.4: the shifts by IMM9[5:0]. -/
def table54Shift : List ((Field → Field → BitVec 6 → Instr) × (Word → Nat → Word)) :=
  [(.shli, fun a k => a <<< k), (.shri, fun a k => a >>> k), (.srai, fun a k => a.sshiftRight k)]

/-- Table 5.4: the rows that write s[D] from its old value and a 16-bit immediate. -/
def table54Wide : List ((Field → BitVec 16 → Instr) × (Word → BitVec 16 → Word)) :=
  [(.movi, fun _ i => i.signExtend 64),
   (.movhi, fun d i => d.extractLsb' 32 32 ++ i ++ d.extractLsb' 0 16),
   (.movxi, fun d i => d.extractLsb' 48 16 ++ i ++ d.extractLsb' 0 32),
   (.movti, fun d i => i ++ d.extractLsb' 0 48)]

/-- The mask whose lane i is `f i`. -/
def lane1024 (f : Nat → Bool) : Mask := BitVec.ofNat 1024 (bitsWhere 1024 f)

/-- The four flags of a compare as CC holds them: EQ, LT, LTN, UN (R57). -/
def flags (eq lt ltn un : Bool) : BitVec 4 := BitVec.ofNat 4 (eq.toNat + 2 * lt.toNat + 4 * ltn.toNat + 8 * un.toNat)

/-- An instruction that issues leaves the state `r`, with its reads of TIME counted. -/
def Does (s : State) (t : Team) (i : Instr) (r : State) : Prop :=
  Issues s t i → exec i s = .next (r.countReads t.uid i.timeReads)

/-- An instruction that issues takes the precise trap `r`, with no other effect. -/
def Traps (s : State) (t : Team) (i : Instr) (r : Trap) : Prop :=
  Issues s t i → exec i s = .next (s.takeTrap t r)

/-- An instruction issues past a load of its team whose reply is on its way, and passes every check of Table 4.6
(R42, R88, R182). -/
structure IssuesPast (s : State) (t : Team) (i : Instr) (d : Nat) : Prop extends Overtakes s t i d where
  priv : i.privileged = true → s.privileged t = true
  formed : i.wellFormed = true
  implied : ∀ n ∈ s.rayVectors t i, n ≤ 95
  allot : ∀ n ∈ s.namedVectors t i, n < t.allot
  quiet : i.timeReads = 0 ∨ s.logsTime t = false

/-- An instruction is not ready in this cycle: the team stays at it and nothing changes (R42). -/
def Held (s : State) (t : Team) (i : Instr) : Prop :=
  Issues s t i → exec i s = .next { s with stalled := true }

/-- An instruction waits for the home of a location, which has noted the request: the team stays at it and nothing
else changes (R179, R190). -/
def HeldAt (s : State) (t : Team) (i : Instr) (p : Phys) : Prop :=
  Issues s t i → exec i s = .next (({ s with stalled := true } : State).noteRequest p.unit (homeKey p) t.coreId)

end Sys2Proof.Machine

open Sys2Proof Sys2Proof.Machine

/-! ### Decoding and encoding -/

/-- Decoding what the encoder writes for a well-formed instruction gives it back, whatever follows (R79,
Table 4.5): every field of every form at every value the encoding admits. -/
def Obligations.DecodeOfEncode : Prop :=
  ∀ (i : Instr) (rest : List Byte), i.wellFormed = true → (encodeWords i).isSome = true →
    decode (encode i ++ rest) = .ok (i, rest)

/-- What decoding accepts is a well-formed instruction, and its encoding is exactly the bytes that were read:
no bit of a word is dropped (R5, R88). -/
def Obligations.EncodeOfDecode : Prop :=
  ∀ (i : Instr) (bytes rest : List Byte), decode bytes = .ok (i, rest) →
    i.wellFormed = true ∧ bytes = encode i ++ rest

/-- Words that the spec prints decode to the instructions they stand for: the worked listing of the
encoding chapter, its LOOPI, the VADD of the run chapter and the CPYQ of the copy chapter. -/
def Obligations.PrintedWords : Prop :=
  decodeTableWord 32 0x100501F8 = some (.addi 5#7 0#7 504#9) ∧
    decodeTableWord 32 0x14861234 = some (.movi 6#7 0x1234#16) ∧
    decodeTableWord 64 0x40490FDB16870000 = some (.ldlit 7#7 0x40490FDB#32) ∧
    decodeTableWord 32 0x51870B88 = some (.vfma 7#7 5#7 98#7 0#1) ∧
    decodeTableWord 32 0x5104081D = some (.vmul 4#7 4#7 7#7 1#1) ∧
    decodeTableWord 32 0x318FFFFE = some (.bmnz 1#4 0x7FFFE#19) ∧
    decodeTableWord 32 0x37000000 = some .exit ∧
    decodeTableWord 32 0x348A0440 = some (.loopi 10#7 4#8 1#2) ∧
    decodeTableWord 32 0x5004040C = some (.vadd 4#7 2#7 3#7 0#1) ∧
    decodeTableWord 32 0xB18A1700 = some (.cpyq 10#7 11#7 64#7)

/-- A word whose opcode names a column that Table 4.5 lists as illegal (from the row's first illegal column on)
decodes to no other instruction, for every value of its other bits, and raises the precise trap ILLEGAL_INSTR with
cause 1 and the word (R87). -/
def Obligations.IllegalColumns : Prop :=
  let firstIllegal := [31, 16, 16, 17, 18, 30, 17, 15, 17, 15, 12, 9, 10, 8, 6, 8]
  ∀ w lit : W32, firstIllegal.getD (w.toNat / 2 ^ 28) 0 ≤ w.toNat / 2 ^ 23 % 32 →
    decodeWord w lit = .ok (.illegalInstr w) ∧
    ∀ (s : State) (t : Team), MayIssue s t (.illegalInstr w) →
      exec (.illegalInstr w) s = .next (s.takeTrap t { code := 1, detail := 1, tinfo := w.setWidth 64 })


/-! ### Rows 0x0 and 0x1: scalar integers -/

/-- Every instruction of row 0x0 that writes s[D] completes with r mod 2^w of Table 5.3, zero-extended, and
changes nothing else but the PC and the loops that end there (R103, R104, R105). -/
def Sys2Proof.Machine.IntegerResults : Prop :=
  (∀ p ∈ table53, ∀ (d a b : Field) (q : BitVec 1) (s : State) (t : Team), Issues s t (p.1 d a b q) →
    exec (p.1 d a b q) s = .next (s.after (p.1 d a b q) (t.setD d (BitVec.ofNat 64
      (p.2 (widthOf q) ((s.sread t a).toNat % 2 ^ widthOf q) ((s.sread t b).toNat % 2 ^ widthOf q)
        ((t.sreg d).toNat % 2 ^ widthOf q)))).advance)) ∧
  ∀ p ∈ table53One, ∀ (d a : Field) (q : BitVec 1) (s : State) (t : Team), Issues s t (p.1 d a q) →
    exec (p.1 d a q) s = .next (s.after (p.1 d a q) (t.setD d (BitVec.ofNat 64
      (p.2 (widthOf q) ((s.sread t a).toNat % 2 ^ widthOf q)))).advance)

/-- CMP and CMPN complete and write all four flags: EQ and LT by the signed values, or EQ and LTN by the
unsigned ones, the other two clear (R57, R102). -/
def Sys2Proof.Machine.IntegerCompares : Prop :=
  ∀ (a b : Field) (q : BitVec 1) (s : State) (t : Team),
    let w := widthOf q
    let x := (s.sread t a).toNat % 2 ^ w
    let y := (s.sread t b).toNat % 2 ^ w
    (Issues s t (.cmp a b q) → exec (.cmp a b q) s = .next (s.after (.cmp a b q)
      ({ t with cc := flags (x == y) (decide (sx w x < sx w y)) false false }).advance)) ∧
    (Issues s t (.cmpn a b q) → exec (.cmpn a b q) s = .next (s.after (.cmpn a b q)
      ({ t with cc := flags (x == y) false (decide (x < y)) false }).advance))

/-- Every instruction of row 0x0 completes: with Table 5.3's result in s[D], or the flags in CC (R103, R104,
R105). -/
def Obligations.ScalarIntegerResults : Prop := IntegerResults ∧ IntegerCompares

/-- CMPI and CMPNI complete and write all four flags (R57, R106). -/
def Sys2Proof.Machine.ImmediateCompares : Prop :=
  ∀ (a : Field) (k : BitVec 9) (s : State) (t : Team),
    let x := s.sread t a
    let y := sext9 k
    (Issues s t (.cmpi a k) → exec (.cmpi a k) s = .next (s.after (.cmpi a k)
      ({ t with cc := flags (x == y) (decide (x.toInt < y.toInt)) false false }).advance)) ∧
    (Issues s t (.cmpni a k) → exec (.cmpni a k) s = .next (s.after (.cmpni a k)
      ({ t with cc := flags (x == y) false (decide (x.toNat < y.toNat)) false }).advance))

/-- Every other instruction of row 0x1 completes with the value of Table 5.4; LDLIT, of two words, where no
active loop body ends between them, and else it raises LOOP_STATE with detail 4 (R79, R106, R107, R117). -/
def Sys2Proof.Machine.ScalarImmediates : Prop :=
  (∀ p ∈ table54, ∀ (d a : Field) (k : BitVec 9) (s : State) (t : Team), Issues s t (p.1 d a k) →
    exec (p.1 d a k) s = .next (s.after (p.1 d a k) (t.setD d (p.2 (s.sread t a) k)).advance)) ∧
  (∀ p ∈ table54Shift, ∀ (d a : Field) (k : BitVec 6) (s : State) (t : Team), Issues s t (p.1 d a k) →
    exec (p.1 d a k) s = .next (s.after (p.1 d a k) (t.setD d (p.2 (s.sread t a) k.toNat)).advance)) ∧
  (∀ p ∈ table54Wide, ∀ (d : Field) (k : BitVec 16) (s : State) (t : Team), Issues s t (p.1 d k) →
    exec (p.1 d k) s = .next (s.after (p.1 d k) (t.setD d (p.2 (t.sreg d) k)).advance)) ∧
  (∀ (d a b : Field) (z : BitVec 2) (s : State) (t : Team), Issues s t (.lea d a b z) →
    exec (.lea d a b z) s = .next (s.after (.lea d a b z)
      (t.setD d (s.sread t a + s.sread t b * 2#64 ^ z.toNat)).advance)) ∧
  (∀ (d k : Field) (s : State) (t : Team), Issues s t (.gets d k) →
    exec (.gets d k) s = .next (s.after (.gets d k) (t.setD d
      (if k.toNat ≤ 12 then (if condition k.toNat t.cc then 1#64 else 0#64)
       else (t.loop (k.toNat - 16)).count.setWidth 64)).advance)) ∧
  (∀ (d : Field) (lit : W32) (s : State) (t : Team), Issues s t (.ldlit d lit) →
    (∀ n ∈ t.active, (t.loop n).stop ≠ t.pc + 4#64) →
    exec (.ldlit d lit) s = .next (s.after (.ldlit d lit) (t.setD d (lit.setWidth 64)).advanceX)) ∧
  ∀ (d : Field) (lit : W32) (s : State) (t : Team), (∃ n ∈ t.active, (t.loop n).stop = t.pc + 4#64) →
    Traps s t (.ldlit d lit) { code := 14, detail := 4 }

/-- Row 0x1 completes with the values and flags of Table 5.4, LDLIT included (R79, R106, R107, R117). -/
def Obligations.ScalarImmediatesComplete : Prop := ImmediateCompares ∧ ScalarImmediates

/-! ### Row 0x2: scalar floating point -/

/-- Row 0x2 from the format, the team and the values of a, b and the old d: the exact results that are
rounded into the format of Q (R108, R110, R111). -/
def Sys2Proof.Machine.table62 : List ((Field → Field → Field → BitVec 1 → Instr) × (Team → XReal → XReal → XReal → XReal)) :=
  [(.fadd, fun t x y _ => XReal.add t.rdn x y), (.fsub, fun t x y _ => XReal.add t.rdn x y.neg),
   (.fmul, fun _ x y _ => x.mul y), (.ffma, fun t x y z => XReal.add t.rdn (x.mul y) z),
   (.fdiv, fun _ x y _ => x.div y)]

/-- The arithmetic of row 0x2 completes with its exact result rounded once under MODE (R108, R111). -/
def Sys2Proof.Machine.ScalarFloatResults : Prop :=
  (∀ p ∈ table62, ∀ (d a b : Field) (q : BitVec 1) (s : State) (t : Team), Issues s t (p.1 d a b q) →
    let f := fmtOf q
    let val := fun (x : Word) => f.decode t.dnz (x.toNat % 2 ^ f.width)
    exec (p.1 d a b q) s = .next (s.after (p.1 d a b q) (t.setD d (BitVec.ofNat 64 (roundFmt f
      t.roundingNoDraw (p.2 t (val (s.sread t a)) (val (s.sread t b)) (val (t.sreg d)))))).advance)) ∧
  (∀ (d a : Field) (q : BitVec 1) (s : State) (t : Team), Issues s t (.fcvt d a q) →
    let f := fmtOf (~~~q)
    exec (.fcvt d a q) s = .next (s.after (.fcvt d a q) (t.setD d (BitVec.ofNat 64 (roundFmt (fmtOf q)
      t.roundingNoDraw (f.decode t.dnz ((s.sread t a).toNat % 2 ^ f.width))))).advance)) ∧
  ∀ (d a : Field) (q : BitVec 1) (s : State) (t : Team), Issues s t (.itof d a q) →
    exec (.itof d a q) s = .next (s.after (.itof d a q) (t.setD d (BitVec.ofNat 64 (roundFmt (fmtOf q)
      t.roundingNoDraw (.ofInt (s.sread t a).toInt)))).advance)

/-- The other instructions of row 0x2 complete: FMIN, FMAX, FSQRT, FABS, FNEG, FTOI, FCLASS and FRND with
the bits of R108 to R112 in s[D], FCMP with CC. -/
def Sys2Proof.Machine.ScalarFloatOthers : Prop :=
  ∀ (d a b : Field) (q : BitVec 1) (s : State) (t : Team),
    let f := fmtOf q
    let bits := fun (r : Field) => (s.sread t r).toNat % 2 ^ f.width
    let val := fun (r : Field) => f.decode t.dnz (bits r)
    let z := t.roundingNoDraw
    let leaves := fun (i : Instr) (v : Nat) => Issues s t i →
      exec i s = .next (s.after i (t.setD d (BitVec.ofNat 64 v)).advance)
    leaves (.fmin d a b q) (fminBits f t.dnz (bits a) (bits b)) ∧
    leaves (.fmax d a b q) (fmaxBits f t.dnz (bits a) (bits b)) ∧
    leaves (.fsqrt d a q) (sqrtRound f z s.free (val a)) ∧
    leaves (.fabs d a q) (roundFmt f .rne (if (val a).isNeg then (val a).neg else val a)) ∧
    leaves (.fneg d a q) (roundFmt f .rne (val a).neg) ∧
    leaves (.ftoi d a q) (roundToInt true 64 z (val a)) ∧
    leaves (.fclass d a q) (2 ^ classOf f (bits a)) ∧
    leaves (.frnd d a q) (roundFmt f .rne ((val a).rndInt z)) ∧
    (Issues s t (.fcmp a b q) → exec (.fcmp a b q) s = .next (s.after (.fcmp a b q)
      ({ t with cc := ccFloat (val a) (val b) }).advance))

/-- Row 0x2 completes: every instruction leaves the value of R108 to R112 in s[D], FCMP in CC. -/
def Obligations.ScalarFloat : Prop := ScalarFloatResults ∧ ScalarFloatOthers

/-- The formats of Table 3.6, each with its canonical NaN. -/
def Sys2Proof.Machine.table36 : List (Fmt × Nat) :=
  [(Fmt.f64, 0x7FF8000000000000), (Fmt.f32, 0x7FC00000), (Fmt.f16, 0x7E00), (Fmt.bf16, 0x7FC0)]

/-- Rounding what a floating-point format holds, in every rounding mode and under every SAT and DNZ: every NaN
gives the canonical NaN of Table 3.6; under DNZ a subnormal is read as zero of its sign, and a subnormal result
is replaced by one; every other encoding, zeros and infinities among them, gives itself (R68, R69, R70). -/
def Sys2Proof.Machine.RoundingFloats : Prop :=
  ∀ p ∈ table36, ∀ (z : Rounding) (bits : Nat),
    let f := p.1
    let top := 2 ^ (f.ew + f.fw)
    let exponent := bits / 2 ^ f.fw % 2 ^ f.ew
    let fraction := bits % 2 ^ f.fw
    bits < 2 * top →
    (exponent = 2 ^ f.ew - 1 → fraction ≠ 0 → ∀ dnz, roundFmt f z (f.decode dnz bits) = p.2) ∧
    (exponent = 0 → fraction ≠ 0 → z.dnz = true →
      f.decode true bits = .zero (decide (top ≤ bits)) ∧
      ∀ dnz, roundFmt f z (f.decode dnz bits) = bits / top * top) ∧
    (exponent ≠ 2 ^ f.ew - 1 ∨ fraction = 0 → exponent ≠ 0 ∨ fraction = 0 ∨ z.dnz = false →
      roundFmt f z (f.decode z.dnz bits) = bits)

/-- Rounding what an integer type of Table 3.7 holds gives its own bits, in every rounding mode (R71). -/
def Sys2Proof.Machine.RoundingIntegers : Prop :=
  ∀ p ∈ [(true, 32), (false, 32), (true, 16), (false, 16), (true, 8), (false, 8), (true, 6), (true, 4), (false, 4)],
    ∀ (z : Rounding) (bits : Nat), bits < 2 ^ p.2 →
      roundToInt p.1 p.2 z (subVal (.int p.1 p.2) z.dnz bits) = bits

/-- Rounding what a P8 byte holds gives, in every rounding mode, the canonical encoding of its value: of the bytes
of that value one with the largest kb, among those the smallest ka, with sign b 0 where the b term is zero, and
0x77 for zero (R73, R74). -/
def Sys2Proof.Machine.RoundingP8 : Prop :=
  ∀ (z : Rounding) (byte : Nat), byte < 256 →
    let out := roundP8 z (subVal .p8 z.dnz byte)
    let ka := fun (x : Nat) => x / 16 % 8
    let kb := fun (x : Nat) => x % 8
    out < 256 ∧ p8Units out = p8Units byte ∧ (kb out = 7 → out / 8 % 2 = 0) ∧ (p8Units byte = 0 → out = 0x77) ∧
    ∀ x < 256, p8Units x = p8Units byte → kb x < kb out ∨ (kb x = kb out ∧ ka out ≤ ka x)

/-- Rounding a number that its format holds gives that number's own encoding, in every rounding mode and for
every format of chapter 3: the canonical NaN for every NaN, the canonical encoding for a P8 byte, and zeros for
subnormals under DNZ (R68 to R71, R73, R74). -/
def Obligations.RoundingIsExactOnItsFormat : Prop := RoundingFloats ∧ RoundingIntegers ∧ RoundingP8

/-! ### Row 0x3: control flow -/

/-- The team that an instruction leaves whose next PC is `npc`, from the team as it is before. In a handler, and
where no active loop body that holds the instruction ends at `npc`, only the PC changes. Else the loops whose
bodies end there have their events, innermost first: `gone` are those in their last iteration, which become
inactive with counter 0; the first other one goes back to its S with its counter one less; every loop keeps its S
and E, and every other loop its counter (R79, R115, R353). -/
def Sys2Proof.Machine.GoesTo (t u : Team) (npc : Word) : Prop :=
  (t.inHandler = true → u = { t with pc := npc }) ∧
  ∀ gone rest : List Nat, t.inHandler = false → t.active.Nodup → (∀ n ∈ t.active, n < 3) →
    t.active.filter (fun n => t.inLoop n t.pc && npc == (t.loop n).stop) = gone ++ rest →
    (∀ n ∈ gone, (t.loop n).count = 1#32) → (∀ n, rest.head? = some n → 1#32 < (t.loop n).count) →
    { u with pc := t.pc, active := t.active, loops := t.loops } = t ∧
    u.pc = (match rest with
      | [] => npc
      | n :: _ => (t.loop n).start) ∧
    u.active = t.active.filter (fun n => !gone.contains n) ∧
    ∀ n < 3,
      let count := if n ∈ gone then 0#32 else if rest.head? = some n then (t.loop n).count - 1#32
        else (t.loop n).count
      u.loop n = { t.loop n with count := count }

/-- Whether a taken branch from the team's PC to `target` leaves active loop `n`: the PC lies in [S, E) and the
target outside [S, E] (R116). -/
def Sys2Proof.Machine.Leaves (t : Team) (target : Word) (n : Nat) : Prop :=
  n ∈ t.active ∧ (t.loop n).start ≤ t.pc ∧ t.pc < (t.loop n).stop ∧
    (target < (t.loop n).start ∨ (t.loop n).stop < target)

/-- How the program counter moves: in sequence by 4, or by 8 after two words; by a taken branch to its target.
A branch that leaves loops ends the outermost of them and every loop nested in it first (R79, R113, R115,
R116, R353). -/
def Sys2Proof.Machine.ProgramCounterMoves : Prop :=
  ∀ t : Team, GoesTo t t.advance (t.pc + 4#64) ∧ GoesTo t t.advanceX (t.pc + 8#64) ∧ ∀ target : Word,
    (t.inHandler = true → t.branch target = { t with pc := target }) ∧
    ((∀ n, ¬Leaves t target n) → GoesTo t (t.branch target) target) ∧
    ∀ inner n outer, t.inHandler = false → t.active = inner ++ n :: outer → n ∉ inner → (∀ k ∈ t.active, k < 3) →
      Leaves t target n → (∀ k ∈ outer, ¬Leaves t target k) →
      let e := t.endLoops n
      { e with active := t.active, loops := t.loops } = t ∧ e.active = outer ∧
      (∀ k < 3, e.loop k = { t.loop k with count := if k ∈ n :: inner then 0#32 else (t.loop k).count }) ∧
      GoesTo e (t.branch target) target

/-- Branches, calls and jumps complete: the target is PC + 4 × OFF19 or sread(A), a call saves PC + 4, and a
branch that is not taken goes on in sequence (R81, R113). -/
def Sys2Proof.Machine.BranchesAndCalls : Prop :=
  ∀ (s : State) (t : Team),
    let dest := fun (o : BitVec 19) => t.pc + o.signExtend 64 * 4#64
    let leaves := fun (i : Instr) (u : Team) => Issues s t i → exec i s = .next (s.after i u)
    (∀ o : BitVec 19, leaves (.br o) (t.branch (dest o)) ∧
      leaves (.call o) { t.setS 63 (t.pc + 4#64) with pc := dest o } ∧
      (∀ c : BitVec 4, leaves (.bcc c o) (if condition c.toNat t.cc then t.branch (dest o) else t.advance)) ∧
      ∀ m : BitVec 4,
        leaves (.bmz m o) (if t.mask m.toNat = 0#1024 then t.branch (dest o) else t.advance) ∧
        leaves (.bmnz m o) (if t.mask m.toNat = 0#1024 then t.advance else t.branch (dest o))) ∧
    ∀ d a : Field, (s.sread t a).toNat % 4 = 0 →
      leaves (.callr d a) { t.setS d.toNat (t.pc + 4#64) with pc := s.sread t a } ∧
      leaves (.ret a) (t.branch (s.sread t a)) ∧ leaves (.jmpr a) (t.branch (s.sread t a))

/-- A target with bits [1:0] not zero raises PC_ALIGN before any write (R113). -/
def Sys2Proof.Machine.MisalignedTargets : Prop :=
  ∀ (s : State) (t : Team) (d a : Field), (s.sread t a).toNat % 4 ≠ 0 →
    ∀ i ∈ [Instr.callr d a, .ret a, .jmpr a], Issues s t i →
      exec i s = .next (s.takeTrap t { code := 15, taddr := s.sread t a })

/-- Branches, calls and jumps complete at their targets, a misaligned target traps, and the program counter moves
by 4, by 8 or to the target where no loop ends (R79, R81, R113, R115, R116, R353). That a call to a loop's E starts no
next pass is the model's reading (log entry 49). -/
def Obligations.BranchTargets : Prop := BranchesAndCalls ∧ MisalignedTargets ∧ ProgramCounterMoves

/-- LOOP and LOOPI complete where the counter is not active and the body does not reach beyond an enclosing
one: a count of 0 skips the body, any other count enters it with S = PC + 4 and E = S + 4 × LEN, and changes
nothing else (R114). LBRK of an active loop ends it and goes to E (R116). A LOOP or LOOPI that names an active
counter or reaches beyond an enclosing body, and an LBRK of an inactive counter, raise LOOP_STATE (R117). -/
def Obligations.HardwareLoops : Prop :=
  ∀ (s : State) (t : Team),
    let stop := fun (l : BitVec 8) => t.pc + 4#64 + BitVec.ofNat 64 (4 * l.toNat)
    let enters := fun (n : BitVec 2) (l : BitVec 8) (count : W32) (u : Team) =>
      if count = 0#32 then u = t.goTo (stop l)
      else { u with pc := t.pc, active := t.active, loops := t.loops } = t ∧ u.pc = t.pc + 4#64 ∧
        u.active = n.toNat :: t.active ∧ ∀ k < 3, u.loop k =
          if k = n.toNat then { count := count, start := t.pc + 4#64, stop := stop l } else t.loop k
    let beyond := fun (l : BitVec 8) =>
      ∃ k ∈ t.active, t.inLoop k t.pc = true ∧ (t.loop k).stop.toNat < (stop l).toNat
    (∀ (a : Field) (l : BitVec 8) (n : BitVec 2),
      (n.toNat ∉ t.active → ¬beyond l →
        (Issues s t (.loop a l n) → ∃ u, exec (.loop a l n) s = .next (s.after (.loop a l n) u) ∧
          enters n l ((s.sread t a).setWidth 32) u) ∧
        (Issues s t (.loopi a l n) → ∃ u, exec (.loopi a l n) s = .next (s.after (.loopi a l n) u) ∧
          enters n l (a.setWidth 32) u)) ∧
      ∀ i ∈ [Instr.loop a l n, .loopi a l n],
        (n.toNat ∈ t.active → Traps s t i { code := 14, detail := 1 }) ∧
        (n.toNat ∉ t.active → beyond l → Traps s t i { code := 14, detail := 2 })) ∧
    ∀ d : Field,
      (d.toNat ∈ t.active → Issues s t (.lbrk d) →
        exec (.lbrk d) s = .next (s.after (.lbrk d) ((t.endLoops d.toNat).goTo (t.loop d.toNat).stop))) ∧
      (d.toNat ∉ t.active → Traps s t (.lbrk d) { code := 14, detail := 3 })

/-- How loops end, nested ones and ones that share their E among them: at the end of a body reached in sequence
or by a branch, and by a taken branch out of it; every loop but those that end or go back keeps its S, E and
counter (R115, R116, R353). A call ends none, and LBRK ends its loop and those nested in it. -/
def Obligations.LoopsEnd : Prop :=
  (∀ (t : Team) (npc : Word), GoesTo t (t.goTo npc) npc) ∧
  (∀ (t : Team) (target : Word), (∀ n, ¬Leaves t target n) → t.inHandler = false →
    t.branch target = t.goTo target) ∧
  (∀ (t : Team) (target : Word) (inner outer : List Nat) (n : Nat), t.inHandler = false →
    t.active = inner ++ n :: outer → n ∉ inner → Leaves t target n → (∀ k ∈ outer, ¬Leaves t target k) →
    t.branch target = (t.endLoops n).goTo target) ∧
  (∀ (t : Team) (inner outer : List Nat) (n : Nat), t.active = inner ++ n :: outer → n ∉ inner →
    (∀ k ∈ t.active, k < 3) → (t.endLoops n).active = outer ∧
    { t.endLoops n with active := t.active, loops := t.loops } = t ∧
    ∀ k < 3, (t.endLoops n).loop k =
      { t.loop k with count := if k ∈ n :: inner then 0#32 else (t.loop k).count }) ∧
  ∀ (s : State) (t : Team) (o : BitVec 19) (d a : Field), (s.sread t a).toNat % 4 = 0 →
    ∀ i ∈ [Instr.call o, .callr d a], Issues s t i → Completes s i fun _ u =>
      u.loops = t.loops ∧ u.active = t.active

/-- YIELD and WAITC complete: YIELD at PC + 4; WAITC goes on where the counter is at or below the bound, and else
waits with its continuation PC (R119, R120, R44). -/
def Sys2Proof.Machine.YieldAndWaitc : Prop :=
  ∀ (s : State) (t : Team),
    (Issues s t .yield → exec .yield s = .next (s.after .yield { t.advance with yielded := true })) ∧
    ∀ a b : Field, Issues s t (.waitc a b) →
      let k := (s.sread t a).toNat % 256
      let now := (lookup 0#32 k (s.core t.coreId).counters).toNat
      exec (.waitc a b) s = .next (s.after (.waitc a b)
        (if now ≤ (s.sread t b).toNat then t.advance
         else { t.advance with wait := some { kind := .counter k (s.sread t b), fired := false } }))

/-- WATCH completes at an aligned, readable word once the team's own earlier pairs and requests to the line are
served, its home is free and no access that later ones may overtake is due (`mustQueue`): the home reads the word, its update bins applied; where it differs from sread(B) the
team goes on in sequence, and where it is equal the team waits at the next instruction for a change. Until then it
is held; a misaligned address or a failed translation traps (R121, R180, R211). -/
def Sys2Proof.Machine.WatchCompletes : Prop :=
  ∀ (s : State) (t : Team) (a b : Field),
    let va := s.sread t a
    let i := Instr.watch a b
    (va.toNat % 8 ≠ 0 → Issues s t i → exec i s = .next (s.takeTrap t { code := 5, taddr := va })) ∧
    (∀ r, va.toNat % 8 = 0 → s.translateResident t.walker va .read [0, 1, 3] = .error (.trap r) →
      Issues s t i → exec i s = .next (s.takeTrap t r)) ∧
    ∀ s' m, va.toNat % 8 = 0 → s.translateResident t.walker va .read [0, 1, 3] = .ok (s', m) →
      (s'.pairsTo t m.phys = true ∨ s'.mustQueue t m.phys = true → Held s t i) ∧
      (s'.pairsTo t m.phys = false → s'.mustQueue t m.phys = false → s'.poisoned m.phys = false →
        let r := if m.phys.space = .gddr then s'.homeRead t.coreId m.phys.unit (lineOf m.phys.addr) false else s'
        (r.peek m.phys 8 ≠ (s.sread t b).toNat → Does s t i (r.putTeam t.advance)) ∧
        (r.peek m.phys 8 = (s.sread t b).toNat → Does s t i (r.putTeam
          { t.advance with wait := some { kind := .watch m.phys (s.sread t b), fired := false } })) ∧
        (m.phys.space = .gddr → r.peek m.phys 8 =
          ((s'.recallLine t.coreId m.phys.unit (lineOf m.phys.addr)).applyLine m.phys.unit
            (lineOf m.phys.addr)).peek m.phys 8))

/-- EXIT ends the team whatever its masks hold: it issues no more and holds no mask stack, no active loop and no
ray; NOP changes nothing but the PC; TRAPI takes TRAP_SOFT with the return PC PC + 4 and its code (R122). -/
def Sys2Proof.Machine.ExitNopTrapi : Prop :=
  ∀ (s : State) (t : Team),
    (Issues s t .exit → Completes s .exit fun r u =>
      u.place = .exiting ∧ u.stack = [] ∧ u.active = [] ∧ u.rays = [] ∧ r.canIssue u = false) ∧
    (Issues s t .nop → exec .nop s = .next (s.after .nop t.advance)) ∧
    ∀ k : BitVec 16, Issues s t (.trapi k) →
      exec (.trapi k) s = .next (s.takeTrap t { code := 22, code16 := k.toNat, after := true })

/-- YIELD, WAITC, WATCH, EXIT, NOP and TRAPI complete (R119 to R122). -/
def Obligations.WaitsAndEnds : Prop := YieldAndWaitc ∧ WatchCompletes ∧ ExitNopTrapi

/-! ### Row 0x4: MODE, the mask stack, masks -/

/-- MSET, MSETR and MGET complete; MSET with a reserved RND or ETYPE raises ILLEGAL_INSTR with cause 3; a value that
MSETR may not write raises MODE_VALUE and leaves MODE (R123). -/
def Obligations.ModeAccess : Prop :=
  ∀ (s : State) (t : Team),
    (∀ k : BitVec 16, Issues s t (.mset k) →
      exec (.mset k) s = .next (s.after (.mset k) { t.advance with mode := k })) ∧
    (∀ k : BitVec 16, MayIssue s t (.mset k) → 5 < k.toNat / 2 ^ 9 % 8 ∨ 12 < k.toNat / 2 ^ 4 % 32 →
      exec (.mset k) s = .next (s.takeTrap t
        { code := 1, detail := 3, tinfo := (Instr.mset k).firstWord })) ∧
    (∀ d : Field, Issues s t (.mget d) →
      exec (.mget d) s = .next (s.after (.mget d) (t.setD d (t.mode.setWidth 64)).advance)) ∧
    ∀ a : Field, Issues s t (.msetr a) →
      let v := s.sread t a
      let fine := v.toNat < 2 ^ 16 ∧ v.toNat / 2 ^ 9 % 8 ≤ 5 ∧ v.toNat / 2 ^ 4 % 32 ≤ 12
      (fine → exec (.msetr a) s = .next (s.after (.msetr a) { t.advance with mode := v.setWidth 16 })) ∧
      (¬fine → exec (.msetr a) s = .next (s.takeTrap t { code := 16, tinfo := v }))

/-- The mask stack completes as the three procedures of R125 say, and faults MASK_STACK at 32 entries or at
none. -/
def Obligations.MaskStack : Prop :=
  ∀ (s : State) (t : Team) (d a : Field),
    let guardTo := fun (g : Nat) => BitVec.ofNat 16 (t.mode.toNat / 16 * 16 + g)
    (Issues s t (.mpush d a) →
      (t.stack.length < 32 → Completes s (.mpush d a) fun _ u =>
        u.stack = { mask := t.guard, mode := t.mode } :: t.stack ∧
        u.mask d.toNat = t.guard &&& t.mask a.toNat &&& existingMask t.ident.elanes ∧
        u.mode = guardTo d.toNat ∧ u.pc = t.advance.pc ∧ u.sregs = t.sregs ∧ u.cc = t.cc) ∧
      (32 ≤ t.stack.length → exec (.mpush d a) s =
        .next (s.takeTrap t { code := 13, tinfo := BitVec.ofNat 64 t.stack.length }))) ∧
    (Issues s t (.melse d a) →
      (∀ e rest, t.stack = e :: rest → Completes s (.melse d a) fun _ u =>
        u.stack = t.stack ∧ u.mask d.toNat = e.mask &&& ~~~(t.mask a.toNat) &&& existingMask t.ident.elanes ∧
        u.mode = guardTo d.toNat ∧ u.pc = t.advance.pc ∧ u.sregs = t.sregs ∧ u.cc = t.cc) ∧
      (t.stack = [] → exec (.melse d a) s = .next (s.takeTrap t { code := 13, tinfo := 0#64 }))) ∧
    (Issues s t .mpop →
      (∀ e rest, t.stack = e :: rest → Completes s .mpop fun _ u =>
        let g := e.mode.toNat % 16
        u.stack = rest ∧ u.mode = e.mode ∧ u.pc = t.advance.pc ∧ u.sregs = t.sregs ∧ u.cc = t.cc ∧
        (g ≠ 0 → u.mask g = e.mask &&& existingMask t.ident.elanes) ∧
        ∀ n, n < 16 → (g = 0 ∨ n ≠ g) → u.mask n = t.mask n) ∧
      (t.stack = [] → exec .mpop s = .next (s.takeTrap t { code := 13, tinfo := 0#64 })))

/-- The whole-mask operations complete: lane by lane for MAND, MOR, MXOR, MANDN, MNOT, MMOV and MLEN, 64 lanes
at a time for MFRS, and with a count, an index, a word or the summary in s[D] for MCNT, MFFS, MTOS and MALL
(R29, R30, Table 5.9). -/
def Sys2Proof.Machine.MaskOperations : Prop :=
  ∀ (s : State) (t : Team) (d a b : Field),
    let x := fun (i : Nat) => (t.mask a.toNat).getLsbD i
    let y := fun (i : Nat) => (t.mask b.toNat).getLsbD i
    let toMask := fun (i : Instr) (f : Nat → Bool) => Issues s t i →
      exec i s = .next (s.after i (t.setMask d.toNat (lane1024 f)).advance)
    let toS := fun (i : Instr) (v : Word) => Issues s t i →
      exec i s = .next (s.after i (t.setD d v).advance)
    let j := (s.sread t b).toNat % 16
    toMask (.mand d a b) (fun i => x i && y i) ∧ toMask (.mor d a b) (fun i => x i || y i) ∧
    toMask (.mxor d a b) (fun i => x i != y i) ∧ toMask (.mandn d a b) (fun i => x i && !y i) ∧
    toMask (.mnot d a) (fun i => !x i) ∧ toMask (.mmov d a) x ∧
    toMask (.mlen d a) (fun i => decide (i < (s.sread t a).toNat) && decide (i < t.ident.elanes)) ∧
    toMask (.mfrs d a b) (fun i => if i / 64 = j then (s.sread t a).getLsbD (i % 64)
      else (t.mask d.toNat).getLsbD i) ∧
    toS (.mcnt d a) (BitVec.ofNat 64 ((List.range 1024).filter x).length) ∧
    toS (.mffs d a) (match (List.range 1024).find? x with
      | some k => BitVec.ofNat 64 k
      | none => BitVec.allOnes 64) ∧
    toS (.mtos d a b) (BitVec.ofNat 64 (bitsWhere 64 fun k => x (64 * j + k))) ∧
    toS (.mall d a) (BitVec.ofNat 64 (bitsWhere 32 fun g => (List.range 32).any fun k => x (32 * g + k)))

/-- Bits of a mask register at or above the existing lanes read zero after any write, and m0 is never written
(R29, R84). -/
def Sys2Proof.Machine.MasksEndAtTheLanes : Prop :=
  ∀ (t : Team) (n i : Nat) (m : Mask), t.ident.elanes ≤ i →
    ((t.setMask n m).mask n).getLsbD i = false ∧
    (t.setMask 0 m).mask 0 = existingMask t.ident.elanes ∧
    ∀ k, k ≠ n → (t.setMask n m).mask k = t.mask k

/-- The whole-mask operations complete lane by lane, and no write reaches a lane that the team has not (R29,
R30, R84, Table 5.9). -/
def Obligations.MaskRegisters : Prop := MaskOperations ∧ MasksEndAtTheLanes


/-! ### Rows 0x5 to 0x7: vector registers -/

/-- An instruction that writes vD: it leaves the register as `v` where the run slots suffice, and else
raises RUN_OVERFLOW and writes nothing (R63). -/
def Sys2Proof.Machine.WritesV (s : State) (t : Team) (i : Instr) (d : Field) (v : VReg) : Prop :=
  Issues s t i →
    let occ := s.occupancyAfter t [(d.toNat, v)]
    (occ ≤ 256 * t.budget →
      exec i s = .next (s.after i ({ t with vregs := t.vregs.set d.toNat v }).advance)) ∧
    (256 * t.budget < occ → exec i s = .next (s.takeTrap t
      { code := 3, tinfo := BitVec.ofNat 64 (2 ^ 32 * occ + 256 * t.budget) }))

/-- An instruction that writes vD with draws: it takes its key at issue, and then does as `WritesV` says
with CTR one more, the noise word logged where RSRC asks; a trap discards the word (R160, R364). -/
def Sys2Proof.Machine.DrawsV (s : State) (t : Team) (i : Instr) (d : Field) (v : Word → VReg) : Prop :=
  Issues s t i → ∀ s' w, s.beginDraw t = .ok (s', w) →
    let occ := s.occupancyAfter t [(d.toNat, v w.key)]
    (occ ≤ 256 * t.budget → exec i s = .next ((s'.endDraw
      { t with vregs := t.vregs.set d.toNat (v w.key) } w).countReads t.uid i.timeReads)) ∧
    (256 * t.budget < occ →
      let r : Trap := { code := 3, tinfo := BitVec.ofNat 64 (2 ^ 32 * occ + 256 * t.budget) }
      exec i s = .next (s.takeStop t (if w.rsrc = 1 ∨ w.rsrc = 2 then .trapNoise r else .trap r)))

/-- A form that takes some element types raises ETYPE_OP under any other (R128). -/
def Sys2Proof.Machine.NeedsEtype (s : State) (t : Team) (i : Instr) (ok : List Nat) : Prop :=
  Issues s t i → t.etype ∉ ok →
    exec i s = .next (s.takeTrap t { code := 4, tinfo := BitVec.ofNat 64 t.etype })

/-- An element-wise form: the element types that it takes, when it rounds (R131), whether the old
destination counts among its sources, and the value of a guarded lane from the key, the lane's number and
the lanes of vA, vB and the old vD. -/
structure Sys2Proof.Machine.LaneForm where
  etypes : List Nat
  rounds : Rounds
  old : Bool
  lane : Team → Word → Nat → W32 → W32 → W32 → W32

/-- An element-wise instruction completes: a guarded lane holds the form's value, every other lane keeps the
old one, the length is the greatest of the old destination's and the sources', and the runs are cut as R130
says; under RSR it draws where the form rounds (R61, R130, R131, R160). -/
def Sys2Proof.Machine.LaneForm.Says (f : LaneForm) (s : State) (t : Team) (i : Instr) (d : Field) (c : BitVec 1)
    (srcs : List VReg) (lanes : Word → Nat → W32) : Prop :=
  let old := t.vread d
  let draws := f.rounds.draws t
  let form : RawForm := { guard := t.guard, elanes := t.ident.elanes, old := old,
                          len := ((old :: srcs).map VReg.len).foldl max 0, split := draws }
  let raw := fun k => form.runs (if f.old then old :: srcs else srcs) (lanes k)
  let v := fun k => if c = 1#1 then (raw k).coalesce else raw k
  NeedsEtype s t i f.etypes ∧
  (t.etype ∈ f.etypes → draws = false → WritesV s t i d (v t.key)) ∧
  (t.etype ∈ f.etypes → draws = true → DrawsV s t i d v)

/-- A lane form on sub-elements as exact values, rounded once (R134). -/
def Sys2Proof.Machine.arithLane (f : Team → XReal → XReal → XReal → XReal) : Team → Word → Nat → W32 → W32 → W32 → W32 :=
  fun t k n a b d => t.subs fun ty j =>
    subResult ty (t.rounding k n j) (f t (t.val ty a j) (t.val ty b j) (t.val ty d j))

/-- A lane form on the bits of sub-elements of vA and vB. -/
def Sys2Proof.Machine.bitsLane (f : Team → SubTy → Nat → Nat → Nat → Nat) : Team → Word → Nat → W32 → W32 → W32 → W32 :=
  fun t _ _ a b d => t.subs fun ty j => f t ty (subBits ty a j) (subBits ty b j) (subBits ty d j)

/-- A lane form on whole words; under I6x5 bits [31:30] are zero (R136). -/
def Sys2Proof.Machine.wordLane (f : W32 → W32 → W32) : Team → Word → Nat → W32 → W32 → W32 → W32 :=
  fun t _ _ a b _ => if t.etype = 9 then f a b &&& 0x3FFFFFFF#32 else f a b

/-- Tables 6.2 and 6.3 and VDIV: the element-wise instructions with two vector sources. -/
def Sys2Proof.Machine.table6Two : List ((Field → Field → Field → BitVec 1 → Instr) × LaneForm) :=
  let arith := fun old f => (⟨etypesNum, .floats, old, arithLane f⟩ : LaneForm)
  let down := fun (t : Team) => t.rnd == 2
  [(.vadd, arith false fun t a b _ => XReal.add (down t) a b),
   (.vsub, arith false fun t a b _ => XReal.add (down t) a b.neg),
   (.vmul, arith false fun _ a b _ => a.mul b),
   (.vfma, arith true fun t a b d => XReal.add (down t) (a.mul b) d),
   (.vfms, arith true fun t a b d => XReal.add (down t) (a.mul b) d.neg),
   (.vmin, ⟨etypesNum, .never, false, bitsLane fun t ty a b _ => minSub t.dnz ty a b⟩),
   (.vmax, ⟨etypesNum, .never, false, bitsLane fun t ty a b _ => maxSub t.dnz ty a b⟩),
   (.vclamp, ⟨etypesNum, .never, true,
     bitsLane fun t ty a b d => minSub t.dnz ty (maxSub t.dnz ty d a) b⟩),
   (.vshl, ⟨etypesInt, .never, false, bitsLane fun t ty a b _ => shlSub t ty a b⟩),
   (.vshr, ⟨etypesInt, .never, false, bitsLane fun _ ty a b _ => a / 2 ^ (b % ty.width)⟩),
   (.vsra, ⟨etypesInt, .never, false, bitsLane fun _ ty a b _ => sraSub ty a b⟩),
   (.vand, ⟨etypesNum, .never, false, wordLane fun a b => a &&& b⟩),
   (.vor, ⟨etypesNum, .never, false, wordLane fun a b => a ||| b⟩),
   (.vxor, ⟨etypesNum, .never, false, wordLane fun a b => a ^^^ b⟩),
   (.vmulp, ⟨[0, 1, 2, 3, 5, 7], .always, false, fun t k n a b _ => t.subs fun ty j =>
     let byte := if (elemType t.etype).2 = 1 then 0 else j
     subRound ty (t.rounding k n j)
       ((t.val ty a j).mul (subVal .p8 false (bitsOf b.toNat (8 * byte) 8)))⟩),
   (.vdotp, ⟨[1, 2, 5, 6, 7, 8, 10, 11, 12], .floats, true, fun t k n a b d =>
     let (ty, ns) := elemType t.etype
     let acc := dotAcc t.etype
     let sum := (List.range ns).foldl
       (fun x j => XReal.add (down t) x ((t.val ty a j).mul (t.val ty b j))) (t.val acc d 0)
     packElem acc [subResult acc (t.rounding k n 0) sum]⟩),
   (.vpack, ⟨[1, 2, 5, 6, 7, 8, 10, 11, 12], .floats, false, fun t k n a b _ => t.subs fun dst j =>
     let (src, m) := elemType (packPartner t.etype)
     cvtSub src dst t.dnz (t.rounding k n j) (subBits src (if j < m then a else b) (j % m))⟩),
   (.vdiv, ⟨etypesF, .always, false, arithLane fun _ a b _ => a.div b⟩)]

/-- The element-wise instructions with one vector source, VCVT and VUNPK among them by their codes. -/
def Sys2Proof.Machine.table6One (ty : BitVec 5) (h : BitVec 1) : List ((Field → Field → BitVec 1 → Instr) × LaneForm) :=
  [(.vabs, ⟨etypesNum, .never, false, bitsLane fun t ty a _ _ => absSub t ty a⟩),
   (.vneg, ⟨etypesNum, .never, false, bitsLane fun t ty a _ _ => negSub t ty a⟩),
   (.vnot, ⟨etypesNum, .never, false, wordLane fun a _ => ~~~a⟩),
   (.vmov, ⟨etypesNum, .never, false, fun _ _ _ a _ _ => a⟩),
   (fun d a c => .vcvt d a ty c,
     ⟨etypesNum.filter (fun e => cvtGroup e == cvtGroup ty.toNat), .always, false, fun t k n a _ _ =>
       t.subs fun dst j =>
         let src := (elemType ty.toNat).1
         cvtSub src dst t.dnz (t.rounding k n j) (subBits src a j)⟩),
   (fun d a c => .vunpk d a h c,
     ⟨[1, 2, 5, 6, 7, 8, 10, 11, 12], .never, false, fun t _ _ a _ _ =>
       let src := (elemType t.etype).1
       let (dst, m) := elemType (packPartner t.etype)
       packElem dst ((List.range m).map fun j =>
         cvtSub src dst t.dnz .rne (subBits src a (h.toNat * m + j)))⟩)]

/-- The element-wise instructions of rows 0x5 and 0x6 complete with the lanes of Tables 6.2 to 6.4 (R61,
R128, R133 to R144; under RSR the index of a sub-element's draw is the model's reading, log entry 11, and so is the
+0 of VMULP under a zero P8 weight, log entry 49). -/
def Obligations.VectorElementWise : Prop :=
  (∀ p ∈ table6Two, ∀ (d a b : Field) (c : BitVec 1) (s : State) (t : Team),
    p.2.Says s t (p.1 d a b c) d c [t.vread a, t.vread b] (fun k n =>
      p.2.lane t k n ((t.vread a).lane n) ((t.vread b).lane n) ((t.vread d).lane n))) ∧
  ∀ (ty : BitVec 5) (h : BitVec 1), ∀ p ∈ table6One ty h,
    ∀ (d a : Field) (c : BitVec 1) (s : State) (t : Team),
      p.2.Says s t (p.1 d a c) d c [t.vread a] (fun k n =>
        p.2.lane t k n ((t.vread a).lane n) 0#32 ((t.vread d).lane n))

/-- The special functions of row 0x6, with whether they round (R131, R145): VFLOOR does not, the others do. -/
def Sys2Proof.Machine.table65 : List ((Field → Field → BitVec 1 → Instr) × MathFn × Rounds) :=
  [(.vrcp, .rcp, .always), (.vrsq, .rsq, .always), (.vsqrt, .sqrt, .always), (.vexp2, .exp2, .always),
   (.vlog2, .log2, .always), (.vsin, .sin, .always), (.vcos, .cos, .always), (.vtanh, .tanh, .always),
   (.vfloor, .floor, .never), (.vfrac, .frac, .always)]

/-- The special functions complete under the floating-point element types: each sub-element of a guarded lane
is the function's value in its format, and nothing else but the count of free values changes (R145, R146;
which of the two nearest values a function gives is the model's free value, log entry 10). Where the run slots do
not suffice they raise RUN_OVERFLOW instead (R63). -/
def Obligations.VectorSpecialFunctions : Prop :=
  ∀ p ∈ table65, ∀ (d a : Field) (c : BitVec 1) (s : State) (t : Team),
    let i := p.1 d a c
    let x := t.vread a
    let draws := p.2.2.draws t
    let form : RawForm := { guard := t.guard, elanes := t.ident.elanes, old := t.vread d,
                            len := max (t.vread d).len x.len, split := draws }
    let raw := fun (k : Word) => form.runs [x] (fun n => t.subs fun ty j => match ty with
      | .flt f => p.2.1.eval f (t.rounding k n j) (s.free + 8 * n + j) (t.val ty (x.lane n) j)
      | _ => 0)
    let v := fun k => if c = 1#1 then (raw k).coalesce else raw k
    let later := { s with free := s.free + 8192 }
    NeedsEtype s t i etypesF ∧
    let overflow := fun (occ : Nat) =>
      ({ code := 3, tinfo := BitVec.ofNat 64 (2 ^ 32 * occ + 256 * t.budget) } : Trap)
    (Issues s t i → t.etype ∈ etypesF → draws = false →
      let occ := s.occupancyAfter t [(d.toNat, v t.key)]
      (occ ≤ 256 * t.budget →
        exec i s = .next (later.after i ({ t with vregs := t.vregs.set d.toNat (v t.key) }).advance)) ∧
      (256 * t.budget < occ → exec i s = .next (s.takeTrap t (overflow occ)))) ∧
    ∀ s' w, Issues s t i → t.etype ∈ etypesF → draws = true → later.beginDraw t = .ok (s', w) →
      let occ := s.occupancyAfter t [(d.toNat, v w.key)]
      (occ ≤ 256 * t.budget →
        exec i s = .next ((s'.endDraw { t with vregs := t.vregs.set d.toNat (v w.key) } w).countReads
          t.uid i.timeReads)) ∧
      (256 * t.budget < occ → exec i s = .next (s.takeStop t
        (if w.rsrc = 1 ∨ w.rsrc = 2 then .trapNoise (overflow occ) else .trap (overflow occ))))

/-- The compares complete: for every guarded lane below the longer source, bit i of mD says whether the
relation holds in every sub-element (VCMPNE: not in every one); every other bit keeps its value (R138). -/
def Obligations.VectorCompares : Prop :=
  ∀ (s : State) (t : Team) (d a b : Field),
    let x := t.vread a
    let y := t.vread b
    let (ty, ns) := elemType t.etype
    let all := fun (r : XReal → XReal → Bool) (n : Nat) => (List.range ns).all fun j =>
      r (subVal ty t.dnz (subBits ty (x.lane n) j)) (subVal ty t.dnz (subBits ty (y.lane n) j))
    let leaves := fun (i : Instr) (p : Nat → Bool) =>
      NeedsEtype s t i etypesNum ∧ (Issues s t i → t.etype ∈ etypesNum →
        exec i s = .next (s.after i (t.setMask d.toNat (lane1024 fun n =>
          if n < max x.len y.len && n < t.ident.elanes && t.guard.getLsbD n then p n
          else (t.mask d.toNat).getLsbD n)).advance))
    leaves (.vcmpeq d a b) (all fun p q => p.eqv q) ∧
    leaves (.vcmpne d a b) (fun n => !all (fun p q => p.eqv q) n) ∧
    leaves (.vcmplt d a b) (all fun p q => p.lt q) ∧
    leaves (.vcmple d a b) (all fun p q => p.lt q || p.eqv q)

/-- VSEL, VBCAST and VIDX complete: the other source in the lanes outside the guard; one word in the first
min(sread(B), E) lanes; sread(A) + i × sread(B) in all E lanes (R139, R140). -/
def Sys2Proof.Machine.VectorGeneration : Prop :=
  ∀ (s : State) (t : Team) (d a b : Field) (c : BitVec 1),
    let x := t.vread a
    let y := t.vread b
    let e := t.ident.elanes
    let g := fun n => decide (n < e) && t.guard.getLsbD n
    let form := fun (len : Nat) (split : Bool) =>
      ({ guard := t.guard, elanes := e, old := t.vread d, len := len, split := split } : RawForm)
    let asked := fun (v : VReg) => if c = 1#1 then v.coalesce else v
    let step := (s.sread t b).setWidth 32
    (∃ v : VReg, WritesV s t (.vsel d a b c) d (asked v) ∧ v.len = max (t.vread d).len (max x.len y.len) ∧
      ∀ n < v.len, v.lane n = if g n then x.lane n else y.lane n) ∧
    WritesV s t (.vbcast d a b c) d (asked ((form (min (s.sread t b).toNat e) false).runs []
      fun _ => (s.sread t a).setWidth 32)) ∧
    WritesV s t (.vidx d a b c) d (asked ((form e (step != 0#32)).runs []
      fun n => (s.sread t a).setWidth 32 + BitVec.ofNat 32 n * step))

/-- Lane movement completes: each written lane holds the lane of vA that R148 to R150 name, zero where vA
has none, every other lane keeps the old value, and the length is as they say. -/
def Sys2Proof.Machine.LaneMovement : Prop :=
  ∀ (s : State) (t : Team) (d a b : Field) (c : BitVec 1),
    let x := t.vread a
    let y := t.vread b
    let old := t.vread d
    let e := t.ident.elanes
    let g := fun n => decide (n < e) && t.guard.getLsbD n
    let guarded := fun l => (List.range l).filter g
    let p := (s.sread t b).toNat
    let writes := fun (i : Instr) (len : Nat) (lane : Nat → W32) =>
      ∃ v : VReg, WritesV s t i d v ∧ v.len = len ∧ ∀ n < len, v.lane n = lane n
    writes (.vcompact d a c) (guarded x.len).length (fun n => x.lane ((guarded x.len).getD n 0)) ∧
    (let ls := (guarded e).take x.len
     writes (.vexpand d a c) (ls.foldl (fun l n => max l (n + 1)) old.len)
       (fun n => if n ∈ ls then x.lane (ls.idxOf n) else old.lane n)) ∧
    (let len := max y.len old.len
     writes (.vshfl d a b c) len (fun n => if g n then x.lane (y.lane n).toNat else old.lane n)) ∧
    (0 < x.len → writes (.vrotl d a b c) (max x.len old.len)
      (fun n => if n < x.len && g n then x.lane ((n + p) % x.len) else old.lane n)) ∧
    (x.len = 0 → Issues s t (.vrotl d a b c) →
      exec (.vrotl d a b c) s = .next (s.after (.vrotl d a b c) t.advance)) ∧
    (Issues s t (.vextr d a b) →
      exec (.vextr d a b) s = .next (s.after (.vextr d a b) (t.setD d ((x.lane p).setWidth 64)).advance)) ∧
    (p < min e 1024 → writes (.vins d a b c) (max old.len (p + 1))
      (fun n => if n = p then (s.sread t a).setWidth 32 else old.lane n)) ∧
    (min e 1024 ≤ p → Issues s t (.vins d a b c) →
      exec (.vins d a b c) s = .next (s.after (.vins d a b c) t.advance))

/-- Lane selection, generation and movement complete with the lanes of R139, R140 and R148 to R150. -/
def Obligations.LanesGeneratedAndMoved : Prop := VectorGeneration ∧ LaneMovement

/-- The instructions on runs and budgets complete: RCOAL merges, RCNT counts, RALLOT changes the allotment
where its runs fit, RPOOL gives the budget that the request leaves, and granules that it returns make a placement
attempt due (R151 to R154, R316). -/
def Obligations.RunsAndBudgets : Prop :=
  ∀ (s : State) (t : Team) (d a : Field),
    (∀ c : BitVec 1, WritesV s t (.rcoal d a c) d (t.vread a).coalesce) ∧
    (Issues s t (.rcnt d a) → exec (.rcnt d a) s = .next (s.after (.rcnt d a)
      (t.setD d (BitVec.ofNat 64 ((t.vread a).len + 2 ^ 16 * (t.vread a).length))).advance)) ∧
    (∀ n : BitVec 9, Issues s t (.rallot d n) →
      let more := n.toNat - t.allot
      let occ := s.occupancy t + more
      (n.toNat ≤ t.allot ∨ occ ≤ 256 * t.budget → exec (.rallot d n) s = .next (s.after (.rallot d n)
        (({ t with vregs := t.vregs.take n.toNat ++ List.replicate more (zeroVReg t.ident.elanes) }).setD d
          (BitVec.ofNat 64 t.allot)).advance)) ∧
      (t.allot < n.toNat → 256 * t.budget < occ → exec (.rallot d n) s = .next (s.takeTrap t
        { code := 3, tinfo := BitVec.ofNat 64 (2 ^ 32 * occ + 256 * t.budget) }))) ∧
    (Issues s t (.rpool d a) →
      let least := max ((s.occupancy t + 255) / 256) 1
      let want := min (max (s.sread t a).toNat least) 64
      let free := s.freeGranules t.coreId t.ident.sched - s.heldGranules t.coreId t.ident.sched
      let got := if want ≤ t.budget ∨ want - t.budget ≤ free then want else t.budget
      let r := s.modDie t.ident.die fun k => { k with placeDue := k.placeDue || decide (got < t.budget) }
      exec (.rpool d a) s = .next (r.after (.rpool d a)
        (({ t with budget := got }).setD d (BitVec.ofNat 64 got)).advance))

/-- The reductions complete over the guarded lanes of vA: VREDMIN, VREDMAX, VREDAND and VREDOR, and VREDADD with
one conversion of the exact sum, which draws under RSR (R156, R159). -/
def Sys2Proof.Machine.Reductions : Prop :=
  ∀ (s : State) (t : Team) (d a : Field),
    let x := t.vread a
    let ws := ((List.range (min x.len t.ident.elanes)).filter (fun n => t.guard.getLsbD n)).map x.lane
    let clip := fun (w : W32) => if t.etype = 9 then w &&& 0x3FFFFFFF#32 else w
    let leaves := fun (i : Instr) (w : W32) => NeedsEtype s t i etypesNum ∧
      (Issues s t i → t.etype ∈ etypesNum →
        exec i s = .next (s.after i (t.setD d (w.setWidth 64)).advance))
    let sum := fun (k : Word) => reduceAdd t.etype t.dnz (fun j => t.rounding k 0 j) ws
    leaves (.vredmin d a) (reduceExtreme true t.etype t.dnz ws) ∧
    leaves (.vredmax d a) (reduceExtreme false t.etype t.dnz ws) ∧
    leaves (.vredand d a) (clip (ws.foldl (· &&& ·) 0xFFFFFFFF#32)) ∧
    leaves (.vredor d a) (clip (ws.foldl (· ||| ·) 0#32)) ∧
    NeedsEtype s t (.vredadd d a) etypesNum ∧
    (Issues s t (.vredadd d a) → t.etype ∈ etypesNum → Rounds.floats.draws t = false →
      exec (.vredadd d a) s = .next (s.after (.vredadd d a) (t.setD d ((sum t.key).setWidth 64)).advance)) ∧
    ∀ s' w, Issues s t (.vredadd d a) → t.etype ∈ etypesNum → Rounds.floats.draws t = true →
      s.beginDraw t = .ok (s', w) → exec (.vredadd d a) s = .next
        ((s'.endDraw (t.setD d ((sum w.key).setWidth 64)) w).countReads t.uid (Instr.timeReads (.vredadd d a)))

/-- VSCAN, VRNG, RNGSEED and RNGGET complete: each guarded lane below vA's length holds the converted exact sum
of the guarded lanes up to it, or one draw indexed by its lane of vA (R157 to R162). -/
def Sys2Proof.Machine.ScansAndDraws : Prop :=
  ∀ (s : State) (t : Team) (d a b : Field) (c : BitVec 1),
    let x := t.vread a
    let old := t.vread d
    let g := fun n => decide (n < t.ident.elanes) && t.guard.getLsbD n
    let asked := fun (v : VReg) => if c = 1#1 then v.coalesce else v
    let form : RawForm := { guard := t.guard, elanes := t.ident.elanes, old := old,
                            len := max old.len x.len, split := true }
    (∃ v : Word → VReg,
      (t.etype ∈ etypesNum → Rounds.floats.draws t = false → WritesV s t (.vscan d a c) d (asked (v t.key))) ∧
      (t.etype ∈ etypesNum → Rounds.floats.draws t = true →
        DrawsV s t (.vscan d a c) d (fun k => asked (v k))) ∧
      ∀ k, (v k).len = max x.len old.len ∧ ∀ n < (v k).len, (v k).lane n =
        if n < x.len ∧ g n then
          reduceAdd t.etype t.dnz (fun j => t.rounding k n j) (((List.range (n + 1)).filter g).map x.lane)
        else old.lane n) ∧
    NeedsEtype s t (.vscan d a c) etypesNum ∧
    DrawsV s t (.vrng d a c) d (fun k => asked (form.runs [x]
      fun n => rngWord t.etype ((mix k t.ctr (x.lane n)).setWidth 32))) ∧
    (Issues s t (.rngseed a b) → exec (.rngseed a b) s = .next (s.after (.rngseed a b)
      ({ t with key := s.sread t a, ctr := s.sread t b }).advance)) ∧
    (Issues s t (.rngget d a) → exec (.rngget d a) s = .next (s.after (.rngget d a)
      (t.setD d (if a = 0#7 then t.key else t.ctr)).advance))

/-- Reductions, scans and random numbers complete (R156 to R162; the runs of VSCAN's result are the model's reading,
log entry 12). -/
def Obligations.ReductionsScansDraws : Prop := Reductions ∧ ScansAndDraws

/-- The runs of a form hold the form's value in every guarded lane and the old one in every other, they make up
the form's length, no run is empty, and a run ends between two lanes exactly where R130 has a cut; for the
sources of an element-wise form the cuts are their lengths and their own run boundaries (R130). -/
def Sys2Proof.Machine.RawRunsHoldTheirLanes : Prop :=
  ∀ (r : RawForm) (source : Nat → Bool) (lane : Nat → W32),
    let v := r.runsWith source lane
    let g := fun n => decide (n < r.elanes) && r.guard.getLsbD n
    v.len = r.len ∧ (∀ q ∈ v, 0 < q.cnt) ∧
    (∀ n < r.len, v.lane n = if g n then lane n else r.old.lane n) ∧
    (∀ n, 0 < n → n < r.len → (n ∈ v.bounds ↔ source n = true ∨ g n ≠ g (n - 1) ∨
      ((g n = false ∨ g (n - 1) = false) ∧ (n = r.old.len ∨ n ∈ r.old.bounds)) ∨
      (r.split = true ∧ g n = true))) ∧
    ∀ xs : List VReg, (∀ n, source n = true ↔ ∃ x ∈ xs, n = x.len ∨ n ∈ x.bounds) →
      r.runs xs lane = v

/-- Coalescing keeps every lane and the length, and leaves no two neighbouring runs of one value (R60, R77). -/
def Sys2Proof.Machine.CoalescingKeepsLanes : Prop :=
  ∀ v : VReg, v.coalesce.len = v.len ∧ (∀ n, v.coalesce.lane n = v.lane n) ∧
    ∀ n, n + 1 < v.coalesce.length →
      (v.coalesce.map Run.val)[n]? ≠ (v.coalesce.map Run.val)[n + 1]?

/-- The runs that a form writes, and what coalescing leaves of them (R60, R77, R130). -/
def Obligations.RunsOfRegisters : Prop := RawRunsHoldTheirLanes ∧ CoalescingKeepsLanes

/-- The noise log of a drawing instruction, as RSRC acts: under 3 its key is the 8-byte word at NLOG, under 2 the
core's next noise word, which is to be stored there; both raise LOG_LIMIT where NLOG + 8 lies beyond NLEND, and a
failed translation traps. Where RSRC reads 2 in replay it acts as 3 (R161, R364, R424). -/
def Sys2Proof.Machine.NoiseLog : Prop :=
  (∀ (s : State) (t : Team), s.rsrcFor t =
    if t.rsrc = 2 ∧ (∃ c, s.ctx? t.ctx = some c ∧ c.replay.isSome = true) then 3 else t.rsrc) ∧
  ∀ (s : State) (t : Team) (z : Word) (rest : List Word),
    let full := t.nlend.toNat < t.nlog.toNat + 8
    let limit : Trap := { code := 21, taddr := t.nlog, tinfo := t.nlend }
    (s.rsrcFor t = 3 →
      (∀ r, s.translateResident t.walker t.nlog .read [0, 1, 3] = .error (.trap r) →
        s.beginDraw t = .error (.trap r)) ∧
      ∀ s1 m, s.translateResident t.walker t.nlog .read [0, 1, 3] = .ok (s1, m) →
        s1.pairsTo t m.phys = false → s1.loadBlocked t m.phys m.nc = false →
        (full → s.beginDraw t = .error (.trap limit)) ∧
        ∀ s2 v, ¬full → s1.teamLoad t m 8 = .ok (s2, v) →
          s.beginDraw t = .ok (s2, { key := BitVec.ofNat 64 v, rsrc := 3, slot := none })) ∧
    (s.rsrcFor t = 2 → (s.core t.coreId).noiseFailed = false → (s.core t.coreId).noise = z :: rest →
      (∀ r, s.translateResident t.walker t.nlog .write [0, 1, 3] = .error (.trap r) →
        s.beginDraw t = .error (.trap r)) ∧
      ∀ s1 m, s.translateResident t.walker t.nlog .write [0, 1, 3] = .ok (s1, m) →
        s1.pairsTo t m.phys = false → s1.blocked t m.phys = false →
        s1.needRegions t.coreId t.ctx m.phys = .ok () →
        (full → s.beginDraw t = .error (.trap limit)) ∧
        (¬full → s.beginDraw t = .ok (s1.modCore t.coreId (fun k => { k with noise := rest }),
          { key := z, rsrc := 2, slot := some m.phys })))

/-- The last effects of a drawing instruction: CTR is one more; under RSRC 2 and 3 NLOG is 8 more, and under 2 the
key is stored at NLOG, so that outside the FXADD regions it stands there afterwards (R160, R161, R364). -/
def Sys2Proof.Machine.DrawsEnd : Prop :=
  ∀ (s : State) (t : Team) (k : Word),
    (∀ r < 2, s.endDraw t { key := k, rsrc := r, slot := none } =
      s.putTeam ({ t with ctr := t.ctr + 1#64 }).advance) ∧
    let u := { t with ctr := t.ctr + 1#64, nlog := t.nlog + 8#64 }
    s.endDraw t { key := k, rsrc := 3, slot := none } = s.putTeam u.advance ∧
    ∀ p : Phys,
      let r := s.endDraw t { key := k, rsrc := 2, slot := some p }
      r = (s.putTeam u.advance).teamStore t t.nlog p (leBytes 8 k.toNat) ∧
      (p.space = .gddr → p.addr % 8 = 0 → s.memWf = true → s.die0.bins = [] → s.die1.bins = [] →
        (((s.putTeam u.advance).learnFx t.coreId t.ctx t.nlog p).die p.unit).fxLines.find?
          (fun q => q.1 == lineOf p.addr) = none →
        r.peek p 8 = k.toNat)

/-- What a drawing instruction takes and leaves: CTR is one more; under RSRC 0 the key is KEY; under 1 it is
the core's next noise word, and the instruction is held while there is none; a failed noise source is a
machine check; under 2 and 3 the noise log takes or gives the key (R158 to R161, R364, R382). -/
def Obligations.DrawSources : Prop :=
  (∀ (s : State) (t : Team),
    (s.rsrcFor t = 0 → s.beginDraw t = .ok (s, { key := t.key, rsrc := 0, slot := none })) ∧
    (s.rsrcFor t = 1 ∨ s.rsrcFor t = 2 →
      ((s.core t.coreId).noiseFailed = true → s.beginDraw t = .error (.check 9 0 0)) ∧
      ((s.core t.coreId).noiseFailed = false → (s.core t.coreId).noise = [] → s.beginDraw t = .error .hold)) ∧
    (s.rsrcFor t = 1 → (s.core t.coreId).noiseFailed = false →
      ∀ z rest, (s.core t.coreId).noise = z :: rest →
        s.beginDraw t = .ok (s.modCore t.coreId (fun k => { k with noise := rest }),
          { key := z, rsrc := 1, slot := none }))) ∧
  NoiseLog ∧ DrawsEnd

/-! ### Row 0x8: scalar memory -/

/-- An access is refused before its effect: MISALIGNED at an address that is no multiple of its size, or the
trap of its translation (R193, R169). -/
def Sys2Proof.Machine.RefusesAccess (s : State) (t : Team) (i : Instr) (va : Word) (n : Nat) (kind : Access)
    (spaces : List Nat) : Prop :=
  (va.toNat % n ≠ 0 → Traps s t i { code := 5, taddr := va }) ∧
  ∀ r, va.toNat % n = 0 → s.translateResident t.walker va kind spaces = .error (.trap r) → Traps s t i r

/-- An aligned access reaches a resident page, and the team has no unaccepted pair to its line (R193, R211). -/
structure Sys2Proof.Machine.Reaches (s : State) (t : Team) (va : Word) (n : Nat) (kind : Access) (spaces : List Nat)
    (s' : State) (m : Mapped) : Prop where
  aligned : va.toNat % n = 0
  mapped : s.translateResident t.walker va kind spaces = .ok (s', m)
  settled : s'.pairsTo t m.phys = false

/-- An aligned store or atomic reaches a resident page, and whether it lies in an update region is known (R193,
R211, R232). -/
structure Sys2Proof.Machine.ReachesStore (s : State) (t : Team) (va : Word) (n : Nat) (kind : Access)
    (spaces : List Nat) (s' : State) (m : Mapped) : Prop extends Reaches s t va n kind spaces s' m where
  regions : s'.needRegions t.coreId t.ctx m.phys = .ok ()

/-- LD, LDA and LDX complete: s[D] receives the bytes at the address, zero-extended, at once where the home or a
lease can serve the load and it is not to be overtaken; else the load goes to its home, where its reservations are
free, and is held while they are not. The leases of the L1 serve no load through an NC mapping (R195, R177, R179,
R182, R326). LDX has two words (R79). -/
def Sys2Proof.Machine.LoadsIssue : Prop :=
  ∀ (s : State) (t : Team) (d a b : Field) (z : BitVec 2) (lit : W32),
    let n := Machine.sizeOf z
    let load := fun (i : Instr) (va : Word) (acquire : Bool) (next : Team → Team) =>
      RefusesAccess s t i va n .read [0, 1, 3] ∧
      ∀ s1 m, Reaches s t va n .read [0, 1, 3] s1 m →
        (s1.loadQueues t m.phys m.nc = false → ∀ s2 v, s1.teamLoad t m n = .ok (s2, v) →
          Does s t i (s2.modTeam t.uid fun u => next (u.setD d (BitVec.ofNat 64 v)))) ∧
        (s1.loadQueues t m.phys m.nc = true →
          (s1.hasCredit t.coreId m.phys = true → Does s t i ((s1.queueReq t m (.load d.toNat n)).modTeam t.uid
            fun u => { next u with pend := some (.load d.toNat n m.phys acquire) })) ∧
          (s1.hasCredit t.coreId m.phys = false → Held s t i))
    load (.ld d a b z) (s.sread t a + s.sread t b) false Team.advance ∧
    load (.lda d a b z) (s.sread t a + s.sread t b) true Team.advance ∧
    ((∀ k ∈ t.active, (t.loop k).stop ≠ t.pc + 4#64) →
      load (.ldx d a z lit) (s.sread t a + lit.signExtend 64) false Team.advanceX) ∧
    ((∃ k ∈ t.active, (t.loop k).stop = t.pc + 4#64) →
      Traps s t (.ldx d a z lit) { code := 14, detail := 4 })

/-- What a team does while the reply to its LD or LDX is on its way (R182; that an instruction which names s[D],
gives the team up or would trap waits for it is the model's reading of R182, R351 and R353, log entry 4): the
integer rows complete with Table 5.3's result and leave the load pending, a store that can be served performs
before the load, an instruction that names s[D] is held, and so are EXIT, EPEND and the peer accesses, a second
load that goes to its home, and TRAPI, whose trap finds every earlier instruction complete. After an LDA every
instruction is held (R184). -/
def Sys2Proof.Machine.LoadsAreOvertaken : Prop :=
  ∀ (s : State) (t : Team) (d : Nat) (x a b : Field),
    let held := fun (i : Instr) => exec i s = .next { s with stalled := true }
    (∀ p ∈ table53, ∀ q : BitVec 1, IssuesPast s t (p.1 x a b q) d → d ∉ (p.1 x a b q).scalarNumbers →
      exec (p.1 x a b q) s = .next (s.after (p.1 x a b q) (t.setD x (BitVec.ofNat 64
        (p.2 (widthOf q) ((s.sread t a).toNat % 2 ^ widthOf q) ((s.sread t b).toNat % 2 ^ widthOf q)
          ((t.sreg x).toNat % 2 ^ widthOf q)))).advance)) ∧
    (∀ (z : BitVec 2) s1 m, IssuesPast s t (.st x a b z) d → d ∉ (Instr.st x a b z).scalarNumbers →
      ReachesStore s t (s.sread t a + s.sread t b) (Machine.sizeOf z) .write [0, 1, 3] s1 m →
      s1.mustQueue t m.phys = false → exec (.st x a b z) s = .next
        (((s1.teamStore t (s.sread t a + s.sread t b) m.phys (leBytes (Machine.sizeOf z) (s.sread t x).toNat)).modTeam
          t.uid Team.advance).countReads t.uid (Instr.timeReads (.st x a b z)))) ∧
    (∀ (z : BitVec 2) s1 m, IssuesPast s t (.ld x a b z) d →
      Reaches s t (s.sread t a + s.sread t b) (Machine.sizeOf z) .read [0, 1, 3] s1 m →
      s1.loadQueues t m.phys m.nc = true → held (.ld x a b z)) ∧
    (∀ k : BitVec 16, IssuesPast s t (.trapi k) d → held (.trapi k)) ∧
    ∀ i : Instr, (encodeWords i).isSome = true → s.team? s.cur = some t →
      (t.loading = some d → d ∈ i.scalarNumbers ∨ i ∈ [Instr.exit, .epend, .clds x a b, .csts x a b] → held i) ∧
      ((∃ n p, t.pend = some (.load d n p true)) → held i)

/-- Scalar loads issue, complete and are overtaken (R79, R177, R179, R182, R184, R195, R326). -/
def Obligations.ScalarLoads : Prop := LoadsIssue ∧ LoadsAreOvertaken

/-- ST and STL complete: the low bytes of sread(D) reach the home, at once or queued behind a busy line, where
their reservations are free, and are held while they are not; STL is held until the conditions of its scope hold
(R195, R184, R183, R326). -/
def Sys2Proof.Machine.ScalarStores : Prop :=
  ∀ (s : State) (t : Team) (d a b : Field) (z : BitVec 2),
    let n := Machine.sizeOf z
    let store := fun (i : Instr) (va : Word) =>
      ∀ s1 m, ReachesStore s t va n .write [0, 1, 3] s1 m →
        (s1.mustQueue t m.phys = false → Does s t i
          ((s1.teamStore t va m.phys (leBytes n (s.sread t d).toNat)).modTeam t.uid Team.advance)) ∧
        (s1.mustQueue t m.phys = true →
          (s1.hasCredit t.coreId m.phys = true → Does s t i
            (((s1.learnFx t.coreId t.ctx va m.phys).queueReq t m
              (.store (leBytes n (s.sread t d).toNat))).modTeam t.uid fun u =>
                Team.advance { u with outstanding := u.outstanding + 1 })) ∧
          (s1.hasCredit t.coreId m.phys = false → Held s t i))
    (RefusesAccess s t (.st d a b z) (s.sread t a + s.sread t b) n .write [0, 1, 3] ∧
      store (.st d a b z) (s.sread t a + s.sread t b)) ∧
    RefusesAccess s t (.stl d a b z) (s.sread t a) n .write [0, 1, 3] ∧
    (s.fenceHolds t b.toNat = true → store (.stl d a b z) (s.sread t a)) ∧
    (s.fenceHolds t b.toNat = false → ∀ s1 m, Reaches s t (s.sread t a) n .write [0, 1, 3] s1 m →
      Held s t (.stl d a b z))

/-- Table 8.3: the atomics with the value that each writes over the old one at n bytes, from b and the old s[D];
none for an ATCAS whose comparison fails. -/
def Sys2Proof.Machine.table83 : List ((Field → Field → Field → BitVec 1 → Instr) × Nat ×
    (Nat → Nat → Nat → Nat → Option Nat)) :=
  [(.atadd, 0, fun w old b _ => some ((old + b) % 2 ^ w)),
   (.atmin, 1, fun w old b _ => some (if sx w b < sx w old then b else old)),
   (.atmax, 2, fun w old b _ => some (if sx w old < sx w b then b else old)),
   (.atminn, 3, fun _ old b _ => some (min old b)), (.atmaxn, 4, fun _ old b _ => some (max old b)),
   (.atand, 5, fun _ old b _ => some (old &&& b)), (.ator, 6, fun _ old b _ => some (old ||| b)),
   (.atxor, 7, fun _ old b _ => some (old ^^^ b)), (.atxch, 8, fun _ _ b _ => some b),
   (.atcas, 9, fun _ old b c => if old = c then some b else none)]

/-- The atomics complete: s[D] receives the word that the one order point found, and the word becomes what
Table 8.3 says; at the home, under the core's write lease, which an NC mapping excludes, or queued at its home,
where its reservations are free, and held while they are not (R196, R197, R326). -/
def Obligations.ScalarAtomics : Prop :=
  (∀ p ∈ table83, ∀ (n old b c : Nat), n = 4 ∨ n = 8 → old < 2 ^ (8 * n) → b < 2 ^ (8 * n) →
    atomicNew p.2.1 n old b c = p.2.2 (8 * n) old b c) ∧
  ∀ p ∈ table83, ∀ (s : State) (t : Team) (d a b : Field) (z : BitVec 1),
    let i := p.1 d a b z
    let n := if z = 0#1 then 8 else 4
    let va := s.sread t a
    let x := (s.sread t b).toNat % 2 ^ (8 * n)
    let c := (t.sreg d).toNat % 2 ^ (8 * n)
    RefusesAccess s t i va n .both [0, 1, 3] ∧
    ∀ s1 m, ReachesStore s t va n .both [0, 1, 3] s1 m →
      let s2 := s1.learnFx t.coreId t.ctx va m.phys
      (s2.mustQueue t m.phys = false → s2.poisoned m.phys = false →
        let leased := (s2.ownLease? t.coreId m.phys.unit (lineOf m.phys.addr)).isSome
        let s3 := if s2.runsAtHome t.coreId m.phys m.nc || leased then s2
          else s2.grantLease t.coreId m.phys.unit (lineOf m.phys.addr)
        let r := s3.atomicAt t.coreId m.phys m.nc p.2.1 n x c
        Does s t i ((r.1.joinGwct t.uid r.2.2).modTeam t.uid fun u =>
          (u.setD d (BitVec.ofNat 64 r.2.1)).advance)) ∧
      (s2.mustQueue t m.phys = true →
        (s2.hasCredit t.coreId m.phys = true → Does s t i
          ((s2.queueReq t m (.atomic p.2.1 n (BitVec.ofNat 64 x) (BitVec.ofNat 64 c) d.toNat)).modTeam t.uid
            fun u => { u.advance with pend := some (.atomic d.toNat n m.phys) })) ∧
        (s2.hasCredit t.coreId m.phys = false → Held s t i))

/-- FENCE completes once the conditions of its scope hold and is held until then; LINV completes where no read of a
page table stops it: it does nothing for 0 bytes, ends every lease of the core beyond 2 MiB, read and write leases
and those of replies on their way among them, and changes no memory (R198, R199, R185, R183). -/
def Sys2Proof.Machine.FenceAndLinv : Prop :=
  ∀ (s : State) (t : Team) (k a b : Field),
    (s.fenceHolds t k.toNat = true → Does s t (.fence k) (s.putTeam t.advance)) ∧
    (s.fenceHolds t k.toNat = false → Held s t (.fence k)) ∧
    ((s.sread t b).toNat = 0 → Does s t (.linv a b) (s.modTeam t.uid Team.advance)) ∧
    (2097152 < (s.sread t b).toNat → Issues s t (.linv a b) → Completes s (.linv a b) fun r u =>
      u.pc = t.advance.pc ∧ (r.core t.coreId).l1 = [] ∧
      (∀ d, ∀ w ∈ (r.die d).wleases, w.core ≠ t.coreId) ∧
      (∀ q ∈ (r.core t.coreId).replies, q.loc.space = .gddr → q.fills = false) ∧ ∀ p n, r.peek p n = s.peek p n) ∧
    ∀ r, (s.sread t b).toNat ≤ 2097152 → 0 < (s.sread t b).toNat →
      let pages := (List.range 34).map fun k => (s.sread t a).toNat / 65536 + k
      s.eachPage t (s.sread t a).toNat (s.sread t b).toNat (fun r p n => r.endLeases t.coreId p n) pages = .ok r →
      Does s t (.linv a b) (r.modTeam t.uid Team.advance) ∧
      (s.die0.bins = [] → s.die1.bins = [] → ∀ p n, r.peek p n = s.peek p n)

/-- Ending a core's leases on some bytes: no line that holds one of them stays in the core's L1, under its write
lease, or on its way into the L1; every other line does (R185, R199). -/
def Sys2Proof.Machine.LeasesEnd : Prop :=
  ∀ (s : State) (core : Nat) (p : Phys) (n : Nat), p.space = .gddr →
    let r := s.endLeases core p n
    let meets := fun (d line : Nat) => d = p.unit ∧ p.addr < line + 128 ∧ line < p.addr + n
    (∀ l, l ∈ (r.core core).l1 ↔ l ∈ (s.core core).l1 ∧ ¬meets l.die l.line) ∧
    (∀ d < 2, ∀ w, w ∈ (r.die d).wleases ↔ w ∈ (s.die d).wleases ∧ ¬(w.core = core ∧ meets d w.line)) ∧
    ∀ q ∈ (r.core core).replies, q.loc.space = .gddr → meets q.loc.unit (lineOf q.loc.addr) → q.fills = false

/-- ST, STL, FENCE and LINV complete, and what LINV ends (R183, R184, R185, R195, R198, R199). -/
def Obligations.StoresAndFences : Prop := ScalarStores ∧ FenceAndLinv ∧ LeasesEnd

/-- A load that no lease serves, and every load through an NC mapping, reads what the home holds once the line's
pending pairs are applied; another load under a usable lease reads the leased copy (R177, R195). -/
def Sys2Proof.Machine.LoadsReadTheirHome : Prop :=
  ∀ (s : State) (t : Team) (m : Mapped) (n : Nat),
    s.poisoned m.phys = false → m.phys.addr % 128 + n ≤ 128 →
    let line := lineOf m.phys.addr
    (m.phys.space = .gddr →
      (m.nc = true ∨ s.leased? t.coreId m.phys.unit line = none → ∃ s', s.teamLoad t m n =
        .ok (s', s'.peek m.phys n) ∧
        (m.nc = true ∨ s.ownLease? t.coreId m.phys.unit line = none →
          s'.peek m.phys n = ((s.recallLine t.coreId m.phys.unit line).applyLine m.phys.unit line).peek m.phys n)) ∧
      ∀ l, m.nc = false → s.leased? t.coreId m.phys.unit line = some l →
        s.teamLoad t m n = .ok (s, l.data.read m.phys.addr n)) ∧
    (m.phys.space = .dsm → ∃ s', s.teamLoad t m n = .ok (s', s.peek m.phys n) ∧ ∀ q k, s'.peek q k = s.peek q k)

/-- A store to a line that is in no FXADD region leaves its bytes at its address, and every other byte of the
die as the line's pending pairs leave it, which are applied first; its GWCT is the later of the home's TIME and
EXP of the line. A store to DSM leaves every other byte as it was; beyond the DSM's size it leaves every byte
(R22, R177, R178, R231). -/
def Sys2Proof.Machine.StoresReachTheirHome : Prop :=
  ∀ (s : State) (core d a : Nat) (bytes : List Byte),
    (let applied := (s.reachHome core d (lineOf a)).applyLine d (lineOf a)
     (s.homeStore core d a bytes).2 = max ((s.homeStore core d a bytes).1.homeTime d (lineOf a))
       (((s.homeStore core d a bytes).1.die d).lineExp (lineOf a)) ∧
     (applied.memWf = true → (applied.die d).fxLines.find? (fun p => p.1 == lineOf a) = none →
       let r := (s.homeStore core d a bytes).1
       (∀ k, (h : k < bytes.length) → (r.die d).mem.byte (a + k) = bytes[k]) ∧
       (∀ x, (x < a ∨ a + bytes.length ≤ x) → (r.die d).mem.byte x = (applied.die d).mem.byte x) ∧
       (r.die d).dsm = (applied.die d).dsm)) ∧
    ((s.die d).dsmSize < a + bytes.length → ((s.dsmStore d a bytes).1.die d).dsm = (s.die d).dsm) ∧
    (s.memWf = true → a + bytes.length ≤ (s.die d).dsmSize →
      let r := (s.dsmStore d a bytes).1
      (∀ k, (h : k < bytes.length) → (r.die d).dsm.byte (a + k) = bytes[k]) ∧
      (∀ x, (x < a ∨ a + bytes.length ≤ x) → (r.die d).dsm.byte x = (s.die d).dsm.byte x) ∧
      (r.die d).mem = (s.die d).mem)

/-- A fill of class k in its set of the shared cache: with MAXk ways held, k's least recently used line leaves;
else a free way is taken; else the least recently used line leaves among the classes above their minimum; else
nothing is filled. A hit makes its line the most recently used. No value changes, and no line's EXP falls (R176,
R188; the set index and the class of a line that is hit are the model's, log entry 46). -/
def Sys2Proof.Machine.CacheFills : Prop :=
  ∀ (d : Die) (line k : Nat),
    let set := d.cache.filter fun l => cacheSet l.line == cacheSet line
    let mine := set.filter fun l => l.cls == k
    let most := wordBits d.regs.closq (4 * k) 4
    let above := set.filter fun l => decide (d.closMin l.cls < (set.filter fun x => x.cls == l.cls).length)
    let r := d.touch line k
    let fills := fun (out : List CacheLine) => match out.getLast? with
      | some v => r.cache = { line := line, cls := k } :: d.cache.filter fun l => l.line != v.line
      | none => r = d
    (∀ l, d.cache.find? (fun l => l.line == line) = some l →
      r.cache = l :: d.cache.filter fun l => l.line != line) ∧
    (d.caches line = false →
      (most ≤ mine.length → fills mine) ∧
      (mine.length < most → set.length < 16 - d.poolw - d.trlw - d.dsmw →
        r.cache = { line := line, cls := k } :: d.cache) ∧
      (mine.length < most → 16 - d.poolw - d.trlw - d.dsmw ≤ set.length → fills above)) ∧
    r.mem = d.mem ∧ ∀ x, d.lineExp x ≤ r.lineExp x

/-- What loads read at their home, what stores leave there, and what fills the shared cache (R176 to R178, R188,
R231). -/
def Obligations.HomesHoldTheBytes : Prop := LoadsReadTheirHome ∧ StoresReachTheirHome ∧ CacheFills

/-! ### Row 0x9: vector memory and the scratchpad -/

/-- The vector loads complete: every guarded lane whose word is resident holds it, a resident page is reported
by keeping the lane's bit of mB and an absent one by clearing it, and the register is written as R200 says
(R171, R200, R201); RUN_OVERFLOW where the run slots do not suffice (R63). That the trap of a misaligned stride
carries the stride in TADDR is the model's reading (log entry 38). -/
def Obligations.VectorLoads : Prop :=
  ∀ (s : State) (t : Team) (d a b : Field) (c : BitVec 1),
    let writes := fun (i : Instr) (s2 : State) (v : VReg) (es : List Element) =>
      let occ := s2.occupancyAfter t [(d.toNat, v)]
      (occ ≤ 256 * t.budget →
        Does s t i (s2.putTeam (({ t with vregs := t.vregs.set d.toNat v }).clearAbsent b es).advance)) ∧
      (256 * t.budget < occ →
        Traps s t i { code := 3, tinfo := BitVec.ofNat 64 (2 ^ 32 * occ + 256 * t.budget) })
    let asked := fun (v : VReg) => if c = 1#1 then v.coalesce else v
    let loads := fun (i : Instr) (addr : Nat → Word) => ∀ s1 es s2 ws,
      s.mapLanes t .read addr (t.guarded t.ident.elanes) = .ok (s1, es) →
      let present := es.filter (fun e => e.at_.resident)
      s1.needElements t present = .ok () → s1.loadElements t present = .ok (s2, ws) →
      let v := asked (t.loadedRuns d t.guard [] fun n => lookup 0#32 n ws)
      writes i s2 v es
    loads (.vld d a b c) (fun n => s.sread t a + BitVec.ofNat 64 (4 * n)) ∧
    (let stride := t.getS (a.toNat + 1)
     (stride.toNat % 4 = 0 → loads (.vlds d a b c) fun n => s.sread t a + BitVec.ofNat 64 n * stride) ∧
     (stride.toNat % 4 ≠ 0 → Traps s t (.vlds d a b c) { code := 5, taddr := stride })) ∧
    ∀ s1 es s2 ws, let lanes := t.guarded t.ident.elanes
      s.mapLanes t .read (fun _ => s.sread t a) (lanes.take 1) = .ok (s1, es) →
      let present := es.filter (fun e => e.at_.resident)
      s1.needElements t present = .ok () → s1.loadElements t present = .ok (s2, ws) →
      let v := asked (t.loadedRuns d t.guard [] fun _ => (ws.map Prod.snd).headD 0#32)
      writes (.vldb d a b c) s2 v (es.flatMap fun (e : Element) => lanes.map fun n => { e with lane := n })

/-- The vector stores complete: the words of vD's guarded lanes go to their resident elements, lowest lane first,
and mB reports the absent ones (R171, R201). PREQ completes: a count of 0 does nothing, a full ring holds it, and
else the request stands at the ring's tail and vector 1 is raised (R203). That the trap of a misaligned stride
carries the stride in TADDR is the model's reading (log entry 38). -/
def Obligations.VectorStoresAndPageRequests : Prop :=
  ∀ (s : State) (t : Team) (d a b : Field),
    let stores := fun (i : Instr) (addr : Nat → Word) => ∀ s1 es,
      s.mapLanes t .write addr (t.guarded (t.vread d).len) = .ok (s1, es) →
      let present := es.filter (fun e => e.at_.resident)
      s1.needElements t present = .ok () →
      (∀ e ∈ present, s1.needRegions t.coreId t.ctx e.at_.phys = .ok ()) →
      Does s t i ((s1.storeElements t (t.vread d) present).modTeam t.uid fun u => (u.clearAbsent b es).advance)
    stores (.vst d a b) (fun n => s.sread t a + BitVec.ofNat 64 (4 * n)) ∧
    (let stride := t.getS (a.toNat + 1)
     (stride.toNat % 4 = 0 → stores (.vsts d a b) fun n => s.sread t a + BitVec.ofNat 64 n * stride) ∧
     (stride.toNat % 4 ≠ 0 → Traps s t (.vsts d a b) { code := 5, taddr := stride })) ∧
    ∀ c, s.ctx? t.ctx = some c →
      let base := c.prbase.toNat
      let size := 2 ^ c.prlog2n
      let head := s.host.mem.read base 4
      let tail := s.host.mem.read (base + 4) 4
      let n := (s.sread t b).toNat
      let full := (tail + 2 ^ 32 - head) % 2 ^ 32 = size
      (n = 0 → Does s t (.preq d a b) (s.putTeam t.advance)) ∧
      (n ≠ 0 → full → Held s t (.preq d a b)) ∧
      (n ≠ 0 → ¬full → s.host.mem.wf = true → Issues s t (.preq d a b) →
        Completes s (.preq d a b) fun r u => r.host.msix = s.host.msix ++ [1] ∧ u.pc = t.advance.pc ∧
          r.host.mem.read (base + 4) 4 = (tail + 1) % 2 ^ 32 ∧
          r.host.mem.read (base + 64 + 32 * (tail % size)) 8 = (s.sread t a).toNat / 65536 * 65536)

/-- A scratchpad access: MISALIGNED at an offset that is no multiple of its size, SCR_RANGE at one at or beyond
SCRSIZE (R166, R356). -/
def Sys2Proof.Machine.RefusesOffset (s : State) (t : Team) (i : Instr) (o : Word) (n : Nat) : Prop :=
  (o.toNat % n ≠ 0 → Traps s t i { code := 5, taddr := o }) ∧
  (o.toNat % n = 0 → 4096 * t.ident.scrG ≤ o.toNat → Traps s t i { code := 10, taddr := o })

/-- The scratchpad loads and stores complete at aligned offsets below SCRSIZE: SLD and SST move one word, SGATH,
SLDT and SSCAT one word per guarded lane at the offsets of R206 and R207, a higher lane's store winning (R204 to
R207). A load of an uncorrectable word halts its context, and a store makes the words that it writes sound (R365).
That the trap of SLDT's misaligned stride carries the stride in TADDR is the model's reading (log entry 38). -/
def Obligations.ScratchpadAccess : Prop :=
  ∀ (s : State) (t : Team) (d a b : Field) (c : BitVec 1),
    let size := 4096 * t.ident.scrG
    let at_ := fun (o : Nat) => (s.core t.coreId).scratch.read (t.ident.scrBase + o) 4
    let put := fun (m : Memory) (o : Nat) (w : W32) => m.write (t.ident.scrBase + o) 4 w.toNat
    let bad := fun (o : Nat) => (s.core t.coreId).badAt (t.ident.scrBase + o) 4
    let o := s.sread t a + s.sread t b
    let asked := fun (v : VReg) => if c = 1#1 then v.coalesce else v
    let x := t.vread a
    let gathers := fun (i : Instr) (xs : List VReg) (lanes : List Nat) (off : Nat → Word) =>
      (∀ n ∈ lanes, (off n).toNat % 4 = 0 ∧ (off n).toNat < size ∧ bad (off n).toNat = false) →
        WritesV s t i d (asked (t.loadedRuns d (lanesMask lanes) xs
          fun n => BitVec.ofNat 32 (at_ (off n).toNat)))
    RefusesOffset s t (.sld d a b) o 4 ∧ RefusesOffset s t (.sst d a b) o 4 ∧
    (o.toNat % 4 = 0 → o.toNat < size →
      (bad o.toNat = false →
        Does s t (.sld d a b) (s.putTeam (t.setD d (BitVec.ofNat 64 (at_ o.toNat))).advance)) ∧
      (bad o.toNat = true → Issues s t (.sld d a b) → Completes s (.sld d a b) fun r u =>
        u = t ∧ ∃ c, r.ctx? t.ctx = some c ∧ c.halted = true) ∧
      Does s t (.sst d a b) ((s.modCore t.coreId fun k =>
        { k with scratch := put k.scratch o.toNat ((s.sread t d).setWidth 32),
                 badScratch := k.badScratch.filter fun w => decide (w ≠ t.ident.scrBase + o.toNat) }).putTeam
          t.advance)) ∧
    gathers (.sgath d a b c) [x] (t.guarded x.len) (fun n => s.sread t b + (x.lane n).setWidth 64) ∧
    ((s.sread t a).toNat % 4 ≠ 0 → Traps s t (.sldt d a b c) { code := 5, taddr := s.sread t a }) ∧
    ((s.sread t a).toNat % 4 = 0 → (s.sread t b).toNat % 4 ≠ 0 →
      Traps s t (.sldt d a b c) { code := 5, taddr := s.sread t b }) ∧
    ((s.sread t a).toNat % 4 = 0 → (s.sread t b).toNat % 4 = 0 → gathers (.sldt d a b c) [] (t.guarded t.ident.elanes) fun n =>
      s.sread t a + BitVec.ofNat 64 (n % 16) * s.sread t b + BitVec.ofNat 64 (4 * (n / 16))) ∧
    (let off := fun n => (s.sread t b + (x.lane n).setWidth 64).toNat
     (∀ n ∈ t.guarded x.len, off n % 4 = 0 ∧ off n < size) → Issues s t (.sscat d a b) →
       Completes s (.sscat d a b) fun r u => u.pc = t.advance.pc ∧ (r.core t.coreId).scratch =
         (t.guarded x.len).foldl (fun m n => put m (off n) ((t.vread d).lane n)) (s.core t.coreId).scratch)

/-- Run images complete: RSAVE and SSTC write the image of vA and leave its size in s[D], RLOAD and SLDC read an
image into vD, and an invalid image raises OPERAND_VALUE with the A field (R65, R155, R208, R381). -/
def Sys2Proof.Machine.RunImages : Prop :=
  ∀ (s : State) (t : Team) (d a b : Field) (c : BitVec 1),
    let image := (t.vread a).image
    let size := BitVec.ofNat 64 image.length
    let asked := fun (v : VReg) => if c = 1#1 then v.coalesce else v
    (∀ s1 ps, (s.sread t b).toNat % 8 = 0 →
      s.mapParts t .write [0, 1] (partsOf (s.sread t b) image.length) = .ok (s1, ps) →
      s1.needParts t ps = .ok () → (∀ q ∈ ps, s1.needRegions t.coreId t.ctx q.2.2.phys = .ok ()) →
      Does s t (.rsave d a b) ((s1.storeParts t ps image).modTeam t.uid fun u => (u.setD d size).advance)) ∧
    ((s.sread t b).toNat % 8 = 0 → (s.sread t b).toNat + image.length ≤ t.scrSize →
      Does s t (.sstc d a b) ((s.modCore t.coreId fun k =>
        let at_ := t.ident.scrBase + (s.sread t b).toNat
        { k with scratch := k.scratch.setBytes at_ image,
                 badScratch := k.badScratch.filter fun w =>
                   !(decide (at_ ≤ w) && decide (w + 4 ≤ at_ + image.length)) }).putTeam (t.setD d size).advance)) ∧
    (∀ v : VReg, v.len ≤ t.ident.elanes → (∀ q ∈ v, 0 < q.cnt) → v.len ≤ 1024 →
      let o := (s.sread t a).toNat
      o % 8 = 0 → o + v.image.length ≤ t.scrSize →
      (s.core t.coreId).badAt (t.ident.scrBase + o) v.image.length = false →
      (s.core t.coreId).scratch.bytes (t.ident.scrBase + o) v.image.length = v.image →
      WritesV s t (.sldc d a c) d (asked v)) ∧
    (let h := (s.core t.coreId).scratch.read (t.ident.scrBase + (s.sread t a).toNat) 8
     (s.sread t a).toNat % 8 = 0 → (s.sread t a).toNat < t.scrSize →
       (s.core t.coreId).badAt (t.ident.scrBase + (s.sread t a).toNat) 8 = false →
       headerValid h t.ident.elanes = false →
       Traps s t (.sldc d a c) { code := 11, field := a.toNat, tinfo := s.sread t a }) ∧
    ∀ s1 hp s2 hb s3 ps s4 bs, (s.sread t a).toNat % 8 = 0 →
      s.mapParts t .read [0, 1] (partsOf (s.sread t a) 8) = .ok (s1, hp) → s1.needParts t hp = .ok () →
      s1.loadParts t hp = .ok (s2, hb) → headerValid (leNat hb) t.ident.elanes = true →
      let n := bitsOf (leNat hb) 16 11
      s2.mapParts t .read [0, 1] (partsOf (s.sread t a + 8#64) (8 * n)) = .ok (s3, ps) →
      s3.needParts t ps = .ok () → s3.loadParts t ps = .ok (s4, bs) →
      entriesValid (leNat hb) (wordsOf n bs) = true →
      let v := asked (imageRuns (wordsOf n bs))
      s4.occupancyAfter t [(d.toNat, v)] ≤ 256 * t.budget →
      Does s t (.rload d a c) (s4.putTeam ({ t with vregs := t.vregs.set d.toNat v }).advance)

/-- CLDS and CSTS complete their issue: the request goes to the core that holds the rank, and the team issues
nothing until the reply; a rank or an offset out of range traps (R166, R209, R404). -/
def Sys2Proof.Machine.PeerAccesses : Prop :=
  ∀ (s : State) (t : Team) (d a b : Field),
    let r := (s.sread t a).toNat
    let o := s.sread t b
    let size := t.ident.clw * t.ident.clh
    let target := rankCore t.coreId t.ident.clw t.ident.rank r
    let sends := fun (i : Instr) (dest : Option Nat) (write : Option W32) =>
      (o.toNat % 4 ≠ 0 → Traps s t i { code := 5, taddr := o }) ∧
      (o.toNat % 4 = 0 → size ≤ r ∨ 4096 * t.ident.scrG ≤ o.toNat →
        Traps s t i { code := 10, taddr := o, tinfo := BitVec.ofNat 64 (r % 16) }) ∧
      (o.toNat % 4 = 0 → r < size → o.toNat < 4096 * t.ident.scrG → Issues s t i →
        Completes s i fun s' u =>
          (s'.core target).inbound = (s.core target).inbound ++
            [{ uid := t.uid, ctx := t.ctx, cluster := t.ident.teamid / size, rank := r, offset := o.toNat,
               write := write, since := s.time t.ident.die, task := t.ident.taskAt,
               wave := if t.ident.isWave then some t.uid else none, back := t.coreId }] ∧
          u.pend = some (.peer dest r o.toNat target (s.time t.ident.die)) ∧ u.pc = t.pc ∧
          s'.canIssue u = false)
    sends (.clds d a b) (some d.toNat) none ∧ sends (.csts d a b) none (some ((s.sread t d).setWidth 32))

/-- RSAVE, RLOAD, SSTC, SLDC, CLDS and CSTS complete (R65, R155, R166, R208, R209, R381, R404). -/
def Obligations.ImagesAndPeers : Prop := RunImages ∧ PeerAccesses


/-! ### Row 0xA: streams, task counters, completion counters, barriers, DSM -/

/-- UPD and UPDS complete: their pairs, one per guarded lane in ascending order, enter the stream buffer or are
dropped with a record, and a buffer without room for them holds the instruction; UFLUSH is held while pairs of
its scheduler are on their way, an empty range then does nothing, and no bin of a line of a page that it has
applied remains (R210 to R212, R401; that it waits for every pair of its scheduler, and which pages it reads, is
the model's reading, log entries 33 and 47). -/
def Sys2Proof.Machine.UpdateStreams : Prop :=
  ∀ (s : State) (t : Team) (d a b : Field),
    let base := s.sread t a
    let x := t.vread d
    let sends := fun (i : Instr) (lanes : List Nat) (index : Nat → Nat) =>
      let ps : List Emitted := lanes.map fun n =>
        { va := base + BitVec.ofNat 64 (4 * index n), val := x.lane n, ray := none }
      (base.toNat % 4 ≠ 0 → Traps s t i { code := 5, taddr := base }) ∧
      (base.toNat % 4 = 0 → 1024 < (s.streamOf t).length + lanes.length → Held s t i) ∧
      (base.toNat % 4 = 0 → (s.streamOf t).length + lanes.length ≤ 1024 →
        ∀ s1 es s2 pairs drops, s.regionsOf t.coreId t.ctx = .ok (s1, es) →
          s1.pairFates t es ps = .ok (s2, pairs, drops) →
          let s3 := [64, 65, 66, 67].foldl (fun (r : State) c => r.reportDrops t drops c) s2
          let n := t.ident.sched
          Does s t i ((s3.modCore t.coreId fun k => { k with
            streams := insertAt n (s3.streamOf t ++ pairs) k.streams,
            streamSince := if s3.streamOf t = [] then insertAt n (s3.time t.ident.die) k.streamSince
                           else k.streamSince }).putTeam t.advance))
    sends (.upd d a b) (t.guarded (t.vread b).len) (fun n => ((t.vread b).lane n).toNat) ∧
    sends (.upds d a) (t.guarded x.len) (fun n => n) ∧
    (s.streaming t = true → Held s t (.uflush a b)) ∧
    (s.streaming t = false → (s.sread t b).toNat = 0 →
      Does s t (.uflush a b) (s.modTeam t.uid Team.advance)) ∧
    (∀ r, s.streaming t = false → (s.sread t b).toNat ≠ 0 →
      let va := (s.sread t a).toNat
      let n := (s.sread t b).toNat
      s.eachPage t va n (fun r p k => r.applyRange t p k) (s.pagesMeeting t va n) = .ok r →
      Does s t (.uflush a b) (r.modTeam t.uid Team.advance)) ∧
    ∀ (p : Phys) (n : Nat), p.space = .gddr → ∀ x ∈ ((s.applyRange t p n).die p.unit).bins,
      ¬(p.addr < x.line + 128 ∧ x.line < p.addr + n)

/-- The fate of a pair: dropped with code 64 where no region entry covers its address, 65 where the
lowest-numbered covering entry is malformed, 66 where its translation traps, 67 on an absent page; else it goes
to its home under that entry's operator (R222, Table 21.3; that a pair needs RD as well as W is the model's reading
of R193, log entry 53). -/
def Sys2Proof.Machine.PairFates : Prop :=
  ∀ (s s' : State) (t : Team) (es : List RegionEntry) (e : Emitted) (m : Mapped) (x : Trap),
    (coveringEntry e.va 0 es = none → s.pairFate t es e = .ok (s, .inr { code := 64, va := e.va, extra := 0 })) ∧
    ∀ i r, coveringEntry e.va 0 es = some (i, r) →
      (es[i]? = some r ∧ r.covers e.va = true ∧ ∀ j < i, ∀ q, es[j]? = some q → q.covers e.va = false) ∧
      (r.malformed = true → s.pairFate t es e = .ok (s, .inr { code := 65, va := e.va, extra := i })) ∧
      (r.malformed = false →
        (s.translate t.walker e.va .both [0, 1] = .error (.trap x) →
          s.pairFate t es e = .ok (s, .inr { code := 66, va := e.va, extra := x.code })) ∧
        (s.translate t.walker e.va .both [0, 1] = .ok (s', m) →
          (m.resident = false → s.pairFate t es e = .ok (s', .inr { code := 67, va := e.va, extra := 0 })) ∧
          (m.resident = true → ∃ p, s.pairFate t es e = .ok (s', .inl p) ∧
            p.uid = t.uid ∧ p.addr = m.phys.addr ∧ p.die = m.phys.unit ∧ p.op = r.op ∧ p.val = e.val)))

/-- UPD, UPDS and UFLUSH complete, and what becomes of a pair (R210 to R212, R222, R401). -/
def Obligations.UpdatePairs : Prop := UpdateStreams ∧ PairFates

/-- TDEC, TINC and TSPAWN complete: once the conditions of scope PAIR hold the operation is on its way to the
record's home, and until then they are held (R213, R183; that they translate as a load and a store is the model's
reading, log entry 29). -/
def Sys2Proof.Machine.TaskOperations : Prop :=
  ∀ (s : State) (t : Team) (a : Field), ∀ p ∈ [(Instr.tdec a, DepKind.dec), (.tinc a, .inc), (.tspawn a, .spawn)],
    let va := s.sread t a
    (va.toNat % 64 ≠ 0 → Traps s t p.1 { code := 5, taddr := va }) ∧
    (∀ r, va.toNat % 64 = 0 → s.translateResident t.walker va .both [0, 1] = .error (.trap r) → Traps s t p.1 r) ∧
    ∀ s1 m, va.toNat % 64 = 0 → s.translateResident t.walker va .both [0, 1] = .ok (s1, m) →
      (s1.fenceHolds t 3 = false → Held s t p.1) ∧
      (s1.fenceHolds t 3 = true →
        let op : DepOp := { kind := p.2, loc := m.phys, va := va, ctx := t.ctx, core := t.coreId,
                            checked := true, host := false }
        Does s t p.1 (({ s1 with depQ := s1.depQ ++ [op] } : State).putTeam t.advance))

/-- CSET, CADD and CGET complete: the counter that sread(A)[7:0] names is written, added to modulo 2^32, or
read; the writes are held until the conditions of scope CORE hold (R215). -/
def Sys2Proof.Machine.CompletionCounters : Prop :=
  ∀ (s : State) (t : Team) (d a b : Field),
    let k := (s.sread t a).toNat % 256
    let v := (s.sread t b).setWidth 32
    (s.fenceHolds t 0 = false → Held s t (.cset a b) ∧ Held s t (.cadd a b)) ∧
    (s.fenceHolds t 0 = true →
      (Issues s t (.cset a b) → Completes s (.cset a b) fun r u =>
        r.counter t.coreId k = v ∧ u.pc = t.advance.pc ∧ r.die0 = s.die0) ∧
      (Issues s t (.cadd a b) → Completes s (.cadd a b) fun r u =>
        r.counter t.coreId k = s.counter t.coreId k + v ∧ u.pc = t.advance.pc ∧ r.die0 = s.die0)) ∧
    Does s t (.cget d a) (s.putTeam (t.setD d ((s.counter t.coreId k).setWidth 64)).advance)

/-- TDEC, TINC, TSPAWN, CSET, CADD and CGET complete (R183, R213, R215). -/
def Obligations.CountersComplete : Prop := TaskOperations ∧ CompletionCounters

/-- CBAR completes: in modes 0 and 1 it counts its arrival at the word's home, s[D] receives the GEN found, and
mode 0 then waits while GEN is still that; a busy home queues the arrival where its reservations are free; in mode 2
the team goes on where GEN differs from s[D] and waits where it is equal; a mode of 3 or a reserved bit raises
OPERAND_VALUE (R216, R326, Table 8.8; the kinds of its translations are the model's reading, log entry 29). -/
def Sys2Proof.Machine.ClusterBarriers : Prop :=
  ∀ (s : State) (t : Team) (d a b : Field),
    let v := s.sread t b
    let va := s.sread t a
    let mode := v.toNat / 2 ^ 32 % 4
    (mode = 3 ∨ 2 ^ 34 ≤ v.toNat → Traps s t (.cbar d a b) { code := 11, field := b.toNat, tinfo := v }) ∧
    (mode < 3 → v.toNat < 2 ^ 34 → va.toNat % 64 ≠ 0 → Traps s t (.cbar d a b) { code := 5, taddr := va }) ∧
    (v.toNat < 2 ^ 34 → mode < 2 → ∀ s1 m, Reaches s t va 64 .both [0, 1, 3] s1 m →
      let fence := s1.fenceHolds t (if m.phys.unit = t.ident.die then 2 else 3)
      let s2 := s1.learnFx t.coreId t.ctx va m.phys
      (fence = false → Held s t (.cbar d a b)) ∧
      (fence = true → s1.needRegions t.coreId t.ctx m.phys = .ok () → s2.mustQueue t m.phys = true →
        (s2.hasCredit t.coreId m.phys = true → Does s t (.cbar d a b)
          ((s2.queueReq t m (.barrier mode (v.setWidth 32) d.toNat)).putTeam
            { t.advance with pend := some (.barrier d.toNat mode m.phys) })) ∧
        (s2.hasCredit t.coreId m.phys = false → Held s t (.cbar d a b))) ∧
      (fence = true → s1.needRegions t.coreId t.ctx m.phys = .ok () → s2.mustQueue t m.phys = false → s2.poisoned m.phys = false →
        let r := s2.arrive t.coreId m.phys (v.setWidth 32)
        Does s t (.cbar d a b) (((r.1.joinGwct t.uid r.2.2).modTeam t.uid Team.advance).arrived t.uid d.toNat
          mode m.phys r.2.1))) ∧
    (v.toNat < 2 ^ 34 → mode = 2 → ∀ s1 m, Reaches s t va 64 .read [0, 1, 3] s1 m →
      let gen := (t.sreg d).setWidth 32
      (s1.blocked t m.phys = true → HeldAt s t (.cbar d a b) m.phys) ∧
      (s1.blocked t m.phys = false → s1.poisoned m.phys = false →
        let r := if m.phys.space = .gddr then s1.homeRead t.coreId m.phys.unit (lineOf m.phys.addr) false else s1
        let found := r.peek { m.phys with addr := m.phys.addr + 4 } 4
        (found ≠ gen.toNat → Does s t (.cbar d a b) (r.putTeam t.advance)) ∧
        (found = gen.toNat → Does s t (.cbar d a b) (r.putTeam
          { t.advance with wait := some { kind := .barrier m.phys gen, fired := false } }))))

/-- An arrival at a barrier word in DSM: the count goes up by one, and an arrival that reaches the target starts
the next generation with a count of 0 (R216, Table 8.8). The team's s[D] receives the GEN found, and in mode 0
the team waits exactly while GEN is still that. -/
def Sys2Proof.Machine.BarrierArrivals : Prop :=
  (∀ (s : State) (t : Team) (d mode : Nat) (p : Phys) (gen : W32), s.team? t.uid = some t → d < 64 →
    let still := s.peek { p with addr := p.addr + 4 } 4 = gen.toNat
    let u := t.setS d (gen.setWidth 64)
    (s.arrived t.uid d mode p gen).team? t.uid = some (if mode = 0 ∧ still then
      { u with wait := some { kind := .barrier p gen, fired := false } } else u)) ∧
  ∀ (s : State) (core : Nat) (p : Phys) (target : W32), p.space = .dsm → s.memWf = true →
    p.addr + 8 ≤ (s.die p.unit).dsmSize →
    let w := s.peek p 8
    let gen := BitVec.ofNat 32 (w / 2 ^ 32)
    let count := BitVec.ofNat 32 w + 1#32
    let r := s.arrive core p target
    r.2.1 = gen ∧
    (target.toNat ≤ count.toNat → r.1.peek p 8 = 2 ^ 32 * (gen + 1#32).toNat) ∧
    (count.toNat < target.toNat → r.1.peek p 8 = 2 ^ 32 * gen.toNat + count.toNat)

/-- CBAR completes, and what an arrival leaves in the barrier word (R216, Table 8.8). -/
def Obligations.Barriers : Prop := ClusterBarriers ∧ BarrierArrivals

/-- DSMOP and DSMRED complete under F32, I32 and N32: DSMOP sends one operation per guarded lane to the bank ALUs,
DSMRED leaves the reduction of consecutive words in s[D]; a reserved operation raises OPERAND_VALUE (R217,
R218). -/
def Obligations.DsmOperations : Prop :=
  ∀ (s : State) (t : Team) (d a b : Field),
    let v := s.sread t b
    let base := s.sread t a
    let x := t.vread d
    NeedsEtype s t (.dsmop d a b) [0, 3, 4] ∧ NeedsEtype s t (.dsmred d a b) [0, 3, 4] ∧
    (t.etype ∈ [0, 3, 4] → 7 ≤ v.toNat →
      Traps s t (.dsmop d a b) { code := 11, field := b.toNat, tinfo := v }) ∧
    (t.etype ∈ [0, 3, 4] → v.toNat < 7 → ∀ s1 ps,
      s.mapDsm t (fun n => base + BitVec.ofNat 64 (4 * n)) (t.guarded x.len) = .ok (s1, ps) →
      s1.needBanks t ps = .ok () →
      Does s t (.dsmop d a b) ((s1.modDie t.ident.die fun k => { k with dsmQ := k.dsmQ ++ ps.map fun p =>
        { uid := t.uid, die := p.2.unit, addr := p.2.addr, op := v.toNat, etype := t.etype, mode := t.mode,
          val := x.lane p.1 } }).putTeam (Team.advance { t with outstanding := t.outstanding + ps.length }))) ∧
    let op := v.toNat / 2 ^ 32
    let n := v.toNat % 2 ^ 32
    (t.etype ∈ [0, 3, 4] → op = 0 ∨ 7 ≤ op →
      Traps s t (.dsmred d a b) { code := 11, field := b.toNat, tinfo := v }) ∧
    (t.etype ∈ [0, 3, 4] → 1 ≤ op → op ≤ 6 → (n = 0 ∨ base.toNat % 4 = 0) → ∀ s1 ps s2 bytes,
      s.mapParts t .read [3] (partsOf base (4 * n)) = .ok (s1, ps) → s1.needParts t ps = .ok () →
      s1.loadParts t ps = .ok (s2, bytes) →
      Does s t (.dsmred d a b) (s2.putTeam (t.setD d
        ((dsmReduce t.etype op t.roundingNoDraw (words32 n bytes)).setWidth 64)).advance))

/-! ### Row 0xB: copies -/

/-- Every copy instruction completes its issue: a record that meets Table 10.4, with its alignments and fixed
ranges, becomes an operation of the core's copy engine, and the team goes on; a full engine of 64 holds it,
and a record that does not raises OPERAND_VALUE (R234, R235, R238). -/
def Obligations.CopyIssue : Prop :=
  ∀ (s : State) (t : Team) (d a b : Field),
    ∀ p ∈ [(Instr.cpy d a b, CopyKind.cpy), (.cpyg d a b, .cpyg), (.cpyx d a b, .cpyx), (.cpyq d a b, .cpyq),
        (.cpyt d a b, .cpyt), (.discard d a b, .discard), (.prefetch d a b, .prefetch), (.cpya d a b, .cpya),
        (.cwalk d a b, .cwalk)],
    let o := s.sread t a
    let h := Shape.ofNat ((s.core t.coreId).scratch.read (t.ident.scrBase + o.toNat) 64)
    let offs := if b = 64#7 then (0#64, 0#64) else (s.sread t b, t.getS (b.toNat + 1))
    let room := (s.core t.coreId).copies.length < 64
    let sound := (s.core t.coreId).badAt (t.ident.scrBase + o.toNat) 64 = false
    (¬room → Held s t p.1) ∧ (room → RefusesOffset s t p.1 o 64) ∧
    (room → o.toNat % 64 = 0 → o.toNat < 4096 * t.ident.scrG → sound →
      (h.ok p.2 = false → Traps s t p.1 { code := 11, field := a.toNat, tinfo := o }) ∧
      (h.ok p.2 = true →
        checkAll (fun q => needAligned q.1 q.2) (h.alignments p.2 (h.src + offs.1) (h.dst + offs.2)) = .ok () →
        checkAll t.needFixed (h.ranges p.2 (h.src + offs.1) (h.dst + offs.2)) = .ok () → Issues s t p.1 →
        Completes s p.1 fun r u => u.pc = t.advance.pc ∧ ∃ op : CopyOp,
          (r.core t.coreId).copies = (s.core t.coreId).copies ++ [op] ∧ op.kind = p.2 ∧ op.shape = h ∧
          op.uid = t.uid ∧ op.id = s.nextUid ∧ op.recAt = o.toNat ∧ op.result = none ∧
          op.srcOff = offs.1 ∧ op.dstOff = offs.2 ∧ op.ctr = (s.sread t d).toNat % 256))

/-! ### Row 0xC: matrix -/

/-- Every matrix instruction with a descriptor, and MZERO, completes its issue: with an owned tile, a valid shape,
aligned offsets and elements within SCRSIZE the operation joins the core's queue; a full queue of 32 holds it, a
tile that is not owned raises ACC_OWN, and a reserved value OPERAND_VALUE (R263, R265 to R267, R272, R278,
R386). -/
def Obligations.MatrixIssue : Prop :=
  ∀ (s : State) (t : Team) (d a b : Field),
    let room := (s.core t.coreId).mats.length < 32
    let owned := t.owns d.toNat = true
    let unowned : Trap := { code := 12, field := d.toNat, tinfo := BitVec.ofNat 64 t.accmap }
    let ws := [t.getS a.toNat, t.getS (a.toNat + 1), t.getS (a.toNat + 2), t.getS (a.toNat + 3)]
    let w2 := t.getS (a.toNat + 2)
    let w3 := t.getS (a.toNat + 3)
    let desc := MatDesc.ofWords ws
    let joins := fun (i : Instr) (o : MatOp) => Does s t i
      ((s.modCore t.coreId fun k => { k with mats := k.mats ++ [o] }).putTeam t.advance)
    let base := fun (k : MatKind) =>
      ({ t.matOp k d.toNat desc.row0 ws with ctr := if desc.cen then some desc.ctr else none } : MatOp)
    (∀ p ∈ [(Instr.mma d a, base .mma), (.mmad d a, base .mmad), (.mlda d a, base .mlda),
        (.msta d a, base .msta), (.mmas d a b, ({ base .mmas with dest := b.toNat } : MatOp)),
        (.mmag d a b, ({ base .mmag with
          idx := (List.range 128).map fun r => (t.vread b).lane (desc.row0 + r) } : MatOp))],
      (¬room → Held s t p.1) ∧ (room → ¬owned → Traps s t p.1 unowned) ∧
      (room → owned → shapeWordValid w2 = false →
        Traps s t p.1 { code := 11, field := a.toNat + 2, tinfo := w2 }) ∧
      (room → owned → shapeWordValid w2 = true → matCtrValid w3 = false →
        Traps s t p.1 { code := 11, field := a.toNat + 3, tinfo := w3 }) ∧
      (room → owned → shapeWordValid w2 = true → matCtrValid w3 = true →
        checkAll (fun q => needAligned q.1 q.2) (desc.alignments p.2.kind) = .ok () →
        p.2.needRange t (s.core t.coreId).scratch = .ok () →
        (p.2.kind = .mmas → (s.core t.coreId).badAt (t.ident.scrBase + desc.maps) desc.mapBytes = false) →
        joins p.1 p.2)) ∧
    (¬room → Held s t (.mzero d a)) ∧ (room → ¬owned → Traps s t (.mzero d a) unowned) ∧
    (room → owned → 1024 ≤ (s.sread t a).toNat →
      Traps s t (.mzero d a) { code := 11, field := a.toNat, tinfo := s.sread t a }) ∧
    (room → owned → (s.sread t a).toNat < 1024 →
      joins (.mzero d a) (t.matOp .mzero d.toNat (s.sread t a).toNat []))

/-- MCFG, MTOV and MALLOC complete: MCFG packs a shape whose numbers lie in their ranges, MTOV moves a column of a
tile into the guarded lanes from ROW0, MALLOC gives back what is not asked for and takes the rest all or none
(R271, R276, R277). -/
def Obligations.TilesAndShapes : Prop :=
  ∀ (s : State) (t : Team) (d a b : Field) (c : BitVec 1),
    let x := (s.sread t a).toNat
    let y := (s.sread t b).toNat
    (let m := x % 2 ^ 16
     let n := x / 2 ^ 16 % 2 ^ 16
     let row0 := x / 2 ^ 32 % 1024
     let k := y % 2 ^ 17
     let fmt := y / 2 ^ 32 % 4
     let fineA := x < 2 ^ 42 ∧ 1 ≤ m ∧ m ≤ 128 ∧ 1 ≤ n ∧ n ≤ (if fmt = 3 then 32 else 64)
     let fineB := y / 2 ^ 17 % 2 ^ 15 = 0 ∧ y < 2 ^ 34 ∧ 1 ≤ k ∧ k ≤ 65536
     (¬fineA → Traps s t (.mcfg d a b) { code := 11, field := a.toNat, tinfo := s.sread t a }) ∧
     (fineA → ¬fineB → Traps s t (.mcfg d a b) { code := 11, field := b.toNat, tinfo := s.sread t b }) ∧
     (fineA → fineB → Does s t (.mcfg d a b) (s.putTeam (t.setD d (BitVec.ofNat 64
       (m - 1 + 2 ^ 8 * (n - 1) + 2 ^ 16 * (k - 1) + 2 ^ 32 * row0 + 2 ^ 42 * fmt))).advance))) ∧
    (let e := t.ident.elanes
     let row0 := y / 2 ^ 16 % 1024
     let fine := y / 2 ^ 6 % 2 ^ 10 = 0 ∧ y < 2 ^ 26
     (t.owns a.toNat = false → Traps s t (.mtov d a b c)
       { code := 12, field := a.toNat, tinfo := BitVec.ofNat 64 t.accmap }) ∧
     (t.owns a.toNat = true → ¬fine →
       Traps s t (.mtov d a b c) { code := 11, field := b.toNat, tinfo := s.sread t b }) ∧
     (t.owns a.toNat = true → fine → e ≤ row0 → Does s t (.mtov d a b c) (s.putTeam t.advance)) ∧
     (t.owns a.toNat = true → fine → row0 < e → ∃ v, WritesV s t (.mtov d a b c) d v ∧
       v.len = max (t.vread d).len (min e (row0 + 128)) ∧ ∀ n < v.len, v.lane n =
         if n < e ∧ t.guard.getLsbD n ∧ row0 ≤ n ∧ n < row0 + 128
         then (t.tile a.toNat).word (64 * (n - row0) + y % 64) else (t.vread d).lane n)) ∧
    (256 ≤ x → Traps s t (.malloc d a) { code := 11, field := a.toNat, tinfo := s.sread t a }) ∧
    (x < 256 → Issues s t (.malloc d a) → Completes s (.malloc d a) fun r u =>
      let kept := t.tiles.filter fun p => x.testBit p.1
      let want := (List.range 8).filter fun k => x.testBit k && !t.owns k
      let room := s.freeTiles t.coreId + (t.tiles.length - kept.length) - s.heldTiles t.coreId
      u.tiles = (if want.length ≤ room then kept ++ want.map (fun k => (k, [])) else kept) ∧
      u.pc = t.advance.pc ∧ r.cores = s.cores)

/-! ### Row 0xD: transforms -/

/-- The transform instructions with a vector destination complete their issue: under their element types and with
an operand in its range they enter the core's pipe, with their run slots reserved where these suffice, else
the team stays at the instruction until its final step; a full pipe of 16 holds them, and XACT without a bound
bank raises OPERAND_VALUE, whose FIELD and TINFO are free values (R252 to R261, R380; log entries 8 and 37). -/
def Sys2Proof.Machine.TransformIssue : Prop :=
  ∀ (s : State) (t : Team) (d a b : Field) (c : BitVec 1),
    let room := (s.core t.coreId).xfs.length < 16
    let l := (t.vread a).len
    let enters := fun (i : Instr) (k : XfKind) (types : List Nat) (field : Nat) (sb : Word) (bound : Bool) =>
      (¬room → Held s t i) ∧ (room → NeedsEtype s t i types) ∧
      (room → t.etype ∈ types → transformOperand k sb l = false →
        Traps s t i { code := 11, field := field, tinfo := sb }) ∧
      (room → t.etype ∈ types → transformOperand k sb l = true → bound = true →
        let o : XfOp := { t.xfOp t.uid k d.toNat a.toNat c sb with bank := (s.bindingOf t).getD 2 }
        let need := (resultLengths k t.etype sb l).sum
        let had := (o.dests.map fun n => (t.vregs.getD n []).length).sum
        (need ≤ 256 * t.budget - s.occupancy t + had → Does s t i
          ((s.modCore t.coreId fun q => { q with xfs := q.xfs ++ [{ o with reserved := some (need - had) }] }).putTeam
            t.advance)) ∧
        (256 * t.budget - s.occupancy t + had < need → Does s t i
          (s.modCore t.coreId fun q => { q with xfs := q.xfs ++ [{ o with reserved := none }] })))
    enters (.xhad d a b c) .xhad [0] b.toNat (s.sread t b) true ∧
    enters (.xqnt d a b c) .xqnt [7, 8, 9, 10, 11, 12] b.toNat (s.sread t b) true ∧
    enters (.xact d a c) .xact [0, 1, 2] 0 0#64 (s.bindingOf t).isSome ∧
    enters (.xtopk d a b c) .xtopk [0, 3, 4] b.toNat (s.sread t b) true ∧
    enters (.xtrn d a b c) .xtrn etypesNum b.toNat (s.sread t b) true ∧
    enters (.xsort d a b c) .xsort [0, 3, 4] b.toNat (s.sread t b) true ∧
    (room → t.etype ∈ [0, 1, 2] → s.bindingOf t = none → Issues s t (.xact d a c) →
      exec (.xact d a c) s = .next (s.takeStop t (.trapOpen { code := 11 })))

/-- XTLD and XTBIND complete their issue: a load of a bank that no team is bound to and a binding to a bank that is
not loading enter the pipe; a binding to a loading bank is held; XTLD of a bank that another team is bound to waits
at its own address, and of the team's own bank it raises OPERAND_VALUE, whose FIELD and TINFO are free values (R258,
R386; log entries 8 and 37). -/
def Sys2Proof.Machine.TableBanks : Prop :=
  ∀ (s : State) (t : Team) (a k : Field),
    let room := (s.core t.coreId).xfs.length < 16
    let o := s.sread t a
    let enter := fun (x : XfOp) => (s.modCore t.coreId fun q => { q with xfs := q.xfs ++ [x] }).putTeam t.advance
    (¬room → Held s t (.xtld a k) ∧ Held s t (.xtbind k)) ∧
    (room → k.toNat = 2 ∨ s.bankLoading t.coreId k.toNat = false →
      Does s t (.xtbind k) (enter { t.xfOp t.uid .xtbind 0 0 0#1 0#64 with bank := k.toNat })) ∧
    (room → k.toNat ≠ 2 → s.bankLoading t.coreId k.toNat = true → Held s t (.xtbind k)) ∧
    (room → s.bindingOf t = some k.toNat → Issues s t (.xtld a k) →
      exec (.xtld a k) s = .next (s.takeStop t (.trapOpen { code := 11 }))) ∧
    (room → s.bindingOf t ≠ some k.toNat → RefusesOffset s t (.xtld a k) o 4) ∧
    (room → s.bindingOf t ≠ some k.toNat → o.toNat % 4 = 0 → o.toNat + 520 ≤ 4096 * t.ident.scrG →
      (s.bankLoading t.coreId k.toNat = true → Held s t (.xtld a k)) ∧
      (s.bankLoading t.coreId k.toNat = false →
        (s.bankBound t.coreId k.toNat = true → Does s t (.xtld a k)
          (s.putTeam { t with wait := some { kind := .bank k.toNat, fired := false } })) ∧
        (s.bankBound t.coreId k.toNat = false → Does s t (.xtld a k)
          (enter { t.xfOp t.uid .xtld 0 0 0#1 0#64 with bank := k.toNat, offset := o.toNat }))))

/-- Every transform instruction completes its issue (R252 to R261, R380). -/
def Obligations.TransformsIssue : Prop := TransformIssue ∧ TableBanks

/-! ### Row 0xE: rays -/

/-- TRACE, DEFER, RETIRE, EPEND and POOLQ complete in a wave: the held rays of the guarded lanes are handed on with
their words written, retired with three pairs each, which enter the stream buffer a group of 32 lanes at a time,
or freed with the wave, and the pool tests its queues with the records that return (R286); RAY_CONTEXT elsewhere
(R302, R303, R305 to R307, R310). -/
def Sys2Proof.Machine.WaveInstructions : Prop :=
  ∀ (s : State) (t : Team) (d a k : Field),
    let mask := (s.sread t a).toNat % 2 ^ 32
    let held := t.heldLanes
    let hands := fun (i : Instr) (defer : Bool) => Does s t i
      (((held.foldl (fun (r : State) l => r.handRay t mask defer l) s).putTeam
        ((t.loseRays held).setD d (BitVec.ofNat 64 held.length)).advance).testPool t.ident.die)
    (t.ident.isWave = false → Traps s t (.trace d a) { code := 17 } ∧ Traps s t (.defer d a) { code := 17 } ∧
      Traps s t (.retire d a) { code := 17 }) ∧
    (t.ident.isWave = true → hands (.trace d a) false ∧ hands (.defer d a) true) ∧
    (t.ident.isWave = true → (s.sread t a).toNat % 4 ≠ 0 →
      Traps s t (.retire d a) { code := 5, taddr := s.sread t a }) ∧
    (t.ident.isWave = true → (s.sread t a).toNat % 4 = 0 →
      (1024 < (s.streamOf t).length + 96 → Held s t (.retire d a)) ∧
      ((s.streamOf t).length + 96 ≤ 1024 → ∀ s1 pairs,
        s.fates t (if d = 96#7 then [] else t.retirePairs (s.sread t a) d.toNat held) = .ok (s1, pairs) →
        Does s t (.retire d a) (((held.foldl (fun (r : State) l => r.retireRay t.ident.die pairs l.2)
          (s1.retireEnter t (t.laneGroups held pairs))).putTeam (t.loseRays held).advance).testPool t.ident.die))) ∧
    (Issues s t .epend → Completes s .epend fun r u => u.place = .exiting ∧ u.rays = [] ∧ r.canIssue u = false) ∧
    Does s t (.poolq d k) (s.putTeam (t.setD d (BitVec.ofNat 64 (match k.toNat with
      | 0 => s.poolFree t.ident.die
      | 1 => (s.die t.ident.die).poolCapacity
      | 2 => ((s.ctx? t.ctx).map Ctx.lrc).getD 0
      | _ => if t.ident.isWave then t.rays.length else 0))).advance)

/-- SPAWN completes where the pool can grant its records: LRC rises by them, and by one for the first SPAWN of a task
that is not complete, by a team that is no wave, which sets the task's hold; one
ray per guarded lane enters the pool with the record that the word mask gives it, and s[D] holds the number;
records that the pool has granted to it as a waiter are placed and counted already, and are written; with no
guarded lane it leaves 0; a request that the pool can never grant raises OPERAND_VALUE, and one that it cannot
grant now waits for the pool (R286, R287, R304). -/
def Sys2Proof.Machine.SpawnCompletes : Prop :=
  ∀ (s : State) (t : Team) (d a b : Field),
    let mask := (s.sread t b).toNat % 2 ^ 32
    let lanes := t.guarded t.ident.elanes
    let p := lanes.length
    let u := { t with granted := 0, placed := [] }
    let done := (u.setD d (BitVec.ofNat 64 p)).advance
    (p = 0 → Does s t (.spawn d a b) (s.putTeam (t.setD d 0#64).advance)) ∧
    (t.granted ≠ p → s.poolMost t < p →
      Traps s t (.spawn d a b) { code := 11, field := b.toNat, tinfo := BitVec.ofNat 64 p }) ∧
    (0 < p → t.granted ≠ p → p ≤ s.poolMost t → s.poolGrants t p = false →
      Does s t (.spawn d a b) ((s.modDie t.ident.die fun k => { k with
        waiters := k.waiters ++ [t.uid], waiterSince := insertAt t.uid k.time k.waiterSince }).putTeam
          { t with wait := some { kind := .pool p, fired := false } })) ∧
    (0 < p → t.granted ≠ p → p ≤ s.poolMost t → s.poolGrants t p = true →
      Does s t (.spawn d a b) ((lanes.foldl (fun (r : State) n => r.placeRay t (t.newRecord a.toNat mask n))
        (s.countRays t p)).putTeam done)) ∧
    (0 < p → t.granted = p →
      Does s t (.spawn d a b) ((s.writePlaced t (lanes.map (t.newRecord a.toNat mask))).putTeam done)) ∧
    (∀ w, ∃ x, ((s.placeRay t w).die t.ident.die).rays = (s.die t.ident.die).rays ++ [x] ∧ x.ctx = t.ctx ∧
      x.words = w ∧ x.state = .entering none ∧ x.num = (s.die t.ident.die).nextRay) ∧
    let task := fun (r : State) => r.tasks.find? fun k => k.loc == t.ident.taskAt
    let first := match task s with
      | some k => !t.ident.isWave && !k.hold
      | none => false
    (∀ c, s.ctx? t.ctx = some c → ∃ e, (s.countRays t p).ctx? t.ctx = some e ∧
      e.lrc = c.lrc + p + (if first then 1 else 0)) ∧
    ∀ k, t.ident.isWave = false → task (s.countRays t p) = some k → k.hold = true

/-- The ray instructions complete (R286, R287, R302 to R307, R310). -/
def Obligations.RayInstructions : Prop := WaveInstructions ∧ SpawnCompletes

/-! ### Row 0xF: system -/

/-- CSRR and CSRW complete: s[D] receives the register, or the register receives sread(D) under its own rules; a
write that Table 19.9 does not let the team make, or one that would change CTXCTL.SYS, raises CSR_ACCESS and
writes nothing (R366, R367, R360). -/
def Sys2Proof.Machine.ControlRegisters : Prop :=
  ∀ (s : State) (t : Team) (d : Field) (i : BitVec 16),
    let num := i.toNat
    let v := s.sread t d
    let sys := match s.ctx? t.ctx with
      | some c => c.ctxctl.getLsbD 4
      | none => false
    let may := num = 9 ∨ num = 10 ∨ (num < 0x200 ∧ (t.inHandler = true ∨ sys = true)) ∨ sys = true
    let flips := num = 0x107 ∧ (s.ctx? t.ctx).isSome ∧ v.getLsbD 4 ≠ sys
    Does s t (.csrr d i) (s.putTeam (t.setD d (s.csr t num)).advance) ∧
    (¬may ∨ flips → Traps s t (.csrw d i) { code := 20, tinfo := BitVec.ofNat 64 num }) ∧
    (may → ¬flips → Does s t (.csrw d i) (s.writeCsr t num v))

/-- A team's own control registers hold what was written to them: a valid value reads back, and no other one
changes (R367, Table 19.9). -/
def Sys2Proof.Machine.TeamRegistersReadBack : Prop :=
  ∀ (t : Team) (n m : Nat) (v : Word), n < 11 → teamRegValid n v = true →
    (t.setCsr n v).csr n = v ∧ (m < 11 → m ≠ n → (t.setCsr n v).csr m = t.csr m)

/-- The values that the context registers accept: their reserved bits zero, RGNCNT at most 256 (Tables 9.1, 12.2 and
19.5). -/
def Sys2Proof.Machine.contextValues : List (Nat × (Nat → Bool)) :=
  [(0x100, fun v => v % 8192 == 0 && decide (v < 2 ^ 52)), (0x101, fun v => v % 64 == 0 && decide (v < 2 ^ 52)),
   (0x102, fun v => decide (v ≤ 256)), (0x103, fun v => v % 64 == 0),
   (0x104, fun v => v % 32 == 0 && decide (v < 2 ^ 52)), (0x105, fun v => decide (v < 2 ^ 18)),
   (0x106, fun v => v % 4 == 0), (0x107, fun v => decide (v < 32))]

/-- A permitted CSRW of a context register keeps an accepted value, which reads back, and no other register of the
context changes; another value is refused without a trap (R367, R388). -/
def Sys2Proof.Machine.ContextRegistersKeep : Prop :=
  ∀ p ∈ contextValues, ∀ (s : State) (t : Team) (c : Ctx) (v : Word), s.ctx? t.ctx = some c →
    let r := s.writeCsr t p.1 v
    (p.2 v.toNat = false → r = s.putTeam t.advance) ∧
    (p.2 v.toNat = true → (r.ctx? t.ctx).isSome = true ∧ r.csr t p.1 = v ∧
      ∀ q ∈ contextValues, q.1 ≠ p.1 → r.csr t q.1 = s.csr t q.1)

/-- The values that some die registers accept (R175, R176, R190, R229, R286; FNODE, R332). -/
def Sys2Proof.Machine.dieValues : List (Nat × (Nat → Bool)) :=
  [(0x202, fun v => decide (10 ≤ v) && decide (v ≤ 16)), (0x203, fun v => decide (64 ≤ v) && decide (v ≤ 8192)),
   (0x205, fun v => v % 8 == 0 && decide (v < 2 ^ 52)), (0x208, fun v => decide (16 ≤ v) && decide (v ≤ 2048)),
   (0x209, fun v => decide (v ≤ 786432)), (0x20C, fun v => decide (v < 2 ^ 11))]

/-- A permitted CSRW of a die register: a refused value changes nothing but the team; an accepted one reads back at
once, but that SLICECFG and STITCHn keep it pending and read as they are applied, and that MIGCTL reads its STATUS;
a new SORUSCFG makes its spills, a new POOLRSV tests the pool's queues, and with every other number no other register
of the die changes (R22, R190, R230, R286, R329, R367, R388). -/
def Sys2Proof.Machine.DieRegistersKeep : Prop :=
  ∀ (s : State) (t : Team) (num : Nat) (v : Word), (0x200 ≤ num ∧ num ≤ 0x20E) ∨ (0x210 ≤ num ∧ num ≤ 0x217) →
    let d := t.ident.die
    let r := s.writeCsr t num v
    (∀ p ∈ dieValues, p.1 = num → s.dieRegValid d num v = p.2 v.toNat) ∧
    (s.dieRegValid d num v = false → r = s.putTeam t.advance) ∧
    (s.dieRegValid d num v = true → num ∉ [0x200, 0x207, 0x208, 0x209] → num < 0x210 → r.csr t num = v) ∧
    (let kept := (s.putTeam t.advance).modDie d fun k => { k with regs := k.regs.set num v }
     kept.csr t num = v ∧ (s.dieRegValid d num v = true →
       (num = 0x208 → r = kept.spillAll d) ∧ (num = 0x209 → r = kept.poolChanged d))) ∧
    (s.dieRegValid d num v = true → num = 0x200 → r.csr t num = s.csr t num ∧ (r.die d).pendSlice =
      if (s.die d).pendSlice = none ∧ v = (s.die d).regs.slicecfg then none else some v) ∧
    (s.dieRegValid d num v = true → num = 0x207 → r.csr t num = s.csr t num) ∧
    (s.dieRegValid d num v = true → 0x210 ≤ num → r.csr t num = s.csr t num ∧
      (r.die d).stitchNext (num - 0x210) = v) ∧
    ∀ m, (0x200 ≤ m ∧ m ≤ 0x20E) ∨ (0x210 ≤ m ∧ m ≤ 0x217) → m ≠ num → num ∉ [0x208, 0x209] →
      r.csr t m = s.csr t m

/-- CSRR and CSRW complete, and a register holds what was written to it, where its rules accept it (R360, R366, R367,
R388). -/
def Obligations.RegisterAccess : Prop :=
  ControlRegisters ∧ TeamRegistersReadBack ∧ ContextRegistersKeep ∧ DieRegistersKeep

/-- TLBINV completes once the conditions of scope PAIR hold, the context's accesses are settled, every landing slot
is free (R327) and the pair link works, and then no core holds a translation of the context for a page of the range; HALT halts the context with
its operand and the team's TPC in the record (R368, R369, R391, R397). -/
def Sys2Proof.Machine.TlbinvAndHalt : Prop :=
  ∀ (s : State) (t : Team) (a b : Field),
    let lo := (s.sread t a).toNat
    let n := (s.sread t b).toNat
    let linked := s.nDies = 1 ∨ s.linkWorks = true
    (s.fenceHolds t 3 = false ∨ s.unsettled t.ctx = true ∨ s.anyLanding = true ∨ ¬linked →
      Held s t (.tlbinv a b)) ∧
    (s.fenceHolds t 3 = true → s.unsettled t.ctx = false → s.anyLanding = false → linked →
      Issues s t (.tlbinv a b) →
      Completes s (.tlbinv a b) fun r u => u.pc = t.advance.pc ∧
        ∀ k ∈ r.cores, ∀ e ∈ k.2.tlb, e.ctx = t.ctx →
          n ≠ 0 ∧ (lo + n ≤ e.vpn * 65536 ∨ (e.vpn + 1) * 65536 ≤ lo)) ∧
    Does s t (.halt a) ((s.putTeam t.advance).haltCtx t.ctx
      (t.report { kind := 1, code := 0, info := s.sread t a, pc := t.trap.tpc }))

/-- MONR, MARK and BKPT complete: MONR reads one of the ten words of a record, MARK advances where its context
neither records nor replays, BKPT does where debugging is off and else takes BREAKPOINT with the return PC
PC + 4 (R370, R371). -/
def Sys2Proof.Machine.MonitorsAndMarkers : Prop :=
  ∀ (s : State) (t : Team) (d a b : Field) (i : BitVec 16),
    let x := (s.sread t a).toNat
    let mon := x % 8
    let named := mon = 4 ∨ mon = 5
    let fine := if named then x / 2 ^ 3 % 2 ^ 5 = 0 ∧ x < 2 ^ 13 else x < 8
    let unit := if mon ≤ 3 then t.ident.core else if named then x / 256 % 32 else 0
    let w := (s.sread t b).toNat
    (¬fine → Traps s t (.monr d a b) { code := 11, field := a.toNat, tinfo := s.sread t a }) ∧
    (fine → 10 ≤ w → Traps s t (.monr d a b) { code := 11, field := b.toNat, tinfo := s.sread t b }) ∧
    (fine → w ≤ 9 → Does s t (.monr d a b)
      (s.putTeam (t.setD d (((s.die t.ident.die).monitor mon unit).word w)).advance)) ∧
    (s.logs t.ctx = false → Does s t (.mark i) (s.modTeam t.uid fun u => { u.advance with marks := t.marks })) ∧
    (((s.ctx? t.ctx).map Ctx.dbg).getD false = true →
      Traps s t (.bkpt i) { code := 23, code16 := i.toNat, after := true }) ∧
    (((s.ctx? t.ctx).map Ctx.dbg).getD false = false → Does s t (.bkpt i) (s.putTeam t.advance))

/-- The words that identify a team in a log entry: TASK, then TEAMID with the WAVEID above it, all ones where the
team is no wave (Table 22.7). -/
def Sys2Proof.Machine.entryIds (t : Team) : List Word :=
  [t.ident.task, BitVec.ofNat 64 (t.ident.teamid + 2 ^ 32 * (if t.ident.isWave then t.ident.waveid % 2 ^ 32
    else 2 ^ 32 - 1))]

/-- The 48 bytes of an entry of a MARK or of a read of TIME: header, TIME and two units of payload (Tables 22.6 and
22.7). -/
def Sys2Proof.Machine.entryWords (s : State) (t : Team) (type : Nat) (payload : List Word) : List Word :=
  [BitVec.ofNat 64 (2 ^ 32 * ((s.die t.ident.die).logSeq % 2 ^ 32) + 2 ^ 20 * t.ident.die + 2 ^ 8 * 2 + type),
   BitVec.ofNat 64 (s.time t.ident.die)] ++ payload

/-- The state after an entry of 48 bytes of a team's context and die: the log has advanced, SEQ counts (R423). -/
def Sys2Proof.Machine.afterEntry (s : State) (t : Team) : State :=
  (s.modCtx t.ctx fun c => { c with logPos := c.logPos + 48 }).modDie t.ident.die fun k =>
    { k with logSeq := (k.logSeq + 1) % 2 ^ 32 }

/-- MARK where its context records: an entry of TYPE 7 with the team, IMM16 and 0 is appended at RLBASE plus what the
log holds, and where it has no room the context halts with a record of kind 1, CODE 21, at that address. In replay
the MARK is compared with the team's next entry of TYPE 7: an equal one is passed, a different one halts the context
with its address and SEQ and INFO[63] set (R363, R371, R423 to R425). -/
def Sys2Proof.Machine.MarksLogged : Prop :=
  ∀ (s : State) (t : Team) (c : Ctx) (i : BitVec 16), s.ctx? t.ctx = some c →
    let at_ := c.rlbase + BitVec.ofNat 64 c.logPos
    let words := entryWords s t 7 (entryIds t ++ [i.setWidth 64, 0#64])
    let halts := fun (addr info : Word) => Issues s t (.mark i) → exec (.mark i) s = .next (s.haltCtx t.ctx
      (t.report { kind := 1, code := 21, addr := addr, info := info, pc := t.trap.tpc }))
    (c.recording = true → c.replay = none → c.logWait = [] →
      (c.rlsize.toNat < c.logPos + 48 → halts at_ 0#64) ∧
      (c.logPos + 48 ≤ c.rlsize.toNat → ∀ r,
        s.ctxWrite { die := t.ident.die, tlb := none, ctx := t.ctx } at_ words = .ok r →
        Does s t (.mark i) ((afterEntry r t).modTeam t.uid fun u => { u.advance with marks := t.marks }))) ∧
    (c.recording = false → c.replay.isSome = true →
      let next := ((s.replayLog t.ctx t.ident.die).filter fun e =>
        e.type == 7 && e.payload.take 2 == entryIds t)[t.marks]?
      (∀ e, next = some e → (e.payload.drop 2).headD 0#64 = i.setWidth 64 →
        Does s t (.mark i) (s.modTeam t.uid fun u => { u.advance with marks := t.marks + 1 })) ∧
      ∀ e, next = some e → (e.payload.drop 2).headD 0#64 ≠ i.setWidth 64 →
        halts e.at_ (BitVec.ofNat 64 (2 ^ 63 + e.seq)))

/-- A read of TIME, by a MOV of the special: where the context records, or MODE.RSRC selects the logged source, an
entry of TYPE 1 with the value, the team and the index of the read is appended, and without room the context halts;
in replay s[D] receives the value of the entry of the team's index, and a read that has none halts the context. Each
read counts (R85, R363, R423 to R425). -/
def Sys2Proof.Machine.TimeReadsLogged : Prop :=
  ∀ (s : State) (t : Team) (c : Ctx) (d : Field),
    let i := Instr.mov d 65#7 0#1
    MayIssue s t i → i.wellFormed = true → s.ctx? t.ctx = some c →
    let time := BitVec.ofNat 64 (s.coreClock t.coreId)
    let at_ := c.rlbase + BitVec.ofNat 64 c.logPos
    let done := fun (v : Word) => s.putTeam (t.setD d v).advance
    let words := entryWords s t 1 ([time] ++ entryIds t ++ [BitVec.ofNat 64 t.timeReads])
    let counted := fun (r : State) => r.modTeam t.uid fun u => { u with timeReads := u.timeReads + 1 }
    let halts := fun (addr info : Word) => exec i s = .next (s.haltCtx t.ctx
      (t.report { kind := 1, code := 21, addr := addr, info := info, pc := t.trap.tpc }))
    (c.replay = none → c.recording = true ∨ (t.rsrc = 2 ∧ c.rlsize ≠ 0#64) → c.logWait = [] →
      (c.rlsize.toNat < c.logPos + 48 → halts at_ 0#64) ∧
      (c.logPos + 48 ≤ c.rlsize.toNat → ∀ r,
        (done time).ctxWrite { die := t.ident.die, tlb := none, ctx := t.ctx } at_ words = .ok r →
        exec i s = .next (counted (afterEntry r t)))) ∧
    (c.recording = false → c.replay.isSome = true →
      let entry := fun (r : State) => (r.replayLog t.ctx t.ident.die).find? fun e =>
        e.type == 1 && e.payload.drop 1 == entryIds t ++ [BitVec.ofNat 64 t.timeReads]
      (∀ e, entry s = some e → (entry (done (e.payload.headD 0#64))).isSome = true →
        exec i s = .next (counted (done (e.payload.headD 0#64)))) ∧
      (entry s = none → entry (done time) = none → halts 0#64 (BitVec.ofNat 64 (2 ^ 63))))

/-- TLBINV, HALT, MONR, MARK and BKPT complete, and what records and replays a MARK and a read of TIME (R363, R368 to
R371, R391, R423 to R425). -/
def Obligations.SystemInstructions : Prop := TlbinvAndHalt ∧ MonitorsAndMarkers ∧ MarksLogged ∧ TimeReadsLogged


/-! ### Traps, handlers and rejected words -/

/-- The entry into a handler: the trap registers receive the return PC, the cause, TADDR, TINFO, CC with MODE, and
s60 to s63; MODE becomes 0, the team is in its handler, the PC is TVEC, and nothing else changes (R353; the entry
takes no cycles of the model, log entry 7). -/
def Sys2Proof.Machine.TrapEntry : Prop :=
  ∀ (s : State) (t : Team) (c : Ctx) (r : Trap), s.ctx? t.ctx = some c → t.inHandler = false →
    c.tvec ≠ 0#64 → r.code < 2 ^ 8 → r.detail < 2 ^ 8 → r.field < 2 ^ 8 → r.code16 < 2 ^ 16 →
    ∃ regs : TrapRegs, s.takeTrap t r = s.putTeam { t with
        trap := regs, mode := 0#16, inHandler := true, pc := c.tvec } ∧
      regs.tpc = (if r.after then t.pc + 4#64 else t.pc) ∧ regs.taddr = r.taddr ∧ regs.tinfo = r.tinfo ∧
      wordBits regs.tcause 0 8 = r.code ∧ wordBits regs.tcause 8 8 = r.detail ∧
      wordBits regs.tcause 16 8 = r.field ∧ wordBits regs.tcause 32 16 = r.code16 ∧
      regs.tmode.toNat = t.mode.toNat + 2 ^ 16 * t.cc.toNat ∧ regs.ts60 = t.getS 60 ∧
      regs.ts61 = t.getS 61 ∧ regs.ts62 = t.getS 62 ∧ regs.ts63 = t.getS 63

/-- The halt of a context by a trap that enters no handler: the context is halted, every team stands as it is,
and the record carries the trap's code, address, information and PC (R355, R358). -/
def Sys2Proof.Machine.NestedHalt (s : State) (t : Team) (r : Trap) : State :=
  ((s.putTeam t).modCtx t.ctx fun c => { c with halted := true }).report (t.report
    { kind := 1, code := r.code, addr := r.taddr, info := r.tinfo, pc := if r.after then t.pc + 4#64 else t.pc })

/-- ERET completes: PC, MODE, CC and s60 to s63 return from the trap registers and the team is out of its handler; a
reserved RND or ETYPE in TMODE is MODE_VALUE, and a TPC with bits [1:0] not zero PC_ALIGN: both are nested, and
halt the context whether the team is in a handler or not (R354, R355, Table 20.8). -/
def Sys2Proof.Machine.EretReturns : Prop :=
  ∀ (s : State) (t : Team), Issues s t .eret →
    let m := t.trap.tmode.toNat
    let fine := m / 2 ^ 9 % 8 ≤ 5 ∧ m / 2 ^ 4 % 32 ≤ 12
    (fine → t.trap.tpc.toNat % 4 = 0 → Completes s .eret fun r u =>
      u.pc = t.trap.tpc ∧ u.mode.toNat = m % 2 ^ 16 ∧ u.cc.toNat = m / 2 ^ 16 % 2 ^ 4 ∧ u.inHandler = false ∧
      u.getS 60 = t.trap.ts60 ∧ u.getS 61 = t.trap.ts61 ∧ u.getS 62 = t.trap.ts62 ∧ u.getS 63 = t.trap.ts63 ∧
      (∀ n < 60, u.getS n = t.getS n) ∧ u.masks = t.masks ∧ u.stack = t.stack ∧ u.vregs = t.vregs ∧
      u.loops = t.loops ∧ u.active = t.active ∧ u.trap = t.trap ∧ r.die0 = s.die0 ∧ r.die1 = s.die1) ∧
    (¬fine → exec .eret s = .next (NestedHalt s t { code := 16, tinfo := t.trap.tmode })) ∧
    (fine → t.trap.tpc.toNat % 4 ≠ 0 → exec .eret s = .next (NestedHalt s t { code := 15, taddr := t.trap.tpc }))

/-- Traps enter their handlers, and ERET returns from them (R352 to R355). -/
def Obligations.HandlerEntryAndReturn : Prop := TrapEntry ∧ EretReturns

/-- A team holds privilege in a handler or under CTXCTL.SYS; a trap in a handler, or in a context whose TVEC is 0,
halts the context, and the record that is appended carries the trap's code, address, information and PC (R355). -/
def Obligations.HandlersAndHalts : Prop :=
  ∀ (s : State) (t : Team) (c : Ctx) (r : Trap), s.ctx? t.ctx = some c →
    (s.privileged t = true ↔ t.inHandler = true ∨ c.ctxctl.getLsbD 4 = true) ∧
    (t.inHandler = true ∨ c.tvec = 0#64 →
      (∃ c', (s.takeTrap t r).ctx? t.ctx = some c' ∧ c'.halted = true) ∧
      (s.teams.filter (fun x => x.uid == t.uid) = [t] → (s.takeTrap t r).teams = s.teams) ∧
      s.takeTrap t r = NestedHalt s t r)

/-- The decoding checks come in the order of Table 4.6, before any effect and for every encoded instruction: a
privileged form without privilege is cause 2, a field at fault its own cause, an implied vector register above
v95 cause 4, and the first vector register, named by a field or by a mask, at or above the allotment REG_ALLOT
(R88, R304, R310, R373, R375). -/
def Sys2Proof.Machine.ChecksInOrder : Prop :=
  ∀ (s : State) (t : Team) (i : Instr), (encodeWords i).isSome = true → (∀ w, i ≠ .illegalInstr w) →
    MayIssue s t i →
    let priv := i.privileged = true → s.privileged t = true
    let traps := fun (r : Trap) => exec i s = .next (s.takeTrap t r)
    (¬priv → traps { code := 1, detail := 2, tinfo := i.firstWord }) ∧
    let implied := ∀ n ∈ s.rayVectors t i, n ≤ 95
    (priv → ∀ c, i.illegalCause = some c → implied → (c = 3 ∨ c = 4 ∨ c = 5) ∧
      traps { code := 1, detail := c, tinfo := i.firstWord }) ∧
    (priv → ¬implied → traps { code := 1, detail := if i.illegalCause = some 3 then 3 else 4, tinfo := i.firstWord }) ∧
    (priv → i.wellFormed = true → implied → ∀ n,
      (i.vectorNumbers ++ s.rayVectors t i).find? (fun v => decide (t.vregs.length ≤ v)) = some n →
      traps { code := 2, field := n, tinfo := BitVec.ofNat 64 t.vregs.length })

/-- The vector registers that no field of a ray instruction names: those of TRACE and DEFER's word mask, SPAWN's
base and the registers of its mask, and RETIRE's v11 (R303 to R305). -/
def Sys2Proof.Machine.ImpliedVectors : Prop :=
  ∀ (s : State) (t : Team) (d a b : Field),
    let named := fun (f : Field) (n : Nat) => n < 32 ∧ (s.sread t f).getLsbD n = true
    (∀ n, n ∈ s.rayVectors t (.trace d a) ↔ named a n) ∧ (∀ n, n ∈ s.rayVectors t (.defer d a) ↔ named a n) ∧
    (∀ n, n ∈ s.rayVectors t (.spawn d a b) ↔ n = a.toNat ∨ ∃ k, named b k ∧ n = a.toNat + k) ∧
    ∀ n, n ∈ s.rayVectors t (.retire d a) ↔ n = 11 ∧ d ≠ 96#7

/-- The decoding checks of Table 4.6, and the registers that ray instructions imply (R88, R303 to R305, R373,
R375). -/
def Obligations.DecodingChecks : Prop := ChecksInOrder ∧ ImpliedVectors

/-! ### Fetch and step -/

/-- A fetch reads the word at the PC of device global memory through the context's tables and under its class of
service, its update bins applied, and for an X-format word the literal at PC + 4; a migration of the page holds
it; where it fails, the trap or machine check of that word is the step's effect (R79, R187, R190, R374). -/
def Obligations.FetchReadsMemory : Prop :=
  ∀ (s : State) (t : Team),
    let s0 := { s with clos := s.classOf t.ctx }
    (∀ s1 m, s0.translateResident t.walker t.pc .fetch [0] = .ok (s1, m) →
      let line := lineOf m.phys.addr
      let s2 := s1.reachHome t.coreId m.phys.unit line
      let w := BitVec.ofNat 32 (s2.peek m.phys 4)
      ((s1.die m.phys.unit).migrates line = true → s.fetch t = .error .hold) ∧
      ((s1.die m.phys.unit).migrates line = false → s1.poisoned m.phys = false →
        (m.phys.space = .gddr → s2.peek m.phys 4 =
          ((s1.recallLine t.coreId m.phys.unit line).applyLine m.phys.unit line).peek m.phys 4) ∧
        (isXFormat w = false → s.fetch t = .ok (s2, w, 0#32)) ∧
        ∀ s3 m', isXFormat w = true → s2.translateResident t.walker (t.pc + 4#64) .fetch [0] = .ok (s3, m') →
          (s3.die m'.phys.unit).migrates (lineOf m'.phys.addr) = false → s3.poisoned m'.phys = false →
          let s4 := s3.reachHome t.coreId m'.phys.unit (lineOf m'.phys.addr)
          s.fetch t = .ok (s4, w, BitVec.ofNat 32 (s4.peek m'.phys 4)))) ∧
    (∀ r, s0.translateResident t.walker t.pc .fetch [0] = .error (.trap r) → s.fetch t = .error (.trap r)) ∧
    ∀ e, MayIssue s t .instructionFetchFault → s.fetch t = .error e →
      exec .instructionFetchFault s = .next (s.takeStop t e)

/-- A step runs the decoded instruction: where the schedule names a core's scheduler, or names nothing and this is
an issue turn, and the bytes at the PC of the first team in issue order decode to i, the step is exec of i in the
state after the time of the step, the fetch, and the issue marks. -/
def Sys2Proof.Machine.IssueRunsDecoded : Prop :=
  ∀ (s s1 r : State) (core sched : Nat) (t : Team) (ts : List Team) (w lit : W32) (i : Instr),
    let now := s.passTime
    let runs := fun (s0 : State) => s0.issueOrder core sched = t :: ts → s0.fetch t = .ok (s1, w, lit) →
      decodeWord w lit = .ok i → exec i (s1.begin t) = .next r → r.stalled = false → step s = .next r
    (∀ late rest, s.agenda = .issue core sched late :: rest → runs { now with agenda := rest, late := late }) ∧
    (s.agenda = [] → now.devicesFirst = false → (∃ more, now.issueTurn = (core, sched) :: more) → runs now)

/-- A step takes the device step that the schedule names, with its subject, in the state after the time of the step,
or has the host program one of the two HDM decoders (the model's schedule, log entry 6; R330, R334). -/
def Sys2Proof.Machine.StepTakesEvents : Prop :=
  ∀ (s : State) (rest : List Turn),
    (∀ (e : Instr) (a : EventArg), s.agenda = .event e a :: rest → encodeWords e = none →
      step s = exec e { s.passTime with agenda := rest, arg := a, clos := 0 }) ∧
    ∀ n base size : Nat, s.agenda = .hdm n base size :: rest → ∃ h, step s =
      .next { s.passTime with agenda := rest, host := { s.passTime.host with hdm := h } } ∧
      (2 ≤ n → h = s.passTime.host.hdm) ∧
      (n < 2 → ∀ x, x ∈ h ↔ (x = (n, base, size) ∧ size ≠ 0) ∨ (x ∈ s.passTime.host.hdm ∧ x.1 ≠ n))

/-- What an error does that shows in a memory or a datapath: a corrected one changes no team and no context; an
uncorrectable one drops a line of the L1 or a treelet, marks a line or a scratchpad word as uncorrectable until it
is rewritten, drops an update bin or a ray, or halts its context, that of the region for an FXADD shadow, or every
context for STRUCT 8 (R225, R365, Table 19.7; when an error shows is the environment's, log entry 6). -/
def Sys2Proof.Machine.ErrorsHaveTheirOutcomes : Prop :=
  ∀ (s : State) (u : Upset),
    let r := s.upset u
    let line := lineOf u.at_
    let core := 64 * u.die + u.tile
    let halts := fun (ctx : Nat) => ∀ c, s.ctx? ctx = some c → ∃ e, r.ctx? ctx = some e ∧ e.halted = true
    let bin := (s.die u.die).bins.find? (fun b => b.line == line)
    (∀ rest, s.agenda = .upset u :: rest → step s =
      .next (({ s.passTime with agenda := rest, clos := 0 } : State).upset u)) ∧
    (u.corrected = true → r.teams = s.teams ∧ r.ctxs = s.ctxs) ∧
    (u.corrected = false →
      (u.struct = 1 → r.teams = s.teams ∧ r.ctxs = s.ctxs ∧
        (u.isSlice = false → ∀ l ∈ (r.core core).l1, l.line ≠ line) ∧
        (u.isSlice = true → ∀ x ∈ (r.die u.die).treelets, u.at_ < x.base ∨ x.base + 16384 ≤ u.at_)) ∧
      (u.struct = 3 → u.dsm = true → r.poisoned { space := .dsm, unit := u.die, addr := u.at_ } = true) ∧
      (u.struct = 3 → u.dsm = false → (line ∈ (s.die u.die).dirty →
          r.poisoned { space := .gddr, unit := u.die, addr := u.at_ } = true) ∧
        (line ∉ (s.die u.die).dirty → (r.die u.die).poison = (s.die u.die).poison)) ∧
      (u.struct = 10 → r.poisoned { space := .gddr, unit := u.die, addr := u.at_ } = true) ∧
      (u.struct = 5 → u.at_ < 2 ^ 20 → (r.core core).badAt u.at_ 1 = true ∧ r.ctxs = s.ctxs) ∧
      (u.struct = 4 ∨ u.struct = 9 ∨ (u.struct = 5 ∧ 2 ^ 20 ≤ u.at_) → halts u.ctx) ∧
      (u.struct = 6 → ∀ b, bin = some b → halts b.ctx ∧
        (r.die u.die).bins.length + 1 = (s.die u.die).bins.length) ∧
      (u.struct = 6 → bin = none → ∀ x, (s.die u.die).fxLines.find? (fun p => p.1 == line) = some x →
        halts x.2.1) ∧
      (u.struct = 7 → ∀ x, s.ray? u.die u.at_ = some x → halts x.ctx ∧ ((s.die u.die).waiters = [] →
        (r.die u.die).rays.length + 1 = (s.die u.die).rays.length)) ∧
      (u.struct = 8 → ∀ c ∈ r.ctxs, c.halted = true))

/-- A step runs the decoded instruction of the team in issue order, or takes the device step or the error that the
schedule names (R365). -/
def Obligations.StepRunsDecoded : Prop := IssueRunsDecoded ∧ StepTakesEvents ∧ ErrorsHaveTheirOutcomes

/-! ### Frames -/

/-- The instructions of rows 0x0 to 0x7 that act on the team's registers alone (not EXIT, WATCH, RSAVE, RLOAD and
VRNG). -/
def Sys2Proof.Machine.inRegisters : Instr → Bool
  | .add _ _ _ _ | .sub _ _ _ _ | .mul _ _ _ _ | .mulh _ _ _ _ | .mulhn _ _ _ _ | .div _ _ _ _
  | .divn _ _ _ _ | .rem _ _ _ _ | .remn _ _ _ _ | .and _ _ _ _ | .or _ _ _ _ | .xor _ _ _ _ | .andn _ _ _ _
  | .shl _ _ _ _ | .shr _ _ _ _ | .sra _ _ _ _ | .rotl _ _ _ _ | .min _ _ _ _ | .max _ _ _ _ | .minn _ _ _ _
  | .maxn _ _ _ _ | .cmp _ _ _ | .cmpn _ _ _ | .sel _ _ _ _ | .clz _ _ _ | .ctz _ _ _ | .popc _ _ _
  | .brev _ _ _ | .bfx _ _ _ _ | .bfi _ _ _ _ | .mov _ _ _ | .addi _ _ _ | .andi _ _ _ | .ori _ _ _
  | .xori _ _ _ | .shli _ _ _ | .shri _ _ _ | .srai _ _ _ | .cmpi _ _ | .cmpni _ _ | .movi _ _ | .movhi _ _
  | .movxi _ _ | .movti _ _ | .ldlit _ _ | .lea _ _ _ _ | .gets _ _ | .fadd _ _ _ _ | .fsub _ _ _ _
  | .fmul _ _ _ _ | .ffma _ _ _ _ | .fdiv _ _ _ _ | .fsqrt _ _ _ | .fmin _ _ _ _ | .fmax _ _ _ _
  | .fabs _ _ _ | .fneg _ _ _ | .fcmp _ _ _ | .fcvt _ _ _ | .ftoi _ _ _ | .itof _ _ _ | .fclass _ _ _
  | .frnd _ _ _ | .br _ | .bcc _ _ | .bmz _ _ | .bmnz _ _ | .call _ | .callr _ _ | .ret _ | .jmpr _
  | .loop _ _ _ | .loopi _ _ _ | .lbrk _ | .yield | .waitc _ _ | .nop | .trapi _ | .mset _ | .msetr _
  | .mget _ | .mpush _ _ | .melse _ _ | .mpop | .mand _ _ _ | .mor _ _ _ | .mxor _ _ _ | .mandn _ _ _
  | .mnot _ _ | .mmov _ _ | .mcnt _ _ | .mffs _ _ | .mtos _ _ _ | .mfrs _ _ _ | .mlen _ _ | .mall _ _
  | .vadd _ _ _ _ | .vsub _ _ _ _ | .vmul _ _ _ _ | .vfma _ _ _ _ | .vfms _ _ _ _ | .vmin _ _ _ _
  | .vmax _ _ _ _ | .vabs _ _ _ | .vneg _ _ _ | .vand _ _ _ _ | .vor _ _ _ _ | .vxor _ _ _ _ | .vnot _ _ _
  | .vshl _ _ _ _ | .vshr _ _ _ _ | .vsra _ _ _ _ | .vcmpeq _ _ _ | .vcmpne _ _ _ | .vcmplt _ _ _
  | .vcmple _ _ _ | .vsel _ _ _ _ | .vmov _ _ _ | .vbcast _ _ _ _ | .vidx _ _ _ _ | .vclamp _ _ _ _
  | .vmulp _ _ _ _ | .vdotp _ _ _ _ | .vcvt _ _ _ _ | .vpack _ _ _ _ | .vunpk _ _ _ _ | .vrcp _ _ _
  | .vrsq _ _ _ | .vsqrt _ _ _ | .vdiv _ _ _ _ | .vexp2 _ _ _ | .vlog2 _ _ _ | .vsin _ _ _ | .vcos _ _ _
  | .vtanh _ _ _ | .vfloor _ _ _ | .vfrac _ _ _ | .vcompact _ _ _ | .vexpand _ _ _ | .vshfl _ _ _ _
  | .vrotl _ _ _ _ | .vextr _ _ _ | .vins _ _ _ _ | .rcoal _ _ _ | .rcnt _ _ | .rallot _ _ | .rpool _ _
  | .vredadd _ _ | .vredmin _ _ | .vredmax _ _ | .vredand _ _ | .vredor _ _ | .vscan _ _ _ | .rngseed _ _
  | .rngget _ _ => true
  | _ => false

/-- The scalar registers that an instruction writes (Table 4.3; s63 by CALL). -/
def Sys2Proof.Machine.scalarsWritten (i : Instr) : List Nat :=
  (match i with
    | .call _ => [63]
    | _ => []) ++
  i.operands.filterMap fun o => match o with
    | .scalarDst f => some f.toNat
    | _ => none

/-- The vector registers that an instruction writes. -/
def Sys2Proof.Machine.vectorsWritten (i : Instr) : List Nat :=
  i.operands.filterMap fun o => match o with
    | .vectorDst f => some f.toNat
    | _ => none

/-- The masks that an instruction writes: its destination, and for MPOP the guard that it restores. -/
def Sys2Proof.Machine.masksWritten (i : Instr) (t : Team) : List Nat :=
  (match i with
    | .mpop => t.stack.map fun e => e.mode.toNat % 16
    | _ => []) ++
  i.operands.filterMap fun o => match o with
    | .maskDst f => some f.toNat
    | _ => none

/-- The forms that write CC. -/
def Sys2Proof.Machine.setsFlags : Instr → Bool
  | .cmp _ _ _ | .cmpn _ _ _ | .cmpi _ _ | .cmpni _ _ | .fcmp _ _ _ => true
  | _ => false

/-- The forms that write MODE. -/
def Sys2Proof.Machine.setsMode : Instr → Bool
  | .mset _ | .msetr _ | .mpush _ _ | .melse _ _ | .mpop => true
  | _ => false

/-- The frame of the register instructions: an instruction that goes on either takes a trap, or changes nothing but
its own team (and the count of free values, and for RPOOL that a placement attempt is due), and of the team only what
it names: every other scalar register,
vector register and mask, and CC, MODE, the mask stack, the generator, the budget, the loops, the tiles and the
trap registers are as before; every byte of memory is as before. -/
def Obligations.FrameOfRegisterInstructions : Prop :=
  ∀ (s s' : State) (t : Team) (i : Instr), Issues s t i → inRegisters i = true → t.rnd ≠ 5 →
    exec i s = .next s' → (∃ r, s' = s.takeTrap t r) ∨
      ({ s' with teams := s.teams, free := s.free, die0 := s.die0, die1 := s.die1 } = s ∧
        (∀ d, { s'.die d with placeDue := (s.die d).placeDue } = s.die d) ∧
        ((∀ d a, i ≠ .rpool d a) → s'.die0 = s.die0 ∧ s'.die1 = s.die1) ∧ (∀ p n, s'.peek p n = s.peek p n) ∧
        (∀ x, x.uid ≠ t.uid → (x ∈ s'.teams ↔ x ∈ s.teams)) ∧
        ∃ u, s'.team? t.uid = some u ∧
          (∀ n < 64, n ∉ scalarsWritten i → u.getS n = t.getS n) ∧
          (∀ n, n ∉ vectorsWritten i → (∀ d k, i ≠ .rallot d k) → u.vregs[n]? = t.vregs[n]?) ∧
          (∀ n, n ∉ masksWritten i t → u.mask n = t.mask n) ∧
          (setsFlags i = false → u.cc = t.cc) ∧ (setsMode i = false → u.mode = t.mode) ∧
          ((∀ d a, i ≠ .mpush d a) → i ≠ .mpop → u.stack = t.stack) ∧
          ((∀ a b, i ≠ .rngseed a b) → u.key = t.key ∧ u.ctr = t.ctr) ∧
          ((∀ d a, i ≠ .rpool d a) → u.budget = t.budget) ∧
          ((∀ a l n, i ≠ .loop a l n ∧ i ≠ .loopi a l n) → t.active = [] → u.loops = t.loops ∧ u.active = []) ∧
          ((∀ a b, i ≠ .waitc a b) → u.wait = t.wait) ∧
          u.tiles = t.tiles ∧ u.trap = t.trap ∧ u.inHandler = t.inHandler ∧ u.binding = t.binding ∧
          u.rays = t.rays ∧ u.gwct = t.gwct ∧ u.nlog = t.nlog ∧ u.nlend = t.nlend ∧ u.ident = t.ident)

/-- Whether the byte at a location is one of the n bytes that an access at a virtual address stores. -/
def Sys2Proof.Machine.scalarStored (s : State) (t : Team) (va : Word) (n : Nat) (kind : Access) (p : Phys) : Prop :=
  ∃ s1 m, s.translateResident t.walker va kind [0, 1, 3] = .ok (s1, m) ∧ p.space = m.phys.space ∧
    (p.unit = 1 ↔ m.phys.unit = 1) ∧ m.phys.addr ≤ p.addr ∧ p.addr < m.phys.addr + n

/-- Whether the byte at a location is one of the words that a vector store of vD's guarded lanes stores. -/
def Sys2Proof.Machine.lanesStored (s : State) (t : Team) (d : Field) (addr : Nat → Word) (p : Phys) : Prop :=
  ∃ s1 es, s.mapLanes t .write addr (t.guarded (t.vread d).len) = .ok (s1, es) ∧ ∃ e ∈ es,
      e.at_.resident = true ∧ p.space = e.at_.phys.space ∧ (p.unit = 1 ↔ e.at_.phys.unit = 1) ∧
      e.at_.phys.addr ≤ p.addr ∧ p.addr < e.at_.phys.addr + 4

/-- The loads and stores of rows 0x8 and 0x9 through virtual addresses, with the bytes that each stores and the
masks that it writes. -/
def Sys2Proof.Machine.memoryForms (s : State) (t : Team) (d a b : Field) (z : BitVec 2) (q c : BitVec 1) (lit : W32) :
    List (Instr × (Phys → Prop) × List Nat) :=
  let ab := s.sread t a + s.sread t b
  let at_ := scalarStored s t (s.sread t a) (if q = 0#1 then 8 else 4) .both
  let none_ : Phys → Prop := fun _ => False
  [(.ld d a b z, none_, []), (.lda d a b z, none_, []), (.ldx d a z lit, none_, []),
   (.vld d a b c, none_, [b.toNat]), (.vlds d a b c, none_, [b.toNat]), (.vldb d a b c, none_, [b.toNat]),
   (.st d a b z, scalarStored s t ab (Machine.sizeOf z) .write, []),
   (.stl d a b z, scalarStored s t (s.sread t a) (Machine.sizeOf z) .write, []),
   (.atadd d a b q, at_, []), (.atmin d a b q, at_, []), (.atmax d a b q, at_, []), (.atminn d a b q, at_, []),
   (.atmaxn d a b q, at_, []), (.atand d a b q, at_, []), (.ator d a b q, at_, []), (.atxor d a b q, at_, []),
   (.atxch d a b q, at_, []), (.atcas d a b q, at_, []),
   (.vst d a b, lanesStored s t d (fun n => s.sread t a + BitVec.ofNat 64 (4 * n)), [b.toNat]),
   (.vsts d a b, lanesStored s t d (fun n => s.sread t a + BitVec.ofNat 64 n * t.getS (a.toNat + 1)), [b.toNat])]

/-- The frame of the loads and stores, with no update pairs waiting and no FXADD line: a form that goes on either
stops as a whole, or leaves every byte but those that it stores as before, and of its team every scalar register,
vector register and mask but its destinations, CC, MODE, the mask stack, the generator, the tiles and the trap
registers; no other team's registers change. -/
def Obligations.FrameOfMemoryInstructions : Prop :=
  ∀ (s s' : State) (t : Team) (d a b : Field) (z : BitVec 2) (q c : BitVec 1) (lit : W32),
    ∀ f ∈ memoryForms s t d a b z q c lit, Issues s t f.1 →
      s.die0.bins = [] → s.die1.bins = [] → s.die0.fxLines = [] → s.die1.fxLines = [] →
      (s.core t.coreId).regions = [] → (∀ x, s.ctx? t.ctx = some x → x.eff.rgncnt = 0#64) →
      exec f.1 s = .next s' → (∃ e, s' = s.takeStop t e) ∨
        ((∀ p, ¬f.2.1 p → s'.peek p 1 = s.peek p 1) ∧
          (∀ x, x.uid ≠ t.uid → s.team? x.uid = some x →
            ∃ y, s'.team? x.uid = some y ∧ y.sregs = x.sregs ∧ y.vregs = x.vregs ∧ y.masks = x.masks) ∧
          ∃ u, s'.team? t.uid = some u ∧
            (∀ n < 64, n ∉ scalarsWritten f.1 → u.getS n = t.getS n) ∧
            (∀ n, n ∉ vectorsWritten f.1 → u.vregs[n]? = t.vregs[n]?) ∧
            (∀ n, n ∉ f.2.2 → u.mask n = t.mask n) ∧
            u.cc = t.cc ∧ u.mode = t.mode ∧ u.stack = t.stack ∧ u.key = t.key ∧ u.ctr = t.ctr ∧
            u.budget = t.budget ∧ u.tiles = t.tiles ∧ u.trap = t.trap ∧ u.inHandler = t.inHandler ∧
            u.rays = t.rays ∧ u.ident = t.ident)

/-- The instructions that the frames of register instructions, loads and stores do not name: waits, ends, fences, run
images and the scratchpad, and every instruction of rows 0xA to 0xF (all but VRNG, of row 0x7, and words that decode
to no instruction). -/
def Sys2Proof.Machine.elsewhere (i : Instr) : Bool :=
  (encodeWords i).isSome && !inRegisters i &&
    match i with
    | .ld _ _ _ _ | .lda _ _ _ _ | .ldx _ _ _ _ | .vld _ _ _ _ | .vlds _ _ _ _ | .vldb _ _ _ _ | .st _ _ _ _
    | .stl _ _ _ _ | .atadd _ _ _ _ | .atmin _ _ _ _ | .atmax _ _ _ _ | .atminn _ _ _ _ | .atmaxn _ _ _ _
    | .atand _ _ _ _ | .ator _ _ _ _ | .atxor _ _ _ _ | .atxch _ _ _ _ | .atcas _ _ _ _ | .vst _ _ _ | .vsts _ _ _
    | .vrng _ _ _ | .illegalInstr _ => false
    | _ => true

/-- Whether the byte at a location is one that such an instruction stores through an address: RSAVE its image, an
arrival of CBAR the barrier word, PREQ the request and the tail of the ring. -/
def Sys2Proof.Machine.storedElsewhere (s : State) (t : Team) (i : Instr) (p : Phys) : Prop :=
  match i with
  | .rsave _ a b => ∃ s1 ps, s.mapParts t .write [0, 1] (partsOf (s.sread t b) (t.vread a).image.length) =
      .ok (s1, ps) ∧ ∃ q ∈ ps, p.space = q.2.2.phys.space ∧ (p.unit = 1 ↔ q.2.2.phys.unit = 1) ∧
        q.2.2.phys.addr ≤ p.addr ∧ p.addr < q.2.2.phys.addr + q.2.1
  | .cbar _ a b => (s.sread t b).toNat / 2 ^ 32 % 4 < 2 ∧ scalarStored s t (s.sread t a) 8 .both p
  | .preq _ _ _ => p.space = .host ∧ ∃ c, s.ctx? t.ctx = some c ∧
      let base := c.prbase.toNat
      let entry := base + 64 + 32 * (s.host.mem.read (base + 4) 4 % 2 ^ c.prlog2n)
      (base + 4 ≤ p.addr ∧ p.addr < base + 8) ∨ (entry ≤ p.addr ∧ p.addr < entry + 32)
  | _ => False

/-- Whether byte `x` of the team's core's scratchpad is one that SST, SSCAT or SSTC stores. -/
def Sys2Proof.Machine.storedInScratch (s : State) (t : Team) (i : Instr) (x : Nat) : Prop :=
  let within := fun (o n : Nat) => t.ident.scrBase + o ≤ x ∧ x < t.ident.scrBase + o + n
  match i with
  | .sst _ a b => within (s.sread t a + s.sread t b).toNat 4
  | .sscat _ a b => ∃ n ∈ t.guarded (t.vread a).len, within (s.sread t b + ((t.vread a).lane n).setWidth 64).toNat 4
  | .sstc _ a b => within (s.sread t b).toNat (t.vread a).image.length
  | _ => False

/-- The frame of the other instructions, with no update pairs waiting, no FXADD line, no error ring and no log to
append to: one that goes on either stops as a whole, or leaves every byte of every memory and scratchpad but those
that it stores as before; the control registers of dies and contexts but for CSRW; of its team every scalar
register and vector register but its destinations, every mask, the generator and the budget, and, but for the
instructions named, CC, MODE, the mask stack, the tiles, the trap registers and the rays; and no other team's
registers change. -/
def Obligations.FrameOfOtherInstructions : Prop :=
  ∀ (s s' : State) (t : Team) (i : Instr), Issues s t i → elsewhere i = true →
    s.die0.bins = [] → s.die1.bins = [] → s.die0.fxLines = [] → s.die1.fxLines = [] →
    s.die0.regs.errring = 0#64 → (∀ k, i = .mark k → s.logs t.ctx = false) →
    ((∃ d a b, i = .rsave d a b ∨ i = .cbar d a b) →
      (s.core t.coreId).regions = [] ∧ ∀ x, s.ctx? t.ctx = some x → x.eff.rgncnt = 0#64) →
    exec i s = .next s' → (∃ e, s' = s.takeStop t e) ∨
      ((∀ p, ¬storedElsewhere s t i p → s'.peek p 1 = s.peek p 1) ∧
        (∀ c x, ¬(c = t.coreId ∧ storedInScratch s t i x) →
          (s'.core c).scratch.byte x = (s.core c).scratch.byte x) ∧
        ((∀ r k, i ≠ .csrw r k) → (∀ d, (s'.die d).regs = (s.die d).regs) ∧ ∀ n c, s.ctx? n = some c →
          ∃ e, s'.ctx? n = some e ∧ e.regs = c.regs ∧ e.tvec = c.tvec ∧ e.ctxctl = c.ctxctl) ∧
        (∀ x, x.uid ≠ t.uid → s.team? x.uid = some x →
          ∃ y, s'.team? x.uid = some y ∧ y.sregs = x.sregs ∧ y.vregs = x.vregs ∧ y.masks = x.masks ∧ y.pc = x.pc) ∧
        ∃ u, s'.team? t.uid = some u ∧
          (∀ n < 64, n ∉ scalarsWritten i → (i = .eret → n < 60) → u.getS n = t.getS n) ∧
          (∀ n, n ∉ vectorsWritten i → u.vregs[n]? = t.vregs[n]?) ∧ u.masks = t.masks ∧
          (i ≠ .eret → u.cc = t.cc ∧ u.mode = t.mode ∧ u.inHandler = t.inHandler) ∧
          (i ≠ .exit → i ≠ .epend → u.stack = t.stack) ∧ u.key = t.key ∧ u.ctr = t.ctr ∧ u.budget = t.budget ∧
          (t.active = [] → u.loops = t.loops ∧ u.active = []) ∧
          ((∀ d a, i ≠ .malloc d a) → u.tiles = t.tiles) ∧
          ((∀ r k, i ≠ .csrw r k) → u.trap = t.trap ∧ u.nlog = t.nlog ∧ u.nlend = t.nlend) ∧
          ((∀ d a, i ≠ .trace d a ∧ i ≠ .defer d a ∧ i ≠ .retire d a) → i ≠ .exit → i ≠ .epend →
            u.rays = t.rays) ∧ u.ident = t.ident)

/-! ### Reset and the invariant -/

/-- What device reset leaves: the die registers of Table 19.9 that have a reset value, no DSM, the completion
counters, the predictors and the banks at 0, no context, no team, no task, no ray and no update pair (R20, R175, R176,
R187, R189, R197, R229, R257, R348, R405); and, which no rule gives and the model chooses (log entries 2 and 3), TIME
and CYCLES at 0 and every byte of DSM 0. -/
def Obligations.ResetValues : Prop :=
  let s := State.reset
  s.teams = [] ∧ s.ctxs = [] ∧ s.tasks = [] ∧ s.host.mbox = [] ∧ s.host.peerTimeout = 100000 ∧
  (∀ d, (s.die d).regs.slicecfg = 0x43#64 ∧ (s.die d).regs.pltbase = 0#64 ∧ (s.die d).regs.vwin = 0xC#64 ∧
    (s.die d).regs.lease = 0x200#64 ∧ (s.die d).regs.closq = 0xFFFF#64 ∧ (s.die d).regs.soruscfg = 0x800#64 ∧
    (s.die d).regs.skcfg = 0x0C10020008000020#64 ∧ (s.die d).regs.derate = 0x000540100469645F#64 ∧
    (s.die d).regs.errring = 0#64 ∧ (s.die d).bins = [] ∧ (s.die d).rays = [] ∧ (s.die d).hints = []) ∧
  (∀ d, (s.die d).dsmSize = 0 ∧ s.time d = 0 ∧ ∀ a, (s.die d).dsm.byte a = 0#8) ∧
  ∀ c, (∀ k, s.counter c k = 0#32) ∧ (s.core c).predictor = [] ∧ (s.core c).cycles = 0 ∧
    ∀ a n, (s.core c).bank0.read a n = 0 ∧ (s.core c).bank1.read a n = 0

/-- Right after reset every memory is in canonical form. -/
def Obligations.ResetMemoryCanonical : Prop := State.reset.memWf = true

/-- Every step keeps every memory in canonical form: GDDR7 and the shared caches, DSM, treelets, scratchpads,
table banks, L1 lines, the host's memory and the fabric's. -/
def Obligations.StepKeepsMemoryCanonical : Prop :=
  ∀ s s' : State, s.memWf = true → step s = .next s' → s'.memWf = true

/-! ### Device steps: each is taken where its condition holds

The subject of a device step stands in `arg` (log entry 6). -/

/-- A device step is taken, and `P` holds of the state that it leaves. -/
def Sys2Proof.Machine.Takes (s : State) (e : Instr) (P : State → Prop) : Prop := ∃ r, exec e s = .next r ∧ P r

/-- A request that waits at a home is served once its home is free and no request for its line has come before it,
one that a migration held and forwarded included: a load sends the line's word to its core, where it fills the L1
unless it is NC or of DSM, a store stores its bytes at the home and sends its GWCT back, an atomic runs at the home
or under a new write lease, a barrier arrival is counted; an access of the device, the host or the fabric that a
migration held acts as it would have without one; one that reads a poisoned line is a machine check (R177, R179,
R180, R190, R197, R216, R325, R365). The mesh takes no other request but the device's own stores to a held page. -/
def Sys2Proof.Machine.RequestsServed : Prop :=
  ∀ (s : State) (q : MeshReq) (before after : List MeshReq), let d := s.arg.die
    (s.die d).mesh = before ++ q :: after → s.arg.n = before.length → s.busyAt q.core q.loc = false →
    (∀ x ∈ before, homeKey x.loc ≠ homeKey q.loc) → (s.die q.loc.unit).olderHeld (homeKey q.loc) q.seq = false →
    let taken := (s.asClass q.ctx).modDie d fun k => { k with mesh := before ++ after }
    let finish := fun (r : State) (op n : Nat) (b c : Word) (dest : Nat) =>
      let a := r.atomicAt q.core q.loc q.nc op n b.toNat c.toNat
      let done := fun (t : Team) => { t.setS dest (BitVec.ofNat 64 a.2.1) with pend := none }
      ((a.1.joinGwct q.uid a.2.2).modTeam q.uid done).markReady q.uid
    let sound := s.poisoned q.loc = false
    (∀ dest n, q.kind = .load dest n → sound → Takes s .homeRead fun r =>
      (∃ held, (r.die d).mesh = before ++ after ++ held ∧
        ((∀ b ∈ (s.die q.loc.unit).bins, b.line = lineOf q.loc.addr → b.op ≠ 9) → held = [])) ∧
      ∃ p, (r.core q.core).replies = (s.core q.core).replies ++ [p] ∧ p.uid = q.uid ∧ p.d = dest ∧ p.n = n ∧
        p.loc = q.loc ∧ p.nc = q.nc ∧ p.data = (r.space q.loc.space q.loc.unit).slice (lineOf q.loc.addr) 128 ∧
        (p.fills = true ↔ q.loc.space = .gddr ∧ q.nc = false)) ∧
    (∀ dest n t, q.kind = .load dest n → s.poisoned q.loc = true → s.team? q.uid = some t →
      exec .homeRead s = .next (taken.takeStop t (s.poisonStop q.loc))) ∧
    (∀ bytes, q.kind = .store bytes → q.uid ≠ 0 →
      let a := match q.loc.space with
        | .gddr =>
          let h := taken.homeStore q.core q.loc.unit q.loc.addr bytes
          (h.1.refreshL1 q.core q.loc.unit q.loc.addr bytes.length, h.2)
        | _ => (taken.noteRequest q.loc.unit (homeKey q.loc) q.core).dsmStore q.loc.unit q.loc.addr bytes
      let n := a.1.sendNumber
      exec .homeStore s = .next (n.2.modDie q.loc.unit fun k => { k with
        acks := k.acks ++ [{ uid := q.uid, core := q.core, loc := q.loc, gwct := a.2, sent := n.1 }] })) ∧
    (∀ bytes, q.kind = .store bytes → q.uid = 0 →
      exec .homeStore s = .next (taken.homeStore q.core q.loc.unit q.loc.addr bytes).1) ∧
    (∀ bytes, q.kind = .device bytes →
      exec .homeStore s = .next (taken.deviceStore q.loc.unit q.loc.addr bytes)) ∧
    (∀ bytes, q.kind = .host bytes → exec .homeStore s = .next (taken.hostStore q.loc.unit q.loc.addr bytes)) ∧
    (q.kind = .read → sound →
      exec .homeRead s = .next (taken.homeRead q.core q.loc.unit (lineOf q.loc.addr) false)) ∧
    (∀ op n b c dest, q.kind = .atomic op n b c dest → sound →
      (taken.runsAtHome q.core q.loc q.nc = true →
        exec .homeAtomic s = .next (finish taken op n b c dest)) ∧
      (taken.runsAtHome q.core q.loc q.nc = false → exec .writeLeaseGrant s =
        .next (finish (taken.grantLease q.core q.loc.unit (lineOf q.loc.addr)) op n b c dest))) ∧
    ∀ mode target dest, q.kind = .barrier mode target dest → sound →
      let a := taken.arrive q.core q.loc target
      let free := (a.1.joinGwct q.uid a.2.2).modTeam q.uid fun t => { t with pend := none }
      exec .cbarArrival s = .next ((free.arrived q.uid dest mode q.loc a.2.1).markReady q.uid)

/-- What comes back to a core completes its access, in the order in which a home sent it: a load's reply writes s[D]
and its line enters the L1 under its lease, unless a later read of the line, a store of the core or an LINV has
overtaken it; a store's GWCT joins its team, and the task of one that has exited; a DSM operation leaves the combined
word in the bank (R38, R39, R177, R180, R211, R217, R325). -/
def Sys2Proof.Machine.RepliesArrive : Prop :=
  ∀ s : State,
    (∀ (before after : List LoadReply) (p : LoadReply), (s.core s.arg.core).replies = before ++ p :: after →
      s.arg.n = before.length → s.replyBefore s.arg.core p.loc p.sent = false → Takes s .loadReply fun r =>
        (r.core s.arg.core).replies = before ++ after ∧
        (p.fills = true → ∃ l ∈ (r.core s.arg.core).l1,
          l.die = p.loc.unit ∧ l.line = lineOf p.loc.addr ∧ l.data = p.data ∧ l.exp = p.exp) ∧
        ∀ t, s.team? p.uid = some t → ∃ since, r.team? p.uid = some
          { t.setS p.d (BitVec.ofNat 64 (p.data.read p.loc.addr p.n)) with pend := none, readySince := since } ∧
          (t.goesOn = false → since = (s.core t.coreId).cycles)) ∧
    (∀ (before after : List Ack) (a : Ack), (s.die s.arg.die).acks = before ++ a :: after →
      s.arg.n = before.length → s.replyBefore a.core a.loc a.sent = false → Takes s .storeAck fun r =>
        (r.die s.arg.die).acks = before ++ after ∧
        (∀ t, s.team? a.uid = some t → ∃ u, r.team? a.uid = some u ∧ u.outstanding = t.outstanding - 1 ∧
          u.gwct = max t.gwct a.gwct) ∧
        ∀ x, s.team? a.uid = none → s.leftovers.find? (fun x => x.uid == a.uid) = some x → x.wave = false →
          ∀ k ∈ s.tasks, k.loc = x.task → { k with gwct := max k.gwct a.gwct } ∈ r.tasks) ∧
    ∀ (before after : List DsmReq) (q : DsmReq), (s.die s.arg.die).dsmQ = before ++ q :: after →
      s.arg.n = before.length → (∀ x ∈ before, ¬(x.uid = q.uid ∧ x.addr = q.addr)) → s.memWf = true →
      (q.op = 0 ∨ s.poisoned { space := .dsm, unit := q.die, addr := q.addr } = false) →
      q.addr + 4 ≤ (s.die q.die).dsmSize →
      let old := BitVec.ofNat 32 ((s.die q.die).dsm.read q.addr 4)
      Takes s .dsmElementOp fun r => (r.die s.arg.die).dsmQ = before ++ after ∧
        (r.die q.die).dsm.read q.addr 4 = (dsmCombine q.etype q.op q.rounding old q.val).toNat ∧
        ∀ t, s.team? q.uid = some t → ∃ u, r.team? q.uid = some u ∧ u.outstanding = t.outstanding - 1

/-- A peer access is served by its target core, its reply completes the access or takes REMOTE_ACCESS, and past the
timeout the team takes REMOTE_TIMEOUT (R209, R403 to R405). Without a team of that rank on the core, or past its
allocation, the answer is code 10, and for an uncorrectable word code 32. The requests of one core, and the replies
of one, come in their order (R325). -/
def Sys2Proof.Machine.PeersAnswer : Prop :=
  ∀ s : State, let c := s.arg.core
    (∀ (before after : List PeerReq) (q : PeerReq), (s.core c).inbound = before ++ q :: after →
      s.arg.n = before.length → (∀ x ∈ before, x.back ≠ q.back) → Takes s .inboundPeerAccess fun r => (r.core c).inbound = before ++ after ∧
        let failed := fun (p : PeerReply) (code : Nat) => p.failed = true ∧
          p.syndrome = peerSyndrome c code q.write.isSome ∧ (r.core c).scratch = (s.core c).scratch
        ∃ p, (r.core q.back).peerReplies = (s.core q.back).peerReplies ++ [p] ∧ p.uid = q.uid ∧ p.since = q.since ∧
          p.from_ = c ∧ (s.peerTeam? q.wave q.ctx q.task q.cluster q.rank = none → failed p 10) ∧
          ∀ t, s.peerTeam? q.wave q.ctx q.task q.cluster q.rank = some t →
            let a := t.ident.scrBase + q.offset
            let there := t.coreId = c ∧ q.offset < 4096 * t.ident.scrG
            (¬there → failed p 10) ∧
            (there → (s.core c).badAt a 4 = true → failed p 32) ∧
            (there → (s.core c).badAt a 4 = false → p.failed = false ∧
              p.word = BitVec.ofNat 32 ((s.core c).scratch.read a 4) ∧
              (∀ v, q.write = some v → (r.core c).scratch = (s.core c).scratch.setBytes a (leBytes 4 v.toNat)) ∧
              (q.write = none → (r.core c).scratch = (s.core c).scratch))) ∧
    (∀ (before after : List PeerReply) (p : PeerReply), (s.core c).peerReplies = before ++ p :: after →
      s.arg.n = before.length → (∀ x ∈ before, x.from_ ≠ p.from_) →
      let taken := s.modCore c fun k => { k with peerReplies := before ++ after }
      (s.team? p.uid = none → exec .peerReply s = .next taken) ∧
      ∀ t dest rank offset core, s.team? p.uid = some t → t.pend = some (.peer dest rank offset core p.since) →
        let u := { t with pend := none, readySince := (s.core t.coreId).cycles }
        (p.failed = true → exec .peerReply s = .next (taken.takeTrap u
          { code := 18, taddr := BitVec.ofNat 64 offset, tinfo := p.syndrome })) ∧
        (p.failed = false → exec .peerReply s = .next (taken.putTeam (Team.advance (match dest with
          | some n => u.setS n (p.word.setWidth 64)
          | none => u))))) ∧
    ∀ t dest rank offset core since, s.team? s.arg.n = some t →
      t.pend = some (.peer dest rank offset core since) → since + s.host.peerTimeout ≤ s.time t.ident.die →
      let info := BitVec.ofNat 64 (core % 64 + 2 ^ 6 * (core / 64))
      let u := { t with pend := none, readySince := (s.core t.coreId).cycles }
      exec .peerTimeout s = .next ((s.takeTrap u
        { code := 19, taddr := BitVec.ofNat 64 offset, tinfo := info }).report
          { kind := 4, code := 19, ctx := t.ctx, die := t.ident.die, unit := t.ident.core,
            addr := BitVec.ofNat 64 offset, info := info })

/-- Write leases end by recall or after their time; the host and the fabric read and write lines at their homes, where
firmware runs, a way leads there and, for the host, an HDM decoder exposes the line, and a host write is complete
when TIME reaches its GWCT plus 2; an access to a page that migrates waits in the mesh; a dirty line is written back,
an uncorrectable copy with it (R15, R167, R190, R197, R250, R330, R338, R365, R398). The numbering of device memory
by which a decoder exposes it is the model's (log entry 55). -/
def Sys2Proof.Machine.LinesAtTheirHomes : Prop :=
  ∀ s : State, let d := s.arg.die
    let n := s.arg.n
    let k := s.die d
    let bytes := s.arg.bytes
    let ended := s.modDie d fun k => { k with wleases := k.wleases.filter fun w => w.line != n }
    let inLine := d < s.nDies ∧ n + bytes.length ≤ s.gddrSize ∧ n % 128 + bytes.length ≤ 128
    let held := k.deviceHeld (lineOf n)
    let waits := fun (kind : ReqKind) (who : Nat) => s.modDie d fun k => { k with
      mesh := k.mesh ++ [deviceReq kind 0xFFFF who d n k.time] }
    let hostGoes := s.homeBusy (edgeRequester 0) d (lineOf n) = false
    let port := s.host.fwok = true ∧ s.portCut d s.arg.core d n = false
    let window := fun (r : State) => r.reportWindow d s.arg.core n s.arg.m s.arg.k
    ((∃ w ∈ k.wleases, w.line = n) → exec .leaseRecall s = .next ended) ∧
    ((∃ w ∈ k.wleases, w.line = n ∧ w.expiry ≤ k.time) → exec .writeLeaseExpiry s = .next ended) ∧
    (d < s.nDies → n < s.gddrSize → s.hostReaches d n = true →
      (held = true → exec .hostRead s = .next (waits .read (edgeRequester 0))) ∧
      (held = false → hostGoes →
        exec .hostRead s = .next (s.homeRead (edgeRequester 0) d (lineOf n) false))) ∧
    (s.arg.ok = true → s.hostOrdered = true → exec .hostWrite s =
      .next { s with host := { s.host with mem := s.host.mem.setBytes n bytes } }) ∧
    (s.arg.ok = false → inLine → s.hostReaches d n = true →
      (held = true → exec .hostWrite s = .next (waits (.host bytes) (edgeRequester 0))) ∧
      (held = false → hostGoes →
        let stored := s.homeStore (edgeRequester 0) d n bytes
        exec .hostWrite s = .next { stored.1 with host := { stored.1.host with
          writeDone := max stored.1.host.writeDone (stored.2 + 2) } })) ∧
    (inLine → port →
      (held = true → exec .fabricWriteArrival s = .next (window (waits (.store bytes) (edgeRequester d)))) ∧
      (held = false → s.homeBusy (edgeRequester d) d (lineOf n) = false →
        exec .fabricWriteArrival s = .next (window (s.homeStore (edgeRequester d) d n bytes).1))) ∧
    (n ∈ k.dirty → Takes s .sharedCacheWriteBack fun r => n ∉ (r.die d).dirty ∧ (r.die d).mem = k.mem ∧
      (n ∈ k.poison → n ∈ (r.die d).dramPoison) ∧
      (k.dram.wf = true → ∀ a, (n ≤ a ∧ a < n + 128 → (r.die d).dram.byte a = k.mem.byte a) ∧
        (a < n ∨ n + 128 ≤ a → (r.die d).dram.byte a = k.dram.byte a)))

/-- A pair leaves its buffer when its home's intake has room, and pairs of a RETIRE that wait for room enter after
the others; it is accepted in its order, and a bin may be applied at any time: each word of a bin whose operation is not FXADD then holds the old word combined with the word's
contributions, and no other byte changes (R223, R228, R229, R231). -/
def Sys2Proof.Machine.PairsReachMemory : Prop :=
  ∀ s : State, let d := s.arg.die
    (∀ p rest, lookup [] s.arg.n (s.core s.arg.core).streams = p :: rest →
      ((s.die p.die).flight.filter fun x => homeSlice x.addr == homeSlice p.addr).length < 256 →
      (s.arg.core / 64 = p.die ∨ s.linkWorks = true) → Takes s .pairInject fun r =>
        (r.die p.die).flight = (s.die p.die).flight ++ [{ p with
          seq := (s.die p.die).arrival { space := .gddr, unit := p.die, addr := p.addr } }] ∧
        (∃ entered, lookup [] s.arg.n (r.core s.arg.core).streams = rest ++ entered) ∧
        ((∀ e ∈ (s.core s.arg.core).entering, e.sched ≠ s.arg.n) →
          lookup [] s.arg.n (r.core s.arg.core).streams = rest)) ∧
    (∀ before p after, (s.die d).flight = before ++ p :: after → s.arg.n = before.length →
      s.pairWaits p before = false →
      exec .homeAcceptPair s = .next ((s.modDie d fun k => { k with flight := before ++ after }).acceptPair p)) ∧
    ∀ b, (s.die d).bins.find? (fun b => b.line == s.arg.n) = some b → Takes s .binApply fun r =>
      (b.op ≠ 9 → (s.die d).mem.wf = true → (b.words.map BinWord.idx).Nodup →
        (∀ w ∈ b.words, (r.die d).mem.read (b.line + 4 * w.idx) 4 = (regionApply b.op
          (BitVec.ofNat 32 ((s.die d).mem.read (b.line + 4 * w.idx) 4)) w.vals).toNat) ∧
        ∀ a, (∀ w ∈ b.words, a < b.line + 4 * w.idx ∨ b.line + 4 * w.idx + 4 ≤ a) →
          (r.die d).mem.byte a = (s.die d).mem.byte a)

/-- The steps of a migration: a refused page leaves STATUS 3, any other is held (that an MIGPTE or a PFN at or beyond
local GDDR7 is refused so is the model's, log entry 53); once its leases are over a multicast
goes to every core and slice, taking their landing slots one at a time, each core that has settled its accesses drops
its translations of the leaf, and then STATUS is 2 and the engine idle (R189 to R191, R327, R391, R397). -/
def Sys2Proof.Machine.PagesMove : Prop :=
  ∀ s : State, let d := s.arg.die
    let k := s.die d
    (d < s.nDies → k.regs.migctl.getLsbD 0 = true → k.migration.step = .idle → Takes s .migrationStart fun r =>
      let a := k.regs.migpte.toNat
      let read := (s.migReach d a).modDie d fun k => k.migStatus 1
      let leaf := BitVec.ofNat 64 ((read.die d).mem.read a 8)
      let locked := read.readLock d (leafPfn leaf)
      (s.gddrSize ≤ a ∨ locked.1.migRefused leaf locked.2 = true → (r.die d).regs.migctl = 6#64) ∧
      (a < s.gddrSize → locked.1.migRefused leaf locked.2 = false → (r.die d).regs.migctl = 2#64 ∧
        (r.die d).migration = { step := .holding, since := k.time, leafAddr := a, leaf := leaf
                                srcPage := leafPfn leaf, dstPage := k.regs.migdst.toNat / 65536 })) ∧
    (k.migration.step = .holding → s.migSettled d k.migration.srcPage = true → Takes s .migrationCopy fun r =>
      (r.die d).migration = { k.migration with step := .shooting } ∧
      (r.die d).multicasts = k.multicasts ++ [{ dests := s.everyTile, held := 0, leafDie := d
                                                leafAddr := k.migration.leafAddr, since := k.time }]) ∧
    (∀ before m after, k.multicasts = before ++ m :: after → s.arg.n = before.length →
      (s.nDies = 2 → s.linkWorks = true) →
      (∀ x rest, m.dests.drop m.held = x :: rest → s.landing x = false →
        exec .multicastDeliver s = .next (s.modDie d fun k => { k with
          multicasts := before ++ { m with held := m.held + 1 } :: after })) ∧
      (m.dests.drop m.held = [] → exec .multicastDeliver s = .next (s.modDie d fun k => { k with
        multicasts := before ++ after
        shoot := k.shoot ++ m.dests.map fun c => (c, m.leafDie, m.leafAddr) }))) ∧
    (∀ ld la, k.shoot.find? (fun x => x.1 == s.arg.core) = some (s.arg.core, ld, la) →
      (s.arg.core < 128 → s.pageSettled s.arg.core ld (s.die ld).migration.srcPage = true) →
      Takes s .shootdown fun r => (r.die d).shoot.length + 1 = k.shoot.length ∧
        (s.arg.core < 128 → ∀ e ∈ (r.core s.arg.core).tlb, ¬(e.leafDie = ld ∧ e.leafAddr = la))) ∧
    (k.migration.step = .shooting → (∀ c ∈ k.multicasts, c.leafAddr ≠ k.migration.leafAddr) →
      (∀ x ∈ k.shoot, x.2.2 ≠ k.migration.leafAddr) → Takes s .migrationFinish fun r =>
        (r.die d).migration = { k.migration with step := .idle } ∧ (r.die d).regs.migctl = 4#64)

/-- The steps of the homes, of what travels to and from them, and of the migration engine complete (when each
is taken, and with which subject, is the model's schedule, log entry 6; the order of a multicast and of a held page's
requests is log entry 30's, a host write's completion log entry 43's, the fields of records log entry 22's, and a
peer's write to an uncorrectable word log entry 49's). -/
def Obligations.HomeStepsComplete : Prop :=
  RequestsServed ∧ RepliesArrive ∧ PeersAnswer ∧ LinesAtTheirHomes ∧ PairsReachMemory ∧ PagesMove

/-- Nothing waits to be applied to memory, and every memory is in canonical form. -/
def Sys2Proof.Machine.State.still (s : State) : Prop :=
  s.die0.bins = [] ∧ s.die1.bins = [] ∧ s.die0.fxLines = [] ∧ s.die1.fxLines = [] ∧ s.memWf = true

/-- The operations on DEPCNT take effect at the record's home: TDEC and TINC count, and a pending record whose count
reaches 0 becomes ready; a TDEC at 0 and a TINC at the greatest count are reported and change nothing (R36, R213,
R384, R406). -/
def Sys2Proof.Machine.CountsUpdate : Prop :=
  ∀ (s : State) (before after : List DepOp) (op : DepOp), s.still → s.depQ = before ++ op :: after →
    s.arg.n = before.length → s.depWaits op before = false → s.poisoned op.loc = false → op.loc.space = .gddr →
    let r := s.record op.loc
    let n := s.peek op.loc 4
    let reached := (State.asClass { s with depQ := before ++ after } op.ctx).reachRecord op.loc.unit op.loc
    let taken := if op.checked = true then reached.reachQueue op.loc.unit r.queue else reached
    (op.checked = true → (s.queue r.queue).ctx ≠ op.ctx →
      exec .depcntUpdate s = .next (taken.reportRecord op.loc op.ctx 4 r.queue)) ∧
    (op.checked = false ∨ (s.queue r.queue).ctx = op.ctx →
      let enters := fun (x : State) => ∃ e, x.readyQ = s.readyQ ++ [e] ∧ e.loc = op.loc ∧ e.core = op.core
      (op.kind = .dec → (n = 0 → exec .depcntUpdate s =
          .next (taken.reportRecord op.loc op.ctx 1 (op.core % 64 + 2 ^ 6 * (op.core / 64)))) ∧
        (n ≠ 0 → Takes s .depcntUpdate fun x => x.depQ = before ++ after ∧ x.peek op.loc 4 = n - 1 ∧
          let due := n = 1 ∧ r.state = 0 ∧ s.becomesReady op.loc = false
          (due → enters x) ∧ (¬due → x.readyQ = s.readyQ))) ∧
      (op.kind = .inc → (n = 2 ^ 32 - 1 → exec .depcntUpdate s =
          .next (taken.reportRecord op.loc op.ctx 2 (op.core % 64 + 2 ^ 6 * (op.core / 64)))) ∧
        (n ≠ 2 ^ 32 - 1 → Takes s .depcntUpdate fun x => x.depQ = before ++ after ∧
          x.peek op.loc 4 = n + 1 ∧ x.readyQ = s.readyQ)) ∧
      (op.kind = .spawn → (r.state ≠ 0 → exec .depcntUpdate s =
          .next (taken.reportRecord op.loc op.ctx 3 r.state)) ∧
        (r.state = 0 → n ≠ 0 → exec .depcntUpdate s = .next taken) ∧
        (r.state = 0 → n = 0 → Takes s .depcntUpdate fun x => x.depQ = before ++ after ∧ enters x)))

/-- A task that became ready gets STATE 1 and stands on its queue's ready list or on a core's local list; a record of
no valid shape, or one that fits no rectangle of its queue's cores, gets STATE 3 and stands on none, and one that is
pending no longer has been queued already and is not queued again (R33, R36, R322, R407). -/
def Sys2Proof.Machine.TasksBecomeReady : Prop :=
  ∀ (s : State) (before after : List ReadyOp) (e : ReadyOp), s.still → s.readyQ = before ++ e :: after →
    s.arg.n = before.length → (∀ x ∈ before, x.core ≠ e.core) →
    s.recordBusy (engineRequester e.loc.unit) e.loc = false → e.loc.space = .gddr →
    s.queueBusy e.loc.unit (s.record e.loc).queue = false →
    let r := s.record e.loc
    let q := s.queue r.queue
    let fits := r.valid = true ∧ rectInMask r.clw r.clh q.cmask = true
    (r.state ≠ 0 → Takes s .taskReady fun x => x.readyQ = before ++ after ∧ (x.record e.loc).state = r.state ∧
      (x.die q.die).ready = (s.die q.die).ready ∧ (x.die q.die).locals = (s.die q.die).locals) ∧
    (r.state = 0 → fits → Takes s .taskReady fun x => x.readyQ = before ++ after ∧ (x.record e.loc).state = 1 ∧
      ∃ t core, t.loc = e.loc ∧ t.prio = r.prio ∧
        ((x.die q.die).ready = (s.die q.die).ready ++ [t] ∧ (x.die q.die).locals = (s.die q.die).locals ∨
         (x.die q.die).locals = (s.die q.die).locals ++ [(core, t)] ∧
          (x.die q.die).ready = (s.die q.die).ready)) ∧
    (r.state = 0 → ¬fits → Takes s .taskReady fun x => x.readyQ = before ++ after ∧
      (s.die0.regs.errring = 0#64 → (x.record e.loc).state = 3) ∧
      (x.die q.die).ready = (s.die q.die).ready ∧ (x.die q.die).locals = (s.die q.die).locals)

/-- The record that a ring entry names is submitted: with no dependence left it becomes ready; an entry that is
not 64-byte aligned or that does not translate is reported; one whose page table or record waits for its home is
not submitted yet (R36, R190, R407). -/
def Sys2Proof.Machine.EntriesSubmit : Prop :=
  ∀ (s : State) (q : QDesc) (entryAt : Nat) (entry : Word), s.still →
    let walk := s.translateResident (deviceWalker q.die q.ctx) entry .read [0, 1]
    let bad := fun (x : State) => x.reportDist q.die q.ctx 7 (BitVec.ofNat 64 entryAt) entry.toNat
    (wordBits entry 0 6 ≠ 0 → s.submitEntry q entryAt entry = some (bad s)) ∧
    (wordBits entry 0 6 = 0 → ∀ trap, walk = .error (.trap trap) → s.submitEntry q entryAt entry = some (bad s)) ∧
    (wordBits entry 0 6 = 0 → walk = .error .hold → s.submitEntry q entryAt entry = none) ∧
    (wordBits entry 0 6 = 0 → ∀ x m, walk = .ok (x, m) → x.still → x.poisoned m.phys = false →
      x.recordBusy (engineRequester q.die) m.phys = false →
      let due := (x.record m.phys).state = 0 ∧ (x.record m.phys).depcnt = 0 ∧ x.becomesReady m.phys = false
      ∃ y, s.submitEntry q entryAt entry = some y ∧
        (due → ∃ e, y.readyQ = x.readyQ ++ [e] ∧ e.loc = m.phys ∧ e.ctx = q.ctx ∧ e.host = true ∧
          e.core = 64 * q.die + q.homecore) ∧
        (¬due → y.readyQ = x.readyQ))

/-- A distributor takes the next entry of an enabled queue, submits it and moves CONS on; with none left it sets IDLE,
looks at PROD again two ticks later, and a doorbell wakes an idle queue, once firmware runs; a bad descriptor is noted
once (R36, R313, R338, R407). -/
def Sys2Proof.Machine.QueuesAdvance : Prop :=
  ∀ s : State, s.still → let d := s.arg.die
    let q := s.arg.n
    let k := s.queue q
    let turn := q < 32768 ∧ d < s.nDies ∧ k.die = d ∧ k.enable = true ∧ s.queueBusy d q = false
    (turn → k.bad = true → q ∉ (s.die d).badQueues → Takes s .queueConsume fun r => q ∈ (r.die d).badQueues) ∧
    (turn → k.bad = false → k.idle = false → s.ctxRuns k.ctx = true →
      (k.cons ≠ k.prod → s.replaying k.ctx = false →
        let entryAt := k.ring + 8 * (k.cons % 2 ^ k.log2n)
        let entry := BitVec.ofNat 64 (s.die0.mem.read entryAt 8)
        let reached := ((s.reachQueue d q).modDie d fun k => { k with
          badQueues := k.badQueues.filter (fun x => x != q) }).reachHome (engineRequester d) 0 (lineOf entryAt)
        let logged := reached.logEvent k.ctx d 2 [BitVec.ofNat 64 (q + 2 ^ 32 * k.cons), entry]
        s.homeBusy (engineRequester d) 0 (lineOf entryAt) = false → ∀ x, logged.submitEntry k entryAt entry = some x →
        exec .queueConsume s = .next (x.putQueue q 0x0C ((k.cons + 1) % 2 ^ 32))) ∧
      (k.cons = k.prod → Takes s .queueConsume fun r => (r.queue q).idle = true ∧
        ∃ g, (q, g) ∈ (r.die d).queueStop)) ∧
    (∀ g, (s.die d).queueStop.find? (fun p => p.1 == q) = some (q, g) → g + 2 ≤ s.time d →
      s.queueBusy d q = false → Takes s .queueIdleRecheck fun r => (r.die d).queueStop = removeAt q (s.die d).queueStop ∧
        (k.enable = true → k.idle = true → k.prod ≠ k.cons → (r.queue q).idle = false)) ∧
    let n := s.arg.w.toNat % 2 ^ 15
    let rings := s.queueBusy 0 n = false ∧ s.hostOrdered = true ∧ s.host.fwok = true
    (rings → (s.queue n).serves = true → (s.queue n).idle = true → Takes s .queueDoorbell fun r =>
      (r.queue n).idle = false) ∧
    (rings → (s.queue n).serves = false ∨ (s.queue n).idle = false →
      exec .queueDoorbell s = .next (s.reachQueue 0 n))

/-- An exited team gives back its slot once its pipes are empty and its scratchpad once its copies have completed, and
is gone once its copies and pairs are; a completed task's successor decrements are made two ticks after its GWCT,
eight on a pair, once every store of its teams has returned its own (R37 to R39). -/
def Sys2Proof.Machine.TasksEnd : Prop :=
  ∀ s : State,
    (∀ t, s.team? s.arg.n = some t → s.ctxRuns t.ctx = true →
      let rest := s.tailBusy t = true ∨
        (t.ident.isWave = false ∧ s.recordBusy (engineRequester t.ident.die) t.ident.taskAt = true)
      (t.place = .exiting → s.pipesBusy t = false → Takes s .teamExited fun r =>
        (rest → ∃ u, r.team? s.arg.n = some u ∧ u.place = .left ∧ u.vregs = [] ∧ u.tiles = [] ∧
          u.binding = none ∧ u.ident.scrG = if s.copiesBusy t = true then t.ident.scrG else 0) ∧
        (¬rest → r.team? s.arg.n = none)) ∧
      (t.place = .exiting ∨ t.place = .left → t.ident.scrG ≠ 0 → s.copiesBusy t = false →
        Takes s .teamExited fun r => ∀ u, r.team? s.arg.n = some u → u.ident.scrG = 0) ∧
      (t.place = .left → ¬rest → Takes s .teamExited fun r => r.team? s.arg.n = none)) ∧
    ∀ before x after, s.succQ = before ++ x :: after → s.arg.n = before.length →
      x.gwct + (if s.nDies = 1 then 2 else 8) ≤ s.time x.die → s.linkWorks = true →
      (∀ u ∈ s.leftovers, u.task = x.loc → u.wave = true) →
      ∀ r, State.succRun { s with succQ := before ++ after } x = some r → exec .successorDecrement s = .next r

/-- A completed task lowers the DEPCNT of every successor in its list by one, in the list's order, and a pending
record that comes to 0 becomes ready; an entry that is not 64-byte aligned or does not translate drops its decrement
with a record (R35, R36, R39, R406). -/
def Sys2Proof.Machine.SuccessorsFall : Prop :=
  ∀ (s : State) (x : SuccOp) (header : Word) (s1 s2 : State) (l : List Word),
    let w := deviceWalker x.die x.ctx
    x.succ ≠ 0#64 → (s.asClass x.ctx).succWords w 1 0 x.succ = .ok (s1, [header]) → wordBits header 16 48 = 0 →
    s1.succWords w (wordBits header 0 16) 0 (x.succ + 8#64) = .ok (s2, l) →
    l.length = wordBits header 0 16 ∧ s.succRun x = s2.succEach x w 0 l ∧
    ∀ i e, l[i]? = some e → ∀ a, s2.succEach x w 0 (l.take i) = some a →
      (∀ b p, a.succTarget w e = .ok (b, p) → b.still → b.depWaits (x.decrement e p) [] = false →
        b.poisoned p = false → p.space = .gddr → b.peek p 4 ≠ 0 →
        ∃ c, s2.succEach x w 0 (l.take (i + 1)) = some c ∧ c.peek p 4 = b.peek p 4 - 1 ∧
          let due := b.peek p 4 = 1 ∧ (b.record p).state = 0 ∧ b.becomesReady p = false
          (due → ∃ r, c.readyQ = b.readyQ ++ [r] ∧ r.loc = p ∧ r.core = x.core) ∧ (¬due → c.readyQ = b.readyQ)) ∧
      ∀ trap, a.succTarget w e = .error (.trap trap) →
        s2.succEach x w 0 (l.take (i + 1)) = some (a.reportDist x.die x.ctx 11 e (2 ^ 32 * i))

/-- An attempt of a distributor starts the first candidate that fits, and notes the first one where it has failed;
with no candidate nothing is due; none is made before every return of the cycle is counted. A task's teams start at its entry with TEAMIDs from NEXT on, s0 as the parameters,
and their registers, masks, MODE, CC, generator, budget and tiles at their starting values (R37, R40, R41, R317,
R321, R343, R344). -/
def Sys2Proof.Machine.TeamsStart : Prop :=
  (∀ s : State, let d := s.arg.die
    (s.returnsDue d = true → ∀ r, exec .placementAttempt s ≠ .next r) ∧
    (d < s.nDies → s.attemptDue d (s.offers d) = true →
      (s.offers d = [] → Takes s .placementAttempt fun r => (r.die d).placeDue = false ∧
        (r.die d).first = none) ∧
      ∀ o os, s.offers d = o :: os →
        let tried := s.modDie d fun k => { k.endHold (some o.cand) with attemptAt := s.baseCycles + 1 }
        (tried.startFirst d (o :: os) = none → Takes s .placementAttempt fun r => (r.die d).placeDue = false ∧
          ∃ since, (r.die d).first = some (o.cand, since)) ∧
        ∀ s' o', tried.startFirst d (o :: os) = some (s', o') → Takes s .placementAttempt fun r =>
          (r.die d).placeDue = true ∧ r.teams = s'.teams ∧
          (o'.cand = o.cand → (r.die d).first = none ∧ (r.die d).hold = none))) ∧
  ∀ (s : State) (d : Nat) (ref : TaskRef) (spots : List Spot) (i : Nat), (h : i < spots.length) →
    let r := ((s.asClass ref.ctx).reachRecord d ref.loc).record ref.loc
    ∃ t ∈ (s.startTask d ref spots).teams, t.ident.teamid = r.next + i ∧ t.ident.rank = i ∧ t.ctx = ref.ctx ∧
      t.ident.core = spots[i].core % 64 ∧ t.ident.sched = spots[i].sched ∧ t.ident.slot = spots[i].slot ∧
      t.place = .resident ∧ t.pc = r.entry ∧ t.getS 0 = r.params ∧ (∀ n, 0 < n → n < 64 → t.getS n = 0#64) ∧
      t.vregs = List.replicate r.vregs (zeroVReg r.lanes) ∧ t.mode = 0#16 ∧ t.cc = 0#4 ∧ t.stack = [] ∧
      (∀ n, 0 < n → n < 16 → t.mask n = 0#1024) ∧ t.active = [] ∧ t.inHandler = false ∧
      t.key = BitVec.ofNat 64 (r.next + i) ∧ t.ctr = 0#64 ∧ t.budget = r.budget ∧ t.tiles.length = r.acc

/-- The steps of tasks, queues and placement complete (when each is taken is the model's schedule, log entry 6; that
an operation on DEPCNT tests ownership first, that a record becomes ready once, and that a bad descriptor is noted
once is log entry 31's, and what an attempt leaves is log entry 32's). -/
def Obligations.TaskStepsComplete : Prop :=
  CountsUpdate ∧ TasksBecomeReady ∧ EntriesSubmit ∧ QueuesAdvance ∧ TasksEnd ∧ SuccessorsFall ∧ TeamsStart

/-- A team whose wait has been met is ready again, where its wake-up is sent once the core's landing slot is free; one
that is asked to leave leaves with its frame saved, or stays and the lack of a frame is reported; a waiting candidate
of 10,000 ticks asks teams of lower classes to leave, each with a frame, and counts anew where none can; records are
granted to the waves' queue first, head after head (R45, R52, R286, R321, R327, R349, R361, R390). -/
def Sys2Proof.Machine.TeamsLeaveAndWake : Prop :=
  ∀ s : State, let n := s.arg.n
    let d := s.arg.die
    (∀ t k, s.team? n = some t → t.wait = some { kind := k, fired := true } → t.isResident = true →
      s.ctxRuns t.ctx = true → (k.isSent = true → s.landing t.coreId = false) → exec .teamWake s =
        .next (s.putTeam { t with
          wait := none, readySince := (s.core t.coreId).cycles, cameWaiting := false
          donationOver := t.donationOver || (t.donated && !t.cameWaiting) })) ∧
    (∀ t, s.team? n = some t → t.preemptReq = true → t.isResident = true → t.pend = none →
      s.ctxRuns t.ctx = true →
      (t.frame = none → exec .teamPreempted s = .next ((s.putTeam
        { t with preemptReq := false, frame := none }).reportNoFrame t.coreId t.ctx (s.heldAddr t.ident.die))) ∧
      ∀ f, t.frame = some f →
        (∀ r, s.saveTeam t f = .ok r → exec .teamPreempted s = .next r ∧ ∃ u, r.team? n = some u ∧
          u.preemptReq = false ∧ u.isResident = false ∧ u.frame = some f ∧
          (∀ m ∈ (r.core t.coreId).mats, m.uid ≠ n) ∧ ∀ x ∈ (r.core t.coreId).xfs, x.uid ≠ n) ∧
        (∀ trap, s.saveTeam t f = .error (.trap trap) → exec .teamPreempted s = .next ((s.putTeam
          { t with preemptReq := false, frame := none }).reportNoFrame t.coreId t.ctx (s.heldAddr t.ident.die))) ∧
        ∀ struct code a, s.saveTeam t f = .error (.check struct code a) →
          exec .teamPreempted s = .next (s.takeStop t (.check struct code a))) ∧
    (∀ c since o os, (s.die d).first = some (c, since) → s.offers d = o :: os → o.cand = c →
      since + 10000 ≤ s.time d → s.leaving d = false → s.replaying o.ctx = false →
      (s.teams.map Team.uid).Nodup →
      let s' := s.modDie d fun k => { k with hold := none }
      s'.pickCores (fun _ => false) d o = none →
      let gone := fun (t : Team) => t.isResident && decide (o.prio < t.ident.prio)
      ((s.pickCores gone d o).or (s'.pickCores gone d o)).isSome →
      Takes s .preemptForCandidate fun r => (r.leaving d = true → ∃ h, (r.die d).hold = some h ∧ h.cand = c) ∧
        (r.leaving d = false → (r.die d).hold = (s.die d).hold ∧ (r.die d).first = some (c, s.time d)) ∧
        ∀ t ∈ r.teams, t.ident.die = d → t.preemptReq = true → o.prio < t.ident.prio ∧ t.frame.isSome) ∧
    ∀ t, (s.poolHead d true = some t ∨
        (∀ w, s.poolHead d true = some w → s.poolGrants w w.poolAsk = false) ∧ s.poolHead d false = some t) →
      s.poolGrants t t.poolAsk = true → exec .poolGrant s =
        .next ((s.resumeWaiter t t.poolAsk).grantHeads d ((s.die d).waiters.length - 1))

/-- A pre-empted team takes the slot of watching teams after 50,000 ticks and gives it back when its own turn ends: at
a watched word that changes from then on, at its yield in that slot or at its exit; a wait that it was pre-empted on
is no yield (R55). -/
def Sys2Proof.Machine.SlotsAreDonated : Prop :=
  ∀ s : State,
    (∀ since p, s.watchSince.find? (fun p => p.1 == s.arg.core + 128 * s.arg.n) =
        some (s.arg.core + 128 * s.arg.n, since) → since + 50000 ≤ s.time (s.arg.core / 64) →
      s.spins s.arg.core s.arg.n = true → s.ctxRuns s.arg.n = true →
      s.lockHolder? s.arg.core s.arg.n = some p →
      let young := sortBy (fun (a b : Team) => decide (b.order ≤ a.order)) (s.teams.filter fun t =>
        t.coreId == s.arg.core && t.ctx == s.arg.n && t.isResident && t.watching)
      (s.displace p p.offer.need young = .ok none →
        exec .donationStart s = .next (s.reportNoFrame s.arg.core s.arg.n p.ident.taskAt.addr)) ∧
      ∀ s1 s2, s.displace p p.offer.need young = .ok (some s1) → s1.restoreHere p = some s2 →
        exec .donationStart s = .next (s2.modTeam p.uid fun t => { t with
          donated := true, donationOver := false, cameWaiting := t.wait.isSome })) ∧
    (∀ p, s.team? s.arg.n = some p → p.donated = true → s.ctxRuns p.ctx = true →
      (p.isResident = false →
        exec .donationEnd s = .next ((s.putTeam { p with donated := false }).undisplace s.arg.n)) ∧
      let ended := p.donationOver = true ∨ p.yielded = true ∨ (p.wait.isSome = true ∧ p.cameWaiting = false)
      let p' := { p with donated := false, donationOver := false, cameWaiting := false }
      (p.isResident = true → ¬ended → ∀ r, exec .donationEnd s ≠ .next r) ∧
      (p.isResident = true → p.pend = none → ended → ∀ c, s.ctx? p.ctx = some c → let s' := s.putTeam p'
        (s'.freeFrame? c = none → exec .donationEnd s =
          .next ((s'.reportNoFrame p.coreId p.ctx p.ident.taskAt.addr).undisplace s.arg.n)) ∧
        ∀ f r, s'.freeFrame? c = some f → s'.saveTeam p' f = .ok r →
          exec .donationEnd s = .next (r.undisplace s.arg.n)) ∧
      (∀ (f : Team → WaitKind → Bool) (w : Team) (k : WaitKind), w ∈ s.teams → w.uid ≠ p.uid →
        w.coreId = p.coreId → w.ctx = p.ctx → w.onWatch = true → w.wait = some { kind := k, fired := false } →
        f w k = true → s.waitHolds w k = true →
        ∃ u, (s.fireWaits f).team? s.arg.n = some u ∧ u.donationOver = true)) ∧
    (s.team? s.arg.n = none → (∃ t ∈ s.teams, t.displacedBy = some s.arg.n ∧ s.ctxRuns t.ctx = true) →
      exec .donationEnd s = .next (s.undisplace s.arg.n))

/-- An idle core asks the nearest core that it has not asked, and its request carries its free resources; the victim
claims the next TEAMID of its oldest task that the thief may take and that fits them, and the thief keeps the team's
resources, or it refuses; the thief starts the claimed team, or goes on, and waits 1,000 ticks after a round of
refusals (R323, R416). -/
def Sys2Proof.Machine.TasksAreStolen : Prop :=
  ∀ s : State, let c := s.arg.core
    let k := s.core c
    (c < 64 * s.nDies → s.coreIdle c = true → k.derate < 2 → k.tripped = false → k.cut = false →
      k.power ≠ .off → s.stitching c = false → s.host.d3hot = false → (s.die (c / 64)).hold = none →
      k.steal.victim = none → k.steal.claimed = none → k.steal.retry ≤ s.time (c / 64) →
      ∀ v, nextVictim c k.steal.tried = some v → Takes s .stealRequest fun r =>
        (r.core c).steal.victim = some v ∧ (r.core c).steal.answered = false ∧
        (r.core c).steal.carries = some (s.freeOf c) ∧ v / 64 = c / 64 ∧ v ≠ c ∧
        ∀ x < 64, 64 * (c / 64) + x ≠ c → 64 * (c / 64) + x ∉ k.steal.tried →
          meshDistance c v ≤ meshDistance c (64 * (c / 64) + x)) ∧
    (∀ v, k.steal.victim = some v → k.steal.answered = false →
      ((s.core v).power = .off ∨ s.stealable c v = none → Takes s .stealClaim fun r =>
        (r.core c).steal.answered = true ∧ (r.core c).steal.claimed = none) ∧
      ∀ ref rec, (s.core v).power ≠ .off → s.stealable c v = some (ref, rec) →
        s.recordBusy (engineRequester (c / 64)) ref.loc = false → Takes s .stealClaim fun r =>
        (r.core c).steal.answered = true ∧
        (r.core c).steal.claimed = some (ref.loc, ref.va, ref.ctx, rec.next) ∧
        (r.core c).steal.reserve = s.reserveFor c rec ∧ rec.nosteal = false ∧ rec.clw * rec.clh = 1 ∧
        ∃ k', k.steal.carries = some k' ∧
          k'.fits { budget := rec.budget, scrg := rec.scrg, acc := rec.acc } = true) ∧
    ∀ v, k.steal.victim = some v → k.steal.answered = true →
      (k.steal.claimed = none ∨ s.thiefOpen c = true) → Takes s .stealReply fun r =>
      (r.core c).steal.victim = none ∧ (r.core c).steal.answered = false ∧
      (∀ ref va ctx id h, k.steal.claimed = some (ref, va, ctx, id) → k.steal.reserve = some h →
        s.ctxRuns ctx = true → ∃ t, r.teams = s.teams ++ [t] ∧ t.ident.teamid = id ∧
          t.pc = (s.record ref).entry ∧ t.coreId = c ∧ t.ident.sched = h.sched ∧ t.ident.slot = h.slot ∧
          t.budget = h.budget ∧ t.tiles.length = h.acc) ∧
      (k.steal.claimed = none → r.teams = s.teams ∧
        (nextVictim c (v :: k.steal.tried) = none → (r.core c).steal.tried = [] ∧
          (r.core c).steal.retry = s.time (c / 64) + 1000) ∧
        ((nextVictim c (v :: k.steal.tried)).isSome → (r.core c).steal.tried = v :: k.steal.tried))

/-- The steps that move teams complete: waking, pre-emption, donation, stealing, grants (when each is
taken is the model's schedule, log entry 6; what a frame holds is log entry 27's, how stealing, donation and
pre-emption count is log entry 32's, and when a yielded team is a candidate log entry 49's). -/
def Obligations.TeamStepsComplete : Prop := TeamsLeaveAndWake ∧ SlotsAreDonated ∧ TasksAreStolen

/-- A copy operation takes its accesses once its team's earlier ones are acknowledged, and completes under the join
rule: NDONE and STATUS stand in its record and its counter is one lower (R186, R235, R238). -/
def Sys2Proof.Machine.CopiesRun : Prop :=
  ∀ (s : State) (o : CopyOp), let c := s.arg.core
    (s.core c).copies.find? (fun x => x.id == s.arg.n) = some o →
    (o.result = none → s.forkHolds o.uid = true → ∀ v n stop,
      ({ st := s.asClass o.ctx, g := 0, far := false, fab := false, pins := [] } : Move).run c o = (v, n, stop) →
      let ends := fun (code : Nat) => Takes s .copyStart fun r => ∃ x ∈ (r.core c).copies, x.id = o.id ∧
        x.pins = v.pins ∧ ∃ y, x.result = some y ∧ y.ndone = n ∧ y.ecode = code ∧ y.g = v.g ∧ y.far = v.far
      (stop = none ∨ stop = some .short → ends 0) ∧
      (∀ t, stop = some (.fault (.trap t)) → ends t.code) ∧
      ∀ struct code a, stop = some (.fault (.check struct code a)) → ends 32) ∧
    ∀ x, o.result = some x → s.memWf = true →
      (∀ p ∈ o.pins, (s.die (c / 64)).migrates (lineOf ((s.die (c / 64)).lockEntry p)) = false) →
      (x.g = 0 ∨ x.g + (if x.far then 8 else 2) ≤ s.time (c / 64)) → x.until_ ≤ s.time (c / 64) →
      Takes s .copyComplete fun r =>
        (r.core c).scratch.read (o.scrBase + o.recAt + 0x30) 8 =
          (x.ndone + 2 ^ 32 * (x.ecode + if x.rflag then 256 else 0)) % 2 ^ 64 ∧
        (r.core c).copies = eraseFirst (fun y => y.id == s.arg.n) (s.core c).copies ∧
        (s.counter c o.ctr ≠ 0#32 → r.counter c o.ctr = s.counter c o.ctr - 1#32) ∧
        (s.counter c o.ctr = 0#32 → r.counter c o.ctr = 0#32)

/-- The first matrix operation whose context is not halted begins once its team's earlier stores, atomics and pairs
are acknowledged, as one without a step completes, takes its steps in order and completes; an uncorrectable word that
a step reads is a machine check; a step of a 16-bit multiply adds the exact
products of its pair of k to every written element and rounds once, MZERO zeroes its rows, MLDA loads a row and
MSTA stores one (R186, R268, R269, R274, R275, R279, R358, R411). -/
def Sys2Proof.Machine.MatricesRun : Prop :=
  (∀ (s : State) (o : MatOp) (before rest : List MatOp) (n : Nat), let c := s.arg.core
    let scratch := (s.core c).scratch
    s.matHead c = some (before, o, rest, n) →
    (o.started = false → o.step < n → s.forkHolds o.uid = true → exec .matrixOpStart s =
      .next (s.modCore c fun k => { k with mats := before ++ { o with started := true } :: rest })) ∧
    (∀ t, s.team? o.uid = some t → o.started = true → o.step < n →
      let bad := (o.stepReads scratch o.step).find? fun p => (s.core c).badAt (o.scrBase + p.1) p.2
      (∀ p, bad = some p → exec .matrixStep s =
        .next (s.machineCheck t.ctx 5 0 (c / 64) (c % 64) false (o.scrBase + p.1))) ∧
      (bad = none →
        let after := o.doStep scratch (t.tile o.tile) o.step
        let k : Machine.Core := { s.core c with
          scratch := after.1, mats := before ++ { o with step := o.step + 1 } :: rest }
        (o.kind ≠ .msta → exec .matrixStep s = .next ((s.setCore c k).putTeam (t.setTile o.tile after.2))) ∧
        (o.kind = .msta → exec .matrixStep s = .next (s.setCore c
          (k.mend (o.scrBase + o.d.aAt .msta [] (o.rows.getD o.step 0) 0) (o.d.n * o.d.esz)))))) ∧
    (n ≤ o.step → o.started = false → s.forkHolds o.uid = false → ∀ r, exec .matrixComplete s ≠ .next r) ∧
    (n ≤ o.step → o.started = true ∨ s.forkHolds o.uid = true → Takes s .matrixComplete fun r =>
      (r.core c).mats = before ++ rest ∧
      (∀ k, o.ctr = some k → (s.team? o.uid).isSome → s.counter c k ≠ 0#32 →
        r.counter c k = s.counter c k - 1#32) ∧
      (o.kind = .mmas → ∀ t, s.team? o.uid = some t → o.dest < 64 →
        ∃ u, r.team? o.uid = some u ∧ u.getS o.dest = BitVec.ofNat 64 o.step))) ∧
  ∀ (o : MatOp) (m : Memory) (x : Tile) (j : Nat), o.d.n ≤ 64 → (x.map Prod.fst).Nodup → let d := o.d
    let y := (o.doStep m x j).2
    (o.kind = .mma → d.fmt ≤ 1 → ∀ r c, r < 128 → c < 64 →
      y.elem false r c = (if r ∈ o.rows ∧ c < d.n ∧ 2 * j < d.k then
        roundFmt .f32 o.rounding (sumExact (o.rnd == 2) (Fmt.f32.decode false (x.elem false r c) ::
          ((List.range d.k).filter fun k => k / 2 == j).map fun k =>
            (d.format.decode false (m.read (o.scrBase + d.aoff + r * d.astr + 2 * k) 2)).mul
              (d.format.decode false (m.read (o.scrBase + d.boff + k * d.bstr + 2 * c) 2))))
        else x.elem false r c)) ∧
    (o.kind = .mzero → ∀ r c, r < 128 → c < 64 →
      y.elem false r c = if r ∈ o.rows then 0 else x.elem false r c) ∧
    (o.kind = .mlda → d.fmt = 2 → j < o.rows.length → ∀ r c, r < 128 → c < 64 →
      y.elem false r c = if o.rows[j]? = some r ∧ c < d.n then m.read (o.scrBase + d.aoff + r * d.astr + 4 * c) 4
        else x.elem false r c) ∧
    (o.kind = .msta → d.fmt = 2 → m.wf = true → ∀ r c, o.rows[j]? = some r → c < d.n →
      (o.doStep m x j).1.read (o.scrBase + d.aoff + r * d.astr + 4 * c) 4 = x.elem false r c)

/-- The first transform whose context is not halted begins, once its team's earlier stores, atomics and pairs are
acknowledged, with a copy of its sources and completes with its final step: a table load fills its bank, from sound
words, a binding binds, and the others write their reserved destinations (R186, R254, R257, R258, R358, R380,
R411). -/
def Sys2Proof.Machine.TransformsRun : Prop :=
  ∀ (s : State) (o : XfOp) (before rest : List XfOp) (t : Team), let c := s.arg.core
    s.xfHead c = some (before, o, rest) → s.team? o.uid = some t →
    let bad := o.kind = .xtld ∧ (s.core c).badAt (t.ident.scrBase + o.offset) 520 = true
    (o.started = false → s.forkHolds o.uid = true → bad → exec .transformStart s =
      .next (s.machineCheck t.ctx 5 0 (c / 64) (c % 64) false (t.ident.scrBase + o.offset))) ∧
    (o.started = false → s.forkHolds o.uid = true → ¬bad → Takes s .transformStart fun r => ∃ b,
      (r.core c).xfs = before ++ { o with started := true, buffer := b } :: rest ∧
      (o.kind = .xtld → b = (List.range 130).map fun k => BitVec.ofNat 32 (s.scrRead t (o.offset + 4 * k) 4)) ∧
      (o.kind ≠ .xtld → o.kind ≠ .xtbind → b.length = (t.vread (BitVec.ofNat 7 o.src)).len)) ∧
    (o.started = true →
      (o.kind = .xtld → o.bank < 2 → o.buffer.length = 130 → Takes s .transformComplete fun r =>
        (r.core c).xfs = before ++ rest ∧ ∀ k, (h : k < o.buffer.length) →
          ((r.core c).bank o.bank).read (4 * k) 4 = o.buffer[k].toNat) ∧
      (o.kind = .xtbind → Takes s .transformComplete fun r => (r.core c).xfs = before ++ rest ∧
        ∃ u, r.team? o.uid = some u ∧ u.binding = if o.bank = 2 then none else some o.bank) ∧
      (o.kind ≠ .xtld → o.kind ≠ .xtbind → exec .transformComplete s =
        .next (((s.modCore c fun k => { k with xfs := before ++ rest }).xfWrite t o).released s o.uid)))

/-- The steps of the copy, matrix and transform engines complete (a copy makes all its accesses in the one step of its
start, log entry 4; when each step is taken is the model's schedule, log entry 6; that an engine goes past the
operation of a halted context is log entry 51's, and what a transform's destinations and reservations are log entry
37's). -/
def Obligations.EngineStepsComplete : Prop := CopiesRun ∧ MatricesRun ∧ TransformsRun

/-- A ray that is about to enter a bin joins the bin of its key, or a free one; a due traversal bin sends its first 32
rays to a traversal unit, and a due shader bin forms a wave of its first rays; a ray whose scene cannot be read or
whose shader is absent is freed, and its record taken at once by a team that waits for one, so that the pool has one
ray less where none waits (R286, R290 to R293, R299, R412). -/
def Sys2Proof.Machine.RaysEnterBins : Prop :=
  ∀ s : State, let d := s.arg.die
    let n := s.arg.n
    (∀ r shader, s.ray? d n = some r → r.state = .entering shader → s.ctxRuns r.ctx = true →
      let ends := fun (x : State) => match r.src with
        | some uid => x.released s uid
        | none => x
      (∀ s1 sc, (s.asClass r.ctx).sceneOf (deviceWalker d r.ctx) = .ok (s1, sc) →
        let key := binKey r.words sc shader
        (shader = none → ∀ s2, s1.joinBin d r key = some s2 →
          exec .rayEntersBin s = .next (ends (s2.afterEntry d key r.ctx none))) ∧
        (∀ num s2 h s3, shader = some num → s1.shader d r.ctx num = .ok (s2, some h) →
          s2.joinBin d r key = some s3 → exec .rayEntersBin s = .next (ends (s3.afterEntry d key r.ctx (some h)))) ∧
        ∀ num s2, shader = some num → s1.shader d r.ctx num = .ok (s2, none) → (s2.ray? d n).isSome →
          (s2.die d).waiters = [] → Takes s .rayEntersBin fun x => (x.die d).rays.length + 1 = (s2.die d).rays.length) ∧
      ∀ code addr info, (s.asClass r.ctx).sceneOf (deviceWalker d r.ctx) = .error (.fault code addr info) →
        (s.die d).waiters = [] →
        Takes s .rayEntersBin fun x => (x.die d).rays.length + 1 = (s.die d).rays.length) ∧
    (∀ r key, let mine := fun (b : SkBin) => b.slice = keySlice key ∧ b.key = key ∧ b.ctx = r.ctx ∧
        b.rays.length < 1024
      let old := (s.die d).skBins
      ((∃ b ∈ old, mine b) → ∃ x, s.joinBin d r key = some x ∧ ∀ i, (h : i < old.length) →
        (mine old[i] → (x.die d).skBins[i]? =
          some { old[i] with rays := old[i].rays ++ [(r.num, s.time d)] }) ∧
        (¬mine old[i] → (x.die d).skBins[i]? = some old[i])) ∧
      ((∀ b ∈ old, ¬mine b) → (old.filter fun b => b.slice == keySlice key).length < 512 →
        let fresh : SkBin := { slice := keySlice key, key := key, ctx := r.ctx, rays := [(r.num, s.time d)],
                               prefetched := false }
        ∃ x, s.joinBin d r key = some x ∧ (x.die d).skBins = old ++ [fresh])) ∧
    (∀ b core, leastBy SkBin.first (((s.die d).skBins.filter fun b => b.slice == n).filter fun b =>
        !b.isShader && s.ctxRuns b.ctx && (decide (32 ≤ b.rays.length) ||
          decide (b.first + wordBits (s.die d).regs.skcfg 32 16 ≤ s.time d))) = some b →
      s.batchCore d = some core → Takes s .traversalBinAge fun x => (x.core core).batches =
        (s.core core).batches ++ [{ key := b.key, ctx := b.ctx, rays := (b.rays.take 32).map Prod.fst }]) ∧
    ∀ b s1 h, ((s.die d).shaderBins n).find? (s.waveReady d) = some b →
      (s.asClass b.ctx).shader d b.ctx (bitsOf b.key 17 16) = .ok (s1, some h) → s1.replaying b.ctx = false →
      (s1.die d).waves.length < 4096 → Takes s .shaderBinAge fun x => ∃ w,
        (x.die d).waves = (s1.die d).waves ++ [w] ∧ w.ctx = b.ctx ∧ w.key = b.key ∧ w.entry = h.entry ∧
        w.rays = (b.rays.map Prod.fst).take (min (min (wordBits (s1.die d).regs.skcfg 0 11) h.lanes) h.most)

/-- A traversal unit ends the step of a ray of its batch with what `State.traverse` returns (that this is the hit or
the miss of R300 is a statement of its own, `Obligations.TraversalFindsNearest`), and the batch stays in the unit
until its results have entered their bins; the result goes into the ray's words and the ray to its shader's bin, or
it is freed; treelet lines arrive; the DONE record is decremented once every wave of the context has exited and
every store that it waits for has returned; a slice under pressure reports it (R287, R291, R298, R301, R412,
R414). -/
def Sys2Proof.Machine.RaysTraverse : Prop :=
  ∀ s : State, let d := s.arg.die
    let n := s.arg.n
    let c := s.arg.core
    (∀ b, (s.core c).batches.find? (fun b => s.ctxRuns b.ctx && !(s.batchLeft (c / 64) b).isEmpty) = some b →
      s.host.d3hot = false → (s.core c).power ≠ .off →
      ∀ r s1 hit, s.batchLeft (c / 64) b = [r] → s.ctxRuns r.ctx = true →
        (s.asClass r.ctx).traverse { die := c / 64, tlb := some c, ctx := r.ctx } r = .ok (s1, hit) →
        Takes s .traversalStep fun x => (x.core c).batches = (s.core c).batches ∧ (x.die (c / 64)).rays =
          mapWhere (fun y => y.num == r.num)
            (fun y => { y with state := .traversed (hit.map Hit.fields) }) (s1.die (c / 64)).rays) ∧
    (∀ t s1, (s.die d).treelets.find? (fun t => t.lines.contains n) = some t →
      (s.asClass t.ctx).readLine { die := d, tlb := none, ctx := t.ctx } (1000 + d)
        { space := .gddr, unit := d, addr := n } = .ok s1 →
      exec .treeletLineArrival s = .next (s1.landLine d n)) ∧
    (∀ r hit, s.ray? d n = some r → r.state = .traversed hit → s.ctxRuns r.ctx = true → r.words.length = 32 →
      let w := fun (k : Nat) => r.words.getD k 0#32
      let ends := fun (shader : Nat) (P : Ray → Prop) =>
        (shader = 0xFFFF → (s.die d).waiters = [] → Takes s .traversalResult fun x =>
          (x.die d).rays.length + 1 = (s.die d).rays.length) ∧
        (shader ≠ 0xFFFF → Takes s .traversalResult fun x =>
          ∃ y, x.ray? d n = some y ∧ y.state = .entering (some shader) ∧ y.src = none ∧ P y)
      (hit = none → ends ((w 13).toNat / 65536) fun y => y.words.getD 12 0#32 = w 12 &&& 0xFEFFFFFF#32 ∧
        ∀ k, k ≠ 12 → y.words.getD k 0#32 = w k) ∧
      ∀ t u v tri geom hshd, hit = some (t, u, v, tri, geom, hshd) →
        let next := if hshd = 0xFFFF then (w 13).toNat % 65536 else hshd
        next < 65536 → ends next fun y => y.words.getD 12 0#32 = w 12 ||| 0x01000000#32 ∧
          (y.words.getD 13 0#32).toNat = (w 13).toNat / 65536 * 65536 + next ∧
          y.words.getD 14 0#32 = t ∧ y.words.getD 15 0#32 = tri ∧ y.words.getD 16 0#32 = u ∧
          y.words.getD 17 0#32 = v ∧ y.words.getD 18 0#32 = geom ∧
          ∀ k, (k < 12 ∨ 18 < k) → y.words.getD k 0#32 = w k) ∧
    (∀ x k rest, s.ctx? n = some x → x.doneDue = k :: rest → x.halted = false →
      (∀ t ∈ s.teams, t.ctx = n → t.ident.isWave = false) →
      (∀ x ∈ s.leftovers, x.ctx = n → x.wave = false ∧ s.heldTask x.task = false) →
      x.doneG + (if s.nDies = 1 then 2 else 8) ≤ s.time k →
      ∀ s1 sc, (s.asClass n).sceneOf (deviceWalker k n) = .ok (s1, sc) →
        let paid := fun (y : State) => y.modCtx n fun x => { x with doneDue := x.doneDue.drop 1 }
        ((sc = none ∨ ∃ e, sc = some e ∧ e.done = 0#64) → exec .doneDecrement s = .next (paid s1)) ∧
        ∀ e s2 p, sc = some e → e.done ≠ 0#64 → e.done.toNat % 64 = 0 →
          s1.sceneMap (deviceWalker k n) e.done = .ok (s2, p) → s2.recordBusy (engineRequester k) p = false →
          ∃ core, core / 64 = k ∧ exec .doneDecrement s = .next ((paid s2.takeFree.2).depApply
            { kind := .dec, loc := p, va := e.done, ctx := n, core := core, checked := false, host := true })) ∧
    (n < 32 → s.pressed d n = true → exec .poolPressure s =
      .next ((s.modLoop d n fun l => { l with pressed := s.time d }).report
        { kind := 8, code := 6, die := d, sl := true, unit := n,
          info := BitVec.ofNat 64 (s.die d).waves.length }))

/-- The steps of the coherence engine and of the traversal units complete (a ray's traversal is one step, log entry 4;
when each is taken is the model's schedule, log entry 6; where a ray without a scene or a shader goes is log entry
16's, that its shader table is read again and that a halted context's rays rest log entry 17's, and how often pressure
is reported log entry 26's). -/
def Obligations.RayStepsComplete : Prop := RaysEnterBins ∧ RaysTraverse

/-- A core without work is gated and wakes again, D3hot turns every core off, a core's level follows its temperature
and its droop events, a core at T3 + 10 trips and its contexts halt, and a rate-limit interval closes with its count
(R318, R335, R421, R429). -/
def Sys2Proof.Machine.PowerAndDerating : Prop :=
  ∀ s : State, let c := s.arg.core
    let k := s.core c
    let d := c / 64
    let wanted := s.coreWanted c
    (∀ before i after, (s.die s.arg.die).intervals = before ++ i :: after → s.arg.n = before.length →
      i.opened + 1000000 ≤ s.time s.arg.die →
      let t := s.modDie s.arg.die fun k => { k with intervals := before ++ after }
      exec .recordIntervalClose s = .next (if i.count = 0 then t else t.appendWords i.closing)) ∧
    (c < 64 * s.nDies →
      (k.power = .run → wanted = false → k.lastIssueAt + 1000 ≤ k.cycles →
        exec .coreClockGate s = .next (s.setCore c { k with power := .idle })) ∧
      (k.power ≠ .off → s.coreBusy c k = false → k.emptySince + 1000000 ≤ s.time d →
        exec .corePowerGate s = .next (s.setCore c { k with power := .off, wakeAt := none })) ∧
      (let r := s.die d
       let levels := r.droopSample k s.arg.n
       let now : Machine.Core := { levels with
        temp := s.arg.v, thermal := r.thermalLevel k.thermal s.arg.v,
        tripped := k.tripped && decide ((wordBits r.regs.derate 0 8 : Int) ≤ s.arg.v) }
       let sampled := s.setCore c now
       exec .derateSample s = .next (if k.tripped = true ∧ now.tripped = false ∧ k.batches ≠ [] then
        sampled.wakeCore c else sampled)) ∧
      (k.tripped = false → (wordBits (s.die d).regs.derate 16 8 : Int) + 10 ≤ k.temp →
        Takes s .thermalTrip fun r => (r.core c).tripped = true ∧ (r.core c).power = .off ∧
          ∀ t ∈ s.teams, t.coreId = c → t.onCore = true →
            ∀ x ∈ r.ctxs, x.id = t.ctx → x.halted = true)) ∧
    (s.host.d3hot = false →
      (k.power = .idle → wanted = true → exec .coreWake s =
        .next (s.setCore c { k with power := .run, wakeAt := none, lastIssueAt := k.cycles })) ∧
      (∀ t, k.power = .off → k.wakeAt = some t → t ≤ s.time d → k.tripped = false → exec .coreWake s =
        .next (s.setCore c { k with power := .run, wakeAt := none, lastIssueAt := k.cycles })) ∧
      Takes s .d3hotEntry fun r => r.host.d3hot = true ∧ ∀ x, x < 64 * s.nDies → (r.core x).power = .off) ∧
    (s.host.d3hot = true → Takes s .d3hotExit fun r => r.host.d3hot = false ∧
      ∀ t ∈ s.teams, t.onCore = true → (s.core t.coreId).power = .off →
        ∃ x, (r.core t.coreId).wakeAt = some x)

/-- The control loops keep within their floors and limits; equalisation and adaptation that fail are reported; a
monitor counts a sample and keeps the extremes, and one outside the thresholds needs 16 more to arm again; the noise
source delivers a word or fails its health test (R161, R336, R337, R382, R422). -/
def Sys2Proof.Machine.LoopsAndMonitors : Prop :=
  ∀ s : State, let c := s.arg.core
    let d := s.arg.die
    let n := s.arg.n
    let k := s.die d
    let v := s.arg.v
    (c < 64 * s.nDies → 16 ≤ v → v ≤ (if (s.core c).derate = 3 then 32 else 64) → Takes s .clockLoop fun r =>
      (r.core c).clock = v.toNat ∧ ((r.core c).clockFloorSince.isSome ↔ v = 16)) ∧
    (d < s.nDies → n < 32 → (s.arg.ok = true → exec .gddr7Equalisation s = .next s) ∧
      (s.arg.ok = false → exec .gddr7Equalisation s = .next (s.reportLimited
        { kind := 3, code := 2, die := d, sl := true, unit := n } false))) ∧
    (d < s.nDies → n < 64 → (s.arg.ok = true → exec .serdesAdaptation s = .next s) ∧
      (s.arg.ok = false → exec .serdesAdaptation s = .next (s.reportLimited
        { kind := 3, code := 3, die := d, unit := n } false))) ∧
    (d < s.nDies → n < 32 → k.regs.skcfg.getLsbD 58 = true → skcfgValid k.regs.skcfg = true →
      let age := wordBits k.regs.skcfg 16 16
      Takes s .waveAgeLoop fun r => ((r.die d).sliceLoop n).formed = 0 ∧ ((r.die d).sliceLoop n).byAge = 0 ∧
        age / 4 ≤ ((r.die d).sliceLoop n).age ∧ ((r.die d).sliceLoop n).age ≤ age) ∧
    (d < s.nDies → n < 32 → k.regs.skcfg.getLsbD 59 = true → skcfgValid k.regs.skcfg = true →
      Takes s .prefetchThresholdLoop fun r =>
        ((r.die d).sliceLoop n).reads = 0 ∧ ((r.die d).sliceLoop n).misses = 0 ∧
        1 ≤ ((r.die d).sliceLoop n).pf ∧ ((r.die d).sliceLoop n).pf ≤ wordBits k.regs.skcfg 48 10) ∧
    (d < s.nDies → n < 8 → s.arg.m < monitorUnits n → -(2 ^ 31) ≤ v → v < 2 ^ 31 →
      let old := k.monitor n s.arg.m
      Takes s .monitorSample fun r => let m := (r.die d).monitor n s.arg.m
        m.count = (old.count + 1) % 2 ^ 64 ∧ m.min ≤ v ∧ v ≤ m.max ∧
        (0 < old.count → m.min = min old.min v ∧ m.max = max old.max v) ∧
        (v < (s.thresholds n).1 ∨ (s.thresholds n).2 < v → m.rearm = 16)) ∧
    (c < 64 * s.nDies → (s.core c).noiseFailed = false →
      (s.arg.ok = true → (s.core c).noise.length < 8 → Takes s .noiseWord fun r =>
        ∃ w, (r.core c).noise = (s.core c).noise ++ [w]) ∧
      (s.arg.ok = false → Takes s .noiseWord fun r =>
        (r.core c).noise = (s.core c).noise.take ((s.core c).noise.length - n) ∧
        (r.core c).noiseFailAt = some (s.time (c / 64)) ∧
        ((r.core c).noiseFailed = true ↔
          ∃ t, (s.core c).noiseFailAt = some t ∧ s.time (c / 64) < t + 1000000)))

/-- A mesh link that fails stays failed, and the contexts of a core of either die that it cuts off from a slice of
either halt; so do those of a tile whose clock is more than one tick off, which ends every lease of a core and holds a
TIME that was ahead; the pair link is lost, comes back, or is lost for so long that the contexts waiting for it halt;
PTP slews TIME; a port goes down, comes back, or is down beyond the timeout; a reservation ungranted for 1,000,000
ticks halts every context on the die; a replay halts whose next logged wave, or whose next logged placement or steal,
has been awaited for 10,000,000 ticks, or in which a wave or a placement is due that the log does not hold (R325 to
R327, R333, R396, R397, R399, R400, R417 to R419, R425). -/
def Sys2Proof.Machine.LinksAndClocks : Prop :=
  ∀ s : State, let d := s.arg.die
    let n := s.arg.n
    let v := s.arg.v
    let tile := if s.arg.ok then sliceTile n else coreTile n
    (∀ q, nextTile tile s.arg.k = some q → d < s.nDies → s.arg.k < 4 → n < (if s.arg.ok then 32 else 64) →
      (s.die d).linkFails.any (fun f => linkJoins f tile q) = false → Takes s .meshLinkFail fun r =>
        (r.die d).linkFails.any (fun f => linkJoins f tile q) = true ∧
        ∀ c < 64 * s.nDies, (s.core c).cut = false → r.coreCut c = true → (r.core c).cut = true ∧
          ∀ t ∈ s.teams, t.coreId = c → t.onCore = true → ∀ x ∈ r.ctxs, x.id = t.ctx → x.halted = true) ∧
    (d < s.nDies → n < (if s.arg.ok then 32 else 64) → (v.natAbs ≤ 1 → exec .timeCheck s = .next s) ∧
      (1 < v.natAbs → Takes s .timeCheck fun r =>
        (0 < v → lookup 0 (tileNumber s.arg.ok n) (r.die d).held = s.tileTime d (tileNumber s.arg.ok n) + v.toNat) ∧
        (s.arg.ok = false → (r.core (64 * d + n)).l1 = [] ∧
          ∀ e < 2, ∀ w ∈ (r.die e).wleases, w.core ≠ 64 * d + n) ∧
        ∀ t ∈ s.teams, t.onCore = true → (if s.arg.ok then t.coreId / 64 = d else t.coreId = 64 * d + n) →
          ∀ x ∈ r.ctxs, x.id = t.ctx → x.halted = true)) ∧
    (s.nDies = 2 → s.linkWorks = true → (s.arg.ok = true → exec .clockCheck s = .next s) ∧
      (s.arg.ok = false → Takes s .clockCheck fun r => r.linkWorks = false ∧
        (r.host.clockOk = false ↔ s.arg.k = 0) ∧ r.host.linkDownAt = s.time 1 ∧
        (∀ c, ∀ l ∈ (r.core c).l1, l.die = c / 64) ∧ ∀ e < 2, ∀ w ∈ (r.die e).wleases, w.core / 64 = e)) ∧
    (s.nDies = 2 → s.linkWorks = false → exec .pairLinkRestore s =
      .next ({ s with host := { s.host with linkUp := true, clockOk := true } }.report
        { kind := 5, code := 3, die := 1, unit := n % 64,
          info := BitVec.ofNat 64 (s.time 1 - s.host.linkDownAt) })) ∧
    (s.nDies = 2 → s.linkWorks = false → s.host.linkTimedOut = false → s.host.linkDownAt + 1000000 ≤ s.time 1 →
      Takes s .pairLinkRestoreTimeout fun r => r.host.linkTimedOut = true ∧
        ∀ x ∈ r.ctxs, x.id ∈ s.heldAcross → x.halted = true) ∧
    (s.host.ranOnce = false ∨ n * 10000 ≤ s.die0.time - s.die0.ptpLast → Takes s .ptpSync fun r =>
      r.die0.time = s.die0.time + n ∧ r.die1.time = s.die1.time + n ∧ r.die0.ptpOffset = v ∧
      (r.die0.ptpLock = true ↔ v.natAbs ≤ 100 ∧ 15 ≤ s.die0.ptpGood)) ∧
    (d < s.nDies → s.scaleOut n = true →
      let down := (s.die d).ports.find? (fun p => p.port == n)
      (s.arg.k = 1 → down = none → Takes s .scaleoutPortDown fun r => ∃ p ∈ (r.die d).ports, p.port = n ∧
        p.since = s.time d ∧ p.reported = false) ∧
      (s.arg.k = 2 → down.isSome → Takes s .scaleoutPortDown fun r => ∀ p ∈ (r.die d).ports, p.port ≠ n) ∧
      ∀ p, s.arg.k = 0 → down = some p → p.reported = false → p.since + s.host.peerTimeout ≤ s.time d →
        ∃ r, exec .scaleoutPortDown s = .next r) ∧
    (d < s.nDies → ((∃ q ∈ (s.die d).mesh, q.since + 1000000 ≤ s.time d ∧ q.core / 64 = d) ∨
        (∃ m ∈ (s.die d).multicasts, m.since + 1000000 ≤ s.time d) ∨ s.anyOverdue d = true) →
      Takes s .reservationTimeout fun r => ∀ x ∈ r.ctxs, x.halted = true) ∧
    ∀ c, s.ctx? n = some c → s.replaying n = true → c.halted = false →
      let awaited := fun (key : Nat) => lookup 0 key c.replaySince + 10000000 ≤ s.time d
      let wave := s.nextLogged n d [5]
      let placed := ((s.placementsLeft n d).drop (s.staleCount n d)).head?
      let halts := fun (addr : Word) (seq : Nat) => exec .replayDivergence s =
        .next (s.haltCtx n { kind := 1, code := 21, ctx := n, die := d, addr := addr,
                             info := BitVec.ofNat 64 (2 ^ 63 + seq) })
      let overdue := (awaited (d + 10) ∧ wave.isSome) ∨ (awaited (d + 6) ∧ placed.isSome)
      (∀ e, awaited (d + 10) → wave = some e → halts e.at_ e.seq) ∧
      (∀ e, ¬(awaited (d + 10) ∧ wave.isSome) → awaited (d + 6) → placed = some e → halts e.at_ e.seq) ∧
      (¬overdue → s.replayUnmatched d n = true → halts 0#64 0) ∧
      (¬overdue → s.replayUnmatched d n = false → ∀ r, exec .replayDivergence s ≠ .next r)

/-- Writes from outside a team: a valid value is taken, an invalid one leaves its register as it was; the partition
manager takes a valid value for a CTXCTL.SYS team of the die or a mailbox request; a pending
SLICECFG or stitch entry is applied when nothing depends on the old one; a new SCENE waits for the rays in
traversal; a completion doorbell takes one from its counter; without firmware only the mailbox takes writes (R5, R22,
R230, R286, R311, R315, R329, R338, R340, R348, R367, R388, R415). -/
def Sys2Proof.Machine.RegistersWritten : Prop :=
  ∀ s : State, let d := s.arg.die
    let n := s.arg.n
    let w := s.arg.w
    let k := s.die d
    (∀ off, s.arg.target = .bar off → s.hostOrdered = true →
      (off = 0x10 → Takes s .registerWrite fun r =>
        r.host.qtbase = if s.host.fwok = true ∧ w.toNat &&& 0xFFFFFFFE00000 = w.toNat then w else s.host.qtbase) ∧
      (0x1000 ≤ off → off < 0x2000 → off + s.arg.bytes.length ≤ 0x2000 → s.mboxOp = 0 →
        let written := (s.mboxBytes (off - 0x1000) s.arg.bytes).mboxBytes 2 [0#8, 0#8]
        written.mboxOp ∈ 0 :: mboxCodes → exec .registerWrite s = .next written) ∧
      (off < 0x10 ∨ (0x20 ≤ off ∧ off < 0x1000) ∨ 0x2000 ≤ off → exec .registerWrite s = .next s)) ∧
    (∀ num ctx die, s.arg.target = .csr num ctx die → s.hostOrdered = true → s.host.fwok = true →
      (∀ c, 0x100 ≤ num → num ≤ 0x107 → s.ctx? ctx = some c → Takes s .registerWrite fun r =>
        ∃ e, r.ctx? ctx = some e ∧
          ((ctxRegValid num w = true → num = 0x107 → w.getLsbD 4 = c.sys → e.ctxctl = w) ∧
           (ctxRegValid num w = true → num ≠ 0x107 → e.csr num = w) ∧
           (ctxRegValid num w = true → num = 0x103 → r.die0.hints = [] ∧ r.die1.hints = []) ∧
           (ctxRegValid num w = false → e = c))) ∧
      (die < s.nDies → plainDieReg num = true →
        (s.dieRegValid die num w = true → Takes s .registerWrite fun r => (r.die die).regs.get num = w) ∧
        (s.dieRegValid die num w = false → exec .registerWrite s = .next s))) ∧
    (s.hostOrdered = true → s.host.fwok = true → let c := 64 * (w.toNat / 2 ^ 14 % 2) + w.toNat / 2 ^ 8 % 64
     let j := w.toNat % 256
     (s.nDies ≤ w.toNat / 2 ^ 14 % 2 → exec .completionDoorbell s = .next s) ∧
     (w.toNat / 2 ^ 14 % 2 < s.nDies → s.counter c j ≠ 0#32 →
        exec .completionDoorbell s = .next (s.setCounter c j (s.counter c j - 1#32))) ∧
     (w.toNat / 2 ^ 14 % 2 < s.nDies → s.counter c j = 0#32 → exec .completionDoorbell s =
        .next (s.report { kind := 7, code := 8, ctx := 0xFFFF, die := c / 64, unit := c % 64,
                          info := BitVec.ofNat 64 (j + 2 ^ 8 * 3) }))) ∧
    (d < s.nDies → s.host.fwok = true →
      let asked := fun (num : Nat) => s.sysTeam d = true ∨ s.mailboxAsks d num w = true
      (¬asked 0x200 → ∀ r, exec .slicecfgWrite s ≠ .next r) ∧
      (sliceValid w = true → asked 0x200 → Takes s .slicecfgWrite fun r =>
        (r.die d).regs.slicecfg = k.regs.slicecfg ∧ ((r.die d).pendSlice = some w ∨
          (r = s ∧ k.pendSlice = none ∧ k.regs.slicecfg = w))) ∧
      (n < 8 → k.stitchValid n w = true → asked (0x210 + n) → Takes s .stitchWrite fun r => (r.die d).stitchNext n = w ∧
        (r.die d).regs.stitch = k.regs.stitch) ∧
      (16 ≤ w.toNat → w.toNat ≤ 2048 → asked 0x208 → Takes s .soruscfgWrite fun r => (r.die d).regs.soruscfg = w) ∧
      (w.toNat ≤ 786432 → asked 0x209 → Takes s .poolrsvWrite fun r => (r.die d).regs.poolrsv = w)) ∧
    (∀ v, k.pendSlice = some v → s.poolFree d = k.poolCapacity → (∀ t ∈ k.treelets, t.lines = []) →
      k.dsmQ = [] → (∀ x < 32, s.landing (sliceDest d x) = false) → Takes s .slicecfgApply fun r =>
        (r.die d).regs.slicecfg = v ∧ (r.die d).pendSlice = none ∧ (r.die d).treelets = [] ∧
        (∀ c ∈ (r.die d).dsm, c.1 < (r.die d).dsmSize) ∧
        ∀ set, ((r.die d).cache.filter fun l => cacheSet l.line == set).length ≤ (r.die d).cacheWays) ∧
    (n < 8 → k.regs.stitch.length = 8 → (k.pendStitch.map Prod.fst).Nodup →
      k.pendStitch.any (fun p => p.1 == n) = true →
      (∀ t ∈ s.teams, t.onCore = true → t.ident.die = d → k.stitchAffects n t.ident.core = false) →
      (∀ x ∈ [s.die0, s.die1], x.multicasts = [] ∧ x.shoot = []) → (∀ t ∈ k.treelets, t.lines = []) →
      (∀ p ∈ s.packets d, k.crosses n p.1 p.2 = false) →
      Takes s .stitchApply fun r => (r.die d).regs.stitch[n]? = some (k.stitchNext n) ∧
        ∀ p ∈ (r.die d).pendStitch, p.1 ≠ n) ∧
    ∀ c v, s.ctx? n = some c → c.scenePend = some v →
      (∀ r ∈ s.die0.rays ++ s.die1.rays, r.ctx = n → r.traversing = false) → Takes s .sceneWrite fun r =>
        (∃ e, r.ctx? n = some e ∧ e.eff.scene = v ∧ e.scenePend = none) ∧
        ∀ x < s.nDies, (r.die x).treelets = [] ∧ (r.die x).hints = []

/-- The mailbox holds a request of a code, and firmware runs that serves it. -/
def Sys2Proof.Machine.State.asks (s : State) (code : Nat) : Prop := s.mboxOp = code ∧ s.host.fwok = true

/-- The firmware answers a request: where its conditions hold the operation's effect is there and RESULT is 0, else
nothing is done and RESULT is 1; OP is then 0, and vector 2 is raised. Without running firmware all but FWLOAD are
refused (R340 to R342, R358, R359, R391, R405, R424, R430). -/
def Sys2Proof.Machine.MailboxAnswers : Prop :=
  (∀ (s : State) (n : Nat), s.memWf = true → n < 2 ^ 32 →
    (s.answer n).mbox 0 4 = 0 ∧ (s.answer n).mbox 4 4 = n ∧ (s.answer n).host.msix = s.host.msix ++ [2]) ∧
  (∀ (s : State) (code : Nat), s.mboxOp = code → s.host.fwok = false →
    ∀ e ∈ [(1, Instr.ctxinstall), (2, .ctxreset), (3, .ctxremove), (4, .csrread), (5, .csrwrite), (6, .errring),
      (7, .peerto), (16, .attest), (17, .cert), (48, .monread), (49, .setthr), (50, .replay)],
      code = e.1 → exec e.2 s = .next (s.answer 1)) ∧
  ∀ s : State, s.memWf = true →
    let refuses := fun (i : Instr) => exec i s = .next (s.answer 1)
    let serves := fun (i : Instr) (P : State → Prop) =>
      Takes s i fun r => r.mbox 0 4 = 0 ∧ r.mbox 4 4 = 0 ∧ P r
    let id := s.mbox 8 2
    (s.asks 1 →
      (∀ c, ctxOfDescriptor s.host.mbox 0x40 = some c → s.ctx? c.id = none → serves .ctxinstall fun r =>
        r.ctxs = s.ctxs ++ [c] ∧ ∀ p ∈ r.cores, ∀ e ∈ p.2.tlb, e.ctx ≠ c.id) ∧
      (∀ c, ctxOfDescriptor s.host.mbox 0x40 = some c → (s.ctx? c.id).isSome → refuses .ctxinstall) ∧
      (ctxOfDescriptor s.host.mbox 0x40 = none → refuses .ctxinstall)) ∧
    (s.asks 2 → s.copying id = false → s.mapWaits id = false →
      (s.ctx? id = none → refuses .ctxreset) ∧
      (∀ c, s.ctx? id = some c → serves .ctxreset fun r => (∀ t ∈ r.teams, t.ctx ≠ id) ∧
        (∀ x ∈ r.die0.rays ++ r.die1.rays, x.ctx ≠ id) ∧ (∀ x ∈ r.die0.waves ++ r.die1.waves, x.ctx ≠ id) ∧
        (∀ x ∈ r.die0.ready ++ r.die1.ready, x.ctx ≠ id) ∧
        ∃ e, r.ctx? id = some e ∧ e.halted = false ∧ e.lrc = 0 ∧ e.regs = c.regs)) ∧
    (s.asks 3 → let idle := (s.ctx? id).isSome ∧ s.holdsWork id = false ∧
        (∀ w ∈ s.die0.waves ++ s.die1.waves, w.ctx ≠ id) ∧
        ∀ q ∈ s.describedQueues, ¬((s.queue q).ctx = id ∧ (s.queue q).enable = true)
      (idle → serves .ctxremove fun r => r.ctx? id = none) ∧ (¬idle → refuses .ctxremove)) ∧
    (s.asks 4 → (s.csrNamed = none → refuses .csrread) ∧
      ∀ num c d, s.csrNamed = some (num, c, d) →
        serves .csrread fun r => r.mbox 0x10 8 = (s.csrValue num c d).toNat) ∧
    (s.asks 5 → (s.csrNamed = none → refuses .csrwrite) ∧
      ∀ num c d, s.csrNamed = some (num, c, d) → (num < 0x200 → s.unsettled c = false) →
        let v := s.mboxWord 0x10
        let ok := if num < 0x200 then ctxRegValid num v else s.dieRegValid d num v
        (ok = false → refuses .csrwrite) ∧
        (ok = true → serves .csrwrite fun r =>
          (num < 0x200 → ∃ e, r.ctx? c = some e ∧ e.csr num = v ∧ e.eff.ptroot = e.regs.ptroot) ∧
          (plainDieReg num = true → (r.die d).regs.get num = v))) ∧
    (s.asks 6 → let v := s.mboxWord 0x10
      (errringValid v = false → refuses .errring) ∧
      (errringValid v = true → s.still → s.die0.deviceHeld (v.toNat / 4096 % 2 ^ 40 * 4096) = false → serves .errring fun r => r.die0.regs.errring = v ∧
        r.host.preRingCount = 0 ∧ let base := v.toNat / 4096 % 2 ^ 40 * 4096
        r.die0.mem.read base 4 = 0 ∧ r.die0.mem.read (base + 4) 4 = 0 ∧
        r.die0.mem.read (base + 8) 4 = s.host.preRingCount % 2 ^ 32)) ∧
    (s.asks 7 → let v := s.mbox 0x10 8
      (10000 ≤ v → v ≤ 1000000 → serves .peerto fun r => r.host.peerTimeout = v) ∧
      (v < 10000 ∨ 1000000 < v → refuses .peerto)) ∧
    (s.asks 0x10 → let d := s.mbox 8 8
      (s.nDies ≤ d → refuses .attest) ∧
      (d < s.nDies → serves .attest fun r =>
        r.host.mbox.bytes 0x100 32 = s.host.mbox.bytes 0x40 32 ∧
        r.host.mbox.bytes 0x130 64 = digest s.host.fwRunning)) ∧
    (s.asks 0x11 → let w := s.mboxWord 8
      let chain := Config.certificates (wordBits w 8 1)
      let ok := wordBits w 8 1 < s.nDies ∧ wordBits w 9 55 = 0
      (∀ c, chain[w.toNat % 256]? = some c → ok → exec .cert s = .next (State.answer
        (((s.mboxBytes 0x10 (leBytes 8 c.length)).mboxBytes 0x18 (leBytes 8 chain.length)).mboxBytes 0x100
          (c.take 3840)) 0)) ∧
      (chain[w.toNat % 256]? = none ∨ ¬ok → refuses .cert)) ∧
    (s.asks 0x30 → let w := s.mboxWord 8
      let ok := wordBits w 16 1 < s.nDies ∧ wordBits w 8 6 < monitorUnits (w.toNat % 8) ∧
        w.toNat &&& 0x13F07 = w.toNat
      (ok → serves .monread fun r => ∀ k < 10, r.mbox (0x100 + 8 * k) 8 =
        (((s.die (wordBits w 16 1)).monitor (w.toNat % 8) (wordBits w 8 6)).word k).toNat) ∧
      (¬ok → refuses .monread)) ∧
    (s.asks 0x31 → let mon := s.mbox 8 8
      let lo := signedOf 32 (s.mbox 0x10 4)
      let hi := signedOf 32 (s.mbox 0x14 4)
      (mon < 8 → lo ≤ hi → serves .setthr fun r => r.thresholds mon = (lo, hi)) ∧
      (8 ≤ mon ∨ hi < lo → refuses .setthr)) ∧
    (s.asks 0x32 → let busy := ∃ x ∈ s.ctxs, s.holdsWork x.id = true
      (∀ c, ctxOfDescriptor s.host.mbox 0x40 = some c →
        (c.recording = false → ¬busy → s.ctx? c.id = none → serves .replay fun r =>
          r.ctxs = s.ctxs ++ [{ c with
            replay := some (s.mboxWord 8, s.mbox 0x10 8)
            replaySince := [(6, s.time 0), (7, s.time 1), (10, s.time 0), (11, s.time 1)] }]) ∧
        (c.recording = true ∨ busy ∨ (s.ctx? c.id).isSome → refuses .replay)) ∧
      (ctxOfDescriptor s.host.mbox 0x40 = none → refuses .replay))

/-- Firmware is received in chunks and runs once verified: then every register is at its reset value but for PLTBASE,
which names a zeroed table at the top of local GDDR7, and the check bits of every SRAM are initialised; power-up and device reset leave no core's, context's or team's
state and start it; the device is ready once its CXL link has trained with firmware running (R173, R330, R334, R338,
R340). -/
def Sys2Proof.Machine.DeviceStarts : Prop :=
  ∀ s : State, let plt := BitVec.ofNat 64 (s.gddrSize - s.lockTableSize)
    let booted := fun (k : Die) =>
      if Config.firmwareValid s.host.fwStored = true then k.bringUp s.gddrSize s.lockTableSize else k
    (s.mboxOp = 0x20 → let w := s.mboxWord 8
      let n := s.mbox 0x10 8
      let have_ := s.host.fwChunks
      let chunk := s.host.mbox.bytes 0x100 n
      (n = 0 ∨ 3840 < n ∨ w.toNat / 2 ^ 32 % 2 ^ 31 ≠ 0 → exec .fwload s = .next (s.answer 1)) ∧
      (0 < n → n ≤ 3840 → w.toNat / 2 ^ 32 % 2 ^ 31 = 0 →
        (w.toNat % 2 ^ 32 ≠ have_.length → Takes s .fwload fun r => r.host.fwChunks = []) ∧
        (w.toNat % 2 ^ 32 = have_.length →
          (w.toNat < 2 ^ 63 → Takes s .fwload fun r => r.host.fwChunks = have_ ++ chunk) ∧
          (2 ^ 63 ≤ w.toNat → Takes s .fwload fun r => r.host.fwChunks = [] ∧
            (Config.firmwareValid (have_ ++ chunk) = true → r.host.fwStored = have_ ++ chunk ∧
              r.host.fwok = true ∧ (s.host.fwok = false → r.host.fwRunning = have_ ++ chunk ∧
                r.host.qtbase = 0#64 ∧ (∀ p ∈ r.cores, p.2.badScratch = []) ∧ r.die0.poison = [] ∧
                r.die0.dsmPoison = [] ∧ r.die0.regs = { DieRegs.atReset with pltbase := plt } ∧
                (r.host.status.getLsbD 0 = true ↔ s.host.cxlLanes ≠ 0))) ∧
            (Config.firmwareValid (have_ ++ chunk) = false → r.host.fwStored = s.host.fwStored))))) ∧
    (Takes s .powerOn fun r => r.teams = [] ∧ r.ctxs = [] ∧ r.cores = [] ∧ r.die0 = booted Die.atReset ∧
      (s.nDies = 2 → r.die1 = booted Die.atReset) ∧ r.host.fwStored = s.host.fwStored ∧
      (r.host.fwok = true ↔ Config.firmwareValid s.host.fwStored = true)) ∧
    (Takes s .deviceReset fun r => r.teams = [] ∧ r.ctxs = [] ∧ r.cores = [] ∧
      r.die0 = booted s.die0.deviceReset ∧ (s.nDies = 2 → r.die1 = booted s.die1.deviceReset) ∧
      s.die0.deviceReset.regs = DieRegs.atReset ∧ s.die0.deviceReset.time = 0 ∧
      s.die0.deviceReset.mem = s.die0.mem ∧
      (r.host.fwok = true ↔ Config.firmwareValid s.host.fwStored = true)) ∧
    (0 < s.arg.n → s.arg.n ≤ 16 → 0 < s.arg.m → s.arg.m ≤ 128 → Takes s .cxlLinkTraining fun r =>
      r.host.cxlLanes = s.arg.n ∧ r.host.cxlRate = s.arg.m ∧ (s.host.fwok = true → r.host.status.getLsbD 0 = true))

/-- The steps of power, time, links, monitors, registers and the host's requests complete (what is sensed,
and when, is the model's schedule, log entry 6; the details of alarms, cut-off cores, time checks, PTP, context reset,
bring-up and device reset are those of log entries 18 to 26, 34, 35 and 43). -/
def Obligations.SystemStepsComplete : Prop :=
  PowerAndDerating ∧ LoopsAndMonitors ∧ LinksAndClocks ∧ RegistersWritten ∧ MailboxAnswers ∧ DeviceStarts

/-! ### What a traversal returns (R300) -/

/-- The address of triangle `j` of a leaf reference. -/
def Sys2Proof.Machine.triAddr (env : WalkEnv) (ref j : Nat) : Word :=
  env.base + BitVec.ofNat 64 (64 * (bitsOf ref 0 27 + j))

/-- The bytes of the node of a reference, where the BVH's contents are `f`, by address and size. -/
def Sys2Proof.Machine.nodeAt (env : WalkEnv) (f : Word → Nat → Nat) (ref : Nat) : Nat :=
  f (env.base + BitVec.ofNat 64 (64 * bitsOf ref 0 27)) 256

/-- The child of slot `i` of that node. -/
def Sys2Proof.Machine.childAt (env : WalkEnv) (f : Word → Nat → Nat) (ref i : Nat) : Nat :=
  (word32 (nodeAt env f ref) (48 + i)).toNat

/-- Whether the ray enters the box of slot `i` of that node, no later than `t` (slab of R300). -/
def Sys2Proof.Machine.entersBox (env : WalkEnv) (f : Word → Nat → Nat) (t : XReal) (ref i : Nat) : Bool :=
  let x := fun (k : Nat) => f32Val (word32 (nodeAt env f ref) (8 * k + i))
  (slabHit env.ray t ⟨x 0, x 2, x 4⟩ ⟨x 1, x 3, x 5⟩).isSome

/-- t, u and v of the triangle at `a`, where the ray hits it within its own range (tri of R300). -/
def Sys2Proof.Machine.triangleHit (env : WalkEnv) (f : Word → Nat → Nat) (a : Word) : Option (XReal × XReal × XReal) :=
  let x := fun (k : Nat) => f32Val (word32 (f a 64) k)
  triHit env.ray env.ray.tmax ⟨x 0, x 1, x 2⟩ ⟨x 3, x 4, x 5⟩ ⟨x 6, x 7, x 8⟩

/-- The triangle at `a` stands in the BVH below a reference, and the ray enters every box on the way no later than
`t`. -/
inductive Sys2Proof.Machine.Below (env : WalkEnv) (f : Word → Nat → Nat) (t : XReal) (a : Word) : Nat → Prop
  | leaf (ref j : Nat) : bitsOf ref 30 2 = 1 → j ≤ bitsOf ref 27 3 → a = triAddr env ref j → Below env f t a ref
  | node (ref i : Nat) : bitsOf ref 30 2 = 0 → i < 8 → childAt env f ref i ≠ refEmpty →
      entersBox env f t ref i = true → Below env f t a (childAt env f ref i) → Below env f t a ref

/-- A reference that the BVH below `root` holds. -/
inductive Sys2Proof.Machine.Holds (env : WalkEnv) (f : Word → Nat → Nat) (root : Nat) : Nat → Prop
  | root : Holds env f root root
  | child (ref i : Nat) : Holds env f root ref → bitsOf ref 30 2 = 0 → i < 8 → childAt env f ref i ≠ refEmpty →
      Holds env f root (childAt env f ref i)

/-- In every state of `P` each read of the BVH below `root` that answers gives its contents `f`, and it leaves a
state of `P`, as a new treelet hint does: nobody changes the BVH while the ray traverses it (R298, R299). -/
def Sys2Proof.Machine.BvhStands (env : WalkEnv) (P : State → Prop) (f : Word → Nat → Nat) (root : Nat) : Prop :=
  ∀ x, P x → (∀ h, P (x.modDie env.w.die fun k => { k with hints := h })) ∧ ∀ ref, Holds env f root ref →
    let gives := fun (va : Word) (n : Nat) => ∀ y p v, x.bvhRead env.w va n = .ok (y, p, v) → v = f va n ∧ P y
    (bitsOf ref 30 2 = 0 → gives (env.base + BitVec.ofNat 64 (64 * bitsOf ref 0 27)) 256) ∧
    (bitsOf ref 30 2 = 1 → ∀ j ≤ bitsOf ref 27 3, gives (triAddr env ref j) 64)

/-- A ray that R300's first line turns away misses. Any other ends with the nearest hit: what the traversal returns
is a triangle of the BVH that the ray hits; and without ANY no triangle that the ray hits, all of whose boxes it
enters no later, is hit earlier, or as early at a lower address, so that a miss is returned only where there is none.
The BVH's contents are whatever its reads give, `f`, as long as nothing changes them (R298, R300). -/
def Obligations.TraversalFindsNearest : Prop :=
  ∀ (s : State) (w : Walker) (r : Ray), let ray := RayIn.ofWords r.words
    (ray.misses = true → s.traverse w r = .ok (s, none)) ∧
    ∀ (s0 s1 : State) (sc : Scene) (hit : Option Hit) (P : State → Prop) (f : Word → Nat → Nat),
      let env : WalkEnv := { w := w, base := bvhBase sc.bvh, ray := ray, num := r.num, key := r.key }
      ray.misses = false → s.sceneOf w = .ok (s0, some sc) → P s0 → BvhStands env P f sc.root →
      s.traverse w r = .ok (s1, hit) →
      (∀ h, hit = some h → Below env f ray.tmax h.addr sc.root ∧ triangleHit env f h.addr = some (h.t, h.u, h.v) ∧
        h.tri = word32 (f h.addr 64) 9 ∧ h.geom = word32 (f h.addr 64) 10 ∧
        h.hshd = (word32 (f h.addr 64) 11).toNat % 2 ^ 16) ∧
      (ray.any = false → ∀ a t u v, triangleHit env f a = some (t, u, v) → Below env f t a sc.root →
        ∃ h, hit = some h ∧ t.lt h.t = false ∧ (h.t.lt t = false → h.addr.toNat ≤ a.toNat))
end

