-- ==== Sys2Proof/Laws/Issue.lean ====
section
/-! SUPPORT. What an encoded instruction does once it issues, said once (R42, R88), and what a device
step does. -/

namespace Sys2Proof.Machine

variable {s s' : State} {t u : Team} {i : Instr}

theorem team_uid (h : s.team? n = some t) : t.uid = n := by
  simpa using List.find?_some h

theorem Issues.uid (h : Issues s t i) : t.uid = s.cur := team_uid h.cur

theorem Issues.checks (h : Issues s t i) : s.decodeChecks t i = .ok () := by
  have hp : (i.privileged && !s.privileged t) = false := by
    cases hi : i.privileged
    · rfl
    · simp [h.priv hi]
  have hc : s.failedCheck t i = none := by
    have hi : i.illegalCause = none := by simpa [Instr.wellFormed] using h.formed
    simpa [State.failedCheck, hi] using h.implied
  have hv : (s.namedVectors t i).find? (fun n => decide (t.allot ≤ n)) = none := by
    simpa using h.allot
  simp [State.decodeChecks, hp, hc, hv]

@[simp] theorem Team.settles_none (h : t.pend = none) (e : Effect) : t.settles e = e := by
  cases e <;> simp [Team.settles, h]

@[simp] theorem Team.settles_ok (s : State) : t.settles (.ok s) = .ok s := rfl

/-- An instruction that issues and passes its checks does what its body says: it leaves the body's state
with its reads of TIME counted, or it stops as the body says. -/
theorem issue_of_issues (h : Issues s t i) (body : Team → Effect) :
    issue i s body = match body t with
      | .ok r => .next (r.countReads t.uid i.timeReads)
      | .error e => .next (s.takeStop t e) := by
  simp only [issue, h.cur, State.runIssue, h.can, h.free, h.checks, Team.settles_none h.settled]
  cases hb : body t with
  | error e => simp [bind, Except.bind]
  | ok r =>
    rcases h.quiet with hq | hq
    · simp only [hq, State.noteTimeReads, State.logReads, State.countReads]
      cases s.logsTime t <;> simp [bind, Except.bind, pure, Except.pure]
    · simp [bind, Except.bind, State.noteTimeReads, hq]

theorem issueTeam_of_issues (h : Issues s t i) (f : Team → Team) (hf : (f t).uid = t.uid) :
    issueTeam i s f = .next (s.after i (f t)) := by
  simp [issueTeam, issue_of_issues h, State.after, hf]

/-- A device step is taken exactly where its condition holds. -/
theorem event_next {name : String} {o : Option State} : event name o = .next s' ↔ o = some s' := by
  cases o <;> simp [event]

@[simp] theorem event_some (name : String) : event name (some s') = .next s' := rfl

/-- No encoded instruction faults or refuses while there is a team that issues. -/
theorem issue_next (h : s.team? s.cur = some t) (body : Team → Effect) :
    ∃ s', issue i s body = .next s' := by
  simp only [issue, h]
  cases s.runIssue i t body with
  | ok r => exact ⟨r, rfl⟩
  | error e => exact ⟨s.takeStop t e, rfl⟩

end Sys2Proof.Machine
end

