-- ==== Sys2Proof/Laws/Memory.lean ====
section
/-! SUPPORT. The laws of memory: a read after a write, bytes elsewhere, and the canonical form that every
operation on a memory keeps. -/

namespace Sys2Proof.Machine

/-! ### One byte -/

@[simp] theorem Memory.byte_nil (a : Nat) : Memory.byte [] a = unlistedByte := rfl

theorem Memory.byte_setByte_other {m : Memory} {a x : Nat} {v : Byte} (h : x ≠ a) :
    (m.setByte a v).byte x = m.byte x := by
  induction m with
  | nil => by_cases hv : v = unlistedByte <;> simp [setByte, byte, hv, Ne.symm h]
  | cons c rest ih =>
    obtain ⟨k, w⟩ := c
    rcases Nat.lt_trichotomy a k with hk | rfl | hk
    · by_cases hv : v = unlistedByte <;> simp [setByte, byte, hk, hv, Ne.symm h]
    · by_cases hv : v = unlistedByte <;> simp [setByte, byte, hv, Ne.symm h]
    · have h1 : ¬a < k := by omega
      have h2 : ¬a = k := by omega
      simp [setByte, byte, h1, h2, ih]

theorem Memory.wfFrom_mono {m : Memory} {lo hi : Nat} (h : lo ≤ hi) (hm : m.wfFrom hi = true) :
    m.wfFrom lo = true := by
  cases m with
  | nil => rfl
  | cons c rest =>
    simp only [wfFrom, Bool.and_eq_true, decide_eq_true_eq] at hm ⊢
    exact ⟨⟨Nat.le_trans h hm.1.1, hm.1.2⟩, hm.2⟩

theorem Memory.byte_below {m : Memory} {lo a : Nat} (hm : m.wfFrom lo = true) (h : a < lo) :
    m.byte a = unlistedByte := by
  induction m generalizing lo with
  | nil => rfl
  | cons c rest ih =>
    simp only [wfFrom, Bool.and_eq_true, decide_eq_true_eq] at hm
    have hk : ¬c.1 = a := by omega
    simp only [byte, hk, if_false]
    exact ih hm.2 (by omega)

theorem Memory.byte_setByte_self {m : Memory} {a lo : Nat} {v : Byte} (hm : m.wfFrom lo = true) :
    (m.setByte a v).byte a = v := by
  induction m generalizing lo with
  | nil => by_cases hv : v = unlistedByte <;> simp [setByte, byte, hv]
  | cons c rest ih =>
    obtain ⟨k, w⟩ := c
    have hr : Memory.wfFrom (k + 1) rest = true := by simp [wfFrom] at hm; exact hm.2
    rcases Nat.lt_trichotomy a k with hk | rfl | hk
    · by_cases hv : v = unlistedByte
      · have hne : ¬k = a := by omega
        simp [setByte, byte, hk, hv, hne, byte_below hr (a := a) (by omega)]
      · simp [setByte, byte, hk, hv]
    · by_cases hv : v = unlistedByte
      · simp [setByte, hv, byte_below hr (a := a) (by omega)]
      · simp [setByte, byte, hv]
    · have h1 : ¬a < k := by omega
      have h2 : ¬a = k := by omega
      have h3 : ¬k = a := by omega
      simp [setByte, byte, h1, h2, h3, ih hr]

theorem Memory.wfFrom_setByte {m : Memory} {lo a : Nat} {v : Byte} (hm : m.wfFrom lo = true) (h : lo ≤ a) :
    (m.setByte a v).wfFrom lo = true := by
  induction m generalizing lo with
  | nil => by_cases hv : v = unlistedByte <;> simp [setByte, wfFrom, hv, h]
  | cons c rest ih =>
    obtain ⟨k, w⟩ := c
    simp only [wfFrom, Bool.and_eq_true, decide_eq_true_eq] at hm
    rcases Nat.lt_trichotomy a k with hk | rfl | hk
    · by_cases hv : v = unlistedByte
      · simp [setByte, hk, hv, wfFrom, hm.1.1, hm.2]; simpa using hm.1.2
      · simp only [setByte, hk, if_true, hv, if_false, wfFrom, Bool.and_eq_true, decide_eq_true_eq]
        exact ⟨⟨h, by simpa using hv⟩, ⟨by omega, hm.1.2⟩, hm.2⟩
    · by_cases hv : v = unlistedByte
      · simpa [setByte, hv] using wfFrom_mono (by omega) hm.2
      · simp [setByte, hv, wfFrom, h, hm.2]
    · have h1 : ¬a < k := by omega
      have h2 : ¬a = k := by omega
      simp only [setByte, h1, h2, if_false, wfFrom, Bool.and_eq_true, decide_eq_true_eq]
      exact ⟨hm.1, ih hm.2 (by omega)⟩

theorem Memory.wf_setByte {m : Memory} (a : Nat) (v : Byte) (hm : m.wf = true) : (m.setByte a v).wf = true :=
  wfFrom_setByte hm (by omega)

/-! ### Ranges -/

theorem Memory.wf_setBytes {m : Memory} (a : Nat) (l : List Byte) (hm : m.wf = true) :
    (m.setBytes a l).wf = true := by
  induction l generalizing m a with
  | nil => exact hm
  | cons b rest ih => exact ih _ (wf_setByte a b hm)

theorem Memory.wf_write {m : Memory} (a n v : Nat) (hm : m.wf = true) : (m.write a n v).wf = true :=
  wf_setBytes a _ hm

theorem Memory.wf_writeWords {m : Memory} (a : Nat) (l : List Nat) (hm : m.wf = true) :
    (m.writeWords a l).wf = true := by
  induction l generalizing m a with
  | nil => exact hm
  | cons v rest ih => exact ih _ (wf_write a 8 v hm)

theorem Memory.wf_copyRange {m : Memory} (src : Memory) (a n : Nat) (hm : m.wf = true) :
    (m.copyRange src a n).wf = true := by
  induction n generalizing m a with
  | zero => exact hm
  | succ n ih => exact ih _ (wf_setByte a _ hm)

theorem Memory.wf_moveRange {m : Memory} (src : Memory) (d a n : Nat) (hm : m.wf = true) :
    (m.moveRange src d a n).wf = true := by
  induction n generalizing m d a with
  | zero => exact hm
  | succ n ih => exact ih _ _ (wf_setByte d _ hm)

theorem Memory.wfFrom_filter {m : Memory} (p : Host.Cell → Bool) {lo : Nat} (hm : m.wfFrom lo = true) :
    Memory.wfFrom lo (m.filter p) = true := by
  induction m generalizing lo with
  | nil => rfl
  | cons c rest ih =>
    simp only [wfFrom, Bool.and_eq_true, decide_eq_true_eq] at hm
    cases hp : p c
    · simpa [hp] using wfFrom_mono (by omega) (ih hm.2)
    · simp [hp, wfFrom, hm.1.1, ih hm.2]; simpa using hm.1.2

theorem Memory.wf_slice {m : Memory} (a n : Nat) (hm : m.wf = true) : (m.slice a n).wf = true :=
  wfFrom_filter _ hm

theorem Memory.wf_clear {m : Memory} (a n : Nat) (hm : m.wf = true) : (m.clear a n).wf = true :=
  wfFrom_filter _ hm

theorem Memory.wf_movePage {m : Memory} (d a n : Nat) (hm : m.wf = true) : (m.movePage d a n).wf = true := by
  have key : ∀ (l : List Host.Cell) (m : Memory), m.wf = true →
      (l.foldl (fun m c => Memory.setByte m (d + (c.1 - a)) c.2) m).wf = true := by
    intro l
    induction l with
    | nil => exact fun _ h => h
    | cons c rest ih => exact fun m h => ih _ (wf_setByte _ _ h)
  exact key _ _ (wf_clear d n hm)

theorem Memory.wf_takePage {m : Memory} (src : Memory) (a n : Nat) (hm : m.wf = true) :
    (m.takePage src a n).wf = true := by
  have key : ∀ (l : List Host.Cell) (m : Memory), m.wf = true →
      (l.foldl (fun m c => Memory.setByte m c.1 c.2) m).wf = true := by
    intro l
    induction l with
    | nil => exact fun _ h => h
    | cons c rest ih => exact fun m h => ih _ (wf_setByte _ _ h)
  exact key _ _ (wf_clear a n hm)

/-! ### Read after write -/

theorem Memory.byte_setBytes_other {m : Memory} {a x : Nat} {l : List Byte} (h : x < a ∨ a + l.length ≤ x) :
    (m.setBytes a l).byte x = m.byte x := by
  induction l generalizing m a with
  | nil => rfl
  | cons b rest ih =>
    simp only [List.length_cons] at h
    rw [setBytes, ih (by omega), byte_setByte_other (by omega)]

theorem Memory.byte_setBytes_at {m : Memory} {a k : Nat} {l : List Byte} (hm : m.wf = true)
    (h : k < l.length) : (m.setBytes a l).byte (a + k) = l[k] := by
  induction l generalizing m a k with
  | nil => simp at h
  | cons b rest ih =>
    cases k with
    | zero => rw [setBytes, byte_setBytes_other (by omega)]; exact byte_setByte_self hm
    | succ k =>
      rw [setBytes, show a + (k + 1) = a + 1 + k by omega, ih (wf_setByte a b hm) (by simpa using h)]
      rfl

@[simp] theorem Memory.length_bytes (m : Memory) (a n : Nat) : (m.bytes a n).length = n := by
  induction n generalizing a with
  | zero => rfl
  | succ n ih => simp [bytes, ih]

theorem Memory.bytes_eq {m m' : Memory} {a n : Nat} (h : ∀ x, a ≤ x → x < a + n → m.byte x = m'.byte x) :
    m.bytes a n = m'.bytes a n := by
  induction n generalizing a with
  | zero => rfl
  | succ n ih => rw [bytes, bytes, h a (by omega) (by omega), ih fun x h1 h2 => h x (by omega) (by omega)]

theorem Memory.read_setBytes_other {m : Memory} {a x n : Nat} {l : List Byte}
    (h : x + n ≤ a ∨ a + l.length ≤ x) : (m.setBytes a l).read x n = m.read x n := by
  unfold read
  rw [bytes_eq fun y _ _ => byte_setBytes_other (by omega)]

@[simp] theorem length_leBytes (n v : Nat) : (leBytes n v).length = n := by
  induction n generalizing v with
  | zero => rfl
  | succ n ih => simp [leBytes, ih]

theorem leNat_leBytes (n v : Nat) : leNat (leBytes n v) = v % 256 ^ n := by
  induction n generalizing v with
  | zero => simp [leBytes, leNat, Nat.mod_one]
  | succ n ih =>
    simp only [leBytes, leNat, ih, BitVec.toNat_ofNat]
    rw [show (256 : Nat) ^ (n + 1) = 256 * 256 ^ n by rw [Nat.pow_succ, Nat.mul_comm], Nat.mod_mul]

theorem Memory.bytes_setBytes_self {m : Memory} {a : Nat} {l : List Byte} (hm : m.wf = true) :
    (m.setBytes a l).bytes a l.length = l := by
  induction l generalizing m a with
  | nil => rfl
  | cons b rest ih =>
    rw [setBytes, List.length_cons, bytes, ih (wf_setByte a b hm), byte_setBytes_other (by omega),
      byte_setByte_self hm]

/-- A read of what was just written gives the value back, modulo its width. -/
theorem Memory.read_write_self {m : Memory} (a n v : Nat) (hm : m.wf = true) :
    (m.write a n v).read a n = v % 256 ^ n := by
  have h := Memory.bytes_setBytes_self (a := a) (l := leBytes n v) hm
  rw [length_leBytes] at h
  rw [write, read, h, leNat_leBytes]

theorem Memory.read_write_other {m : Memory} (a n v : Nat) {x k : Nat} (h : x + k ≤ a ∨ a + n ≤ x) :
    (m.write a n v).read x k = m.read x k :=
  read_setBytes_other (by simpa using h)

end Sys2Proof.Machine
end

