-- ==== Sys2Proof/Laws/State.lean ====
section
/-! SUPPORT. What each update of the state and of a team leaves, one lemma per field. -/

namespace Sys2Proof.Machine

variable (s : State) (t : Team)

/-! ### Updates of the state -/

@[simp] theorem putTeam_product (u : Team) : (s.putTeam u).product = s.product := rfl
@[simp] theorem putTeam_cores (u : Team) : (s.putTeam u).cores = s.cores := rfl
@[simp] theorem putTeam_baseCycles (u : Team) : (s.putTeam u).baseCycles = s.baseCycles := rfl
@[simp] theorem putTeam_die0 (u : Team) : (s.putTeam u).die0 = s.die0 := rfl
@[simp] theorem putTeam_die1 (u : Team) : (s.putTeam u).die1 = s.die1 := rfl
@[simp] theorem putTeam_ctxs (u : Team) : (s.putTeam u).ctxs = s.ctxs := rfl
@[simp] theorem putTeam_host (u : Team) : (s.putTeam u).host = s.host := rfl
@[simp] theorem putTeam_fabric (u : Team) : (s.putTeam u).fabric = s.fabric := rfl
@[simp] theorem putTeam_tasks (u : Team) : (s.putTeam u).tasks = s.tasks := rfl
@[simp] theorem putTeam_depQ (u : Team) : (s.putTeam u).depQ = s.depQ := rfl
@[simp] theorem putTeam_readyQ (u : Team) : (s.putTeam u).readyQ = s.readyQ := rfl
@[simp] theorem putTeam_succQ (u : Team) : (s.putTeam u).succQ = s.succQ := rfl
@[simp] theorem putTeam_cur (u : Team) : (s.putTeam u).cur = s.cur := rfl
@[simp] theorem putTeam_nextUid (u : Team) : (s.putTeam u).nextUid = s.nextUid := rfl
@[simp] theorem putTeam_free (u : Team) : (s.putTeam u).free = s.free := rfl
@[simp] theorem putTeam_agenda (u : Team) : (s.putTeam u).agenda = s.agenda := rfl
@[simp] theorem putTeam_elapsed (u : Team) : (s.putTeam u).elapsed = s.elapsed := rfl
@[simp] theorem putTeam_arg (u : Team) : (s.putTeam u).arg = s.arg := rfl
@[simp] theorem putTeam_stalled (u : Team) : (s.putTeam u).stalled = s.stalled := rfl
@[simp] theorem putTeam_watchSince (u : Team) : (s.putTeam u).watchSince = s.watchSince := rfl
@[simp] theorem putTeam_clos (u : Team) : (s.putTeam u).clos = s.clos := rfl
@[simp] theorem putTeam_late (u : Team) : (s.putTeam u).late = s.late := rfl
@[simp] theorem putTeam_intakeCap (u : Team) : (s.putTeam u).intakeCap = s.intakeCap := rfl
@[simp] theorem putTeam_landingCap (u : Team) : (s.putTeam u).landingCap = s.landingCap := rfl
@[simp] theorem putTeam_leftovers (u : Team) : (s.putTeam u).leftovers = s.leftovers := rfl

@[simp] theorem modTeam_product (n : Nat) (f : Team → Team) : (s.modTeam n f).product = s.product := rfl
@[simp] theorem modTeam_cores (n : Nat) (f : Team → Team) : (s.modTeam n f).cores = s.cores := rfl
@[simp] theorem modTeam_baseCycles (n : Nat) (f : Team → Team) : (s.modTeam n f).baseCycles = s.baseCycles := rfl
@[simp] theorem modTeam_die0 (n : Nat) (f : Team → Team) : (s.modTeam n f).die0 = s.die0 := rfl
@[simp] theorem modTeam_die1 (n : Nat) (f : Team → Team) : (s.modTeam n f).die1 = s.die1 := rfl
@[simp] theorem modTeam_ctxs (n : Nat) (f : Team → Team) : (s.modTeam n f).ctxs = s.ctxs := rfl
@[simp] theorem modTeam_host (n : Nat) (f : Team → Team) : (s.modTeam n f).host = s.host := rfl
@[simp] theorem modTeam_fabric (n : Nat) (f : Team → Team) : (s.modTeam n f).fabric = s.fabric := rfl
@[simp] theorem modTeam_tasks (n : Nat) (f : Team → Team) : (s.modTeam n f).tasks = s.tasks := rfl
@[simp] theorem modTeam_depQ (n : Nat) (f : Team → Team) : (s.modTeam n f).depQ = s.depQ := rfl
@[simp] theorem modTeam_readyQ (n : Nat) (f : Team → Team) : (s.modTeam n f).readyQ = s.readyQ := rfl
@[simp] theorem modTeam_succQ (n : Nat) (f : Team → Team) : (s.modTeam n f).succQ = s.succQ := rfl
@[simp] theorem modTeam_cur (n : Nat) (f : Team → Team) : (s.modTeam n f).cur = s.cur := rfl
@[simp] theorem modTeam_nextUid (n : Nat) (f : Team → Team) : (s.modTeam n f).nextUid = s.nextUid := rfl
@[simp] theorem modTeam_free (n : Nat) (f : Team → Team) : (s.modTeam n f).free = s.free := rfl
@[simp] theorem modTeam_agenda (n : Nat) (f : Team → Team) : (s.modTeam n f).agenda = s.agenda := rfl
@[simp] theorem modTeam_elapsed (n : Nat) (f : Team → Team) : (s.modTeam n f).elapsed = s.elapsed := rfl
@[simp] theorem modTeam_arg (n : Nat) (f : Team → Team) : (s.modTeam n f).arg = s.arg := rfl
@[simp] theorem modTeam_stalled (n : Nat) (f : Team → Team) : (s.modTeam n f).stalled = s.stalled := rfl
@[simp] theorem modTeam_watchSince (n : Nat) (f : Team → Team) : (s.modTeam n f).watchSince = s.watchSince := rfl
@[simp] theorem modTeam_clos (n : Nat) (f : Team → Team) : (s.modTeam n f).clos = s.clos := rfl
@[simp] theorem modTeam_late (n : Nat) (f : Team → Team) : (s.modTeam n f).late = s.late := rfl
@[simp] theorem modTeam_intakeCap (n : Nat) (f : Team → Team) : (s.modTeam n f).intakeCap = s.intakeCap := rfl
@[simp] theorem modTeam_landingCap (n : Nat) (f : Team → Team) : (s.modTeam n f).landingCap = s.landingCap := rfl
@[simp] theorem modTeam_leftovers (n : Nat) (f : Team → Team) : (s.modTeam n f).leftovers = s.leftovers := rfl

@[simp] theorem setCore_product (n : Nat) (k : Core) : (s.setCore n k).product = s.product := rfl
@[simp] theorem setCore_teams (n : Nat) (k : Core) : (s.setCore n k).teams = s.teams := rfl
@[simp] theorem setCore_baseCycles (n : Nat) (k : Core) : (s.setCore n k).baseCycles = s.baseCycles := rfl
@[simp] theorem setCore_die0 (n : Nat) (k : Core) : (s.setCore n k).die0 = s.die0 := rfl
@[simp] theorem setCore_die1 (n : Nat) (k : Core) : (s.setCore n k).die1 = s.die1 := rfl
@[simp] theorem setCore_ctxs (n : Nat) (k : Core) : (s.setCore n k).ctxs = s.ctxs := rfl
@[simp] theorem setCore_host (n : Nat) (k : Core) : (s.setCore n k).host = s.host := rfl
@[simp] theorem setCore_fabric (n : Nat) (k : Core) : (s.setCore n k).fabric = s.fabric := rfl
@[simp] theorem setCore_tasks (n : Nat) (k : Core) : (s.setCore n k).tasks = s.tasks := rfl
@[simp] theorem setCore_depQ (n : Nat) (k : Core) : (s.setCore n k).depQ = s.depQ := rfl
@[simp] theorem setCore_readyQ (n : Nat) (k : Core) : (s.setCore n k).readyQ = s.readyQ := rfl
@[simp] theorem setCore_succQ (n : Nat) (k : Core) : (s.setCore n k).succQ = s.succQ := rfl
@[simp] theorem setCore_cur (n : Nat) (k : Core) : (s.setCore n k).cur = s.cur := rfl
@[simp] theorem setCore_nextUid (n : Nat) (k : Core) : (s.setCore n k).nextUid = s.nextUid := rfl
@[simp] theorem setCore_free (n : Nat) (k : Core) : (s.setCore n k).free = s.free := rfl
@[simp] theorem setCore_agenda (n : Nat) (k : Core) : (s.setCore n k).agenda = s.agenda := rfl
@[simp] theorem setCore_elapsed (n : Nat) (k : Core) : (s.setCore n k).elapsed = s.elapsed := rfl
@[simp] theorem setCore_arg (n : Nat) (k : Core) : (s.setCore n k).arg = s.arg := rfl
@[simp] theorem setCore_stalled (n : Nat) (k : Core) : (s.setCore n k).stalled = s.stalled := rfl
@[simp] theorem setCore_watchSince (n : Nat) (k : Core) : (s.setCore n k).watchSince = s.watchSince := rfl
@[simp] theorem setCore_clos (n : Nat) (k : Core) : (s.setCore n k).clos = s.clos := rfl
@[simp] theorem setCore_late (n : Nat) (k : Core) : (s.setCore n k).late = s.late := rfl
@[simp] theorem setCore_intakeCap (n : Nat) (k : Core) : (s.setCore n k).intakeCap = s.intakeCap := rfl
@[simp] theorem setCore_landingCap (n : Nat) (k : Core) : (s.setCore n k).landingCap = s.landingCap := rfl
@[simp] theorem setCore_leftovers (n : Nat) (k : Core) : (s.setCore n k).leftovers = s.leftovers := rfl

@[simp] theorem modCore_product (n : Nat) (f : Core → Core) : (s.modCore n f).product = s.product := rfl
@[simp] theorem modCore_teams (n : Nat) (f : Core → Core) : (s.modCore n f).teams = s.teams := rfl
@[simp] theorem modCore_baseCycles (n : Nat) (f : Core → Core) : (s.modCore n f).baseCycles = s.baseCycles := rfl
@[simp] theorem modCore_die0 (n : Nat) (f : Core → Core) : (s.modCore n f).die0 = s.die0 := rfl
@[simp] theorem modCore_die1 (n : Nat) (f : Core → Core) : (s.modCore n f).die1 = s.die1 := rfl
@[simp] theorem modCore_ctxs (n : Nat) (f : Core → Core) : (s.modCore n f).ctxs = s.ctxs := rfl
@[simp] theorem modCore_host (n : Nat) (f : Core → Core) : (s.modCore n f).host = s.host := rfl
@[simp] theorem modCore_fabric (n : Nat) (f : Core → Core) : (s.modCore n f).fabric = s.fabric := rfl
@[simp] theorem modCore_tasks (n : Nat) (f : Core → Core) : (s.modCore n f).tasks = s.tasks := rfl
@[simp] theorem modCore_depQ (n : Nat) (f : Core → Core) : (s.modCore n f).depQ = s.depQ := rfl
@[simp] theorem modCore_readyQ (n : Nat) (f : Core → Core) : (s.modCore n f).readyQ = s.readyQ := rfl
@[simp] theorem modCore_succQ (n : Nat) (f : Core → Core) : (s.modCore n f).succQ = s.succQ := rfl
@[simp] theorem modCore_cur (n : Nat) (f : Core → Core) : (s.modCore n f).cur = s.cur := rfl
@[simp] theorem modCore_nextUid (n : Nat) (f : Core → Core) : (s.modCore n f).nextUid = s.nextUid := rfl
@[simp] theorem modCore_free (n : Nat) (f : Core → Core) : (s.modCore n f).free = s.free := rfl
@[simp] theorem modCore_agenda (n : Nat) (f : Core → Core) : (s.modCore n f).agenda = s.agenda := rfl
@[simp] theorem modCore_elapsed (n : Nat) (f : Core → Core) : (s.modCore n f).elapsed = s.elapsed := rfl
@[simp] theorem modCore_arg (n : Nat) (f : Core → Core) : (s.modCore n f).arg = s.arg := rfl
@[simp] theorem modCore_stalled (n : Nat) (f : Core → Core) : (s.modCore n f).stalled = s.stalled := rfl
@[simp] theorem modCore_watchSince (n : Nat) (f : Core → Core) : (s.modCore n f).watchSince = s.watchSince := rfl
@[simp] theorem modCore_clos (n : Nat) (f : Core → Core) : (s.modCore n f).clos = s.clos := rfl
@[simp] theorem modCore_late (n : Nat) (f : Core → Core) : (s.modCore n f).late = s.late := rfl
@[simp] theorem modCore_intakeCap (n : Nat) (f : Core → Core) : (s.modCore n f).intakeCap = s.intakeCap := rfl
@[simp] theorem modCore_landingCap (n : Nat) (f : Core → Core) : (s.modCore n f).landingCap = s.landingCap := rfl
@[simp] theorem modCore_leftovers (n : Nat) (f : Core → Core) : (s.modCore n f).leftovers = s.leftovers := rfl

@[simp] theorem modCtx_product (n : Nat) (f : Ctx → Ctx) : (s.modCtx n f).product = s.product := rfl
@[simp] theorem modCtx_teams (n : Nat) (f : Ctx → Ctx) : (s.modCtx n f).teams = s.teams := rfl
@[simp] theorem modCtx_cores (n : Nat) (f : Ctx → Ctx) : (s.modCtx n f).cores = s.cores := rfl
@[simp] theorem modCtx_baseCycles (n : Nat) (f : Ctx → Ctx) : (s.modCtx n f).baseCycles = s.baseCycles := rfl
@[simp] theorem modCtx_die0 (n : Nat) (f : Ctx → Ctx) : (s.modCtx n f).die0 = s.die0 := rfl
@[simp] theorem modCtx_die1 (n : Nat) (f : Ctx → Ctx) : (s.modCtx n f).die1 = s.die1 := rfl
@[simp] theorem modCtx_host (n : Nat) (f : Ctx → Ctx) : (s.modCtx n f).host = s.host := rfl
@[simp] theorem modCtx_fabric (n : Nat) (f : Ctx → Ctx) : (s.modCtx n f).fabric = s.fabric := rfl
@[simp] theorem modCtx_tasks (n : Nat) (f : Ctx → Ctx) : (s.modCtx n f).tasks = s.tasks := rfl
@[simp] theorem modCtx_depQ (n : Nat) (f : Ctx → Ctx) : (s.modCtx n f).depQ = s.depQ := rfl
@[simp] theorem modCtx_readyQ (n : Nat) (f : Ctx → Ctx) : (s.modCtx n f).readyQ = s.readyQ := rfl
@[simp] theorem modCtx_succQ (n : Nat) (f : Ctx → Ctx) : (s.modCtx n f).succQ = s.succQ := rfl
@[simp] theorem modCtx_cur (n : Nat) (f : Ctx → Ctx) : (s.modCtx n f).cur = s.cur := rfl
@[simp] theorem modCtx_nextUid (n : Nat) (f : Ctx → Ctx) : (s.modCtx n f).nextUid = s.nextUid := rfl
@[simp] theorem modCtx_free (n : Nat) (f : Ctx → Ctx) : (s.modCtx n f).free = s.free := rfl
@[simp] theorem modCtx_agenda (n : Nat) (f : Ctx → Ctx) : (s.modCtx n f).agenda = s.agenda := rfl
@[simp] theorem modCtx_elapsed (n : Nat) (f : Ctx → Ctx) : (s.modCtx n f).elapsed = s.elapsed := rfl
@[simp] theorem modCtx_arg (n : Nat) (f : Ctx → Ctx) : (s.modCtx n f).arg = s.arg := rfl
@[simp] theorem modCtx_stalled (n : Nat) (f : Ctx → Ctx) : (s.modCtx n f).stalled = s.stalled := rfl
@[simp] theorem modCtx_watchSince (n : Nat) (f : Ctx → Ctx) : (s.modCtx n f).watchSince = s.watchSince := rfl
@[simp] theorem modCtx_clos (n : Nat) (f : Ctx → Ctx) : (s.modCtx n f).clos = s.clos := rfl
@[simp] theorem modCtx_late (n : Nat) (f : Ctx → Ctx) : (s.modCtx n f).late = s.late := rfl
@[simp] theorem modCtx_intakeCap (n : Nat) (f : Ctx → Ctx) : (s.modCtx n f).intakeCap = s.intakeCap := rfl
@[simp] theorem modCtx_landingCap (n : Nat) (f : Ctx → Ctx) : (s.modCtx n f).landingCap = s.landingCap := rfl
@[simp] theorem modCtx_leftovers (n : Nat) (f : Ctx → Ctx) : (s.modCtx n f).leftovers = s.leftovers := rfl

@[simp] theorem modDie_product (n : Nat) (f : Die → Die) : (s.modDie n f).product = s.product := by simp only [State.modDie, State.setDie]; split <;> rfl
@[simp] theorem modDie_teams (n : Nat) (f : Die → Die) : (s.modDie n f).teams = s.teams := by simp only [State.modDie, State.setDie]; split <;> rfl
@[simp] theorem modDie_cores (n : Nat) (f : Die → Die) : (s.modDie n f).cores = s.cores := by simp only [State.modDie, State.setDie]; split <;> rfl
@[simp] theorem modDie_baseCycles (n : Nat) (f : Die → Die) : (s.modDie n f).baseCycles = s.baseCycles := by simp only [State.modDie, State.setDie]; split <;> rfl
@[simp] theorem modDie_ctxs (n : Nat) (f : Die → Die) : (s.modDie n f).ctxs = s.ctxs := by simp only [State.modDie, State.setDie]; split <;> rfl
@[simp] theorem modDie_host (n : Nat) (f : Die → Die) : (s.modDie n f).host = s.host := by simp only [State.modDie, State.setDie]; split <;> rfl
@[simp] theorem modDie_fabric (n : Nat) (f : Die → Die) : (s.modDie n f).fabric = s.fabric := by simp only [State.modDie, State.setDie]; split <;> rfl
@[simp] theorem modDie_tasks (n : Nat) (f : Die → Die) : (s.modDie n f).tasks = s.tasks := by simp only [State.modDie, State.setDie]; split <;> rfl
@[simp] theorem modDie_depQ (n : Nat) (f : Die → Die) : (s.modDie n f).depQ = s.depQ := by simp only [State.modDie, State.setDie]; split <;> rfl
@[simp] theorem modDie_readyQ (n : Nat) (f : Die → Die) : (s.modDie n f).readyQ = s.readyQ := by simp only [State.modDie, State.setDie]; split <;> rfl
@[simp] theorem modDie_succQ (n : Nat) (f : Die → Die) : (s.modDie n f).succQ = s.succQ := by simp only [State.modDie, State.setDie]; split <;> rfl
@[simp] theorem modDie_cur (n : Nat) (f : Die → Die) : (s.modDie n f).cur = s.cur := by simp only [State.modDie, State.setDie]; split <;> rfl
@[simp] theorem modDie_nextUid (n : Nat) (f : Die → Die) : (s.modDie n f).nextUid = s.nextUid := by simp only [State.modDie, State.setDie]; split <;> rfl
@[simp] theorem modDie_free (n : Nat) (f : Die → Die) : (s.modDie n f).free = s.free := by simp only [State.modDie, State.setDie]; split <;> rfl
@[simp] theorem modDie_agenda (n : Nat) (f : Die → Die) : (s.modDie n f).agenda = s.agenda := by simp only [State.modDie, State.setDie]; split <;> rfl
@[simp] theorem modDie_elapsed (n : Nat) (f : Die → Die) : (s.modDie n f).elapsed = s.elapsed := by simp only [State.modDie, State.setDie]; split <;> rfl
@[simp] theorem modDie_arg (n : Nat) (f : Die → Die) : (s.modDie n f).arg = s.arg := by simp only [State.modDie, State.setDie]; split <;> rfl
@[simp] theorem modDie_stalled (n : Nat) (f : Die → Die) : (s.modDie n f).stalled = s.stalled := by simp only [State.modDie, State.setDie]; split <;> rfl
@[simp] theorem modDie_watchSince (n : Nat) (f : Die → Die) : (s.modDie n f).watchSince = s.watchSince := by simp only [State.modDie, State.setDie]; split <;> rfl

@[simp] theorem countReads_product (n k : Nat) : (s.countReads n k).product = s.product := by simp only [State.countReads]; split <;> rfl
@[simp] theorem countReads_cores (n k : Nat) : (s.countReads n k).cores = s.cores := by simp only [State.countReads]; split <;> rfl
@[simp] theorem countReads_baseCycles (n k : Nat) : (s.countReads n k).baseCycles = s.baseCycles := by simp only [State.countReads]; split <;> rfl
@[simp] theorem countReads_die0 (n k : Nat) : (s.countReads n k).die0 = s.die0 := by simp only [State.countReads]; split <;> rfl
@[simp] theorem countReads_die1 (n k : Nat) : (s.countReads n k).die1 = s.die1 := by simp only [State.countReads]; split <;> rfl
@[simp] theorem countReads_ctxs (n k : Nat) : (s.countReads n k).ctxs = s.ctxs := by simp only [State.countReads]; split <;> rfl
@[simp] theorem countReads_host (n k : Nat) : (s.countReads n k).host = s.host := by simp only [State.countReads]; split <;> rfl
@[simp] theorem countReads_fabric (n k : Nat) : (s.countReads n k).fabric = s.fabric := by simp only [State.countReads]; split <;> rfl
@[simp] theorem countReads_tasks (n k : Nat) : (s.countReads n k).tasks = s.tasks := by simp only [State.countReads]; split <;> rfl
@[simp] theorem countReads_depQ (n k : Nat) : (s.countReads n k).depQ = s.depQ := by simp only [State.countReads]; split <;> rfl
@[simp] theorem countReads_readyQ (n k : Nat) : (s.countReads n k).readyQ = s.readyQ := by simp only [State.countReads]; split <;> rfl
@[simp] theorem countReads_succQ (n k : Nat) : (s.countReads n k).succQ = s.succQ := by simp only [State.countReads]; split <;> rfl
@[simp] theorem countReads_cur (n k : Nat) : (s.countReads n k).cur = s.cur := by simp only [State.countReads]; split <;> rfl
@[simp] theorem countReads_nextUid (n k : Nat) : (s.countReads n k).nextUid = s.nextUid := by simp only [State.countReads]; split <;> rfl
@[simp] theorem countReads_free (n k : Nat) : (s.countReads n k).free = s.free := by simp only [State.countReads]; split <;> rfl
@[simp] theorem countReads_agenda (n k : Nat) : (s.countReads n k).agenda = s.agenda := by simp only [State.countReads]; split <;> rfl
@[simp] theorem countReads_elapsed (n k : Nat) : (s.countReads n k).elapsed = s.elapsed := by simp only [State.countReads]; split <;> rfl
@[simp] theorem countReads_arg (n k : Nat) : (s.countReads n k).arg = s.arg := by simp only [State.countReads]; split <;> rfl
@[simp] theorem countReads_stalled (n k : Nat) : (s.countReads n k).stalled = s.stalled := by simp only [State.countReads]; split <;> rfl
@[simp] theorem countReads_watchSince (n k : Nat) : (s.countReads n k).watchSince = s.watchSince := by simp only [State.countReads]; split <;> rfl

@[simp] theorem raiseMsix_product (v : Nat) : (s.raiseMsix v).product = s.product := rfl
@[simp] theorem raiseMsix_teams (v : Nat) : (s.raiseMsix v).teams = s.teams := rfl
@[simp] theorem raiseMsix_cores (v : Nat) : (s.raiseMsix v).cores = s.cores := rfl
@[simp] theorem raiseMsix_baseCycles (v : Nat) : (s.raiseMsix v).baseCycles = s.baseCycles := rfl
@[simp] theorem raiseMsix_die0 (v : Nat) : (s.raiseMsix v).die0 = s.die0 := rfl
@[simp] theorem raiseMsix_die1 (v : Nat) : (s.raiseMsix v).die1 = s.die1 := rfl
@[simp] theorem raiseMsix_ctxs (v : Nat) : (s.raiseMsix v).ctxs = s.ctxs := rfl
@[simp] theorem raiseMsix_fabric (v : Nat) : (s.raiseMsix v).fabric = s.fabric := rfl
@[simp] theorem raiseMsix_tasks (v : Nat) : (s.raiseMsix v).tasks = s.tasks := rfl
@[simp] theorem raiseMsix_depQ (v : Nat) : (s.raiseMsix v).depQ = s.depQ := rfl
@[simp] theorem raiseMsix_readyQ (v : Nat) : (s.raiseMsix v).readyQ = s.readyQ := rfl
@[simp] theorem raiseMsix_succQ (v : Nat) : (s.raiseMsix v).succQ = s.succQ := rfl
@[simp] theorem raiseMsix_cur (v : Nat) : (s.raiseMsix v).cur = s.cur := rfl
@[simp] theorem raiseMsix_nextUid (v : Nat) : (s.raiseMsix v).nextUid = s.nextUid := rfl
@[simp] theorem raiseMsix_free (v : Nat) : (s.raiseMsix v).free = s.free := rfl
@[simp] theorem raiseMsix_agenda (v : Nat) : (s.raiseMsix v).agenda = s.agenda := rfl
@[simp] theorem raiseMsix_elapsed (v : Nat) : (s.raiseMsix v).elapsed = s.elapsed := rfl
@[simp] theorem raiseMsix_arg (v : Nat) : (s.raiseMsix v).arg = s.arg := rfl
@[simp] theorem raiseMsix_stalled (v : Nat) : (s.raiseMsix v).stalled = s.stalled := rfl
@[simp] theorem raiseMsix_watchSince (v : Nat) : (s.raiseMsix v).watchSince = s.watchSince := rfl
@[simp] theorem raiseMsix_clos (v : Nat) : (s.raiseMsix v).clos = s.clos := rfl
@[simp] theorem raiseMsix_late (v : Nat) : (s.raiseMsix v).late = s.late := rfl
@[simp] theorem raiseMsix_intakeCap (v : Nat) : (s.raiseMsix v).intakeCap = s.intakeCap := rfl
@[simp] theorem raiseMsix_landingCap (v : Nat) : (s.raiseMsix v).landingCap = s.landingCap := rfl
@[simp] theorem raiseMsix_leftovers (v : Nat) : (s.raiseMsix v).leftovers = s.leftovers := rfl

/-! ### Updates of a team -/

@[simp] theorem setS_uid (n : Nat) (v : Word) : (t.setS n v).uid = t.uid := by simp only [Team.setS]; split <;> rfl
@[simp] theorem setS_ctx (n : Nat) (v : Word) : (t.setS n v).ctx = t.ctx := by simp only [Team.setS]; split <;> rfl
@[simp] theorem setS_place (n : Nat) (v : Word) : (t.setS n v).place = t.place := by simp only [Team.setS]; split <;> rfl
@[simp] theorem setS_pc (n : Nat) (v : Word) : (t.setS n v).pc = t.pc := by simp only [Team.setS]; split <;> rfl
@[simp] theorem setS_cc (n : Nat) (v : Word) : (t.setS n v).cc = t.cc := by simp only [Team.setS]; split <;> rfl
@[simp] theorem setS_vregs (n : Nat) (v : Word) : (t.setS n v).vregs = t.vregs := by simp only [Team.setS]; split <;> rfl
@[simp] theorem setS_masks (n : Nat) (v : Word) : (t.setS n v).masks = t.masks := by simp only [Team.setS]; split <;> rfl
@[simp] theorem setS_mode (n : Nat) (v : Word) : (t.setS n v).mode = t.mode := by simp only [Team.setS]; split <;> rfl
@[simp] theorem setS_stack (n : Nat) (v : Word) : (t.setS n v).stack = t.stack := by simp only [Team.setS]; split <;> rfl
@[simp] theorem setS_loops (n : Nat) (v : Word) : (t.setS n v).loops = t.loops := by simp only [Team.setS]; split <;> rfl
@[simp] theorem setS_active (n : Nat) (v : Word) : (t.setS n v).active = t.active := by simp only [Team.setS]; split <;> rfl
@[simp] theorem setS_key (n : Nat) (v : Word) : (t.setS n v).key = t.key := by simp only [Team.setS]; split <;> rfl
@[simp] theorem setS_ctr (n : Nat) (v : Word) : (t.setS n v).ctr = t.ctr := by simp only [Team.setS]; split <;> rfl
@[simp] theorem setS_budget (n : Nat) (v : Word) : (t.setS n v).budget = t.budget := by simp only [Team.setS]; split <;> rfl
@[simp] theorem setS_tiles (n : Nat) (v : Word) : (t.setS n v).tiles = t.tiles := by simp only [Team.setS]; split <;> rfl
@[simp] theorem setS_trap (n : Nat) (v : Word) : (t.setS n v).trap = t.trap := by simp only [Team.setS]; split <;> rfl
@[simp] theorem setS_inHandler (n : Nat) (v : Word) : (t.setS n v).inHandler = t.inHandler := by simp only [Team.setS]; split <;> rfl
@[simp] theorem setS_nlog (n : Nat) (v : Word) : (t.setS n v).nlog = t.nlog := by simp only [Team.setS]; split <;> rfl
@[simp] theorem setS_nlend (n : Nat) (v : Word) : (t.setS n v).nlend = t.nlend := by simp only [Team.setS]; split <;> rfl
@[simp] theorem setS_gwct (n : Nat) (v : Word) : (t.setS n v).gwct = t.gwct := by simp only [Team.setS]; split <;> rfl
@[simp] theorem setS_outstanding (n : Nat) (v : Word) : (t.setS n v).outstanding = t.outstanding := by simp only [Team.setS]; split <;> rfl
@[simp] theorem setS_wait (n : Nat) (v : Word) : (t.setS n v).wait = t.wait := by simp only [Team.setS]; split <;> rfl
@[simp] theorem setS_pend (n : Nat) (v : Word) : (t.setS n v).pend = t.pend := by simp only [Team.setS]; split <;> rfl
@[simp] theorem setS_yielded (n : Nat) (v : Word) : (t.setS n v).yielded = t.yielded := by simp only [Team.setS]; split <;> rfl
@[simp] theorem setS_ident (n : Nat) (v : Word) : (t.setS n v).ident = t.ident := by simp only [Team.setS]; split <;> rfl
@[simp] theorem setS_order (n : Nat) (v : Word) : (t.setS n v).order = t.order := by simp only [Team.setS]; split <;> rfl
@[simp] theorem setS_lastIssue (n : Nat) (v : Word) : (t.setS n v).lastIssue = t.lastIssue := by simp only [Team.setS]; split <;> rfl
@[simp] theorem setS_readySince (n : Nat) (v : Word) : (t.setS n v).readySince = t.readySince := by simp only [Team.setS]; split <;> rfl
@[simp] theorem setS_binding (n : Nat) (v : Word) : (t.setS n v).binding = t.binding := by simp only [Team.setS]; split <;> rfl
@[simp] theorem setS_rays (n : Nat) (v : Word) : (t.setS n v).rays = t.rays := by simp only [Team.setS]; split <;> rfl
@[simp] theorem setS_granted (n : Nat) (v : Word) : (t.setS n v).granted = t.granted := by simp only [Team.setS]; split <;> rfl
@[simp] theorem setS_placed (n : Nat) (v : Word) : (t.setS n v).placed = t.placed := by simp only [Team.setS]; split <;> rfl
@[simp] theorem setS_donated (n : Nat) (v : Word) : (t.setS n v).donated = t.donated := by simp only [Team.setS]; split <;> rfl
@[simp] theorem setS_cameWaiting (n : Nat) (v : Word) : (t.setS n v).cameWaiting = t.cameWaiting := by simp only [Team.setS]; split <;> rfl
@[simp] theorem setS_donationOver (n : Nat) (v : Word) : (t.setS n v).donationOver = t.donationOver := by simp only [Team.setS]; split <;> rfl
@[simp] theorem setS_displacedBy (n : Nat) (v : Word) : (t.setS n v).displacedBy = t.displacedBy := by simp only [Team.setS]; split <;> rfl
@[simp] theorem setS_preemptReq (n : Nat) (v : Word) : (t.setS n v).preemptReq = t.preemptReq := by simp only [Team.setS]; split <;> rfl
@[simp] theorem setS_timeReads (n : Nat) (v : Word) : (t.setS n v).timeReads = t.timeReads := by simp only [Team.setS]; split <;> rfl
@[simp] theorem setS_marks (n : Nat) (v : Word) : (t.setS n v).marks = t.marks := by simp only [Team.setS]; split <;> rfl
@[simp] theorem setS_savedMat (n : Nat) (v : Word) : (t.setS n v).savedMat = t.savedMat := by simp only [Team.setS]; split <;> rfl
@[simp] theorem setS_savedXf (n : Nat) (v : Word) : (t.setS n v).savedXf = t.savedXf := by simp only [Team.setS]; split <;> rfl
@[simp] theorem setS_frame (n : Nat) (v : Word) : (t.setS n v).frame = t.frame := by simp only [Team.setS]; split <;> rfl
@[simp] theorem setS_stepBase (n : Nat) (v : Word) : (t.setS n v).stepBase = t.stepBase := by simp only [Team.setS]; split <;> rfl

@[simp] theorem setD_uid (d : Field) (v : Word) : (t.setD d v).uid = t.uid := by simp [Team.setD]
@[simp] theorem setD_ctx (d : Field) (v : Word) : (t.setD d v).ctx = t.ctx := by simp [Team.setD]
@[simp] theorem setD_place (d : Field) (v : Word) : (t.setD d v).place = t.place := by simp [Team.setD]
@[simp] theorem setD_pc (d : Field) (v : Word) : (t.setD d v).pc = t.pc := by simp [Team.setD]
@[simp] theorem setD_cc (d : Field) (v : Word) : (t.setD d v).cc = t.cc := by simp [Team.setD]
@[simp] theorem setD_vregs (d : Field) (v : Word) : (t.setD d v).vregs = t.vregs := by simp [Team.setD]
@[simp] theorem setD_masks (d : Field) (v : Word) : (t.setD d v).masks = t.masks := by simp [Team.setD]
@[simp] theorem setD_mode (d : Field) (v : Word) : (t.setD d v).mode = t.mode := by simp [Team.setD]
@[simp] theorem setD_stack (d : Field) (v : Word) : (t.setD d v).stack = t.stack := by simp [Team.setD]
@[simp] theorem setD_loops (d : Field) (v : Word) : (t.setD d v).loops = t.loops := by simp [Team.setD]
@[simp] theorem setD_active (d : Field) (v : Word) : (t.setD d v).active = t.active := by simp [Team.setD]
@[simp] theorem setD_key (d : Field) (v : Word) : (t.setD d v).key = t.key := by simp [Team.setD]
@[simp] theorem setD_ctr (d : Field) (v : Word) : (t.setD d v).ctr = t.ctr := by simp [Team.setD]
@[simp] theorem setD_budget (d : Field) (v : Word) : (t.setD d v).budget = t.budget := by simp [Team.setD]
@[simp] theorem setD_tiles (d : Field) (v : Word) : (t.setD d v).tiles = t.tiles := by simp [Team.setD]
@[simp] theorem setD_trap (d : Field) (v : Word) : (t.setD d v).trap = t.trap := by simp [Team.setD]
@[simp] theorem setD_inHandler (d : Field) (v : Word) : (t.setD d v).inHandler = t.inHandler := by simp [Team.setD]
@[simp] theorem setD_nlog (d : Field) (v : Word) : (t.setD d v).nlog = t.nlog := by simp [Team.setD]
@[simp] theorem setD_nlend (d : Field) (v : Word) : (t.setD d v).nlend = t.nlend := by simp [Team.setD]
@[simp] theorem setD_gwct (d : Field) (v : Word) : (t.setD d v).gwct = t.gwct := by simp [Team.setD]
@[simp] theorem setD_outstanding (d : Field) (v : Word) : (t.setD d v).outstanding = t.outstanding := by simp [Team.setD]
@[simp] theorem setD_wait (d : Field) (v : Word) : (t.setD d v).wait = t.wait := by simp [Team.setD]
@[simp] theorem setD_pend (d : Field) (v : Word) : (t.setD d v).pend = t.pend := by simp [Team.setD]
@[simp] theorem setD_yielded (d : Field) (v : Word) : (t.setD d v).yielded = t.yielded := by simp [Team.setD]
@[simp] theorem setD_ident (d : Field) (v : Word) : (t.setD d v).ident = t.ident := by simp [Team.setD]
@[simp] theorem setD_order (d : Field) (v : Word) : (t.setD d v).order = t.order := by simp [Team.setD]
@[simp] theorem setD_lastIssue (d : Field) (v : Word) : (t.setD d v).lastIssue = t.lastIssue := by simp [Team.setD]
@[simp] theorem setD_readySince (d : Field) (v : Word) : (t.setD d v).readySince = t.readySince := by simp [Team.setD]
@[simp] theorem setD_binding (d : Field) (v : Word) : (t.setD d v).binding = t.binding := by simp [Team.setD]
@[simp] theorem setD_rays (d : Field) (v : Word) : (t.setD d v).rays = t.rays := by simp [Team.setD]
@[simp] theorem setD_granted (d : Field) (v : Word) : (t.setD d v).granted = t.granted := by simp [Team.setD]
@[simp] theorem setD_placed (d : Field) (v : Word) : (t.setD d v).placed = t.placed := by simp [Team.setD]
@[simp] theorem setD_donated (d : Field) (v : Word) : (t.setD d v).donated = t.donated := by simp [Team.setD]
@[simp] theorem setD_cameWaiting (d : Field) (v : Word) : (t.setD d v).cameWaiting = t.cameWaiting := by simp [Team.setD]
@[simp] theorem setD_donationOver (d : Field) (v : Word) : (t.setD d v).donationOver = t.donationOver := by simp [Team.setD]
@[simp] theorem setD_displacedBy (d : Field) (v : Word) : (t.setD d v).displacedBy = t.displacedBy := by simp [Team.setD]
@[simp] theorem setD_preemptReq (d : Field) (v : Word) : (t.setD d v).preemptReq = t.preemptReq := by simp [Team.setD]
@[simp] theorem setD_timeReads (d : Field) (v : Word) : (t.setD d v).timeReads = t.timeReads := by simp [Team.setD]
@[simp] theorem setD_marks (d : Field) (v : Word) : (t.setD d v).marks = t.marks := by simp [Team.setD]
@[simp] theorem setD_savedMat (d : Field) (v : Word) : (t.setD d v).savedMat = t.savedMat := by simp [Team.setD]
@[simp] theorem setD_savedXf (d : Field) (v : Word) : (t.setD d v).savedXf = t.savedXf := by simp [Team.setD]
@[simp] theorem setD_frame (d : Field) (v : Word) : (t.setD d v).frame = t.frame := by simp [Team.setD]
@[simp] theorem setD_stepBase (d : Field) (v : Word) : (t.setD d v).stepBase = t.stepBase := by simp [Team.setD]

@[simp] theorem setMask_uid (n : Nat) (m : Mask) : (t.setMask n m).uid = t.uid := by simp only [Team.setMask]; split <;> [split; skip] <;> rfl
@[simp] theorem setMask_ctx (n : Nat) (m : Mask) : (t.setMask n m).ctx = t.ctx := by simp only [Team.setMask]; split <;> [split; skip] <;> rfl
@[simp] theorem setMask_place (n : Nat) (m : Mask) : (t.setMask n m).place = t.place := by simp only [Team.setMask]; split <;> [split; skip] <;> rfl
@[simp] theorem setMask_pc (n : Nat) (m : Mask) : (t.setMask n m).pc = t.pc := by simp only [Team.setMask]; split <;> [split; skip] <;> rfl
@[simp] theorem setMask_sregs (n : Nat) (m : Mask) : (t.setMask n m).sregs = t.sregs := by simp only [Team.setMask]; split <;> [split; skip] <;> rfl
@[simp] theorem setMask_cc (n : Nat) (m : Mask) : (t.setMask n m).cc = t.cc := by simp only [Team.setMask]; split <;> [split; skip] <;> rfl
@[simp] theorem setMask_vregs (n : Nat) (m : Mask) : (t.setMask n m).vregs = t.vregs := by simp only [Team.setMask]; split <;> [split; skip] <;> rfl
@[simp] theorem setMask_mode (n : Nat) (m : Mask) : (t.setMask n m).mode = t.mode := by simp only [Team.setMask]; split <;> [split; skip] <;> rfl
@[simp] theorem setMask_stack (n : Nat) (m : Mask) : (t.setMask n m).stack = t.stack := by simp only [Team.setMask]; split <;> [split; skip] <;> rfl
@[simp] theorem setMask_loops (n : Nat) (m : Mask) : (t.setMask n m).loops = t.loops := by simp only [Team.setMask]; split <;> [split; skip] <;> rfl
@[simp] theorem setMask_active (n : Nat) (m : Mask) : (t.setMask n m).active = t.active := by simp only [Team.setMask]; split <;> [split; skip] <;> rfl
@[simp] theorem setMask_key (n : Nat) (m : Mask) : (t.setMask n m).key = t.key := by simp only [Team.setMask]; split <;> [split; skip] <;> rfl
@[simp] theorem setMask_ctr (n : Nat) (m : Mask) : (t.setMask n m).ctr = t.ctr := by simp only [Team.setMask]; split <;> [split; skip] <;> rfl
@[simp] theorem setMask_budget (n : Nat) (m : Mask) : (t.setMask n m).budget = t.budget := by simp only [Team.setMask]; split <;> [split; skip] <;> rfl
@[simp] theorem setMask_tiles (n : Nat) (m : Mask) : (t.setMask n m).tiles = t.tiles := by simp only [Team.setMask]; split <;> [split; skip] <;> rfl
@[simp] theorem setMask_trap (n : Nat) (m : Mask) : (t.setMask n m).trap = t.trap := by simp only [Team.setMask]; split <;> [split; skip] <;> rfl
@[simp] theorem setMask_inHandler (n : Nat) (m : Mask) : (t.setMask n m).inHandler = t.inHandler := by simp only [Team.setMask]; split <;> [split; skip] <;> rfl
@[simp] theorem setMask_nlog (n : Nat) (m : Mask) : (t.setMask n m).nlog = t.nlog := by simp only [Team.setMask]; split <;> [split; skip] <;> rfl
@[simp] theorem setMask_nlend (n : Nat) (m : Mask) : (t.setMask n m).nlend = t.nlend := by simp only [Team.setMask]; split <;> [split; skip] <;> rfl
@[simp] theorem setMask_gwct (n : Nat) (m : Mask) : (t.setMask n m).gwct = t.gwct := by simp only [Team.setMask]; split <;> [split; skip] <;> rfl
@[simp] theorem setMask_outstanding (n : Nat) (m : Mask) : (t.setMask n m).outstanding = t.outstanding := by simp only [Team.setMask]; split <;> [split; skip] <;> rfl
@[simp] theorem setMask_wait (n : Nat) (m : Mask) : (t.setMask n m).wait = t.wait := by simp only [Team.setMask]; split <;> [split; skip] <;> rfl
@[simp] theorem setMask_pend (n : Nat) (m : Mask) : (t.setMask n m).pend = t.pend := by simp only [Team.setMask]; split <;> [split; skip] <;> rfl
@[simp] theorem setMask_yielded (n : Nat) (m : Mask) : (t.setMask n m).yielded = t.yielded := by simp only [Team.setMask]; split <;> [split; skip] <;> rfl
@[simp] theorem setMask_ident (n : Nat) (m : Mask) : (t.setMask n m).ident = t.ident := by simp only [Team.setMask]; split <;> [split; skip] <;> rfl
@[simp] theorem setMask_order (n : Nat) (m : Mask) : (t.setMask n m).order = t.order := by simp only [Team.setMask]; split <;> [split; skip] <;> rfl
@[simp] theorem setMask_lastIssue (n : Nat) (m : Mask) : (t.setMask n m).lastIssue = t.lastIssue := by simp only [Team.setMask]; split <;> [split; skip] <;> rfl
@[simp] theorem setMask_readySince (n : Nat) (m : Mask) : (t.setMask n m).readySince = t.readySince := by simp only [Team.setMask]; split <;> [split; skip] <;> rfl
@[simp] theorem setMask_binding (n : Nat) (m : Mask) : (t.setMask n m).binding = t.binding := by simp only [Team.setMask]; split <;> [split; skip] <;> rfl
@[simp] theorem setMask_rays (n : Nat) (m : Mask) : (t.setMask n m).rays = t.rays := by simp only [Team.setMask]; split <;> [split; skip] <;> rfl
@[simp] theorem setMask_granted (n : Nat) (m : Mask) : (t.setMask n m).granted = t.granted := by simp only [Team.setMask]; split <;> [split; skip] <;> rfl
@[simp] theorem setMask_placed (n : Nat) (m : Mask) : (t.setMask n m).placed = t.placed := by simp only [Team.setMask]; split <;> [split; skip] <;> rfl
@[simp] theorem setMask_donated (n : Nat) (m : Mask) : (t.setMask n m).donated = t.donated := by simp only [Team.setMask]; split <;> [split; skip] <;> rfl
@[simp] theorem setMask_cameWaiting (n : Nat) (m : Mask) : (t.setMask n m).cameWaiting = t.cameWaiting := by simp only [Team.setMask]; split <;> [split; skip] <;> rfl
@[simp] theorem setMask_donationOver (n : Nat) (m : Mask) : (t.setMask n m).donationOver = t.donationOver := by simp only [Team.setMask]; split <;> [split; skip] <;> rfl
@[simp] theorem setMask_displacedBy (n : Nat) (m : Mask) : (t.setMask n m).displacedBy = t.displacedBy := by simp only [Team.setMask]; split <;> [split; skip] <;> rfl
@[simp] theorem setMask_preemptReq (n : Nat) (m : Mask) : (t.setMask n m).preemptReq = t.preemptReq := by simp only [Team.setMask]; split <;> [split; skip] <;> rfl
@[simp] theorem setMask_timeReads (n : Nat) (m : Mask) : (t.setMask n m).timeReads = t.timeReads := by simp only [Team.setMask]; split <;> [split; skip] <;> rfl
@[simp] theorem setMask_marks (n : Nat) (m : Mask) : (t.setMask n m).marks = t.marks := by simp only [Team.setMask]; split <;> [split; skip] <;> rfl
@[simp] theorem setMask_savedMat (n : Nat) (m : Mask) : (t.setMask n m).savedMat = t.savedMat := by simp only [Team.setMask]; split <;> [split; skip] <;> rfl
@[simp] theorem setMask_savedXf (n : Nat) (m : Mask) : (t.setMask n m).savedXf = t.savedXf := by simp only [Team.setMask]; split <;> [split; skip] <;> rfl
@[simp] theorem setMask_frame (n : Nat) (m : Mask) : (t.setMask n m).frame = t.frame := by simp only [Team.setMask]; split <;> [split; skip] <;> rfl
@[simp] theorem setMask_stepBase (n : Nat) (m : Mask) : (t.setMask n m).stepBase = t.stepBase := by simp only [Team.setMask]; split <;> [split; skip] <;> rfl

@[simp] theorem setLoop_uid (n : Nat) (l : LoopCounter) : (t.setLoop n l).uid = t.uid := by simp only [Team.setLoop]; split <;> rfl
@[simp] theorem setLoop_ctx (n : Nat) (l : LoopCounter) : (t.setLoop n l).ctx = t.ctx := by simp only [Team.setLoop]; split <;> rfl
@[simp] theorem setLoop_place (n : Nat) (l : LoopCounter) : (t.setLoop n l).place = t.place := by simp only [Team.setLoop]; split <;> rfl
@[simp] theorem setLoop_pc (n : Nat) (l : LoopCounter) : (t.setLoop n l).pc = t.pc := by simp only [Team.setLoop]; split <;> rfl
@[simp] theorem setLoop_sregs (n : Nat) (l : LoopCounter) : (t.setLoop n l).sregs = t.sregs := by simp only [Team.setLoop]; split <;> rfl
@[simp] theorem setLoop_cc (n : Nat) (l : LoopCounter) : (t.setLoop n l).cc = t.cc := by simp only [Team.setLoop]; split <;> rfl
@[simp] theorem setLoop_vregs (n : Nat) (l : LoopCounter) : (t.setLoop n l).vregs = t.vregs := by simp only [Team.setLoop]; split <;> rfl
@[simp] theorem setLoop_masks (n : Nat) (l : LoopCounter) : (t.setLoop n l).masks = t.masks := by simp only [Team.setLoop]; split <;> rfl
@[simp] theorem setLoop_mode (n : Nat) (l : LoopCounter) : (t.setLoop n l).mode = t.mode := by simp only [Team.setLoop]; split <;> rfl
@[simp] theorem setLoop_stack (n : Nat) (l : LoopCounter) : (t.setLoop n l).stack = t.stack := by simp only [Team.setLoop]; split <;> rfl
@[simp] theorem setLoop_active (n : Nat) (l : LoopCounter) : (t.setLoop n l).active = t.active := by simp only [Team.setLoop]; split <;> rfl
@[simp] theorem setLoop_key (n : Nat) (l : LoopCounter) : (t.setLoop n l).key = t.key := by simp only [Team.setLoop]; split <;> rfl
@[simp] theorem setLoop_ctr (n : Nat) (l : LoopCounter) : (t.setLoop n l).ctr = t.ctr := by simp only [Team.setLoop]; split <;> rfl
@[simp] theorem setLoop_budget (n : Nat) (l : LoopCounter) : (t.setLoop n l).budget = t.budget := by simp only [Team.setLoop]; split <;> rfl
@[simp] theorem setLoop_tiles (n : Nat) (l : LoopCounter) : (t.setLoop n l).tiles = t.tiles := by simp only [Team.setLoop]; split <;> rfl
@[simp] theorem setLoop_trap (n : Nat) (l : LoopCounter) : (t.setLoop n l).trap = t.trap := by simp only [Team.setLoop]; split <;> rfl
@[simp] theorem setLoop_inHandler (n : Nat) (l : LoopCounter) : (t.setLoop n l).inHandler = t.inHandler := by simp only [Team.setLoop]; split <;> rfl
@[simp] theorem setLoop_nlog (n : Nat) (l : LoopCounter) : (t.setLoop n l).nlog = t.nlog := by simp only [Team.setLoop]; split <;> rfl
@[simp] theorem setLoop_nlend (n : Nat) (l : LoopCounter) : (t.setLoop n l).nlend = t.nlend := by simp only [Team.setLoop]; split <;> rfl
@[simp] theorem setLoop_gwct (n : Nat) (l : LoopCounter) : (t.setLoop n l).gwct = t.gwct := by simp only [Team.setLoop]; split <;> rfl
@[simp] theorem setLoop_outstanding (n : Nat) (l : LoopCounter) : (t.setLoop n l).outstanding = t.outstanding := by simp only [Team.setLoop]; split <;> rfl
@[simp] theorem setLoop_wait (n : Nat) (l : LoopCounter) : (t.setLoop n l).wait = t.wait := by simp only [Team.setLoop]; split <;> rfl
@[simp] theorem setLoop_pend (n : Nat) (l : LoopCounter) : (t.setLoop n l).pend = t.pend := by simp only [Team.setLoop]; split <;> rfl
@[simp] theorem setLoop_yielded (n : Nat) (l : LoopCounter) : (t.setLoop n l).yielded = t.yielded := by simp only [Team.setLoop]; split <;> rfl
@[simp] theorem setLoop_ident (n : Nat) (l : LoopCounter) : (t.setLoop n l).ident = t.ident := by simp only [Team.setLoop]; split <;> rfl
@[simp] theorem setLoop_order (n : Nat) (l : LoopCounter) : (t.setLoop n l).order = t.order := by simp only [Team.setLoop]; split <;> rfl
@[simp] theorem setLoop_lastIssue (n : Nat) (l : LoopCounter) : (t.setLoop n l).lastIssue = t.lastIssue := by simp only [Team.setLoop]; split <;> rfl
@[simp] theorem setLoop_readySince (n : Nat) (l : LoopCounter) : (t.setLoop n l).readySince = t.readySince := by simp only [Team.setLoop]; split <;> rfl
@[simp] theorem setLoop_binding (n : Nat) (l : LoopCounter) : (t.setLoop n l).binding = t.binding := by simp only [Team.setLoop]; split <;> rfl
@[simp] theorem setLoop_rays (n : Nat) (l : LoopCounter) : (t.setLoop n l).rays = t.rays := by simp only [Team.setLoop]; split <;> rfl
@[simp] theorem setLoop_granted (n : Nat) (l : LoopCounter) : (t.setLoop n l).granted = t.granted := by simp only [Team.setLoop]; split <;> rfl
@[simp] theorem setLoop_placed (n : Nat) (l : LoopCounter) : (t.setLoop n l).placed = t.placed := by simp only [Team.setLoop]; split <;> rfl
@[simp] theorem setLoop_donated (n : Nat) (l : LoopCounter) : (t.setLoop n l).donated = t.donated := by simp only [Team.setLoop]; split <;> rfl
@[simp] theorem setLoop_cameWaiting (n : Nat) (l : LoopCounter) : (t.setLoop n l).cameWaiting = t.cameWaiting := by simp only [Team.setLoop]; split <;> rfl
@[simp] theorem setLoop_donationOver (n : Nat) (l : LoopCounter) : (t.setLoop n l).donationOver = t.donationOver := by simp only [Team.setLoop]; split <;> rfl
@[simp] theorem setLoop_displacedBy (n : Nat) (l : LoopCounter) : (t.setLoop n l).displacedBy = t.displacedBy := by simp only [Team.setLoop]; split <;> rfl
@[simp] theorem setLoop_preemptReq (n : Nat) (l : LoopCounter) : (t.setLoop n l).preemptReq = t.preemptReq := by simp only [Team.setLoop]; split <;> rfl
@[simp] theorem setLoop_timeReads (n : Nat) (l : LoopCounter) : (t.setLoop n l).timeReads = t.timeReads := by simp only [Team.setLoop]; split <;> rfl
@[simp] theorem setLoop_marks (n : Nat) (l : LoopCounter) : (t.setLoop n l).marks = t.marks := by simp only [Team.setLoop]; split <;> rfl
@[simp] theorem setLoop_savedMat (n : Nat) (l : LoopCounter) : (t.setLoop n l).savedMat = t.savedMat := by simp only [Team.setLoop]; split <;> rfl
@[simp] theorem setLoop_savedXf (n : Nat) (l : LoopCounter) : (t.setLoop n l).savedXf = t.savedXf := by simp only [Team.setLoop]; split <;> rfl
@[simp] theorem setLoop_frame (n : Nat) (l : LoopCounter) : (t.setLoop n l).frame = t.frame := by simp only [Team.setLoop]; split <;> rfl
@[simp] theorem setLoop_stepBase (n : Nat) (l : LoopCounter) : (t.setLoop n l).stepBase = t.stepBase := by simp only [Team.setLoop]; split <;> rfl

@[simp] theorem setVs_uid (ws : List (Nat × VReg)) : (t.setVs ws).uid = t.uid := rfl
@[simp] theorem setVs_ctx (ws : List (Nat × VReg)) : (t.setVs ws).ctx = t.ctx := rfl
@[simp] theorem setVs_place (ws : List (Nat × VReg)) : (t.setVs ws).place = t.place := rfl
@[simp] theorem setVs_pc (ws : List (Nat × VReg)) : (t.setVs ws).pc = t.pc := rfl
@[simp] theorem setVs_sregs (ws : List (Nat × VReg)) : (t.setVs ws).sregs = t.sregs := rfl
@[simp] theorem setVs_cc (ws : List (Nat × VReg)) : (t.setVs ws).cc = t.cc := rfl
@[simp] theorem setVs_masks (ws : List (Nat × VReg)) : (t.setVs ws).masks = t.masks := rfl
@[simp] theorem setVs_mode (ws : List (Nat × VReg)) : (t.setVs ws).mode = t.mode := rfl
@[simp] theorem setVs_stack (ws : List (Nat × VReg)) : (t.setVs ws).stack = t.stack := rfl
@[simp] theorem setVs_loops (ws : List (Nat × VReg)) : (t.setVs ws).loops = t.loops := rfl
@[simp] theorem setVs_active (ws : List (Nat × VReg)) : (t.setVs ws).active = t.active := rfl
@[simp] theorem setVs_key (ws : List (Nat × VReg)) : (t.setVs ws).key = t.key := rfl
@[simp] theorem setVs_ctr (ws : List (Nat × VReg)) : (t.setVs ws).ctr = t.ctr := rfl
@[simp] theorem setVs_budget (ws : List (Nat × VReg)) : (t.setVs ws).budget = t.budget := rfl
@[simp] theorem setVs_tiles (ws : List (Nat × VReg)) : (t.setVs ws).tiles = t.tiles := rfl
@[simp] theorem setVs_trap (ws : List (Nat × VReg)) : (t.setVs ws).trap = t.trap := rfl
@[simp] theorem setVs_inHandler (ws : List (Nat × VReg)) : (t.setVs ws).inHandler = t.inHandler := rfl
@[simp] theorem setVs_nlog (ws : List (Nat × VReg)) : (t.setVs ws).nlog = t.nlog := rfl
@[simp] theorem setVs_nlend (ws : List (Nat × VReg)) : (t.setVs ws).nlend = t.nlend := rfl
@[simp] theorem setVs_gwct (ws : List (Nat × VReg)) : (t.setVs ws).gwct = t.gwct := rfl
@[simp] theorem setVs_outstanding (ws : List (Nat × VReg)) : (t.setVs ws).outstanding = t.outstanding := rfl
@[simp] theorem setVs_wait (ws : List (Nat × VReg)) : (t.setVs ws).wait = t.wait := rfl
@[simp] theorem setVs_pend (ws : List (Nat × VReg)) : (t.setVs ws).pend = t.pend := rfl
@[simp] theorem setVs_yielded (ws : List (Nat × VReg)) : (t.setVs ws).yielded = t.yielded := rfl
@[simp] theorem setVs_ident (ws : List (Nat × VReg)) : (t.setVs ws).ident = t.ident := rfl
@[simp] theorem setVs_order (ws : List (Nat × VReg)) : (t.setVs ws).order = t.order := rfl
@[simp] theorem setVs_lastIssue (ws : List (Nat × VReg)) : (t.setVs ws).lastIssue = t.lastIssue := rfl
@[simp] theorem setVs_readySince (ws : List (Nat × VReg)) : (t.setVs ws).readySince = t.readySince := rfl
@[simp] theorem setVs_binding (ws : List (Nat × VReg)) : (t.setVs ws).binding = t.binding := rfl
@[simp] theorem setVs_rays (ws : List (Nat × VReg)) : (t.setVs ws).rays = t.rays := rfl
@[simp] theorem setVs_granted (ws : List (Nat × VReg)) : (t.setVs ws).granted = t.granted := rfl
@[simp] theorem setVs_placed (ws : List (Nat × VReg)) : (t.setVs ws).placed = t.placed := rfl
@[simp] theorem setVs_donated (ws : List (Nat × VReg)) : (t.setVs ws).donated = t.donated := rfl
@[simp] theorem setVs_cameWaiting (ws : List (Nat × VReg)) : (t.setVs ws).cameWaiting = t.cameWaiting := rfl
@[simp] theorem setVs_donationOver (ws : List (Nat × VReg)) : (t.setVs ws).donationOver = t.donationOver := rfl
@[simp] theorem setVs_displacedBy (ws : List (Nat × VReg)) : (t.setVs ws).displacedBy = t.displacedBy := rfl
@[simp] theorem setVs_preemptReq (ws : List (Nat × VReg)) : (t.setVs ws).preemptReq = t.preemptReq := rfl
@[simp] theorem setVs_timeReads (ws : List (Nat × VReg)) : (t.setVs ws).timeReads = t.timeReads := rfl
@[simp] theorem setVs_marks (ws : List (Nat × VReg)) : (t.setVs ws).marks = t.marks := rfl
@[simp] theorem setVs_savedMat (ws : List (Nat × VReg)) : (t.setVs ws).savedMat = t.savedMat := rfl
@[simp] theorem setVs_savedXf (ws : List (Nat × VReg)) : (t.setVs ws).savedXf = t.savedXf := rfl
@[simp] theorem setVs_frame (ws : List (Nat × VReg)) : (t.setVs ws).frame = t.frame := rfl
@[simp] theorem setVs_stepBase (ws : List (Nat × VReg)) : (t.setVs ws).stepBase = t.stepBase := rfl

@[simp] theorem waitFor_uid (k : WaitKind) : (t.waitFor k).uid = t.uid := rfl
@[simp] theorem waitFor_ctx (k : WaitKind) : (t.waitFor k).ctx = t.ctx := rfl
@[simp] theorem waitFor_place (k : WaitKind) : (t.waitFor k).place = t.place := rfl
@[simp] theorem waitFor_pc (k : WaitKind) : (t.waitFor k).pc = t.pc := rfl
@[simp] theorem waitFor_sregs (k : WaitKind) : (t.waitFor k).sregs = t.sregs := rfl
@[simp] theorem waitFor_cc (k : WaitKind) : (t.waitFor k).cc = t.cc := rfl
@[simp] theorem waitFor_vregs (k : WaitKind) : (t.waitFor k).vregs = t.vregs := rfl
@[simp] theorem waitFor_masks (k : WaitKind) : (t.waitFor k).masks = t.masks := rfl
@[simp] theorem waitFor_mode (k : WaitKind) : (t.waitFor k).mode = t.mode := rfl
@[simp] theorem waitFor_stack (k : WaitKind) : (t.waitFor k).stack = t.stack := rfl
@[simp] theorem waitFor_loops (k : WaitKind) : (t.waitFor k).loops = t.loops := rfl
@[simp] theorem waitFor_active (k : WaitKind) : (t.waitFor k).active = t.active := rfl
@[simp] theorem waitFor_key (k : WaitKind) : (t.waitFor k).key = t.key := rfl
@[simp] theorem waitFor_ctr (k : WaitKind) : (t.waitFor k).ctr = t.ctr := rfl
@[simp] theorem waitFor_budget (k : WaitKind) : (t.waitFor k).budget = t.budget := rfl
@[simp] theorem waitFor_tiles (k : WaitKind) : (t.waitFor k).tiles = t.tiles := rfl
@[simp] theorem waitFor_trap (k : WaitKind) : (t.waitFor k).trap = t.trap := rfl
@[simp] theorem waitFor_inHandler (k : WaitKind) : (t.waitFor k).inHandler = t.inHandler := rfl
@[simp] theorem waitFor_nlog (k : WaitKind) : (t.waitFor k).nlog = t.nlog := rfl
@[simp] theorem waitFor_nlend (k : WaitKind) : (t.waitFor k).nlend = t.nlend := rfl
@[simp] theorem waitFor_gwct (k : WaitKind) : (t.waitFor k).gwct = t.gwct := rfl
@[simp] theorem waitFor_outstanding (k : WaitKind) : (t.waitFor k).outstanding = t.outstanding := rfl
@[simp] theorem waitFor_pend (k : WaitKind) : (t.waitFor k).pend = t.pend := rfl
@[simp] theorem waitFor_yielded (k : WaitKind) : (t.waitFor k).yielded = t.yielded := rfl
@[simp] theorem waitFor_ident (k : WaitKind) : (t.waitFor k).ident = t.ident := rfl
@[simp] theorem waitFor_order (k : WaitKind) : (t.waitFor k).order = t.order := rfl
@[simp] theorem waitFor_lastIssue (k : WaitKind) : (t.waitFor k).lastIssue = t.lastIssue := rfl
@[simp] theorem waitFor_readySince (k : WaitKind) : (t.waitFor k).readySince = t.readySince := rfl
@[simp] theorem waitFor_binding (k : WaitKind) : (t.waitFor k).binding = t.binding := rfl
@[simp] theorem waitFor_rays (k : WaitKind) : (t.waitFor k).rays = t.rays := rfl
@[simp] theorem waitFor_granted (k : WaitKind) : (t.waitFor k).granted = t.granted := rfl
@[simp] theorem waitFor_placed (k : WaitKind) : (t.waitFor k).placed = t.placed := rfl
@[simp] theorem waitFor_donated (k : WaitKind) : (t.waitFor k).donated = t.donated := rfl
@[simp] theorem waitFor_cameWaiting (k : WaitKind) : (t.waitFor k).cameWaiting = t.cameWaiting := rfl
@[simp] theorem waitFor_donationOver (k : WaitKind) : (t.waitFor k).donationOver = t.donationOver := rfl
@[simp] theorem waitFor_displacedBy (k : WaitKind) : (t.waitFor k).displacedBy = t.displacedBy := rfl
@[simp] theorem waitFor_preemptReq (k : WaitKind) : (t.waitFor k).preemptReq = t.preemptReq := rfl
@[simp] theorem waitFor_timeReads (k : WaitKind) : (t.waitFor k).timeReads = t.timeReads := rfl
@[simp] theorem waitFor_marks (k : WaitKind) : (t.waitFor k).marks = t.marks := rfl
@[simp] theorem waitFor_savedMat (k : WaitKind) : (t.waitFor k).savedMat = t.savedMat := rfl
@[simp] theorem waitFor_savedXf (k : WaitKind) : (t.waitFor k).savedXf = t.savedXf := rfl
@[simp] theorem waitFor_frame (k : WaitKind) : (t.waitFor k).frame = t.frame := rfl
@[simp] theorem waitFor_stepBase (k : WaitKind) : (t.waitFor k).stepBase = t.stepBase := rfl

@[simp] theorem loopEnds_uid (pc : Word) (l : List Nat) (npc : Word) : (t.loopEnds pc l npc).1.uid = t.uid := by
  induction l generalizing npc t with
  | nil => rfl
  | cons n rest ih => simp only [Team.loopEnds]; split <;> [(split <;> simp [ih]); exact ih ..]
@[simp] theorem goTo_uid (npc : Word) : (t.goTo npc).uid = t.uid := by
  simp only [Team.goTo]; split <;> simp
@[simp] theorem advance_uid : t.advance.uid = t.uid := by simp [Team.advance]
@[simp] theorem advanceX_uid : t.advanceX.uid = t.uid := by simp [Team.advanceX]
theorem foldlLoop_uid (g : Team → Nat → LoopCounter) (l : List Nat) :
    (l.foldl (fun (t : Team) k => t.setLoop k (g t k)) t).uid = t.uid := by
  induction l generalizing t with
  | nil => rfl
  | cons n rest ih => simp [ih]
@[simp] theorem endLoops_uid (n : Nat) : (t.endLoops n).uid = t.uid := by
  simp only [Team.endLoops]; exact foldlLoop_uid t _ _
@[simp] theorem branch_uid (a : Word) : (t.branch a).uid = t.uid := by
  simp only [Team.branch]; split <;> [rfl; split] <;> simp
@[simp] theorem loopEnds_ctx (pc : Word) (l : List Nat) (npc : Word) : (t.loopEnds pc l npc).1.ctx = t.ctx := by
  induction l generalizing npc t with
  | nil => rfl
  | cons n rest ih => simp only [Team.loopEnds]; split <;> [(split <;> simp [ih]); exact ih ..]
@[simp] theorem goTo_ctx (npc : Word) : (t.goTo npc).ctx = t.ctx := by
  simp only [Team.goTo]; split <;> simp
@[simp] theorem advance_ctx : t.advance.ctx = t.ctx := by simp [Team.advance]
@[simp] theorem advanceX_ctx : t.advanceX.ctx = t.ctx := by simp [Team.advanceX]
theorem foldlLoop_ctx (g : Team → Nat → LoopCounter) (l : List Nat) :
    (l.foldl (fun (t : Team) k => t.setLoop k (g t k)) t).ctx = t.ctx := by
  induction l generalizing t with
  | nil => rfl
  | cons n rest ih => simp [ih]
@[simp] theorem endLoops_ctx (n : Nat) : (t.endLoops n).ctx = t.ctx := by
  simp only [Team.endLoops]; exact foldlLoop_ctx t _ _
@[simp] theorem branch_ctx (a : Word) : (t.branch a).ctx = t.ctx := by
  simp only [Team.branch]; split <;> [rfl; split] <;> simp
@[simp] theorem loopEnds_place (pc : Word) (l : List Nat) (npc : Word) : (t.loopEnds pc l npc).1.place = t.place := by
  induction l generalizing npc t with
  | nil => rfl
  | cons n rest ih => simp only [Team.loopEnds]; split <;> [(split <;> simp [ih]); exact ih ..]
@[simp] theorem goTo_place (npc : Word) : (t.goTo npc).place = t.place := by
  simp only [Team.goTo]; split <;> simp
@[simp] theorem advance_place : t.advance.place = t.place := by simp [Team.advance]
@[simp] theorem advanceX_place : t.advanceX.place = t.place := by simp [Team.advanceX]
theorem foldlLoop_place (g : Team → Nat → LoopCounter) (l : List Nat) :
    (l.foldl (fun (t : Team) k => t.setLoop k (g t k)) t).place = t.place := by
  induction l generalizing t with
  | nil => rfl
  | cons n rest ih => simp [ih]
@[simp] theorem endLoops_place (n : Nat) : (t.endLoops n).place = t.place := by
  simp only [Team.endLoops]; exact foldlLoop_place t _ _
@[simp] theorem branch_place (a : Word) : (t.branch a).place = t.place := by
  simp only [Team.branch]; split <;> [rfl; split] <;> simp
@[simp] theorem loopEnds_sregs (pc : Word) (l : List Nat) (npc : Word) : (t.loopEnds pc l npc).1.sregs = t.sregs := by
  induction l generalizing npc t with
  | nil => rfl
  | cons n rest ih => simp only [Team.loopEnds]; split <;> [(split <;> simp [ih]); exact ih ..]
@[simp] theorem goTo_sregs (npc : Word) : (t.goTo npc).sregs = t.sregs := by
  simp only [Team.goTo]; split <;> simp
@[simp] theorem advance_sregs : t.advance.sregs = t.sregs := by simp [Team.advance]
@[simp] theorem advanceX_sregs : t.advanceX.sregs = t.sregs := by simp [Team.advanceX]
theorem foldlLoop_sregs (g : Team → Nat → LoopCounter) (l : List Nat) :
    (l.foldl (fun (t : Team) k => t.setLoop k (g t k)) t).sregs = t.sregs := by
  induction l generalizing t with
  | nil => rfl
  | cons n rest ih => simp [ih]
@[simp] theorem endLoops_sregs (n : Nat) : (t.endLoops n).sregs = t.sregs := by
  simp only [Team.endLoops]; exact foldlLoop_sregs t _ _
@[simp] theorem branch_sregs (a : Word) : (t.branch a).sregs = t.sregs := by
  simp only [Team.branch]; split <;> [rfl; split] <;> simp
@[simp] theorem loopEnds_cc (pc : Word) (l : List Nat) (npc : Word) : (t.loopEnds pc l npc).1.cc = t.cc := by
  induction l generalizing npc t with
  | nil => rfl
  | cons n rest ih => simp only [Team.loopEnds]; split <;> [(split <;> simp [ih]); exact ih ..]
@[simp] theorem goTo_cc (npc : Word) : (t.goTo npc).cc = t.cc := by
  simp only [Team.goTo]; split <;> simp
@[simp] theorem advance_cc : t.advance.cc = t.cc := by simp [Team.advance]
@[simp] theorem advanceX_cc : t.advanceX.cc = t.cc := by simp [Team.advanceX]
theorem foldlLoop_cc (g : Team → Nat → LoopCounter) (l : List Nat) :
    (l.foldl (fun (t : Team) k => t.setLoop k (g t k)) t).cc = t.cc := by
  induction l generalizing t with
  | nil => rfl
  | cons n rest ih => simp [ih]
@[simp] theorem endLoops_cc (n : Nat) : (t.endLoops n).cc = t.cc := by
  simp only [Team.endLoops]; exact foldlLoop_cc t _ _
@[simp] theorem branch_cc (a : Word) : (t.branch a).cc = t.cc := by
  simp only [Team.branch]; split <;> [rfl; split] <;> simp
@[simp] theorem loopEnds_vregs (pc : Word) (l : List Nat) (npc : Word) : (t.loopEnds pc l npc).1.vregs = t.vregs := by
  induction l generalizing npc t with
  | nil => rfl
  | cons n rest ih => simp only [Team.loopEnds]; split <;> [(split <;> simp [ih]); exact ih ..]
@[simp] theorem goTo_vregs (npc : Word) : (t.goTo npc).vregs = t.vregs := by
  simp only [Team.goTo]; split <;> simp
@[simp] theorem advance_vregs : t.advance.vregs = t.vregs := by simp [Team.advance]
@[simp] theorem advanceX_vregs : t.advanceX.vregs = t.vregs := by simp [Team.advanceX]
theorem foldlLoop_vregs (g : Team → Nat → LoopCounter) (l : List Nat) :
    (l.foldl (fun (t : Team) k => t.setLoop k (g t k)) t).vregs = t.vregs := by
  induction l generalizing t with
  | nil => rfl
  | cons n rest ih => simp [ih]
@[simp] theorem endLoops_vregs (n : Nat) : (t.endLoops n).vregs = t.vregs := by
  simp only [Team.endLoops]; exact foldlLoop_vregs t _ _
@[simp] theorem branch_vregs (a : Word) : (t.branch a).vregs = t.vregs := by
  simp only [Team.branch]; split <;> [rfl; split] <;> simp
@[simp] theorem loopEnds_masks (pc : Word) (l : List Nat) (npc : Word) : (t.loopEnds pc l npc).1.masks = t.masks := by
  induction l generalizing npc t with
  | nil => rfl
  | cons n rest ih => simp only [Team.loopEnds]; split <;> [(split <;> simp [ih]); exact ih ..]
@[simp] theorem goTo_masks (npc : Word) : (t.goTo npc).masks = t.masks := by
  simp only [Team.goTo]; split <;> simp
@[simp] theorem advance_masks : t.advance.masks = t.masks := by simp [Team.advance]
@[simp] theorem advanceX_masks : t.advanceX.masks = t.masks := by simp [Team.advanceX]
theorem foldlLoop_masks (g : Team → Nat → LoopCounter) (l : List Nat) :
    (l.foldl (fun (t : Team) k => t.setLoop k (g t k)) t).masks = t.masks := by
  induction l generalizing t with
  | nil => rfl
  | cons n rest ih => simp [ih]
@[simp] theorem endLoops_masks (n : Nat) : (t.endLoops n).masks = t.masks := by
  simp only [Team.endLoops]; exact foldlLoop_masks t _ _
@[simp] theorem branch_masks (a : Word) : (t.branch a).masks = t.masks := by
  simp only [Team.branch]; split <;> [rfl; split] <;> simp
@[simp] theorem loopEnds_mode (pc : Word) (l : List Nat) (npc : Word) : (t.loopEnds pc l npc).1.mode = t.mode := by
  induction l generalizing npc t with
  | nil => rfl
  | cons n rest ih => simp only [Team.loopEnds]; split <;> [(split <;> simp [ih]); exact ih ..]
@[simp] theorem goTo_mode (npc : Word) : (t.goTo npc).mode = t.mode := by
  simp only [Team.goTo]; split <;> simp
@[simp] theorem advance_mode : t.advance.mode = t.mode := by simp [Team.advance]
@[simp] theorem advanceX_mode : t.advanceX.mode = t.mode := by simp [Team.advanceX]
theorem foldlLoop_mode (g : Team → Nat → LoopCounter) (l : List Nat) :
    (l.foldl (fun (t : Team) k => t.setLoop k (g t k)) t).mode = t.mode := by
  induction l generalizing t with
  | nil => rfl
  | cons n rest ih => simp [ih]
@[simp] theorem endLoops_mode (n : Nat) : (t.endLoops n).mode = t.mode := by
  simp only [Team.endLoops]; exact foldlLoop_mode t _ _
@[simp] theorem branch_mode (a : Word) : (t.branch a).mode = t.mode := by
  simp only [Team.branch]; split <;> [rfl; split] <;> simp
@[simp] theorem loopEnds_stack (pc : Word) (l : List Nat) (npc : Word) : (t.loopEnds pc l npc).1.stack = t.stack := by
  induction l generalizing npc t with
  | nil => rfl
  | cons n rest ih => simp only [Team.loopEnds]; split <;> [(split <;> simp [ih]); exact ih ..]
@[simp] theorem goTo_stack (npc : Word) : (t.goTo npc).stack = t.stack := by
  simp only [Team.goTo]; split <;> simp
@[simp] theorem advance_stack : t.advance.stack = t.stack := by simp [Team.advance]
@[simp] theorem advanceX_stack : t.advanceX.stack = t.stack := by simp [Team.advanceX]
theorem foldlLoop_stack (g : Team → Nat → LoopCounter) (l : List Nat) :
    (l.foldl (fun (t : Team) k => t.setLoop k (g t k)) t).stack = t.stack := by
  induction l generalizing t with
  | nil => rfl
  | cons n rest ih => simp [ih]
@[simp] theorem endLoops_stack (n : Nat) : (t.endLoops n).stack = t.stack := by
  simp only [Team.endLoops]; exact foldlLoop_stack t _ _
@[simp] theorem branch_stack (a : Word) : (t.branch a).stack = t.stack := by
  simp only [Team.branch]; split <;> [rfl; split] <;> simp
@[simp] theorem loopEnds_key (pc : Word) (l : List Nat) (npc : Word) : (t.loopEnds pc l npc).1.key = t.key := by
  induction l generalizing npc t with
  | nil => rfl
  | cons n rest ih => simp only [Team.loopEnds]; split <;> [(split <;> simp [ih]); exact ih ..]
@[simp] theorem goTo_key (npc : Word) : (t.goTo npc).key = t.key := by
  simp only [Team.goTo]; split <;> simp
@[simp] theorem advance_key : t.advance.key = t.key := by simp [Team.advance]
@[simp] theorem advanceX_key : t.advanceX.key = t.key := by simp [Team.advanceX]
theorem foldlLoop_key (g : Team → Nat → LoopCounter) (l : List Nat) :
    (l.foldl (fun (t : Team) k => t.setLoop k (g t k)) t).key = t.key := by
  induction l generalizing t with
  | nil => rfl
  | cons n rest ih => simp [ih]
@[simp] theorem endLoops_key (n : Nat) : (t.endLoops n).key = t.key := by
  simp only [Team.endLoops]; exact foldlLoop_key t _ _
@[simp] theorem branch_key (a : Word) : (t.branch a).key = t.key := by
  simp only [Team.branch]; split <;> [rfl; split] <;> simp
@[simp] theorem loopEnds_ctr (pc : Word) (l : List Nat) (npc : Word) : (t.loopEnds pc l npc).1.ctr = t.ctr := by
  induction l generalizing npc t with
  | nil => rfl
  | cons n rest ih => simp only [Team.loopEnds]; split <;> [(split <;> simp [ih]); exact ih ..]
@[simp] theorem goTo_ctr (npc : Word) : (t.goTo npc).ctr = t.ctr := by
  simp only [Team.goTo]; split <;> simp
@[simp] theorem advance_ctr : t.advance.ctr = t.ctr := by simp [Team.advance]
@[simp] theorem advanceX_ctr : t.advanceX.ctr = t.ctr := by simp [Team.advanceX]
theorem foldlLoop_ctr (g : Team → Nat → LoopCounter) (l : List Nat) :
    (l.foldl (fun (t : Team) k => t.setLoop k (g t k)) t).ctr = t.ctr := by
  induction l generalizing t with
  | nil => rfl
  | cons n rest ih => simp [ih]
@[simp] theorem endLoops_ctr (n : Nat) : (t.endLoops n).ctr = t.ctr := by
  simp only [Team.endLoops]; exact foldlLoop_ctr t _ _
@[simp] theorem branch_ctr (a : Word) : (t.branch a).ctr = t.ctr := by
  simp only [Team.branch]; split <;> [rfl; split] <;> simp
@[simp] theorem loopEnds_budget (pc : Word) (l : List Nat) (npc : Word) : (t.loopEnds pc l npc).1.budget = t.budget := by
  induction l generalizing npc t with
  | nil => rfl
  | cons n rest ih => simp only [Team.loopEnds]; split <;> [(split <;> simp [ih]); exact ih ..]
@[simp] theorem goTo_budget (npc : Word) : (t.goTo npc).budget = t.budget := by
  simp only [Team.goTo]; split <;> simp
@[simp] theorem advance_budget : t.advance.budget = t.budget := by simp [Team.advance]
@[simp] theorem advanceX_budget : t.advanceX.budget = t.budget := by simp [Team.advanceX]
theorem foldlLoop_budget (g : Team → Nat → LoopCounter) (l : List Nat) :
    (l.foldl (fun (t : Team) k => t.setLoop k (g t k)) t).budget = t.budget := by
  induction l generalizing t with
  | nil => rfl
  | cons n rest ih => simp [ih]
@[simp] theorem endLoops_budget (n : Nat) : (t.endLoops n).budget = t.budget := by
  simp only [Team.endLoops]; exact foldlLoop_budget t _ _
@[simp] theorem branch_budget (a : Word) : (t.branch a).budget = t.budget := by
  simp only [Team.branch]; split <;> [rfl; split] <;> simp
@[simp] theorem loopEnds_tiles (pc : Word) (l : List Nat) (npc : Word) : (t.loopEnds pc l npc).1.tiles = t.tiles := by
  induction l generalizing npc t with
  | nil => rfl
  | cons n rest ih => simp only [Team.loopEnds]; split <;> [(split <;> simp [ih]); exact ih ..]
@[simp] theorem goTo_tiles (npc : Word) : (t.goTo npc).tiles = t.tiles := by
  simp only [Team.goTo]; split <;> simp
@[simp] theorem advance_tiles : t.advance.tiles = t.tiles := by simp [Team.advance]
@[simp] theorem advanceX_tiles : t.advanceX.tiles = t.tiles := by simp [Team.advanceX]
theorem foldlLoop_tiles (g : Team → Nat → LoopCounter) (l : List Nat) :
    (l.foldl (fun (t : Team) k => t.setLoop k (g t k)) t).tiles = t.tiles := by
  induction l generalizing t with
  | nil => rfl
  | cons n rest ih => simp [ih]
@[simp] theorem endLoops_tiles (n : Nat) : (t.endLoops n).tiles = t.tiles := by
  simp only [Team.endLoops]; exact foldlLoop_tiles t _ _
@[simp] theorem branch_tiles (a : Word) : (t.branch a).tiles = t.tiles := by
  simp only [Team.branch]; split <;> [rfl; split] <;> simp
@[simp] theorem loopEnds_trap (pc : Word) (l : List Nat) (npc : Word) : (t.loopEnds pc l npc).1.trap = t.trap := by
  induction l generalizing npc t with
  | nil => rfl
  | cons n rest ih => simp only [Team.loopEnds]; split <;> [(split <;> simp [ih]); exact ih ..]
@[simp] theorem goTo_trap (npc : Word) : (t.goTo npc).trap = t.trap := by
  simp only [Team.goTo]; split <;> simp
@[simp] theorem advance_trap : t.advance.trap = t.trap := by simp [Team.advance]
@[simp] theorem advanceX_trap : t.advanceX.trap = t.trap := by simp [Team.advanceX]
theorem foldlLoop_trap (g : Team → Nat → LoopCounter) (l : List Nat) :
    (l.foldl (fun (t : Team) k => t.setLoop k (g t k)) t).trap = t.trap := by
  induction l generalizing t with
  | nil => rfl
  | cons n rest ih => simp [ih]
@[simp] theorem endLoops_trap (n : Nat) : (t.endLoops n).trap = t.trap := by
  simp only [Team.endLoops]; exact foldlLoop_trap t _ _
@[simp] theorem branch_trap (a : Word) : (t.branch a).trap = t.trap := by
  simp only [Team.branch]; split <;> [rfl; split] <;> simp
@[simp] theorem loopEnds_inHandler (pc : Word) (l : List Nat) (npc : Word) : (t.loopEnds pc l npc).1.inHandler = t.inHandler := by
  induction l generalizing npc t with
  | nil => rfl
  | cons n rest ih => simp only [Team.loopEnds]; split <;> [(split <;> simp [ih]); exact ih ..]
@[simp] theorem goTo_inHandler (npc : Word) : (t.goTo npc).inHandler = t.inHandler := by
  simp only [Team.goTo]; split <;> simp
@[simp] theorem advance_inHandler : t.advance.inHandler = t.inHandler := by simp [Team.advance]
@[simp] theorem advanceX_inHandler : t.advanceX.inHandler = t.inHandler := by simp [Team.advanceX]
theorem foldlLoop_inHandler (g : Team → Nat → LoopCounter) (l : List Nat) :
    (l.foldl (fun (t : Team) k => t.setLoop k (g t k)) t).inHandler = t.inHandler := by
  induction l generalizing t with
  | nil => rfl
  | cons n rest ih => simp [ih]
@[simp] theorem endLoops_inHandler (n : Nat) : (t.endLoops n).inHandler = t.inHandler := by
  simp only [Team.endLoops]; exact foldlLoop_inHandler t _ _
@[simp] theorem branch_inHandler (a : Word) : (t.branch a).inHandler = t.inHandler := by
  simp only [Team.branch]; split <;> [rfl; split] <;> simp
@[simp] theorem loopEnds_nlog (pc : Word) (l : List Nat) (npc : Word) : (t.loopEnds pc l npc).1.nlog = t.nlog := by
  induction l generalizing npc t with
  | nil => rfl
  | cons n rest ih => simp only [Team.loopEnds]; split <;> [(split <;> simp [ih]); exact ih ..]
@[simp] theorem goTo_nlog (npc : Word) : (t.goTo npc).nlog = t.nlog := by
  simp only [Team.goTo]; split <;> simp
@[simp] theorem advance_nlog : t.advance.nlog = t.nlog := by simp [Team.advance]
@[simp] theorem advanceX_nlog : t.advanceX.nlog = t.nlog := by simp [Team.advanceX]
theorem foldlLoop_nlog (g : Team → Nat → LoopCounter) (l : List Nat) :
    (l.foldl (fun (t : Team) k => t.setLoop k (g t k)) t).nlog = t.nlog := by
  induction l generalizing t with
  | nil => rfl
  | cons n rest ih => simp [ih]
@[simp] theorem endLoops_nlog (n : Nat) : (t.endLoops n).nlog = t.nlog := by
  simp only [Team.endLoops]; exact foldlLoop_nlog t _ _
@[simp] theorem branch_nlog (a : Word) : (t.branch a).nlog = t.nlog := by
  simp only [Team.branch]; split <;> [rfl; split] <;> simp
@[simp] theorem loopEnds_nlend (pc : Word) (l : List Nat) (npc : Word) : (t.loopEnds pc l npc).1.nlend = t.nlend := by
  induction l generalizing npc t with
  | nil => rfl
  | cons n rest ih => simp only [Team.loopEnds]; split <;> [(split <;> simp [ih]); exact ih ..]
@[simp] theorem goTo_nlend (npc : Word) : (t.goTo npc).nlend = t.nlend := by
  simp only [Team.goTo]; split <;> simp
@[simp] theorem advance_nlend : t.advance.nlend = t.nlend := by simp [Team.advance]
@[simp] theorem advanceX_nlend : t.advanceX.nlend = t.nlend := by simp [Team.advanceX]
theorem foldlLoop_nlend (g : Team → Nat → LoopCounter) (l : List Nat) :
    (l.foldl (fun (t : Team) k => t.setLoop k (g t k)) t).nlend = t.nlend := by
  induction l generalizing t with
  | nil => rfl
  | cons n rest ih => simp [ih]
@[simp] theorem endLoops_nlend (n : Nat) : (t.endLoops n).nlend = t.nlend := by
  simp only [Team.endLoops]; exact foldlLoop_nlend t _ _
@[simp] theorem branch_nlend (a : Word) : (t.branch a).nlend = t.nlend := by
  simp only [Team.branch]; split <;> [rfl; split] <;> simp
@[simp] theorem loopEnds_gwct (pc : Word) (l : List Nat) (npc : Word) : (t.loopEnds pc l npc).1.gwct = t.gwct := by
  induction l generalizing npc t with
  | nil => rfl
  | cons n rest ih => simp only [Team.loopEnds]; split <;> [(split <;> simp [ih]); exact ih ..]
@[simp] theorem goTo_gwct (npc : Word) : (t.goTo npc).gwct = t.gwct := by
  simp only [Team.goTo]; split <;> simp
@[simp] theorem advance_gwct : t.advance.gwct = t.gwct := by simp [Team.advance]
@[simp] theorem advanceX_gwct : t.advanceX.gwct = t.gwct := by simp [Team.advanceX]
theorem foldlLoop_gwct (g : Team → Nat → LoopCounter) (l : List Nat) :
    (l.foldl (fun (t : Team) k => t.setLoop k (g t k)) t).gwct = t.gwct := by
  induction l generalizing t with
  | nil => rfl
  | cons n rest ih => simp [ih]
@[simp] theorem endLoops_gwct (n : Nat) : (t.endLoops n).gwct = t.gwct := by
  simp only [Team.endLoops]; exact foldlLoop_gwct t _ _
@[simp] theorem branch_gwct (a : Word) : (t.branch a).gwct = t.gwct := by
  simp only [Team.branch]; split <;> [rfl; split] <;> simp
@[simp] theorem loopEnds_outstanding (pc : Word) (l : List Nat) (npc : Word) : (t.loopEnds pc l npc).1.outstanding = t.outstanding := by
  induction l generalizing npc t with
  | nil => rfl
  | cons n rest ih => simp only [Team.loopEnds]; split <;> [(split <;> simp [ih]); exact ih ..]
@[simp] theorem goTo_outstanding (npc : Word) : (t.goTo npc).outstanding = t.outstanding := by
  simp only [Team.goTo]; split <;> simp
@[simp] theorem advance_outstanding : t.advance.outstanding = t.outstanding := by simp [Team.advance]
@[simp] theorem advanceX_outstanding : t.advanceX.outstanding = t.outstanding := by simp [Team.advanceX]
theorem foldlLoop_outstanding (g : Team → Nat → LoopCounter) (l : List Nat) :
    (l.foldl (fun (t : Team) k => t.setLoop k (g t k)) t).outstanding = t.outstanding := by
  induction l generalizing t with
  | nil => rfl
  | cons n rest ih => simp [ih]
@[simp] theorem endLoops_outstanding (n : Nat) : (t.endLoops n).outstanding = t.outstanding := by
  simp only [Team.endLoops]; exact foldlLoop_outstanding t _ _
@[simp] theorem branch_outstanding (a : Word) : (t.branch a).outstanding = t.outstanding := by
  simp only [Team.branch]; split <;> [rfl; split] <;> simp
@[simp] theorem loopEnds_wait (pc : Word) (l : List Nat) (npc : Word) : (t.loopEnds pc l npc).1.wait = t.wait := by
  induction l generalizing npc t with
  | nil => rfl
  | cons n rest ih => simp only [Team.loopEnds]; split <;> [(split <;> simp [ih]); exact ih ..]
@[simp] theorem goTo_wait (npc : Word) : (t.goTo npc).wait = t.wait := by
  simp only [Team.goTo]; split <;> simp
@[simp] theorem advance_wait : t.advance.wait = t.wait := by simp [Team.advance]
@[simp] theorem advanceX_wait : t.advanceX.wait = t.wait := by simp [Team.advanceX]
theorem foldlLoop_wait (g : Team → Nat → LoopCounter) (l : List Nat) :
    (l.foldl (fun (t : Team) k => t.setLoop k (g t k)) t).wait = t.wait := by
  induction l generalizing t with
  | nil => rfl
  | cons n rest ih => simp [ih]
@[simp] theorem endLoops_wait (n : Nat) : (t.endLoops n).wait = t.wait := by
  simp only [Team.endLoops]; exact foldlLoop_wait t _ _
@[simp] theorem branch_wait (a : Word) : (t.branch a).wait = t.wait := by
  simp only [Team.branch]; split <;> [rfl; split] <;> simp
@[simp] theorem loopEnds_pend (pc : Word) (l : List Nat) (npc : Word) : (t.loopEnds pc l npc).1.pend = t.pend := by
  induction l generalizing npc t with
  | nil => rfl
  | cons n rest ih => simp only [Team.loopEnds]; split <;> [(split <;> simp [ih]); exact ih ..]
@[simp] theorem goTo_pend (npc : Word) : (t.goTo npc).pend = t.pend := by
  simp only [Team.goTo]; split <;> simp
@[simp] theorem advance_pend : t.advance.pend = t.pend := by simp [Team.advance]
@[simp] theorem advanceX_pend : t.advanceX.pend = t.pend := by simp [Team.advanceX]
theorem foldlLoop_pend (g : Team → Nat → LoopCounter) (l : List Nat) :
    (l.foldl (fun (t : Team) k => t.setLoop k (g t k)) t).pend = t.pend := by
  induction l generalizing t with
  | nil => rfl
  | cons n rest ih => simp [ih]
@[simp] theorem endLoops_pend (n : Nat) : (t.endLoops n).pend = t.pend := by
  simp only [Team.endLoops]; exact foldlLoop_pend t _ _
@[simp] theorem branch_pend (a : Word) : (t.branch a).pend = t.pend := by
  simp only [Team.branch]; split <;> [rfl; split] <;> simp
@[simp] theorem loopEnds_yielded (pc : Word) (l : List Nat) (npc : Word) : (t.loopEnds pc l npc).1.yielded = t.yielded := by
  induction l generalizing npc t with
  | nil => rfl
  | cons n rest ih => simp only [Team.loopEnds]; split <;> [(split <;> simp [ih]); exact ih ..]
@[simp] theorem goTo_yielded (npc : Word) : (t.goTo npc).yielded = t.yielded := by
  simp only [Team.goTo]; split <;> simp
@[simp] theorem advance_yielded : t.advance.yielded = t.yielded := by simp [Team.advance]
@[simp] theorem advanceX_yielded : t.advanceX.yielded = t.yielded := by simp [Team.advanceX]
theorem foldlLoop_yielded (g : Team → Nat → LoopCounter) (l : List Nat) :
    (l.foldl (fun (t : Team) k => t.setLoop k (g t k)) t).yielded = t.yielded := by
  induction l generalizing t with
  | nil => rfl
  | cons n rest ih => simp [ih]
@[simp] theorem endLoops_yielded (n : Nat) : (t.endLoops n).yielded = t.yielded := by
  simp only [Team.endLoops]; exact foldlLoop_yielded t _ _
@[simp] theorem branch_yielded (a : Word) : (t.branch a).yielded = t.yielded := by
  simp only [Team.branch]; split <;> [rfl; split] <;> simp
@[simp] theorem loopEnds_ident (pc : Word) (l : List Nat) (npc : Word) : (t.loopEnds pc l npc).1.ident = t.ident := by
  induction l generalizing npc t with
  | nil => rfl
  | cons n rest ih => simp only [Team.loopEnds]; split <;> [(split <;> simp [ih]); exact ih ..]
@[simp] theorem goTo_ident (npc : Word) : (t.goTo npc).ident = t.ident := by
  simp only [Team.goTo]; split <;> simp
@[simp] theorem advance_ident : t.advance.ident = t.ident := by simp [Team.advance]
@[simp] theorem advanceX_ident : t.advanceX.ident = t.ident := by simp [Team.advanceX]
theorem foldlLoop_ident (g : Team → Nat → LoopCounter) (l : List Nat) :
    (l.foldl (fun (t : Team) k => t.setLoop k (g t k)) t).ident = t.ident := by
  induction l generalizing t with
  | nil => rfl
  | cons n rest ih => simp [ih]
@[simp] theorem endLoops_ident (n : Nat) : (t.endLoops n).ident = t.ident := by
  simp only [Team.endLoops]; exact foldlLoop_ident t _ _
@[simp] theorem branch_ident (a : Word) : (t.branch a).ident = t.ident := by
  simp only [Team.branch]; split <;> [rfl; split] <;> simp
@[simp] theorem loopEnds_order (pc : Word) (l : List Nat) (npc : Word) : (t.loopEnds pc l npc).1.order = t.order := by
  induction l generalizing npc t with
  | nil => rfl
  | cons n rest ih => simp only [Team.loopEnds]; split <;> [(split <;> simp [ih]); exact ih ..]
@[simp] theorem goTo_order (npc : Word) : (t.goTo npc).order = t.order := by
  simp only [Team.goTo]; split <;> simp
@[simp] theorem advance_order : t.advance.order = t.order := by simp [Team.advance]
@[simp] theorem advanceX_order : t.advanceX.order = t.order := by simp [Team.advanceX]
theorem foldlLoop_order (g : Team → Nat → LoopCounter) (l : List Nat) :
    (l.foldl (fun (t : Team) k => t.setLoop k (g t k)) t).order = t.order := by
  induction l generalizing t with
  | nil => rfl
  | cons n rest ih => simp [ih]
@[simp] theorem endLoops_order (n : Nat) : (t.endLoops n).order = t.order := by
  simp only [Team.endLoops]; exact foldlLoop_order t _ _
@[simp] theorem branch_order (a : Word) : (t.branch a).order = t.order := by
  simp only [Team.branch]; split <;> [rfl; split] <;> simp
@[simp] theorem loopEnds_lastIssue (pc : Word) (l : List Nat) (npc : Word) : (t.loopEnds pc l npc).1.lastIssue = t.lastIssue := by
  induction l generalizing npc t with
  | nil => rfl
  | cons n rest ih => simp only [Team.loopEnds]; split <;> [(split <;> simp [ih]); exact ih ..]
@[simp] theorem goTo_lastIssue (npc : Word) : (t.goTo npc).lastIssue = t.lastIssue := by
  simp only [Team.goTo]; split <;> simp
@[simp] theorem advance_lastIssue : t.advance.lastIssue = t.lastIssue := by simp [Team.advance]
@[simp] theorem advanceX_lastIssue : t.advanceX.lastIssue = t.lastIssue := by simp [Team.advanceX]
theorem foldlLoop_lastIssue (g : Team → Nat → LoopCounter) (l : List Nat) :
    (l.foldl (fun (t : Team) k => t.setLoop k (g t k)) t).lastIssue = t.lastIssue := by
  induction l generalizing t with
  | nil => rfl
  | cons n rest ih => simp [ih]
@[simp] theorem endLoops_lastIssue (n : Nat) : (t.endLoops n).lastIssue = t.lastIssue := by
  simp only [Team.endLoops]; exact foldlLoop_lastIssue t _ _
@[simp] theorem branch_lastIssue (a : Word) : (t.branch a).lastIssue = t.lastIssue := by
  simp only [Team.branch]; split <;> [rfl; split] <;> simp
@[simp] theorem loopEnds_readySince (pc : Word) (l : List Nat) (npc : Word) : (t.loopEnds pc l npc).1.readySince = t.readySince := by
  induction l generalizing npc t with
  | nil => rfl
  | cons n rest ih => simp only [Team.loopEnds]; split <;> [(split <;> simp [ih]); exact ih ..]
@[simp] theorem goTo_readySince (npc : Word) : (t.goTo npc).readySince = t.readySince := by
  simp only [Team.goTo]; split <;> simp
@[simp] theorem advance_readySince : t.advance.readySince = t.readySince := by simp [Team.advance]
@[simp] theorem advanceX_readySince : t.advanceX.readySince = t.readySince := by simp [Team.advanceX]
theorem foldlLoop_readySince (g : Team → Nat → LoopCounter) (l : List Nat) :
    (l.foldl (fun (t : Team) k => t.setLoop k (g t k)) t).readySince = t.readySince := by
  induction l generalizing t with
  | nil => rfl
  | cons n rest ih => simp [ih]
@[simp] theorem endLoops_readySince (n : Nat) : (t.endLoops n).readySince = t.readySince := by
  simp only [Team.endLoops]; exact foldlLoop_readySince t _ _
@[simp] theorem branch_readySince (a : Word) : (t.branch a).readySince = t.readySince := by
  simp only [Team.branch]; split <;> [rfl; split] <;> simp
@[simp] theorem loopEnds_binding (pc : Word) (l : List Nat) (npc : Word) : (t.loopEnds pc l npc).1.binding = t.binding := by
  induction l generalizing npc t with
  | nil => rfl
  | cons n rest ih => simp only [Team.loopEnds]; split <;> [(split <;> simp [ih]); exact ih ..]
@[simp] theorem goTo_binding (npc : Word) : (t.goTo npc).binding = t.binding := by
  simp only [Team.goTo]; split <;> simp
@[simp] theorem advance_binding : t.advance.binding = t.binding := by simp [Team.advance]
@[simp] theorem advanceX_binding : t.advanceX.binding = t.binding := by simp [Team.advanceX]
theorem foldlLoop_binding (g : Team → Nat → LoopCounter) (l : List Nat) :
    (l.foldl (fun (t : Team) k => t.setLoop k (g t k)) t).binding = t.binding := by
  induction l generalizing t with
  | nil => rfl
  | cons n rest ih => simp [ih]
@[simp] theorem endLoops_binding (n : Nat) : (t.endLoops n).binding = t.binding := by
  simp only [Team.endLoops]; exact foldlLoop_binding t _ _
@[simp] theorem branch_binding (a : Word) : (t.branch a).binding = t.binding := by
  simp only [Team.branch]; split <;> [rfl; split] <;> simp
@[simp] theorem loopEnds_rays (pc : Word) (l : List Nat) (npc : Word) : (t.loopEnds pc l npc).1.rays = t.rays := by
  induction l generalizing npc t with
  | nil => rfl
  | cons n rest ih => simp only [Team.loopEnds]; split <;> [(split <;> simp [ih]); exact ih ..]
@[simp] theorem goTo_rays (npc : Word) : (t.goTo npc).rays = t.rays := by
  simp only [Team.goTo]; split <;> simp
@[simp] theorem advance_rays : t.advance.rays = t.rays := by simp [Team.advance]
@[simp] theorem advanceX_rays : t.advanceX.rays = t.rays := by simp [Team.advanceX]
theorem foldlLoop_rays (g : Team → Nat → LoopCounter) (l : List Nat) :
    (l.foldl (fun (t : Team) k => t.setLoop k (g t k)) t).rays = t.rays := by
  induction l generalizing t with
  | nil => rfl
  | cons n rest ih => simp [ih]
@[simp] theorem endLoops_rays (n : Nat) : (t.endLoops n).rays = t.rays := by
  simp only [Team.endLoops]; exact foldlLoop_rays t _ _
@[simp] theorem branch_rays (a : Word) : (t.branch a).rays = t.rays := by
  simp only [Team.branch]; split <;> [rfl; split] <;> simp
@[simp] theorem loopEnds_granted (pc : Word) (l : List Nat) (npc : Word) : (t.loopEnds pc l npc).1.granted = t.granted := by
  induction l generalizing npc t with
  | nil => rfl
  | cons n rest ih => simp only [Team.loopEnds]; split <;> [(split <;> simp [ih]); exact ih ..]
@[simp] theorem goTo_granted (npc : Word) : (t.goTo npc).granted = t.granted := by
  simp only [Team.goTo]; split <;> simp
@[simp] theorem advance_granted : t.advance.granted = t.granted := by simp [Team.advance]
@[simp] theorem advanceX_granted : t.advanceX.granted = t.granted := by simp [Team.advanceX]
theorem foldlLoop_granted (g : Team → Nat → LoopCounter) (l : List Nat) :
    (l.foldl (fun (t : Team) k => t.setLoop k (g t k)) t).granted = t.granted := by
  induction l generalizing t with
  | nil => rfl
  | cons n rest ih => simp [ih]
@[simp] theorem endLoops_granted (n : Nat) : (t.endLoops n).granted = t.granted := by
  simp only [Team.endLoops]; exact foldlLoop_granted t _ _
@[simp] theorem branch_granted (a : Word) : (t.branch a).granted = t.granted := by
  simp only [Team.branch]; split <;> [rfl; split] <;> simp
@[simp] theorem loopEnds_placed (pc : Word) (l : List Nat) (npc : Word) : (t.loopEnds pc l npc).1.placed = t.placed := by
  induction l generalizing npc t with
  | nil => rfl
  | cons n rest ih => simp only [Team.loopEnds]; split <;> [(split <;> simp [ih]); exact ih ..]
@[simp] theorem goTo_placed (npc : Word) : (t.goTo npc).placed = t.placed := by
  simp only [Team.goTo]; split <;> simp
@[simp] theorem advance_placed : t.advance.placed = t.placed := by simp [Team.advance]
@[simp] theorem advanceX_placed : t.advanceX.placed = t.placed := by simp [Team.advanceX]
theorem foldlLoop_placed (g : Team → Nat → LoopCounter) (l : List Nat) :
    (l.foldl (fun (t : Team) k => t.setLoop k (g t k)) t).placed = t.placed := by
  induction l generalizing t with
  | nil => rfl
  | cons n rest ih => simp [ih]
@[simp] theorem endLoops_placed (n : Nat) : (t.endLoops n).placed = t.placed := by
  simp only [Team.endLoops]; exact foldlLoop_placed t _ _
@[simp] theorem branch_placed (a : Word) : (t.branch a).placed = t.placed := by
  simp only [Team.branch]; split <;> [rfl; split] <;> simp
@[simp] theorem loopEnds_donated (pc : Word) (l : List Nat) (npc : Word) : (t.loopEnds pc l npc).1.donated = t.donated := by
  induction l generalizing npc t with
  | nil => rfl
  | cons n rest ih => simp only [Team.loopEnds]; split <;> [(split <;> simp [ih]); exact ih ..]
@[simp] theorem loopEnds_cameWaiting (pc : Word) (l : List Nat) (npc : Word) : (t.loopEnds pc l npc).1.cameWaiting = t.cameWaiting := by
  induction l generalizing npc t with
  | nil => rfl
  | cons n rest ih => simp only [Team.loopEnds]; split <;> [(split <;> simp [ih]); exact ih ..]
@[simp] theorem loopEnds_donationOver (pc : Word) (l : List Nat) (npc : Word) : (t.loopEnds pc l npc).1.donationOver = t.donationOver := by
  induction l generalizing npc t with
  | nil => rfl
  | cons n rest ih => simp only [Team.loopEnds]; split <;> [(split <;> simp [ih]); exact ih ..]
@[simp] theorem goTo_donated (npc : Word) : (t.goTo npc).donated = t.donated := by
  simp only [Team.goTo]; split <;> simp
@[simp] theorem goTo_cameWaiting (npc : Word) : (t.goTo npc).cameWaiting = t.cameWaiting := by
  simp only [Team.goTo]; split <;> simp
@[simp] theorem goTo_donationOver (npc : Word) : (t.goTo npc).donationOver = t.donationOver := by
  simp only [Team.goTo]; split <;> simp
@[simp] theorem advance_donated : t.advance.donated = t.donated := by simp [Team.advance]
@[simp] theorem advance_cameWaiting : t.advance.cameWaiting = t.cameWaiting := by simp [Team.advance]
@[simp] theorem advance_donationOver : t.advance.donationOver = t.donationOver := by simp [Team.advance]
@[simp] theorem advanceX_donated : t.advanceX.donated = t.donated := by simp [Team.advanceX]
@[simp] theorem advanceX_cameWaiting : t.advanceX.cameWaiting = t.cameWaiting := by simp [Team.advanceX]
@[simp] theorem advanceX_donationOver : t.advanceX.donationOver = t.donationOver := by simp [Team.advanceX]
theorem foldlLoop_donated (g : Team → Nat → LoopCounter) (l : List Nat) :
    (l.foldl (fun (t : Team) k => t.setLoop k (g t k)) t).donated = t.donated := by
  induction l generalizing t with
  | nil => rfl
  | cons n rest ih => simp [ih]
theorem foldlLoop_cameWaiting (g : Team → Nat → LoopCounter) (l : List Nat) :
    (l.foldl (fun (t : Team) k => t.setLoop k (g t k)) t).cameWaiting = t.cameWaiting := by
  induction l generalizing t with
  | nil => rfl
  | cons n rest ih => simp [ih]
theorem foldlLoop_donationOver (g : Team → Nat → LoopCounter) (l : List Nat) :
    (l.foldl (fun (t : Team) k => t.setLoop k (g t k)) t).donationOver = t.donationOver := by
  induction l generalizing t with
  | nil => rfl
  | cons n rest ih => simp [ih]
@[simp] theorem endLoops_donated (n : Nat) : (t.endLoops n).donated = t.donated := by
  simp only [Team.endLoops]; exact foldlLoop_donated t _ _
@[simp] theorem endLoops_cameWaiting (n : Nat) : (t.endLoops n).cameWaiting = t.cameWaiting := by
  simp only [Team.endLoops]; exact foldlLoop_cameWaiting t _ _
@[simp] theorem endLoops_donationOver (n : Nat) : (t.endLoops n).donationOver = t.donationOver := by
  simp only [Team.endLoops]; exact foldlLoop_donationOver t _ _
@[simp] theorem branch_donated (a : Word) : (t.branch a).donated = t.donated := by
  simp only [Team.branch]; split <;> [rfl; split] <;> simp
@[simp] theorem branch_cameWaiting (a : Word) : (t.branch a).cameWaiting = t.cameWaiting := by
  simp only [Team.branch]; split <;> [rfl; split] <;> simp
@[simp] theorem branch_donationOver (a : Word) : (t.branch a).donationOver = t.donationOver := by
  simp only [Team.branch]; split <;> [rfl; split] <;> simp
@[simp] theorem loopEnds_preemptReq (pc : Word) (l : List Nat) (npc : Word) : (t.loopEnds pc l npc).1.preemptReq = t.preemptReq := by
  induction l generalizing npc t with
  | nil => rfl
  | cons n rest ih => simp only [Team.loopEnds]; split <;> [(split <;> simp [ih]); exact ih ..]
@[simp] theorem goTo_preemptReq (npc : Word) : (t.goTo npc).preemptReq = t.preemptReq := by
  simp only [Team.goTo]; split <;> simp
@[simp] theorem advance_preemptReq : t.advance.preemptReq = t.preemptReq := by simp [Team.advance]
@[simp] theorem advanceX_preemptReq : t.advanceX.preemptReq = t.preemptReq := by simp [Team.advanceX]
theorem foldlLoop_preemptReq (g : Team → Nat → LoopCounter) (l : List Nat) :
    (l.foldl (fun (t : Team) k => t.setLoop k (g t k)) t).preemptReq = t.preemptReq := by
  induction l generalizing t with
  | nil => rfl
  | cons n rest ih => simp [ih]
@[simp] theorem endLoops_preemptReq (n : Nat) : (t.endLoops n).preemptReq = t.preemptReq := by
  simp only [Team.endLoops]; exact foldlLoop_preemptReq t _ _
@[simp] theorem branch_preemptReq (a : Word) : (t.branch a).preemptReq = t.preemptReq := by
  simp only [Team.branch]; split <;> [rfl; split] <;> simp
@[simp] theorem loopEnds_timeReads (pc : Word) (l : List Nat) (npc : Word) : (t.loopEnds pc l npc).1.timeReads = t.timeReads := by
  induction l generalizing npc t with
  | nil => rfl
  | cons n rest ih => simp only [Team.loopEnds]; split <;> [(split <;> simp [ih]); exact ih ..]
@[simp] theorem goTo_timeReads (npc : Word) : (t.goTo npc).timeReads = t.timeReads := by
  simp only [Team.goTo]; split <;> simp
@[simp] theorem advance_timeReads : t.advance.timeReads = t.timeReads := by simp [Team.advance]
@[simp] theorem advanceX_timeReads : t.advanceX.timeReads = t.timeReads := by simp [Team.advanceX]
theorem foldlLoop_timeReads (g : Team → Nat → LoopCounter) (l : List Nat) :
    (l.foldl (fun (t : Team) k => t.setLoop k (g t k)) t).timeReads = t.timeReads := by
  induction l generalizing t with
  | nil => rfl
  | cons n rest ih => simp [ih]
@[simp] theorem endLoops_timeReads (n : Nat) : (t.endLoops n).timeReads = t.timeReads := by
  simp only [Team.endLoops]; exact foldlLoop_timeReads t _ _
@[simp] theorem branch_timeReads (a : Word) : (t.branch a).timeReads = t.timeReads := by
  simp only [Team.branch]; split <;> [rfl; split] <;> simp
@[simp] theorem loopEnds_marks (pc : Word) (l : List Nat) (npc : Word) : (t.loopEnds pc l npc).1.marks = t.marks := by
  induction l generalizing npc t with
  | nil => rfl
  | cons n rest ih => simp only [Team.loopEnds]; split <;> [(split <;> simp [ih]); exact ih ..]
@[simp] theorem goTo_marks (npc : Word) : (t.goTo npc).marks = t.marks := by
  simp only [Team.goTo]; split <;> simp
@[simp] theorem advance_marks : t.advance.marks = t.marks := by simp [Team.advance]
@[simp] theorem advanceX_marks : t.advanceX.marks = t.marks := by simp [Team.advanceX]
theorem foldlLoop_marks (g : Team → Nat → LoopCounter) (l : List Nat) :
    (l.foldl (fun (t : Team) k => t.setLoop k (g t k)) t).marks = t.marks := by
  induction l generalizing t with
  | nil => rfl
  | cons n rest ih => simp [ih]
@[simp] theorem endLoops_marks (n : Nat) : (t.endLoops n).marks = t.marks := by
  simp only [Team.endLoops]; exact foldlLoop_marks t _ _
@[simp] theorem branch_marks (a : Word) : (t.branch a).marks = t.marks := by
  simp only [Team.branch]; split <;> [rfl; split] <;> simp
@[simp] theorem loopEnds_savedMat (pc : Word) (l : List Nat) (npc : Word) : (t.loopEnds pc l npc).1.savedMat = t.savedMat := by
  induction l generalizing npc t with
  | nil => rfl
  | cons n rest ih => simp only [Team.loopEnds]; split <;> [(split <;> simp [ih]); exact ih ..]
@[simp] theorem goTo_savedMat (npc : Word) : (t.goTo npc).savedMat = t.savedMat := by
  simp only [Team.goTo]; split <;> simp
@[simp] theorem advance_savedMat : t.advance.savedMat = t.savedMat := by simp [Team.advance]
@[simp] theorem advanceX_savedMat : t.advanceX.savedMat = t.savedMat := by simp [Team.advanceX]
theorem foldlLoop_savedMat (g : Team → Nat → LoopCounter) (l : List Nat) :
    (l.foldl (fun (t : Team) k => t.setLoop k (g t k)) t).savedMat = t.savedMat := by
  induction l generalizing t with
  | nil => rfl
  | cons n rest ih => simp [ih]
@[simp] theorem endLoops_savedMat (n : Nat) : (t.endLoops n).savedMat = t.savedMat := by
  simp only [Team.endLoops]; exact foldlLoop_savedMat t _ _
@[simp] theorem branch_savedMat (a : Word) : (t.branch a).savedMat = t.savedMat := by
  simp only [Team.branch]; split <;> [rfl; split] <;> simp
@[simp] theorem loopEnds_savedXf (pc : Word) (l : List Nat) (npc : Word) : (t.loopEnds pc l npc).1.savedXf = t.savedXf := by
  induction l generalizing npc t with
  | nil => rfl
  | cons n rest ih => simp only [Team.loopEnds]; split <;> [(split <;> simp [ih]); exact ih ..]
@[simp] theorem goTo_savedXf (npc : Word) : (t.goTo npc).savedXf = t.savedXf := by
  simp only [Team.goTo]; split <;> simp
@[simp] theorem advance_savedXf : t.advance.savedXf = t.savedXf := by simp [Team.advance]
@[simp] theorem advanceX_savedXf : t.advanceX.savedXf = t.savedXf := by simp [Team.advanceX]
theorem foldlLoop_savedXf (g : Team → Nat → LoopCounter) (l : List Nat) :
    (l.foldl (fun (t : Team) k => t.setLoop k (g t k)) t).savedXf = t.savedXf := by
  induction l generalizing t with
  | nil => rfl
  | cons n rest ih => simp [ih]
@[simp] theorem endLoops_savedXf (n : Nat) : (t.endLoops n).savedXf = t.savedXf := by
  simp only [Team.endLoops]; exact foldlLoop_savedXf t _ _
@[simp] theorem branch_savedXf (a : Word) : (t.branch a).savedXf = t.savedXf := by
  simp only [Team.branch]; split <;> [rfl; split] <;> simp
@[simp] theorem loopEnds_frame (pc : Word) (l : List Nat) (npc : Word) : (t.loopEnds pc l npc).1.frame = t.frame := by
  induction l generalizing npc t with
  | nil => rfl
  | cons n rest ih => simp only [Team.loopEnds]; split <;> [(split <;> simp [ih]); exact ih ..]
@[simp] theorem goTo_frame (npc : Word) : (t.goTo npc).frame = t.frame := by
  simp only [Team.goTo]; split <;> simp
@[simp] theorem advance_frame : t.advance.frame = t.frame := by simp [Team.advance]
@[simp] theorem advanceX_frame : t.advanceX.frame = t.frame := by simp [Team.advanceX]
theorem foldlLoop_frame (g : Team → Nat → LoopCounter) (l : List Nat) :
    (l.foldl (fun (t : Team) k => t.setLoop k (g t k)) t).frame = t.frame := by
  induction l generalizing t with
  | nil => rfl
  | cons n rest ih => simp [ih]
@[simp] theorem endLoops_frame (n : Nat) : (t.endLoops n).frame = t.frame := by
  simp only [Team.endLoops]; exact foldlLoop_frame t _ _
@[simp] theorem branch_frame (a : Word) : (t.branch a).frame = t.frame := by
  simp only [Team.branch]; split <;> [rfl; split] <;> simp
@[simp] theorem loopEnds_stepBase (pc : Word) (l : List Nat) (npc : Word) : (t.loopEnds pc l npc).1.stepBase = t.stepBase := by
  induction l generalizing npc t with
  | nil => rfl
  | cons n rest ih => simp only [Team.loopEnds]; split <;> [(split <;> simp [ih]); exact ih ..]
@[simp] theorem goTo_stepBase (npc : Word) : (t.goTo npc).stepBase = t.stepBase := by
  simp only [Team.goTo]; split <;> simp
@[simp] theorem advance_stepBase : t.advance.stepBase = t.stepBase := by simp [Team.advance]
@[simp] theorem advanceX_stepBase : t.advanceX.stepBase = t.stepBase := by simp [Team.advanceX]
theorem foldlLoop_stepBase (g : Team → Nat → LoopCounter) (l : List Nat) :
    (l.foldl (fun (t : Team) k => t.setLoop k (g t k)) t).stepBase = t.stepBase := by
  induction l generalizing t with
  | nil => rfl
  | cons n rest ih => simp [ih]
@[simp] theorem endLoops_stepBase (n : Nat) : (t.endLoops n).stepBase = t.stepBase := by
  simp only [Team.endLoops]; exact foldlLoop_stepBase t _ _
@[simp] theorem branch_stepBase (a : Word) : (t.branch a).stepBase = t.stepBase := by
  simp only [Team.branch]; split <;> [rfl; split] <;> simp

end Sys2Proof.Machine
end

