-- ==== Sys2Proof/Laws/Parts.lean ====
section
/-! SUPPORT. Reading a part of the state after an update of one: teams, cores, dies, contexts, keyed lists. -/

namespace Sys2Proof.Machine

variable {α : Type}

/-! ### Keyed lists -/

@[simp] theorem lookup_insertAt_self (d v : α) (k : Nat) (l : List (Nat × α)) :
    lookup d k (insertAt k v l) = v := by
  induction l with
  | nil => simp [insertAt, lookup]
  | cons p rest ih =>
    obtain ⟨j, w⟩ := p
    by_cases h : j = k <;> simp [insertAt, lookup, h, ih]

theorem lookup_insertAt_other (d v : α) {k x : Nat} (l : List (Nat × α)) (h : x ≠ k) :
    lookup d x (insertAt k v l) = lookup d x l := by
  induction l with
  | nil => simp [insertAt, lookup, Ne.symm h]
  | cons p rest ih =>
    obtain ⟨j, w⟩ := p
    by_cases hj : j = k
    · subst hj
      simp [insertAt, lookup, Ne.symm h]
    · simp [insertAt, lookup, hj, ih]

theorem lookup_removeAt_other (d : α) {k x : Nat} (l : List (Nat × α)) (h : x ≠ k) :
    lookup d x (removeAt k l) = lookup d x l := by
  induction l with
  | nil => rfl
  | cons p rest ih =>
    obtain ⟨j, w⟩ := p
    by_cases hj : j = k
    · subst hj
      simp [removeAt, lookup, Ne.symm h]
    · simp [removeAt, lookup, hj, ih]

@[simp] theorem mapWhere_eq_map (p : α → Bool) (f : α → α) (l : List α) :
    mapWhere p f l = l.map fun x => if p x then f x else x := by
  induction l with
  | nil => rfl
  | cons x rest ih => simp [mapWhere, ih]

/-! ### Cores and dies -/

variable (s : State)

@[simp] theorem core_setCore (c : Nat) (k : Core) : (s.setCore c k).core c = k := by
  simp [State.core, State.setCore]

theorem core_setCore_other {c x : Nat} (k : Core) (h : x ≠ c) : (s.setCore c k).core x = s.core x := by
  simp [State.core, State.setCore, lookup_insertAt_other _ _ _ h]

@[simp] theorem core_modCore (c : Nat) (f : Core → Core) : (s.modCore c f).core c = f (s.core c) := by
  simp [State.modCore]

theorem core_modCore_other {c x : Nat} (f : Core → Core) (h : x ≠ c) : (s.modCore c f).core x = s.core x := by
  simp [State.modCore, core_setCore_other _ _ h]

@[simp] theorem die_modDie (d : Nat) (f : Die → Die) : (s.modDie d f).die d = f (s.die d) := by
  by_cases h : d = 1 <;> simp [State.modDie, State.setDie, State.die, h]

theorem die_modDie_other {d x : Nat} (f : Die → Die) (h : (x = 1) ≠ (d = 1)) :
    (s.modDie d f).die x = s.die x := by
  by_cases h1 : d = 1 <;> by_cases h2 : x = 1 <;> simp_all [State.modDie, State.setDie, State.die]

@[simp] theorem core_modDie (d c : Nat) (f : Die → Die) : (s.modDie d f).core c = s.core c := by
  by_cases h : d = 1 <;> simp [State.modDie, State.setDie, State.core, h]

@[simp] theorem die_modCore (d c : Nat) (f : Core → Core) : (s.modCore c f).die d = s.die d := rfl
@[simp] theorem die_putTeam (d : Nat) (t : Team) : (s.putTeam t).die d = s.die d := rfl
@[simp] theorem core_putTeam (c : Nat) (t : Team) : (s.putTeam t).core c = s.core c := rfl
@[simp] theorem die_modTeam (d n : Nat) (f : Team → Team) : (s.modTeam n f).die d = s.die d := rfl
@[simp] theorem core_modTeam (c n : Nat) (f : Team → Team) : (s.modTeam n f).core c = s.core c := rfl

/-! ### Teams and contexts -/

theorem find?_mapWhere {p : α → Bool} {f : α → α} {l : List α} {x : α}
    (hf : ∀ y, p y = true → p (f y) = true) (h : l.find? p = some x) :
    (mapWhere p f l).find? p = some (f x) := by
  induction l with
  | nil => simp at h
  | cons y rest ih =>
    by_cases hy : p y = true
    · simp [hy] at h
      subst h
      simp [mapWhere, hy, hf]
    · simp [hy] at h
      simp only [mapWhere, hy, Bool.false_eq_true, if_false, List.find?_cons]
      exact ih h

/-- A team that is put back is found under its number. -/
theorem team_putTeam {u t : Team} (h : s.team? u.uid = some t) : (s.putTeam u).team? u.uid = some u :=
  find?_mapWhere (f := fun _ => u) (by simp) h

/-- A changed team is found under its number. -/
theorem team_modTeam {n : Nat} {t : Team} {f : Team → Team} (hf : ∀ u, (f u).uid = u.uid)
    (h : s.team? n = some t) : (s.modTeam n f).team? n = some (f t) :=
  find?_mapWhere (by simp [hf]) h

/-- A changed context is found under its number. -/
theorem ctx_modCtx {n : Nat} {c : Ctx} {f : Ctx → Ctx} (hf : ∀ x, (f x).id = x.id)
    (h : s.ctx? n = some c) : (s.modCtx n f).ctx? n = some (f c) :=
  find?_mapWhere (by simp [hf]) h

end Sys2Proof.Machine
end

