-- ==== Sys2Proof/Laws/PerInstr.lean ====
section
/-! SUPPORT. The family RoundTrip: the words that the encoder writes for a well-formed instruction decode to that
instruction, one lemma per constructor of Instr over one lemma per layout of Table 4.1. -/

namespace Sys2Proof.Laws

/-- The words of a well-formed instruction decode to it. -/
def RoundTrip.Statement (i : Instr) : Prop :=
  ∀ w lit, encodeWords i = some (w, lit) → i.wellFormed = true → decodeWord w (lit.getD 0#32) = .ok i

/-! ### Reading fields back -/

theorem skip_field {v w start len : Nat} {hi : BitVec v} {lo : BitVec w} {x : BitVec len} (h : w ≤ start)
    (e : BitVec.extractLsb' (start - w) len hi = x) : BitVec.extractLsb' start len (hi ++ lo) = x :=
  (BitVec.extractLsb'_append_eq_of_le h).trans e

theorem last_field {v w : Nat} {hi : BitVec v} {lo : BitVec w} : BitVec.extractLsb' 0 w (hi ++ lo) = lo :=
  (BitVec.extractLsb'_append_eq_of_add_le (by omega)).trans BitVec.extractLsb'_eq_self

theorem first_field {w : Nat} {x : BitVec w} : BitVec.extractLsb' 0 w x = x := BitVec.extractLsb'_eq_self

/-! ### From words to statements -/

theorem decodeWord_of_raw {i : Instr} {w lit : W32} (h : decodeRaw w lit = .ok i) (hw : i.wellFormed = true) :
    decodeWord w lit = .ok i := by
  have : i.illegalCause = none := by simpa [Instr.wellFormed] using hw
  simp [decodeWord, h, this]

/-- A device step has no words. -/
theorem RoundTrip.of_none {i : Instr} (h : encodeWords i = none) : RoundTrip.Statement i := by
  intro w lit hw
  simp [h] at hw

/-- An instruction of one word. -/
theorem RoundTrip.of_raw {i : Instr} {w : W32} (he : encodeWords i = some (w, none))
    (h : decodeRaw w 0#32 = .ok i) : RoundTrip.Statement i := by
  intro v lit hv
  rw [he] at hv
  obtain ⟨rfl, rfl⟩ := by simpa using hv
  exact decodeWord_of_raw h

/-- An instruction of two words. -/
theorem RoundTrip.of_raw_literal {i : Instr} {w l : W32} (he : encodeWords i = some (w, some l))
    (h : decodeRaw w l = .ok i) : RoundTrip.Statement i := by
  intro v lit hv
  rw [he] at hv
  obtain ⟨rfl, rfl⟩ := by simpa using hv
  exact decodeWord_of_raw h

/-! ### The layouts of Table 4.1 -/

theorem opOf_encDABq (op : BitVec 9) (x0 : BitVec 7) (x1 : BitVec 7) (x2 : BitVec 7) (x3 : BitVec 1) : opOf (encDABq op x0 x1 x2 x3) = op :=
  skip_field (by decide) (skip_field (by decide) (skip_field (by decide) (skip_field (by decide) (skip_field (by decide) first_field))))

theorem dec_encDABq (op : BitVec 9) (x0 : BitVec 7) (x1 : BitVec 7) (x2 : BitVec 7) (x3 : BitVec 1) (k) : decDABq (encDABq op x0 x1 x2 x3) k = .ok (k x0 x1 x2 x3) := by
  have h16 : fieldAt 16 7 (encDABq op x0 x1 x2 x3) = x0 := skip_field (by decide) (skip_field (by decide) (skip_field (by decide) (skip_field (by decide) last_field)))
  have h9 : fieldAt 9 7 (encDABq op x0 x1 x2 x3) = x1 := skip_field (by decide) (skip_field (by decide) (skip_field (by decide) last_field))
  have h2 : fieldAt 2 7 (encDABq op x0 x1 x2 x3) = x2 := skip_field (by decide) (skip_field (by decide) last_field)
  have h1 : fieldAt 1 1 (encDABq op x0 x1 x2 x3) = 0#1 := skip_field (by decide) last_field
  have h0 : fieldAt 0 1 (encDABq op x0 x1 x2 x3) = x3 := last_field
  simp [decDABq, h16, h9, h2, h1, h0]

theorem RoundTrip.of_DABq {op : BitVec 9} {k : BitVec 7 → BitVec 7 → BitVec 7 → BitVec 1 → Instr}
    (h : ∀ w, opOf w = op → decodeRaw w 0#32 = decDABq w k) (x0 : BitVec 7) (x1 : BitVec 7) (x2 : BitVec 7) (x3 : BitVec 1)
    (he : encodeWords (k x0 x1 x2 x3) = some (encDABq op x0 x1 x2 x3, none)) : RoundTrip.Statement (k x0 x1 x2 x3) :=
  of_raw he ((h _ (opOf_encDABq op x0 x1 x2 x3)).trans (dec_encDABq op x0 x1 x2 x3 k))

theorem opOf_encABq (op : BitVec 9) (x0 : BitVec 7) (x1 : BitVec 7) (x2 : BitVec 1) : opOf (encABq op x0 x1 x2) = op :=
  skip_field (by decide) (skip_field (by decide) (skip_field (by decide) (skip_field (by decide) (skip_field (by decide) first_field))))

theorem dec_encABq (op : BitVec 9) (x0 : BitVec 7) (x1 : BitVec 7) (x2 : BitVec 1) (k) : decABq (encABq op x0 x1 x2) k = .ok (k x0 x1 x2) := by
  have h16 : fieldAt 16 7 (encABq op x0 x1 x2) = 0#7 := skip_field (by decide) (skip_field (by decide) (skip_field (by decide) (skip_field (by decide) last_field)))
  have h9 : fieldAt 9 7 (encABq op x0 x1 x2) = x0 := skip_field (by decide) (skip_field (by decide) (skip_field (by decide) last_field))
  have h2 : fieldAt 2 7 (encABq op x0 x1 x2) = x1 := skip_field (by decide) (skip_field (by decide) last_field)
  have h1 : fieldAt 1 1 (encABq op x0 x1 x2) = 0#1 := skip_field (by decide) last_field
  have h0 : fieldAt 0 1 (encABq op x0 x1 x2) = x2 := last_field
  simp [decABq, h16, h9, h2, h1, h0]

theorem RoundTrip.of_ABq {op : BitVec 9} {k : BitVec 7 → BitVec 7 → BitVec 1 → Instr}
    (h : ∀ w, opOf w = op → decodeRaw w 0#32 = decABq w k) (x0 : BitVec 7) (x1 : BitVec 7) (x2 : BitVec 1)
    (he : encodeWords (k x0 x1 x2) = some (encABq op x0 x1 x2, none)) : RoundTrip.Statement (k x0 x1 x2) :=
  of_raw he ((h _ (opOf_encABq op x0 x1 x2)).trans (dec_encABq op x0 x1 x2 k))

theorem opOf_encDAq (op : BitVec 9) (x0 : BitVec 7) (x1 : BitVec 7) (x2 : BitVec 1) : opOf (encDAq op x0 x1 x2) = op :=
  skip_field (by decide) (skip_field (by decide) (skip_field (by decide) (skip_field (by decide) first_field)))

theorem dec_encDAq (op : BitVec 9) (x0 : BitVec 7) (x1 : BitVec 7) (x2 : BitVec 1) (k) : decDAq (encDAq op x0 x1 x2) k = .ok (k x0 x1 x2) := by
  have h16 : fieldAt 16 7 (encDAq op x0 x1 x2) = x0 := skip_field (by decide) (skip_field (by decide) (skip_field (by decide) last_field))
  have h9 : fieldAt 9 7 (encDAq op x0 x1 x2) = x1 := skip_field (by decide) (skip_field (by decide) last_field)
  have h1 : fieldAt 1 8 (encDAq op x0 x1 x2) = 0#8 := skip_field (by decide) last_field
  have h0 : fieldAt 0 1 (encDAq op x0 x1 x2) = x2 := last_field
  simp [decDAq, h16, h9, h1, h0]

theorem RoundTrip.of_DAq {op : BitVec 9} {k : BitVec 7 → BitVec 7 → BitVec 1 → Instr}
    (h : ∀ w, opOf w = op → decodeRaw w 0#32 = decDAq w k) (x0 : BitVec 7) (x1 : BitVec 7) (x2 : BitVec 1)
    (he : encodeWords (k x0 x1 x2) = some (encDAq op x0 x1 x2, none)) : RoundTrip.Statement (k x0 x1 x2) :=
  of_raw he ((h _ (opOf_encDAq op x0 x1 x2)).trans (dec_encDAq op x0 x1 x2 k))

theorem opOf_encDAI9 (op : BitVec 9) (x0 : BitVec 7) (x1 : BitVec 7) (x2 : BitVec 9) : opOf (encDAI9 op x0 x1 x2) = op :=
  skip_field (by decide) (skip_field (by decide) (skip_field (by decide) first_field))

theorem dec_encDAI9 (op : BitVec 9) (x0 : BitVec 7) (x1 : BitVec 7) (x2 : BitVec 9) (k) : decDAI9 (encDAI9 op x0 x1 x2) k = .ok (k x0 x1 x2) := by
  have h16 : fieldAt 16 7 (encDAI9 op x0 x1 x2) = x0 := skip_field (by decide) (skip_field (by decide) last_field)
  have h9 : fieldAt 9 7 (encDAI9 op x0 x1 x2) = x1 := skip_field (by decide) last_field
  have h0 : fieldAt 0 9 (encDAI9 op x0 x1 x2) = x2 := last_field
  simp [decDAI9, h16, h9, h0]

theorem RoundTrip.of_DAI9 {op : BitVec 9} {k : BitVec 7 → BitVec 7 → BitVec 9 → Instr}
    (h : ∀ w, opOf w = op → decodeRaw w 0#32 = decDAI9 w k) (x0 : BitVec 7) (x1 : BitVec 7) (x2 : BitVec 9)
    (he : encodeWords (k x0 x1 x2) = some (encDAI9 op x0 x1 x2, none)) : RoundTrip.Statement (k x0 x1 x2) :=
  of_raw he ((h _ (opOf_encDAI9 op x0 x1 x2)).trans (dec_encDAI9 op x0 x1 x2 k))

theorem opOf_encDAI6 (op : BitVec 9) (x0 : BitVec 7) (x1 : BitVec 7) (x2 : BitVec 6) : opOf (encDAI6 op x0 x1 x2) = op :=
  skip_field (by decide) (skip_field (by decide) (skip_field (by decide) (skip_field (by decide) first_field)))

theorem dec_encDAI6 (op : BitVec 9) (x0 : BitVec 7) (x1 : BitVec 7) (x2 : BitVec 6) (k) : decDAI6 (encDAI6 op x0 x1 x2) k = .ok (k x0 x1 x2) := by
  have h16 : fieldAt 16 7 (encDAI6 op x0 x1 x2) = x0 := skip_field (by decide) (skip_field (by decide) (skip_field (by decide) last_field))
  have h9 : fieldAt 9 7 (encDAI6 op x0 x1 x2) = x1 := skip_field (by decide) (skip_field (by decide) last_field)
  have h6 : fieldAt 6 3 (encDAI6 op x0 x1 x2) = 0#3 := skip_field (by decide) last_field
  have h0 : fieldAt 0 6 (encDAI6 op x0 x1 x2) = x2 := last_field
  simp [decDAI6, h16, h9, h6, h0]

theorem RoundTrip.of_DAI6 {op : BitVec 9} {k : BitVec 7 → BitVec 7 → BitVec 6 → Instr}
    (h : ∀ w, opOf w = op → decodeRaw w 0#32 = decDAI6 w k) (x0 : BitVec 7) (x1 : BitVec 7) (x2 : BitVec 6)
    (he : encodeWords (k x0 x1 x2) = some (encDAI6 op x0 x1 x2, none)) : RoundTrip.Statement (k x0 x1 x2) :=
  of_raw he ((h _ (opOf_encDAI6 op x0 x1 x2)).trans (dec_encDAI6 op x0 x1 x2 k))

theorem opOf_encAI9 (op : BitVec 9) (x0 : BitVec 7) (x1 : BitVec 9) : opOf (encAI9 op x0 x1) = op :=
  skip_field (by decide) (skip_field (by decide) (skip_field (by decide) first_field))

theorem dec_encAI9 (op : BitVec 9) (x0 : BitVec 7) (x1 : BitVec 9) (k) : decAI9 (encAI9 op x0 x1) k = .ok (k x0 x1) := by
  have h16 : fieldAt 16 7 (encAI9 op x0 x1) = 0#7 := skip_field (by decide) (skip_field (by decide) last_field)
  have h9 : fieldAt 9 7 (encAI9 op x0 x1) = x0 := skip_field (by decide) last_field
  have h0 : fieldAt 0 9 (encAI9 op x0 x1) = x1 := last_field
  simp [decAI9, h16, h9, h0]

theorem RoundTrip.of_AI9 {op : BitVec 9} {k : BitVec 7 → BitVec 9 → Instr}
    (h : ∀ w, opOf w = op → decodeRaw w 0#32 = decAI9 w k) (x0 : BitVec 7) (x1 : BitVec 9)
    (he : encodeWords (k x0 x1) = some (encAI9 op x0 x1, none)) : RoundTrip.Statement (k x0 x1) :=
  of_raw he ((h _ (opOf_encAI9 op x0 x1)).trans (dec_encAI9 op x0 x1 k))

theorem opOf_encDI16 (op : BitVec 9) (x0 : BitVec 7) (x1 : BitVec 16) : opOf (encDI16 op x0 x1) = op :=
  skip_field (by decide) (skip_field (by decide) first_field)

theorem dec_encDI16 (op : BitVec 9) (x0 : BitVec 7) (x1 : BitVec 16) (k) : decDI16 (encDI16 op x0 x1) k = .ok (k x0 x1) := by
  have h16 : fieldAt 16 7 (encDI16 op x0 x1) = x0 := skip_field (by decide) last_field
  have h0 : fieldAt 0 16 (encDI16 op x0 x1) = x1 := last_field
  simp [decDI16, h16, h0]

theorem RoundTrip.of_DI16 {op : BitVec 9} {k : BitVec 7 → BitVec 16 → Instr}
    (h : ∀ w, opOf w = op → decodeRaw w 0#32 = decDI16 w k) (x0 : BitVec 7) (x1 : BitVec 16)
    (he : encodeWords (k x0 x1) = some (encDI16 op x0 x1, none)) : RoundTrip.Statement (k x0 x1) :=
  of_raw he ((h _ (opOf_encDI16 op x0 x1)).trans (dec_encDI16 op x0 x1 k))

theorem opOf_encD (op : BitVec 9) (x0 : BitVec 7) : opOf (encD op x0) = op :=
  skip_field (by decide) (skip_field (by decide) first_field)

theorem dec_encD (op : BitVec 9) (x0 : BitVec 7) (k) : decD (encD op x0) k = .ok (k x0) := by
  have h16 : fieldAt 16 7 (encD op x0) = x0 := skip_field (by decide) last_field
  have h0 : fieldAt 0 16 (encD op x0) = 0#16 := last_field
  simp [decD, h16, h0]

theorem RoundTrip.of_D {op : BitVec 9} {k : BitVec 7 → Instr}
    (h : ∀ w, opOf w = op → decodeRaw w 0#32 = decD w k) (x0 : BitVec 7)
    (he : encodeWords (k x0) = some (encD op x0, none)) : RoundTrip.Statement (k x0) :=
  of_raw he ((h _ (opOf_encD op x0)).trans (dec_encD op x0 k))

theorem opOf_encDABQ (op : BitVec 9) (x0 : BitVec 7) (x1 : BitVec 7) (x2 : BitVec 7) (x3 : BitVec 2) : opOf (encDABQ op x0 x1 x2 x3) = op :=
  skip_field (by decide) (skip_field (by decide) (skip_field (by decide) (skip_field (by decide) first_field)))

theorem dec_encDABQ (op : BitVec 9) (x0 : BitVec 7) (x1 : BitVec 7) (x2 : BitVec 7) (x3 : BitVec 2) (k) : decDABQ (encDABQ op x0 x1 x2 x3) k = .ok (k x0 x1 x2 x3) := by
  have h16 : fieldAt 16 7 (encDABQ op x0 x1 x2 x3) = x0 := skip_field (by decide) (skip_field (by decide) (skip_field (by decide) last_field))
  have h9 : fieldAt 9 7 (encDABQ op x0 x1 x2 x3) = x1 := skip_field (by decide) (skip_field (by decide) last_field)
  have h2 : fieldAt 2 7 (encDABQ op x0 x1 x2 x3) = x2 := skip_field (by decide) last_field
  have h0 : fieldAt 0 2 (encDABQ op x0 x1 x2 x3) = x3 := last_field
  simp [decDABQ, h16, h9, h2, h0]

theorem RoundTrip.of_DABQ {op : BitVec 9} {k : BitVec 7 → BitVec 7 → BitVec 7 → BitVec 2 → Instr}
    (h : ∀ w, opOf w = op → decodeRaw w 0#32 = decDABQ w k) (x0 : BitVec 7) (x1 : BitVec 7) (x2 : BitVec 7) (x3 : BitVec 2)
    (he : encodeWords (k x0 x1 x2 x3) = some (encDABQ op x0 x1 x2 x3, none)) : RoundTrip.Statement (k x0 x1 x2 x3) :=
  of_raw he ((h _ (opOf_encDABQ op x0 x1 x2 x3)).trans (dec_encDABQ op x0 x1 x2 x3 k))

theorem opOf_encDA (op : BitVec 9) (x0 : BitVec 7) (x1 : BitVec 7) : opOf (encDA op x0 x1) = op :=
  skip_field (by decide) (skip_field (by decide) (skip_field (by decide) first_field))

theorem dec_encDA (op : BitVec 9) (x0 : BitVec 7) (x1 : BitVec 7) (k) : decDA (encDA op x0 x1) k = .ok (k x0 x1) := by
  have h16 : fieldAt 16 7 (encDA op x0 x1) = x0 := skip_field (by decide) (skip_field (by decide) last_field)
  have h9 : fieldAt 9 7 (encDA op x0 x1) = x1 := skip_field (by decide) last_field
  have h0 : fieldAt 0 9 (encDA op x0 x1) = 0#9 := last_field
  simp [decDA, h16, h9, h0]

theorem RoundTrip.of_DA {op : BitVec 9} {k : BitVec 7 → BitVec 7 → Instr}
    (h : ∀ w, opOf w = op → decodeRaw w 0#32 = decDA w k) (x0 : BitVec 7) (x1 : BitVec 7)
    (he : encodeWords (k x0 x1) = some (encDA op x0 x1, none)) : RoundTrip.Statement (k x0 x1) :=
  of_raw he ((h _ (opOf_encDA op x0 x1)).trans (dec_encDA op x0 x1 k))

theorem opOf_encO (op : BitVec 9) (x0 : BitVec 19) : opOf (encO op x0) = op :=
  skip_field (by decide) (skip_field (by decide) first_field)

theorem dec_encO (op : BitVec 9) (x0 : BitVec 19) (k) : decO (encO op x0) k = .ok (k x0) := by
  have h19 : fieldAt 19 4 (encO op x0) = 0#4 := skip_field (by decide) last_field
  have h0 : fieldAt 0 19 (encO op x0) = x0 := last_field
  simp [decO, h19, h0]

theorem RoundTrip.of_O {op : BitVec 9} {k : BitVec 19 → Instr}
    (h : ∀ w, opOf w = op → decodeRaw w 0#32 = decO w k) (x0 : BitVec 19)
    (he : encodeWords (k x0) = some (encO op x0, none)) : RoundTrip.Statement (k x0) :=
  of_raw he ((h _ (opOf_encO op x0)).trans (dec_encO op x0 k))

theorem opOf_encCO (op : BitVec 9) (x0 : BitVec 4) (x1 : BitVec 19) : opOf (encCO op x0 x1) = op :=
  skip_field (by decide) (skip_field (by decide) first_field)

theorem dec_encCO (op : BitVec 9) (x0 : BitVec 4) (x1 : BitVec 19) (k) : decCO (encCO op x0 x1) k = .ok (k x0 x1) := by
  have h19 : fieldAt 19 4 (encCO op x0 x1) = x0 := skip_field (by decide) last_field
  have h0 : fieldAt 0 19 (encCO op x0 x1) = x1 := last_field
  simp [decCO, h19, h0]

theorem RoundTrip.of_CO {op : BitVec 9} {k : BitVec 4 → BitVec 19 → Instr}
    (h : ∀ w, opOf w = op → decodeRaw w 0#32 = decCO w k) (x0 : BitVec 4) (x1 : BitVec 19)
    (he : encodeWords (k x0 x1) = some (encCO op x0 x1, none)) : RoundTrip.Statement (k x0 x1) :=
  of_raw he ((h _ (opOf_encCO op x0 x1)).trans (dec_encCO op x0 x1 k))

theorem opOf_encA (op : BitVec 9) (x0 : BitVec 7) : opOf (encA op x0) = op :=
  skip_field (by decide) (skip_field (by decide) (skip_field (by decide) first_field))

theorem dec_encA (op : BitVec 9) (x0 : BitVec 7) (k) : decA (encA op x0) k = .ok (k x0) := by
  have h16 : fieldAt 16 7 (encA op x0) = 0#7 := skip_field (by decide) (skip_field (by decide) last_field)
  have h9 : fieldAt 9 7 (encA op x0) = x0 := skip_field (by decide) last_field
  have h0 : fieldAt 0 9 (encA op x0) = 0#9 := last_field
  simp [decA, h16, h9, h0]

theorem RoundTrip.of_A {op : BitVec 9} {k : BitVec 7 → Instr}
    (h : ∀ w, opOf w = op → decodeRaw w 0#32 = decA w k) (x0 : BitVec 7)
    (he : encodeWords (k x0) = some (encA op x0, none)) : RoundTrip.Statement (k x0) :=
  of_raw he ((h _ (opOf_encA op x0)).trans (dec_encA op x0 k))

theorem opOf_encL (op : BitVec 9) (x0 : BitVec 7) (x1 : BitVec 8) (x2 : BitVec 2) : opOf (encL op x0 x1 x2) = op :=
  skip_field (by decide) (skip_field (by decide) (skip_field (by decide) (skip_field (by decide) first_field)))

theorem dec_encL (op : BitVec 9) (x0 : BitVec 7) (x1 : BitVec 8) (x2 : BitVec 2) (k) : decL (encL op x0 x1 x2) k = .ok (k x0 x1 x2) := by
  have h16 : fieldAt 16 7 (encL op x0 x1 x2) = x0 := skip_field (by decide) (skip_field (by decide) (skip_field (by decide) last_field))
  have h8 : fieldAt 8 8 (encL op x0 x1 x2) = x1 := skip_field (by decide) (skip_field (by decide) last_field)
  have h6 : fieldAt 6 2 (encL op x0 x1 x2) = x2 := skip_field (by decide) last_field
  have h0 : fieldAt 0 6 (encL op x0 x1 x2) = 0#6 := last_field
  simp [decL, h16, h8, h6, h0]

theorem RoundTrip.of_L {op : BitVec 9} {k : BitVec 7 → BitVec 8 → BitVec 2 → Instr}
    (h : ∀ w, opOf w = op → decodeRaw w 0#32 = decL w k) (x0 : BitVec 7) (x1 : BitVec 8) (x2 : BitVec 2)
    (he : encodeWords (k x0 x1 x2) = some (encL op x0 x1 x2, none)) : RoundTrip.Statement (k x0 x1 x2) :=
  of_raw he ((h _ (opOf_encL op x0 x1 x2)).trans (dec_encL op x0 x1 x2 k))

theorem opOf_encN (op : BitVec 9) : opOf (encN op) = op :=
  skip_field (by decide) first_field

theorem dec_encN (op : BitVec 9) (k) : decN (encN op) k = .ok (k) := by
  have h0 : fieldAt 0 23 (encN op) = 0#23 := last_field
  simp [decN, h0]

theorem RoundTrip.of_N {op : BitVec 9} {k : Instr}
    (h : ∀ w, opOf w = op → decodeRaw w 0#32 = decN w k)
    (he : encodeWords (k) = some (encN op, none)) : RoundTrip.Statement (k) :=
  of_raw he ((h _ (opOf_encN op)).trans (dec_encN op k))

theorem opOf_encAB (op : BitVec 9) (x0 : BitVec 7) (x1 : BitVec 7) : opOf (encAB op x0 x1) = op :=
  skip_field (by decide) (skip_field (by decide) (skip_field (by decide) (skip_field (by decide) first_field)))

theorem dec_encAB (op : BitVec 9) (x0 : BitVec 7) (x1 : BitVec 7) (k) : decAB (encAB op x0 x1) k = .ok (k x0 x1) := by
  have h16 : fieldAt 16 7 (encAB op x0 x1) = 0#7 := skip_field (by decide) (skip_field (by decide) (skip_field (by decide) last_field))
  have h9 : fieldAt 9 7 (encAB op x0 x1) = x0 := skip_field (by decide) (skip_field (by decide) last_field)
  have h2 : fieldAt 2 7 (encAB op x0 x1) = x1 := skip_field (by decide) last_field
  have h0 : fieldAt 0 2 (encAB op x0 x1) = 0#2 := last_field
  simp [decAB, h16, h9, h2, h0]

theorem RoundTrip.of_AB {op : BitVec 9} {k : BitVec 7 → BitVec 7 → Instr}
    (h : ∀ w, opOf w = op → decodeRaw w 0#32 = decAB w k) (x0 : BitVec 7) (x1 : BitVec 7)
    (he : encodeWords (k x0 x1) = some (encAB op x0 x1, none)) : RoundTrip.Statement (k x0 x1) :=
  of_raw he ((h _ (opOf_encAB op x0 x1)).trans (dec_encAB op x0 x1 k))

theorem opOf_encI16 (op : BitVec 9) (x0 : BitVec 16) : opOf (encI16 op x0) = op :=
  skip_field (by decide) (skip_field (by decide) first_field)

theorem dec_encI16 (op : BitVec 9) (x0 : BitVec 16) (k) : decI16 (encI16 op x0) k = .ok (k x0) := by
  have h16 : fieldAt 16 7 (encI16 op x0) = 0#7 := skip_field (by decide) last_field
  have h0 : fieldAt 0 16 (encI16 op x0) = x0 := last_field
  simp [decI16, h16, h0]

theorem RoundTrip.of_I16 {op : BitVec 9} {k : BitVec 16 → Instr}
    (h : ∀ w, opOf w = op → decodeRaw w 0#32 = decI16 w k) (x0 : BitVec 16)
    (he : encodeWords (k x0) = some (encI16 op x0, none)) : RoundTrip.Statement (k x0) :=
  of_raw he ((h _ (opOf_encI16 op x0)).trans (dec_encI16 op x0 k))

theorem opOf_encDAB (op : BitVec 9) (x0 : BitVec 7) (x1 : BitVec 7) (x2 : BitVec 7) : opOf (encDAB op x0 x1 x2) = op :=
  skip_field (by decide) (skip_field (by decide) (skip_field (by decide) (skip_field (by decide) first_field)))

theorem dec_encDAB (op : BitVec 9) (x0 : BitVec 7) (x1 : BitVec 7) (x2 : BitVec 7) (k) : decDAB (encDAB op x0 x1 x2) k = .ok (k x0 x1 x2) := by
  have h16 : fieldAt 16 7 (encDAB op x0 x1 x2) = x0 := skip_field (by decide) (skip_field (by decide) (skip_field (by decide) last_field))
  have h9 : fieldAt 9 7 (encDAB op x0 x1 x2) = x1 := skip_field (by decide) (skip_field (by decide) last_field)
  have h2 : fieldAt 2 7 (encDAB op x0 x1 x2) = x2 := skip_field (by decide) last_field
  have h0 : fieldAt 0 2 (encDAB op x0 x1 x2) = 0#2 := last_field
  simp [decDAB, h16, h9, h2, h0]

theorem RoundTrip.of_DAB {op : BitVec 9} {k : BitVec 7 → BitVec 7 → BitVec 7 → Instr}
    (h : ∀ w, opOf w = op → decodeRaw w 0#32 = decDAB w k) (x0 : BitVec 7) (x1 : BitVec 7) (x2 : BitVec 7)
    (he : encodeWords (k x0 x1 x2) = some (encDAB op x0 x1 x2, none)) : RoundTrip.Statement (k x0 x1 x2) :=
  of_raw he ((h _ (opOf_encDAB op x0 x1 x2)).trans (dec_encDAB op x0 x1 x2 k))

theorem opOf_encDATq (op : BitVec 9) (x0 : BitVec 7) (x1 : BitVec 7) (x2 : BitVec 5) (x3 : BitVec 1) : opOf (encDATq op x0 x1 x2 x3) = op :=
  skip_field (by decide) (skip_field (by decide) (skip_field (by decide) (skip_field (by decide) (skip_field (by decide) (skip_field (by decide) first_field)))))

theorem dec_encDATq (op : BitVec 9) (x0 : BitVec 7) (x1 : BitVec 7) (x2 : BitVec 5) (x3 : BitVec 1) (k) : decDATq (encDATq op x0 x1 x2 x3) k = .ok (k x0 x1 x2 x3) := by
  have h16 : fieldAt 16 7 (encDATq op x0 x1 x2 x3) = x0 := skip_field (by decide) (skip_field (by decide) (skip_field (by decide) (skip_field (by decide) (skip_field (by decide) last_field))))
  have h9 : fieldAt 9 7 (encDATq op x0 x1 x2 x3) = x1 := skip_field (by decide) (skip_field (by decide) (skip_field (by decide) (skip_field (by decide) last_field)))
  have h7 : fieldAt 7 2 (encDATq op x0 x1 x2 x3) = 0#2 := skip_field (by decide) (skip_field (by decide) (skip_field (by decide) last_field))
  have h2 : fieldAt 2 5 (encDATq op x0 x1 x2 x3) = x2 := skip_field (by decide) (skip_field (by decide) last_field)
  have h1 : fieldAt 1 1 (encDATq op x0 x1 x2 x3) = 0#1 := skip_field (by decide) last_field
  have h0 : fieldAt 0 1 (encDATq op x0 x1 x2 x3) = x3 := last_field
  simp [decDATq, h16, h9, h7, h2, h1, h0]

theorem RoundTrip.of_DATq {op : BitVec 9} {k : BitVec 7 → BitVec 7 → BitVec 5 → BitVec 1 → Instr}
    (h : ∀ w, opOf w = op → decodeRaw w 0#32 = decDATq w k) (x0 : BitVec 7) (x1 : BitVec 7) (x2 : BitVec 5) (x3 : BitVec 1)
    (he : encodeWords (k x0 x1 x2 x3) = some (encDATq op x0 x1 x2 x3, none)) : RoundTrip.Statement (k x0 x1 x2 x3) :=
  of_raw he ((h _ (opOf_encDATq op x0 x1 x2 x3)).trans (dec_encDATq op x0 x1 x2 x3 k))

theorem opOf_encDAHq (op : BitVec 9) (x0 : BitVec 7) (x1 : BitVec 7) (x2 : BitVec 1) (x3 : BitVec 1) : opOf (encDAHq op x0 x1 x2 x3) = op :=
  skip_field (by decide) (skip_field (by decide) (skip_field (by decide) (skip_field (by decide) (skip_field (by decide) (skip_field (by decide) first_field)))))

theorem dec_encDAHq (op : BitVec 9) (x0 : BitVec 7) (x1 : BitVec 7) (x2 : BitVec 1) (x3 : BitVec 1) (k) : decDAHq (encDAHq op x0 x1 x2 x3) k = .ok (k x0 x1 x2 x3) := by
  have h16 : fieldAt 16 7 (encDAHq op x0 x1 x2 x3) = x0 := skip_field (by decide) (skip_field (by decide) (skip_field (by decide) (skip_field (by decide) (skip_field (by decide) last_field))))
  have h9 : fieldAt 9 7 (encDAHq op x0 x1 x2 x3) = x1 := skip_field (by decide) (skip_field (by decide) (skip_field (by decide) (skip_field (by decide) last_field)))
  have h3 : fieldAt 3 6 (encDAHq op x0 x1 x2 x3) = 0#6 := skip_field (by decide) (skip_field (by decide) (skip_field (by decide) last_field))
  have h2 : fieldAt 2 1 (encDAHq op x0 x1 x2 x3) = x2 := skip_field (by decide) (skip_field (by decide) last_field)
  have h1 : fieldAt 1 1 (encDAHq op x0 x1 x2 x3) = 0#1 := skip_field (by decide) last_field
  have h0 : fieldAt 0 1 (encDAHq op x0 x1 x2 x3) = x3 := last_field
  simp [decDAHq, h16, h9, h3, h2, h1, h0]

theorem RoundTrip.of_DAHq {op : BitVec 9} {k : BitVec 7 → BitVec 7 → BitVec 1 → BitVec 1 → Instr}
    (h : ∀ w, opOf w = op → decodeRaw w 0#32 = decDAHq w k) (x0 : BitVec 7) (x1 : BitVec 7) (x2 : BitVec 1) (x3 : BitVec 1)
    (he : encodeWords (k x0 x1 x2 x3) = some (encDAHq op x0 x1 x2 x3, none)) : RoundTrip.Statement (k x0 x1 x2 x3) :=
  of_raw he ((h _ (opOf_encDAHq op x0 x1 x2 x3)).trans (dec_encDAHq op x0 x1 x2 x3 k))

theorem opOf_encDN9 (op : BitVec 9) (x0 : BitVec 7) (x1 : BitVec 9) : opOf (encDN9 op x0 x1) = op :=
  skip_field (by decide) (skip_field (by decide) (skip_field (by decide) first_field))

theorem dec_encDN9 (op : BitVec 9) (x0 : BitVec 7) (x1 : BitVec 9) (k) : decDN9 (encDN9 op x0 x1) k = .ok (k x0 x1) := by
  have h16 : fieldAt 16 7 (encDN9 op x0 x1) = x0 := skip_field (by decide) (skip_field (by decide) last_field)
  have h9 : fieldAt 9 7 (encDN9 op x0 x1) = 0#7 := skip_field (by decide) last_field
  have h0 : fieldAt 0 9 (encDN9 op x0 x1) = x1 := last_field
  simp [decDN9, h16, h9, h0]

theorem RoundTrip.of_DN9 {op : BitVec 9} {k : BitVec 7 → BitVec 9 → Instr}
    (h : ∀ w, opOf w = op → decodeRaw w 0#32 = decDN9 w k) (x0 : BitVec 7) (x1 : BitVec 9)
    (he : encodeWords (k x0 x1) = some (encDN9 op x0 x1, none)) : RoundTrip.Statement (k x0 x1) :=
  of_raw he ((h _ (opOf_encDN9 op x0 x1)).trans (dec_encDN9 op x0 x1 k))

theorem opOf_encDAQ (op : BitVec 9) (x0 : BitVec 7) (x1 : BitVec 7) (x2 : BitVec 2) : opOf (encDAQ op x0 x1 x2) = op :=
  skip_field (by decide) (skip_field (by decide) (skip_field (by decide) (skip_field (by decide) first_field)))

theorem dec_encDAQ (op : BitVec 9) (x0 : BitVec 7) (x1 : BitVec 7) (x2 : BitVec 2) (k) : decDAQ (encDAQ op x0 x1 x2) k = .ok (k x0 x1 x2) := by
  have h16 : fieldAt 16 7 (encDAQ op x0 x1 x2) = x0 := skip_field (by decide) (skip_field (by decide) (skip_field (by decide) last_field))
  have h9 : fieldAt 9 7 (encDAQ op x0 x1 x2) = x1 := skip_field (by decide) (skip_field (by decide) last_field)
  have h2 : fieldAt 2 7 (encDAQ op x0 x1 x2) = 0#7 := skip_field (by decide) last_field
  have h0 : fieldAt 0 2 (encDAQ op x0 x1 x2) = x2 := last_field
  simp [decDAQ, h16, h9, h2, h0]

theorem RoundTrip.of_DAQ {op : BitVec 9} {k : BitVec 7 → BitVec 7 → BitVec 2 → Instr}
    (h : ∀ w, opOf w = op → decodeRaw w 0#32 = decDAQ w k) (x0 : BitVec 7) (x1 : BitVec 7) (x2 : BitVec 2)
    (he : encodeWords (k x0 x1 x2) = some (encDAQ op x0 x1 x2, none)) : RoundTrip.Statement (k x0 x1 x2) :=
  of_raw he ((h _ (opOf_encDAQ op x0 x1 x2)).trans (dec_encDAQ op x0 x1 x2 k))

theorem opOf_encB (op : BitVec 9) (x0 : BitVec 7) : opOf (encB op x0) = op :=
  skip_field (by decide) (skip_field (by decide) (skip_field (by decide) first_field))

theorem dec_encB (op : BitVec 9) (x0 : BitVec 7) (k) : decB (encB op x0) k = .ok (k x0) := by
  have h9 : fieldAt 9 14 (encB op x0) = 0#14 := skip_field (by decide) (skip_field (by decide) last_field)
  have h2 : fieldAt 2 7 (encB op x0) = x0 := skip_field (by decide) last_field
  have h0 : fieldAt 0 2 (encB op x0) = 0#2 := last_field
  simp [decB, h9, h2, h0]

theorem RoundTrip.of_B {op : BitVec 9} {k : BitVec 7 → Instr}
    (h : ∀ w, opOf w = op → decodeRaw w 0#32 = decB w k) (x0 : BitVec 7)
    (he : encodeWords (k x0) = some (encB op x0, none)) : RoundTrip.Statement (k x0) :=
  of_raw he ((h _ (opOf_encB op x0)).trans (dec_encB op x0 k))

/-! ### The constructors -/

theorem RoundTrip.add : ∀ d a b w, Statement (.add d a b w) :=
  fun d a b w => of_DABq (fun w h => by rw [decodeRaw, h]; rfl) d a b w rfl
theorem RoundTrip.sub : ∀ d a b w, Statement (.sub d a b w) :=
  fun d a b w => of_DABq (fun w h => by rw [decodeRaw, h]; rfl) d a b w rfl
theorem RoundTrip.mul : ∀ d a b w, Statement (.mul d a b w) :=
  fun d a b w => of_DABq (fun w h => by rw [decodeRaw, h]; rfl) d a b w rfl
theorem RoundTrip.mulh : ∀ d a b w, Statement (.mulh d a b w) :=
  fun d a b w => of_DABq (fun w h => by rw [decodeRaw, h]; rfl) d a b w rfl
theorem RoundTrip.mulhn : ∀ d a b w, Statement (.mulhn d a b w) :=
  fun d a b w => of_DABq (fun w h => by rw [decodeRaw, h]; rfl) d a b w rfl
theorem RoundTrip.div : ∀ d a b w, Statement (.div d a b w) :=
  fun d a b w => of_DABq (fun w h => by rw [decodeRaw, h]; rfl) d a b w rfl
theorem RoundTrip.divn : ∀ d a b w, Statement (.divn d a b w) :=
  fun d a b w => of_DABq (fun w h => by rw [decodeRaw, h]; rfl) d a b w rfl
theorem RoundTrip.rem : ∀ d a b w, Statement (.rem d a b w) :=
  fun d a b w => of_DABq (fun w h => by rw [decodeRaw, h]; rfl) d a b w rfl
theorem RoundTrip.remn : ∀ d a b w, Statement (.remn d a b w) :=
  fun d a b w => of_DABq (fun w h => by rw [decodeRaw, h]; rfl) d a b w rfl
theorem RoundTrip.and : ∀ d a b w, Statement (.and d a b w) :=
  fun d a b w => of_DABq (fun w h => by rw [decodeRaw, h]; rfl) d a b w rfl
theorem RoundTrip.or : ∀ d a b w, Statement (.or d a b w) :=
  fun d a b w => of_DABq (fun w h => by rw [decodeRaw, h]; rfl) d a b w rfl
theorem RoundTrip.xor : ∀ d a b w, Statement (.xor d a b w) :=
  fun d a b w => of_DABq (fun w h => by rw [decodeRaw, h]; rfl) d a b w rfl
theorem RoundTrip.andn : ∀ d a b w, Statement (.andn d a b w) :=
  fun d a b w => of_DABq (fun w h => by rw [decodeRaw, h]; rfl) d a b w rfl
theorem RoundTrip.shl : ∀ d a b w, Statement (.shl d a b w) :=
  fun d a b w => of_DABq (fun w h => by rw [decodeRaw, h]; rfl) d a b w rfl
theorem RoundTrip.shr : ∀ d a b w, Statement (.shr d a b w) :=
  fun d a b w => of_DABq (fun w h => by rw [decodeRaw, h]; rfl) d a b w rfl
theorem RoundTrip.sra : ∀ d a b w, Statement (.sra d a b w) :=
  fun d a b w => of_DABq (fun w h => by rw [decodeRaw, h]; rfl) d a b w rfl
theorem RoundTrip.rotl : ∀ d a b w, Statement (.rotl d a b w) :=
  fun d a b w => of_DABq (fun w h => by rw [decodeRaw, h]; rfl) d a b w rfl
theorem RoundTrip.min : ∀ d a b w, Statement (.min d a b w) :=
  fun d a b w => of_DABq (fun w h => by rw [decodeRaw, h]; rfl) d a b w rfl
theorem RoundTrip.max : ∀ d a b w, Statement (.max d a b w) :=
  fun d a b w => of_DABq (fun w h => by rw [decodeRaw, h]; rfl) d a b w rfl
theorem RoundTrip.minn : ∀ d a b w, Statement (.minn d a b w) :=
  fun d a b w => of_DABq (fun w h => by rw [decodeRaw, h]; rfl) d a b w rfl
theorem RoundTrip.maxn : ∀ d a b w, Statement (.maxn d a b w) :=
  fun d a b w => of_DABq (fun w h => by rw [decodeRaw, h]; rfl) d a b w rfl
theorem RoundTrip.cmp : ∀ a b w, Statement (.cmp a b w) :=
  fun a b w => of_ABq (fun w h => by rw [decodeRaw, h]; rfl) a b w rfl
theorem RoundTrip.cmpn : ∀ a b w, Statement (.cmpn a b w) :=
  fun a b w => of_ABq (fun w h => by rw [decodeRaw, h]; rfl) a b w rfl
theorem RoundTrip.sel : ∀ d a b w, Statement (.sel d a b w) :=
  fun d a b w => of_DABq (fun w h => by rw [decodeRaw, h]; rfl) d a b w rfl
theorem RoundTrip.clz : ∀ d a w, Statement (.clz d a w) :=
  fun d a w => of_DAq (fun w h => by rw [decodeRaw, h]; rfl) d a w rfl
theorem RoundTrip.ctz : ∀ d a w, Statement (.ctz d a w) :=
  fun d a w => of_DAq (fun w h => by rw [decodeRaw, h]; rfl) d a w rfl
theorem RoundTrip.popc : ∀ d a w, Statement (.popc d a w) :=
  fun d a w => of_DAq (fun w h => by rw [decodeRaw, h]; rfl) d a w rfl
theorem RoundTrip.brev : ∀ d a w, Statement (.brev d a w) :=
  fun d a w => of_DAq (fun w h => by rw [decodeRaw, h]; rfl) d a w rfl
theorem RoundTrip.bfx : ∀ d a b w, Statement (.bfx d a b w) :=
  fun d a b w => of_DABq (fun w h => by rw [decodeRaw, h]; rfl) d a b w rfl
theorem RoundTrip.bfi : ∀ d a b w, Statement (.bfi d a b w) :=
  fun d a b w => of_DABq (fun w h => by rw [decodeRaw, h]; rfl) d a b w rfl
theorem RoundTrip.mov : ∀ d a w, Statement (.mov d a w) :=
  fun d a w => of_DAq (fun w h => by rw [decodeRaw, h]; rfl) d a w rfl
theorem RoundTrip.addi : ∀ d a i, Statement (.addi d a i) :=
  fun d a i => of_DAI9 (fun w h => by rw [decodeRaw, h]; rfl) d a i rfl
theorem RoundTrip.andi : ∀ d a i, Statement (.andi d a i) :=
  fun d a i => of_DAI9 (fun w h => by rw [decodeRaw, h]; rfl) d a i rfl
theorem RoundTrip.ori : ∀ d a i, Statement (.ori d a i) :=
  fun d a i => of_DAI9 (fun w h => by rw [decodeRaw, h]; rfl) d a i rfl
theorem RoundTrip.xori : ∀ d a i, Statement (.xori d a i) :=
  fun d a i => of_DAI9 (fun w h => by rw [decodeRaw, h]; rfl) d a i rfl
theorem RoundTrip.shli : ∀ d a i, Statement (.shli d a i) :=
  fun d a i => of_DAI6 (fun w h => by rw [decodeRaw, h]; rfl) d a i rfl
theorem RoundTrip.shri : ∀ d a i, Statement (.shri d a i) :=
  fun d a i => of_DAI6 (fun w h => by rw [decodeRaw, h]; rfl) d a i rfl
theorem RoundTrip.srai : ∀ d a i, Statement (.srai d a i) :=
  fun d a i => of_DAI6 (fun w h => by rw [decodeRaw, h]; rfl) d a i rfl
theorem RoundTrip.cmpi : ∀ a i, Statement (.cmpi a i) :=
  fun a i => of_AI9 (fun w h => by rw [decodeRaw, h]; rfl) a i rfl
theorem RoundTrip.cmpni : ∀ a i, Statement (.cmpni a i) :=
  fun a i => of_AI9 (fun w h => by rw [decodeRaw, h]; rfl) a i rfl
theorem RoundTrip.movi : ∀ d i, Statement (.movi d i) :=
  fun d i => of_DI16 (fun w h => by rw [decodeRaw, h]; rfl) d i rfl
theorem RoundTrip.movhi : ∀ d i, Statement (.movhi d i) :=
  fun d i => of_DI16 (fun w h => by rw [decodeRaw, h]; rfl) d i rfl
theorem RoundTrip.movxi : ∀ d i, Statement (.movxi d i) :=
  fun d i => of_DI16 (fun w h => by rw [decodeRaw, h]; rfl) d i rfl
theorem RoundTrip.movti : ∀ d i, Statement (.movti d i) :=
  fun d i => of_DI16 (fun w h => by rw [decodeRaw, h]; rfl) d i rfl
theorem RoundTrip.lea : ∀ d a b s, Statement (.lea d a b s) :=
  fun d a b s => of_DABQ (fun w h => by rw [decodeRaw, h]; rfl) d a b s rfl
theorem RoundTrip.gets : ∀ d k, Statement (.gets d k) :=
  fun d k => of_DA (fun w h => by rw [decodeRaw, h]; rfl) d k rfl
theorem RoundTrip.fadd : ∀ d a b f, Statement (.fadd d a b f) :=
  fun d a b f => of_DABq (fun w h => by rw [decodeRaw, h]; rfl) d a b f rfl
theorem RoundTrip.fsub : ∀ d a b f, Statement (.fsub d a b f) :=
  fun d a b f => of_DABq (fun w h => by rw [decodeRaw, h]; rfl) d a b f rfl
theorem RoundTrip.fmul : ∀ d a b f, Statement (.fmul d a b f) :=
  fun d a b f => of_DABq (fun w h => by rw [decodeRaw, h]; rfl) d a b f rfl
theorem RoundTrip.ffma : ∀ d a b f, Statement (.ffma d a b f) :=
  fun d a b f => of_DABq (fun w h => by rw [decodeRaw, h]; rfl) d a b f rfl
theorem RoundTrip.fdiv : ∀ d a b f, Statement (.fdiv d a b f) :=
  fun d a b f => of_DABq (fun w h => by rw [decodeRaw, h]; rfl) d a b f rfl
theorem RoundTrip.fsqrt : ∀ d a f, Statement (.fsqrt d a f) :=
  fun d a f => of_DAq (fun w h => by rw [decodeRaw, h]; rfl) d a f rfl
theorem RoundTrip.fmin : ∀ d a b f, Statement (.fmin d a b f) :=
  fun d a b f => of_DABq (fun w h => by rw [decodeRaw, h]; rfl) d a b f rfl
theorem RoundTrip.fmax : ∀ d a b f, Statement (.fmax d a b f) :=
  fun d a b f => of_DABq (fun w h => by rw [decodeRaw, h]; rfl) d a b f rfl
theorem RoundTrip.fabs : ∀ d a f, Statement (.fabs d a f) :=
  fun d a f => of_DAq (fun w h => by rw [decodeRaw, h]; rfl) d a f rfl
theorem RoundTrip.fneg : ∀ d a f, Statement (.fneg d a f) :=
  fun d a f => of_DAq (fun w h => by rw [decodeRaw, h]; rfl) d a f rfl
theorem RoundTrip.fcmp : ∀ a b f, Statement (.fcmp a b f) :=
  fun a b f => of_ABq (fun w h => by rw [decodeRaw, h]; rfl) a b f rfl
theorem RoundTrip.fcvt : ∀ d a f, Statement (.fcvt d a f) :=
  fun d a f => of_DAq (fun w h => by rw [decodeRaw, h]; rfl) d a f rfl
theorem RoundTrip.ftoi : ∀ d a f, Statement (.ftoi d a f) :=
  fun d a f => of_DAq (fun w h => by rw [decodeRaw, h]; rfl) d a f rfl
theorem RoundTrip.itof : ∀ d a f, Statement (.itof d a f) :=
  fun d a f => of_DAq (fun w h => by rw [decodeRaw, h]; rfl) d a f rfl
theorem RoundTrip.fclass : ∀ d a f, Statement (.fclass d a f) :=
  fun d a f => of_DAq (fun w h => by rw [decodeRaw, h]; rfl) d a f rfl
theorem RoundTrip.frnd : ∀ d a f, Statement (.frnd d a f) :=
  fun d a f => of_DAq (fun w h => by rw [decodeRaw, h]; rfl) d a f rfl
theorem RoundTrip.br : ∀ o, Statement (.br o) :=
  fun o => of_O (fun w h => by rw [decodeRaw, h]; rfl) o rfl
theorem RoundTrip.bcc : ∀ c o, Statement (.bcc c o) :=
  fun c o => of_CO (fun w h => by rw [decodeRaw, h]; rfl) c o rfl
theorem RoundTrip.bmz : ∀ m o, Statement (.bmz m o) :=
  fun m o => of_CO (fun w h => by rw [decodeRaw, h]; rfl) m o rfl
theorem RoundTrip.bmnz : ∀ m o, Statement (.bmnz m o) :=
  fun m o => of_CO (fun w h => by rw [decodeRaw, h]; rfl) m o rfl
theorem RoundTrip.call : ∀ o, Statement (.call o) :=
  fun o => of_O (fun w h => by rw [decodeRaw, h]; rfl) o rfl
theorem RoundTrip.callr : ∀ d a, Statement (.callr d a) :=
  fun d a => of_DA (fun w h => by rw [decodeRaw, h]; rfl) d a rfl
theorem RoundTrip.ret : ∀ a, Statement (.ret a) :=
  fun a => of_A (fun w h => by rw [decodeRaw, h]; rfl) a rfl
theorem RoundTrip.jmpr : ∀ a, Statement (.jmpr a) :=
  fun a => of_A (fun w h => by rw [decodeRaw, h]; rfl) a rfl
theorem RoundTrip.loop : ∀ a l n, Statement (.loop a l n) :=
  fun a l n => of_L (fun w h => by rw [decodeRaw, h]; rfl) a l n rfl
theorem RoundTrip.loopi : ∀ k l n, Statement (.loopi k l n) :=
  fun k l n => of_L (fun w h => by rw [decodeRaw, h]; rfl) k l n rfl
theorem RoundTrip.lbrk : ∀ d, Statement (.lbrk d) :=
  fun d => of_D (fun w h => by rw [decodeRaw, h]; rfl) d rfl
theorem RoundTrip.yield : Statement .yield := of_N (fun w h => by rw [decodeRaw, h]; rfl) rfl
theorem RoundTrip.waitc : ∀ a b, Statement (.waitc a b) :=
  fun a b => of_AB (fun w h => by rw [decodeRaw, h]; rfl) a b rfl
theorem RoundTrip.watch : ∀ a b, Statement (.watch a b) :=
  fun a b => of_AB (fun w h => by rw [decodeRaw, h]; rfl) a b rfl
theorem RoundTrip.exit : Statement .exit := of_N (fun w h => by rw [decodeRaw, h]; rfl) rfl
theorem RoundTrip.nop : Statement .nop := of_N (fun w h => by rw [decodeRaw, h]; rfl) rfl
theorem RoundTrip.trapi : ∀ i, Statement (.trapi i) :=
  fun i => of_I16 (fun w h => by rw [decodeRaw, h]; rfl) i rfl
theorem RoundTrip.mset : ∀ i, Statement (.mset i) :=
  fun i => of_I16 (fun w h => by rw [decodeRaw, h]; rfl) i rfl
theorem RoundTrip.msetr : ∀ a, Statement (.msetr a) :=
  fun a => of_A (fun w h => by rw [decodeRaw, h]; rfl) a rfl
theorem RoundTrip.mget : ∀ d, Statement (.mget d) :=
  fun d => of_D (fun w h => by rw [decodeRaw, h]; rfl) d rfl
theorem RoundTrip.mpush : ∀ d a, Statement (.mpush d a) :=
  fun d a => of_DA (fun w h => by rw [decodeRaw, h]; rfl) d a rfl
theorem RoundTrip.melse : ∀ d a, Statement (.melse d a) :=
  fun d a => of_DA (fun w h => by rw [decodeRaw, h]; rfl) d a rfl
theorem RoundTrip.mpop : Statement .mpop := of_N (fun w h => by rw [decodeRaw, h]; rfl) rfl
theorem RoundTrip.mand : ∀ d a b, Statement (.mand d a b) :=
  fun d a b => of_DAB (fun w h => by rw [decodeRaw, h]; rfl) d a b rfl
theorem RoundTrip.mor : ∀ d a b, Statement (.mor d a b) :=
  fun d a b => of_DAB (fun w h => by rw [decodeRaw, h]; rfl) d a b rfl
theorem RoundTrip.mxor : ∀ d a b, Statement (.mxor d a b) :=
  fun d a b => of_DAB (fun w h => by rw [decodeRaw, h]; rfl) d a b rfl
theorem RoundTrip.mandn : ∀ d a b, Statement (.mandn d a b) :=
  fun d a b => of_DAB (fun w h => by rw [decodeRaw, h]; rfl) d a b rfl
theorem RoundTrip.mnot : ∀ d a, Statement (.mnot d a) :=
  fun d a => of_DA (fun w h => by rw [decodeRaw, h]; rfl) d a rfl
theorem RoundTrip.mmov : ∀ d a, Statement (.mmov d a) :=
  fun d a => of_DA (fun w h => by rw [decodeRaw, h]; rfl) d a rfl
theorem RoundTrip.mcnt : ∀ d a, Statement (.mcnt d a) :=
  fun d a => of_DA (fun w h => by rw [decodeRaw, h]; rfl) d a rfl
theorem RoundTrip.mffs : ∀ d a, Statement (.mffs d a) :=
  fun d a => of_DA (fun w h => by rw [decodeRaw, h]; rfl) d a rfl
theorem RoundTrip.mtos : ∀ d a b, Statement (.mtos d a b) :=
  fun d a b => of_DAB (fun w h => by rw [decodeRaw, h]; rfl) d a b rfl
theorem RoundTrip.mfrs : ∀ d a b, Statement (.mfrs d a b) :=
  fun d a b => of_DAB (fun w h => by rw [decodeRaw, h]; rfl) d a b rfl
theorem RoundTrip.mlen : ∀ d a, Statement (.mlen d a) :=
  fun d a => of_DA (fun w h => by rw [decodeRaw, h]; rfl) d a rfl
theorem RoundTrip.mall : ∀ d a, Statement (.mall d a) :=
  fun d a => of_DA (fun w h => by rw [decodeRaw, h]; rfl) d a rfl
theorem RoundTrip.vadd : ∀ d a b c, Statement (.vadd d a b c) :=
  fun d a b c => of_DABq (fun w h => by rw [decodeRaw, h]; rfl) d a b c rfl
theorem RoundTrip.vsub : ∀ d a b c, Statement (.vsub d a b c) :=
  fun d a b c => of_DABq (fun w h => by rw [decodeRaw, h]; rfl) d a b c rfl
theorem RoundTrip.vmul : ∀ d a b c, Statement (.vmul d a b c) :=
  fun d a b c => of_DABq (fun w h => by rw [decodeRaw, h]; rfl) d a b c rfl
theorem RoundTrip.vfma : ∀ d a b c, Statement (.vfma d a b c) :=
  fun d a b c => of_DABq (fun w h => by rw [decodeRaw, h]; rfl) d a b c rfl
theorem RoundTrip.vfms : ∀ d a b c, Statement (.vfms d a b c) :=
  fun d a b c => of_DABq (fun w h => by rw [decodeRaw, h]; rfl) d a b c rfl
theorem RoundTrip.vmin : ∀ d a b c, Statement (.vmin d a b c) :=
  fun d a b c => of_DABq (fun w h => by rw [decodeRaw, h]; rfl) d a b c rfl
theorem RoundTrip.vmax : ∀ d a b c, Statement (.vmax d a b c) :=
  fun d a b c => of_DABq (fun w h => by rw [decodeRaw, h]; rfl) d a b c rfl
theorem RoundTrip.vabs : ∀ d a c, Statement (.vabs d a c) :=
  fun d a c => of_DAq (fun w h => by rw [decodeRaw, h]; rfl) d a c rfl
theorem RoundTrip.vneg : ∀ d a c, Statement (.vneg d a c) :=
  fun d a c => of_DAq (fun w h => by rw [decodeRaw, h]; rfl) d a c rfl
theorem RoundTrip.vand : ∀ d a b c, Statement (.vand d a b c) :=
  fun d a b c => of_DABq (fun w h => by rw [decodeRaw, h]; rfl) d a b c rfl
theorem RoundTrip.vor : ∀ d a b c, Statement (.vor d a b c) :=
  fun d a b c => of_DABq (fun w h => by rw [decodeRaw, h]; rfl) d a b c rfl
theorem RoundTrip.vxor : ∀ d a b c, Statement (.vxor d a b c) :=
  fun d a b c => of_DABq (fun w h => by rw [decodeRaw, h]; rfl) d a b c rfl
theorem RoundTrip.vnot : ∀ d a c, Statement (.vnot d a c) :=
  fun d a c => of_DAq (fun w h => by rw [decodeRaw, h]; rfl) d a c rfl
theorem RoundTrip.vshl : ∀ d a b c, Statement (.vshl d a b c) :=
  fun d a b c => of_DABq (fun w h => by rw [decodeRaw, h]; rfl) d a b c rfl
theorem RoundTrip.vshr : ∀ d a b c, Statement (.vshr d a b c) :=
  fun d a b c => of_DABq (fun w h => by rw [decodeRaw, h]; rfl) d a b c rfl
theorem RoundTrip.vsra : ∀ d a b c, Statement (.vsra d a b c) :=
  fun d a b c => of_DABq (fun w h => by rw [decodeRaw, h]; rfl) d a b c rfl
theorem RoundTrip.vcmpeq : ∀ d a b, Statement (.vcmpeq d a b) :=
  fun d a b => of_DAB (fun w h => by rw [decodeRaw, h]; rfl) d a b rfl
theorem RoundTrip.vcmpne : ∀ d a b, Statement (.vcmpne d a b) :=
  fun d a b => of_DAB (fun w h => by rw [decodeRaw, h]; rfl) d a b rfl
theorem RoundTrip.vcmplt : ∀ d a b, Statement (.vcmplt d a b) :=
  fun d a b => of_DAB (fun w h => by rw [decodeRaw, h]; rfl) d a b rfl
theorem RoundTrip.vcmple : ∀ d a b, Statement (.vcmple d a b) :=
  fun d a b => of_DAB (fun w h => by rw [decodeRaw, h]; rfl) d a b rfl
theorem RoundTrip.vsel : ∀ d a b c, Statement (.vsel d a b c) :=
  fun d a b c => of_DABq (fun w h => by rw [decodeRaw, h]; rfl) d a b c rfl
theorem RoundTrip.vmov : ∀ d a c, Statement (.vmov d a c) :=
  fun d a c => of_DAq (fun w h => by rw [decodeRaw, h]; rfl) d a c rfl
theorem RoundTrip.vbcast : ∀ d a b c, Statement (.vbcast d a b c) :=
  fun d a b c => of_DABq (fun w h => by rw [decodeRaw, h]; rfl) d a b c rfl
theorem RoundTrip.vidx : ∀ d a b c, Statement (.vidx d a b c) :=
  fun d a b c => of_DABq (fun w h => by rw [decodeRaw, h]; rfl) d a b c rfl
theorem RoundTrip.vclamp : ∀ d a b c, Statement (.vclamp d a b c) :=
  fun d a b c => of_DABq (fun w h => by rw [decodeRaw, h]; rfl) d a b c rfl
theorem RoundTrip.vmulp : ∀ d a b c, Statement (.vmulp d a b c) :=
  fun d a b c => of_DABq (fun w h => by rw [decodeRaw, h]; rfl) d a b c rfl
theorem RoundTrip.vdotp : ∀ d a b c, Statement (.vdotp d a b c) :=
  fun d a b c => of_DABq (fun w h => by rw [decodeRaw, h]; rfl) d a b c rfl
theorem RoundTrip.vcvt : ∀ d a t c, Statement (.vcvt d a t c) :=
  fun d a t c => of_DATq (fun w h => by rw [decodeRaw, h]; rfl) d a t c rfl
theorem RoundTrip.vpack : ∀ d a b c, Statement (.vpack d a b c) :=
  fun d a b c => of_DABq (fun w h => by rw [decodeRaw, h]; rfl) d a b c rfl
theorem RoundTrip.vunpk : ∀ d a h c, Statement (.vunpk d a h c) :=
  fun d a h c => of_DAHq (fun w h => by rw [decodeRaw, h]; rfl) d a h c rfl
theorem RoundTrip.vrcp : ∀ d a c, Statement (.vrcp d a c) :=
  fun d a c => of_DAq (fun w h => by rw [decodeRaw, h]; rfl) d a c rfl
theorem RoundTrip.vrsq : ∀ d a c, Statement (.vrsq d a c) :=
  fun d a c => of_DAq (fun w h => by rw [decodeRaw, h]; rfl) d a c rfl
theorem RoundTrip.vsqrt : ∀ d a c, Statement (.vsqrt d a c) :=
  fun d a c => of_DAq (fun w h => by rw [decodeRaw, h]; rfl) d a c rfl
theorem RoundTrip.vdiv : ∀ d a b c, Statement (.vdiv d a b c) :=
  fun d a b c => of_DABq (fun w h => by rw [decodeRaw, h]; rfl) d a b c rfl
theorem RoundTrip.vexp2 : ∀ d a c, Statement (.vexp2 d a c) :=
  fun d a c => of_DAq (fun w h => by rw [decodeRaw, h]; rfl) d a c rfl
theorem RoundTrip.vlog2 : ∀ d a c, Statement (.vlog2 d a c) :=
  fun d a c => of_DAq (fun w h => by rw [decodeRaw, h]; rfl) d a c rfl
theorem RoundTrip.vsin : ∀ d a c, Statement (.vsin d a c) :=
  fun d a c => of_DAq (fun w h => by rw [decodeRaw, h]; rfl) d a c rfl
theorem RoundTrip.vcos : ∀ d a c, Statement (.vcos d a c) :=
  fun d a c => of_DAq (fun w h => by rw [decodeRaw, h]; rfl) d a c rfl
theorem RoundTrip.vtanh : ∀ d a c, Statement (.vtanh d a c) :=
  fun d a c => of_DAq (fun w h => by rw [decodeRaw, h]; rfl) d a c rfl
theorem RoundTrip.vfloor : ∀ d a c, Statement (.vfloor d a c) :=
  fun d a c => of_DAq (fun w h => by rw [decodeRaw, h]; rfl) d a c rfl
theorem RoundTrip.vfrac : ∀ d a c, Statement (.vfrac d a c) :=
  fun d a c => of_DAq (fun w h => by rw [decodeRaw, h]; rfl) d a c rfl
theorem RoundTrip.vcompact : ∀ d a c, Statement (.vcompact d a c) :=
  fun d a c => of_DAq (fun w h => by rw [decodeRaw, h]; rfl) d a c rfl
theorem RoundTrip.vexpand : ∀ d a c, Statement (.vexpand d a c) :=
  fun d a c => of_DAq (fun w h => by rw [decodeRaw, h]; rfl) d a c rfl
theorem RoundTrip.vshfl : ∀ d a b c, Statement (.vshfl d a b c) :=
  fun d a b c => of_DABq (fun w h => by rw [decodeRaw, h]; rfl) d a b c rfl
theorem RoundTrip.vrotl : ∀ d a b c, Statement (.vrotl d a b c) :=
  fun d a b c => of_DABq (fun w h => by rw [decodeRaw, h]; rfl) d a b c rfl
theorem RoundTrip.vextr : ∀ d a b, Statement (.vextr d a b) :=
  fun d a b => of_DAB (fun w h => by rw [decodeRaw, h]; rfl) d a b rfl
theorem RoundTrip.vins : ∀ d a b c, Statement (.vins d a b c) :=
  fun d a b c => of_DABq (fun w h => by rw [decodeRaw, h]; rfl) d a b c rfl
theorem RoundTrip.rcoal : ∀ d a c, Statement (.rcoal d a c) :=
  fun d a c => of_DAq (fun w h => by rw [decodeRaw, h]; rfl) d a c rfl
theorem RoundTrip.rcnt : ∀ d a, Statement (.rcnt d a) :=
  fun d a => of_DA (fun w h => by rw [decodeRaw, h]; rfl) d a rfl
theorem RoundTrip.rallot : ∀ d n, Statement (.rallot d n) :=
  fun d n => of_DN9 (fun w h => by rw [decodeRaw, h]; rfl) d n rfl
theorem RoundTrip.rpool : ∀ d a, Statement (.rpool d a) :=
  fun d a => of_DA (fun w h => by rw [decodeRaw, h]; rfl) d a rfl
theorem RoundTrip.rsave : ∀ d a b, Statement (.rsave d a b) :=
  fun d a b => of_DAB (fun w h => by rw [decodeRaw, h]; rfl) d a b rfl
theorem RoundTrip.rload : ∀ d a c, Statement (.rload d a c) :=
  fun d a c => of_DAq (fun w h => by rw [decodeRaw, h]; rfl) d a c rfl
theorem RoundTrip.vredadd : ∀ d a, Statement (.vredadd d a) :=
  fun d a => of_DA (fun w h => by rw [decodeRaw, h]; rfl) d a rfl
theorem RoundTrip.vredmin : ∀ d a, Statement (.vredmin d a) :=
  fun d a => of_DA (fun w h => by rw [decodeRaw, h]; rfl) d a rfl
theorem RoundTrip.vredmax : ∀ d a, Statement (.vredmax d a) :=
  fun d a => of_DA (fun w h => by rw [decodeRaw, h]; rfl) d a rfl
theorem RoundTrip.vredand : ∀ d a, Statement (.vredand d a) :=
  fun d a => of_DA (fun w h => by rw [decodeRaw, h]; rfl) d a rfl
theorem RoundTrip.vredor : ∀ d a, Statement (.vredor d a) :=
  fun d a => of_DA (fun w h => by rw [decodeRaw, h]; rfl) d a rfl
theorem RoundTrip.vscan : ∀ d a c, Statement (.vscan d a c) :=
  fun d a c => of_DAq (fun w h => by rw [decodeRaw, h]; rfl) d a c rfl
theorem RoundTrip.vrng : ∀ d a c, Statement (.vrng d a c) :=
  fun d a c => of_DAq (fun w h => by rw [decodeRaw, h]; rfl) d a c rfl
theorem RoundTrip.rngseed : ∀ a b, Statement (.rngseed a b) :=
  fun a b => of_AB (fun w h => by rw [decodeRaw, h]; rfl) a b rfl
theorem RoundTrip.rngget : ∀ d s, Statement (.rngget d s) :=
  fun d s => of_DA (fun w h => by rw [decodeRaw, h]; rfl) d s rfl
theorem RoundTrip.ld : ∀ d a b z, Statement (.ld d a b z) :=
  fun d a b z => of_DABQ (fun w h => by rw [decodeRaw, h]; rfl) d a b z rfl
theorem RoundTrip.st : ∀ d a b z, Statement (.st d a b z) :=
  fun d a b z => of_DABQ (fun w h => by rw [decodeRaw, h]; rfl) d a b z rfl
theorem RoundTrip.lda : ∀ d a b z, Statement (.lda d a b z) :=
  fun d a b z => of_DABQ (fun w h => by rw [decodeRaw, h]; rfl) d a b z rfl
theorem RoundTrip.stl : ∀ d a s z, Statement (.stl d a s z) :=
  fun d a s z => of_DABQ (fun w h => by rw [decodeRaw, h]; rfl) d a s z rfl
theorem RoundTrip.atadd : ∀ d a b z, Statement (.atadd d a b z) :=
  fun d a b z => of_DABq (fun w h => by rw [decodeRaw, h]; rfl) d a b z rfl
theorem RoundTrip.atmin : ∀ d a b z, Statement (.atmin d a b z) :=
  fun d a b z => of_DABq (fun w h => by rw [decodeRaw, h]; rfl) d a b z rfl
theorem RoundTrip.atmax : ∀ d a b z, Statement (.atmax d a b z) :=
  fun d a b z => of_DABq (fun w h => by rw [decodeRaw, h]; rfl) d a b z rfl
theorem RoundTrip.atminn : ∀ d a b z, Statement (.atminn d a b z) :=
  fun d a b z => of_DABq (fun w h => by rw [decodeRaw, h]; rfl) d a b z rfl
theorem RoundTrip.atmaxn : ∀ d a b z, Statement (.atmaxn d a b z) :=
  fun d a b z => of_DABq (fun w h => by rw [decodeRaw, h]; rfl) d a b z rfl
theorem RoundTrip.atand : ∀ d a b z, Statement (.atand d a b z) :=
  fun d a b z => of_DABq (fun w h => by rw [decodeRaw, h]; rfl) d a b z rfl
theorem RoundTrip.ator : ∀ d a b z, Statement (.ator d a b z) :=
  fun d a b z => of_DABq (fun w h => by rw [decodeRaw, h]; rfl) d a b z rfl
theorem RoundTrip.atxor : ∀ d a b z, Statement (.atxor d a b z) :=
  fun d a b z => of_DABq (fun w h => by rw [decodeRaw, h]; rfl) d a b z rfl
theorem RoundTrip.atxch : ∀ d a b z, Statement (.atxch d a b z) :=
  fun d a b z => of_DABq (fun w h => by rw [decodeRaw, h]; rfl) d a b z rfl
theorem RoundTrip.atcas : ∀ d a b z, Statement (.atcas d a b z) :=
  fun d a b z => of_DABq (fun w h => by rw [decodeRaw, h]; rfl) d a b z rfl
theorem RoundTrip.fence : ∀ s, Statement (.fence s) :=
  fun s => of_B (fun w h => by rw [decodeRaw, h]; rfl) s rfl
theorem RoundTrip.linv : ∀ a b, Statement (.linv a b) :=
  fun a b => of_AB (fun w h => by rw [decodeRaw, h]; rfl) a b rfl
theorem RoundTrip.vld : ∀ d a b c, Statement (.vld d a b c) :=
  fun d a b c => of_DABq (fun w h => by rw [decodeRaw, h]; rfl) d a b c rfl
theorem RoundTrip.vlds : ∀ d a b c, Statement (.vlds d a b c) :=
  fun d a b c => of_DABq (fun w h => by rw [decodeRaw, h]; rfl) d a b c rfl
theorem RoundTrip.vst : ∀ d a b, Statement (.vst d a b) :=
  fun d a b => of_DAB (fun w h => by rw [decodeRaw, h]; rfl) d a b rfl
theorem RoundTrip.vsts : ∀ d a b, Statement (.vsts d a b) :=
  fun d a b => of_DAB (fun w h => by rw [decodeRaw, h]; rfl) d a b rfl
theorem RoundTrip.vldb : ∀ d a b c, Statement (.vldb d a b c) :=
  fun d a b c => of_DABq (fun w h => by rw [decodeRaw, h]; rfl) d a b c rfl
theorem RoundTrip.preq : ∀ d a b, Statement (.preq d a b) :=
  fun d a b => of_DAB (fun w h => by rw [decodeRaw, h]; rfl) d a b rfl
theorem RoundTrip.sld : ∀ d a b, Statement (.sld d a b) :=
  fun d a b => of_DAB (fun w h => by rw [decodeRaw, h]; rfl) d a b rfl
theorem RoundTrip.sst : ∀ d a b, Statement (.sst d a b) :=
  fun d a b => of_DAB (fun w h => by rw [decodeRaw, h]; rfl) d a b rfl
theorem RoundTrip.sgath : ∀ d a b c, Statement (.sgath d a b c) :=
  fun d a b c => of_DABq (fun w h => by rw [decodeRaw, h]; rfl) d a b c rfl
theorem RoundTrip.sscat : ∀ d a b, Statement (.sscat d a b) :=
  fun d a b => of_DAB (fun w h => by rw [decodeRaw, h]; rfl) d a b rfl
theorem RoundTrip.sldt : ∀ d a b c, Statement (.sldt d a b c) :=
  fun d a b c => of_DABq (fun w h => by rw [decodeRaw, h]; rfl) d a b c rfl
theorem RoundTrip.sldc : ∀ d a c, Statement (.sldc d a c) :=
  fun d a c => of_DAq (fun w h => by rw [decodeRaw, h]; rfl) d a c rfl
theorem RoundTrip.sstc : ∀ d a b, Statement (.sstc d a b) :=
  fun d a b => of_DAB (fun w h => by rw [decodeRaw, h]; rfl) d a b rfl
theorem RoundTrip.clds : ∀ d a b, Statement (.clds d a b) :=
  fun d a b => of_DAB (fun w h => by rw [decodeRaw, h]; rfl) d a b rfl
theorem RoundTrip.csts : ∀ d a b, Statement (.csts d a b) :=
  fun d a b => of_DAB (fun w h => by rw [decodeRaw, h]; rfl) d a b rfl
theorem RoundTrip.upd : ∀ d a b, Statement (.upd d a b) :=
  fun d a b => of_DAB (fun w h => by rw [decodeRaw, h]; rfl) d a b rfl
theorem RoundTrip.upds : ∀ d a, Statement (.upds d a) :=
  fun d a => of_DA (fun w h => by rw [decodeRaw, h]; rfl) d a rfl
theorem RoundTrip.uflush : ∀ a b, Statement (.uflush a b) :=
  fun a b => of_AB (fun w h => by rw [decodeRaw, h]; rfl) a b rfl
theorem RoundTrip.tdec : ∀ a, Statement (.tdec a) :=
  fun a => of_A (fun w h => by rw [decodeRaw, h]; rfl) a rfl
theorem RoundTrip.tinc : ∀ a, Statement (.tinc a) :=
  fun a => of_A (fun w h => by rw [decodeRaw, h]; rfl) a rfl
theorem RoundTrip.tspawn : ∀ a, Statement (.tspawn a) :=
  fun a => of_A (fun w h => by rw [decodeRaw, h]; rfl) a rfl
theorem RoundTrip.cset : ∀ a b, Statement (.cset a b) :=
  fun a b => of_AB (fun w h => by rw [decodeRaw, h]; rfl) a b rfl
theorem RoundTrip.cadd : ∀ a b, Statement (.cadd a b) :=
  fun a b => of_AB (fun w h => by rw [decodeRaw, h]; rfl) a b rfl
theorem RoundTrip.cget : ∀ d a, Statement (.cget d a) :=
  fun d a => of_DA (fun w h => by rw [decodeRaw, h]; rfl) d a rfl
theorem RoundTrip.cbar : ∀ d a b, Statement (.cbar d a b) :=
  fun d a b => of_DAB (fun w h => by rw [decodeRaw, h]; rfl) d a b rfl
theorem RoundTrip.dsmop : ∀ d a b, Statement (.dsmop d a b) :=
  fun d a b => of_DAB (fun w h => by rw [decodeRaw, h]; rfl) d a b rfl
theorem RoundTrip.dsmred : ∀ d a b, Statement (.dsmred d a b) :=
  fun d a b => of_DAB (fun w h => by rw [decodeRaw, h]; rfl) d a b rfl
theorem RoundTrip.cpy : ∀ d a b, Statement (.cpy d a b) :=
  fun d a b => of_DAB (fun w h => by rw [decodeRaw, h]; rfl) d a b rfl
theorem RoundTrip.cpyg : ∀ d a b, Statement (.cpyg d a b) :=
  fun d a b => of_DAB (fun w h => by rw [decodeRaw, h]; rfl) d a b rfl
theorem RoundTrip.cpyx : ∀ d a b, Statement (.cpyx d a b) :=
  fun d a b => of_DAB (fun w h => by rw [decodeRaw, h]; rfl) d a b rfl
theorem RoundTrip.cpyq : ∀ d a b, Statement (.cpyq d a b) :=
  fun d a b => of_DAB (fun w h => by rw [decodeRaw, h]; rfl) d a b rfl
theorem RoundTrip.cpyt : ∀ d a b, Statement (.cpyt d a b) :=
  fun d a b => of_DAB (fun w h => by rw [decodeRaw, h]; rfl) d a b rfl
theorem RoundTrip.discard : ∀ d a b, Statement (.discard d a b) :=
  fun d a b => of_DAB (fun w h => by rw [decodeRaw, h]; rfl) d a b rfl
theorem RoundTrip.prefetch : ∀ d a b, Statement (.prefetch d a b) :=
  fun d a b => of_DAB (fun w h => by rw [decodeRaw, h]; rfl) d a b rfl
theorem RoundTrip.cpya : ∀ d a b, Statement (.cpya d a b) :=
  fun d a b => of_DAB (fun w h => by rw [decodeRaw, h]; rfl) d a b rfl
theorem RoundTrip.cwalk : ∀ d a b, Statement (.cwalk d a b) :=
  fun d a b => of_DAB (fun w h => by rw [decodeRaw, h]; rfl) d a b rfl
theorem RoundTrip.mcfg : ∀ d a b, Statement (.mcfg d a b) :=
  fun d a b => of_DAB (fun w h => by rw [decodeRaw, h]; rfl) d a b rfl
theorem RoundTrip.mzero : ∀ d a, Statement (.mzero d a) :=
  fun d a => of_DA (fun w h => by rw [decodeRaw, h]; rfl) d a rfl
theorem RoundTrip.mma : ∀ d a, Statement (.mma d a) :=
  fun d a => of_DA (fun w h => by rw [decodeRaw, h]; rfl) d a rfl
theorem RoundTrip.mmag : ∀ d a b, Statement (.mmag d a b) :=
  fun d a b => of_DAB (fun w h => by rw [decodeRaw, h]; rfl) d a b rfl
theorem RoundTrip.mmas : ∀ d a b, Statement (.mmas d a b) :=
  fun d a b => of_DAB (fun w h => by rw [decodeRaw, h]; rfl) d a b rfl
theorem RoundTrip.mmad : ∀ d a, Statement (.mmad d a) :=
  fun d a => of_DA (fun w h => by rw [decodeRaw, h]; rfl) d a rfl
theorem RoundTrip.mlda : ∀ d a, Statement (.mlda d a) :=
  fun d a => of_DA (fun w h => by rw [decodeRaw, h]; rfl) d a rfl
theorem RoundTrip.msta : ∀ d a, Statement (.msta d a) :=
  fun d a => of_DA (fun w h => by rw [decodeRaw, h]; rfl) d a rfl
theorem RoundTrip.mtov : ∀ d a b c, Statement (.mtov d a b c) :=
  fun d a b c => of_DABq (fun w h => by rw [decodeRaw, h]; rfl) d a b c rfl
theorem RoundTrip.malloc : ∀ d a, Statement (.malloc d a) :=
  fun d a => of_DA (fun w h => by rw [decodeRaw, h]; rfl) d a rfl
theorem RoundTrip.xhad : ∀ d a b c, Statement (.xhad d a b c) :=
  fun d a b c => of_DABq (fun w h => by rw [decodeRaw, h]; rfl) d a b c rfl
theorem RoundTrip.xqnt : ∀ d a b c, Statement (.xqnt d a b c) :=
  fun d a b c => of_DABq (fun w h => by rw [decodeRaw, h]; rfl) d a b c rfl
theorem RoundTrip.xact : ∀ d a c, Statement (.xact d a c) :=
  fun d a c => of_DAq (fun w h => by rw [decodeRaw, h]; rfl) d a c rfl
theorem RoundTrip.xtld : ∀ a k, Statement (.xtld a k) :=
  fun a k => of_AB (fun w h => by rw [decodeRaw, h]; rfl) a k rfl
theorem RoundTrip.xtbind : ∀ k, Statement (.xtbind k) :=
  fun k => of_B (fun w h => by rw [decodeRaw, h]; rfl) k rfl
theorem RoundTrip.xtopk : ∀ d a b c, Statement (.xtopk d a b c) :=
  fun d a b c => of_DABq (fun w h => by rw [decodeRaw, h]; rfl) d a b c rfl
theorem RoundTrip.xtrn : ∀ d a b c, Statement (.xtrn d a b c) :=
  fun d a b c => of_DABq (fun w h => by rw [decodeRaw, h]; rfl) d a b c rfl
theorem RoundTrip.xsort : ∀ d a b c, Statement (.xsort d a b c) :=
  fun d a b c => of_DABq (fun w h => by rw [decodeRaw, h]; rfl) d a b c rfl
theorem RoundTrip.trace : ∀ d a, Statement (.trace d a) :=
  fun d a => of_DA (fun w h => by rw [decodeRaw, h]; rfl) d a rfl
theorem RoundTrip.spawn : ∀ d a b, Statement (.spawn d a b) :=
  fun d a b => of_DAB (fun w h => by rw [decodeRaw, h]; rfl) d a b rfl
theorem RoundTrip.retire : ∀ d a, Statement (.retire d a) :=
  fun d a => of_DA (fun w h => by rw [decodeRaw, h]; rfl) d a rfl
theorem RoundTrip.defer : ∀ d a, Statement (.defer d a) :=
  fun d a => of_DA (fun w h => by rw [decodeRaw, h]; rfl) d a rfl
theorem RoundTrip.epend : Statement .epend := of_N (fun w h => by rw [decodeRaw, h]; rfl) rfl
theorem RoundTrip.poolq : ∀ d k, Statement (.poolq d k) :=
  fun d k => of_DA (fun w h => by rw [decodeRaw, h]; rfl) d k rfl
theorem RoundTrip.csrr : ∀ d i, Statement (.csrr d i) :=
  fun d i => of_DI16 (fun w h => by rw [decodeRaw, h]; rfl) d i rfl
theorem RoundTrip.csrw : ∀ d i, Statement (.csrw d i) :=
  fun d i => of_DI16 (fun w h => by rw [decodeRaw, h]; rfl) d i rfl
theorem RoundTrip.eret : Statement .eret := of_N (fun w h => by rw [decodeRaw, h]; rfl) rfl
theorem RoundTrip.tlbinv : ∀ a b, Statement (.tlbinv a b) :=
  fun a b => of_AB (fun w h => by rw [decodeRaw, h]; rfl) a b rfl
theorem RoundTrip.halt : ∀ a, Statement (.halt a) :=
  fun a => of_A (fun w h => by rw [decodeRaw, h]; rfl) a rfl
theorem RoundTrip.monr : ∀ d a b, Statement (.monr d a b) :=
  fun d a b => of_DAB (fun w h => by rw [decodeRaw, h]; rfl) d a b rfl
theorem RoundTrip.mark : ∀ i, Statement (.mark i) :=
  fun i => of_I16 (fun w h => by rw [decodeRaw, h]; rfl) i rfl
theorem RoundTrip.bkpt : ∀ i, Statement (.bkpt i) :=
  fun i => of_I16 (fun w h => by rw [decodeRaw, h]; rfl) i rfl
theorem RoundTrip.recordIntervalClose : Statement .recordIntervalClose := of_none rfl
theorem RoundTrip.queueDoorbell : Statement .queueDoorbell := of_none rfl
theorem RoundTrip.completionDoorbell : Statement .completionDoorbell := of_none rfl
theorem RoundTrip.registerWrite : Statement .registerWrite := of_none rfl
theorem RoundTrip.ctxinstall : Statement .ctxinstall := of_none rfl
theorem RoundTrip.ctxreset : Statement .ctxreset := of_none rfl
theorem RoundTrip.ctxremove : Statement .ctxremove := of_none rfl
theorem RoundTrip.csrread : Statement .csrread := of_none rfl
theorem RoundTrip.csrwrite : Statement .csrwrite := of_none rfl
theorem RoundTrip.errring : Statement .errring := of_none rfl
theorem RoundTrip.peerto : Statement .peerto := of_none rfl
theorem RoundTrip.attest : Statement .attest := of_none rfl
theorem RoundTrip.cert : Statement .cert := of_none rfl
theorem RoundTrip.fwload : Statement .fwload := of_none rfl
theorem RoundTrip.monread : Statement .monread := of_none rfl
theorem RoundTrip.setthr : Statement .setthr := of_none rfl
theorem RoundTrip.replay : Statement .replay := of_none rfl
theorem RoundTrip.slicecfgWrite : Statement .slicecfgWrite := of_none rfl
theorem RoundTrip.slicecfgApply : Statement .slicecfgApply := of_none rfl
theorem RoundTrip.stitchWrite : Statement .stitchWrite := of_none rfl
theorem RoundTrip.stitchApply : Statement .stitchApply := of_none rfl
theorem RoundTrip.soruscfgWrite : Statement .soruscfgWrite := of_none rfl
theorem RoundTrip.sceneWrite : Statement .sceneWrite := of_none rfl
theorem RoundTrip.poolrsvWrite : Statement .poolrsvWrite := of_none rfl
theorem RoundTrip.migrationStart : Statement .migrationStart := of_none rfl
theorem RoundTrip.migrationCopy : Statement .migrationCopy := of_none rfl
theorem RoundTrip.migrationFinish : Statement .migrationFinish := of_none rfl
theorem RoundTrip.powerOn : Statement .powerOn := of_none rfl
theorem RoundTrip.d3hotEntry : Statement .d3hotEntry := of_none rfl
theorem RoundTrip.coreClockGate : Statement .coreClockGate := of_none rfl
theorem RoundTrip.corePowerGate : Statement .corePowerGate := of_none rfl
theorem RoundTrip.coreWake : Statement .coreWake := of_none rfl
theorem RoundTrip.taskReady : Statement .taskReady := of_none rfl
theorem RoundTrip.depcntUpdate : Statement .depcntUpdate := of_none rfl
theorem RoundTrip.queueConsume : Statement .queueConsume := of_none rfl
theorem RoundTrip.queueIdleRecheck : Statement .queueIdleRecheck := of_none rfl
theorem RoundTrip.placementAttempt : Statement .placementAttempt := of_none rfl
theorem RoundTrip.teamExited : Statement .teamExited := of_none rfl
theorem RoundTrip.successorDecrement : Statement .successorDecrement := of_none rfl
theorem RoundTrip.preemptForCandidate : Statement .preemptForCandidate := of_none rfl
theorem RoundTrip.teamPreempted : Statement .teamPreempted := of_none rfl
theorem RoundTrip.donationStart : Statement .donationStart := of_none rfl
theorem RoundTrip.donationEnd : Statement .donationEnd := of_none rfl
theorem RoundTrip.stealRequest : Statement .stealRequest := of_none rfl
theorem RoundTrip.stealClaim : Statement .stealClaim := of_none rfl
theorem RoundTrip.stealReply : Statement .stealReply := of_none rfl
theorem RoundTrip.derateSample : Statement .derateSample := of_none rfl
theorem RoundTrip.thermalTrip : Statement .thermalTrip := of_none rfl
theorem RoundTrip.teamWake : Statement .teamWake := of_none rfl
theorem RoundTrip.clockLoop : Statement .clockLoop := of_none rfl
theorem RoundTrip.gddr7Equalisation : Statement .gddr7Equalisation := of_none rfl
theorem RoundTrip.waveAgeLoop : Statement .waveAgeLoop := of_none rfl
theorem RoundTrip.prefetchThresholdLoop : Statement .prefetchThresholdLoop := of_none rfl
theorem RoundTrip.monitorSample : Statement .monitorSample := of_none rfl
theorem RoundTrip.homeRead : Statement .homeRead := of_none rfl
theorem RoundTrip.loadReply : Statement .loadReply := of_none rfl
theorem RoundTrip.homeStore : Statement .homeStore := of_none rfl
theorem RoundTrip.storeAck : Statement .storeAck := of_none rfl
theorem RoundTrip.homeAtomic : Statement .homeAtomic := of_none rfl
theorem RoundTrip.writeLeaseGrant : Statement .writeLeaseGrant := of_none rfl
theorem RoundTrip.leaseRecall : Statement .leaseRecall := of_none rfl
theorem RoundTrip.writeLeaseExpiry : Statement .writeLeaseExpiry := of_none rfl
theorem RoundTrip.pairInject : Statement .pairInject := of_none rfl
theorem RoundTrip.homeAcceptPair : Statement .homeAcceptPair := of_none rfl
theorem RoundTrip.binApply : Statement .binApply := of_none rfl
theorem RoundTrip.dsmElementOp : Statement .dsmElementOp := of_none rfl
theorem RoundTrip.cbarArrival : Statement .cbarArrival := of_none rfl
theorem RoundTrip.hostRead : Statement .hostRead := of_none rfl
theorem RoundTrip.hostWrite : Statement .hostWrite := of_none rfl
theorem RoundTrip.fabricWriteArrival : Statement .fabricWriteArrival := of_none rfl
theorem RoundTrip.shootdown : Statement .shootdown := of_none rfl
theorem RoundTrip.multicastDeliver : Statement .multicastDeliver := of_none rfl
theorem RoundTrip.copyStart : Statement .copyStart := of_none rfl
theorem RoundTrip.copyComplete : Statement .copyComplete := of_none rfl
theorem RoundTrip.matrixOpStart : Statement .matrixOpStart := of_none rfl
theorem RoundTrip.matrixStep : Statement .matrixStep := of_none rfl
theorem RoundTrip.matrixComplete : Statement .matrixComplete := of_none rfl
theorem RoundTrip.transformStart : Statement .transformStart := of_none rfl
theorem RoundTrip.transformComplete : Statement .transformComplete := of_none rfl
theorem RoundTrip.noiseWord : Statement .noiseWord := of_none rfl
theorem RoundTrip.poolGrant : Statement .poolGrant := of_none rfl
theorem RoundTrip.rayEntersBin : Statement .rayEntersBin := of_none rfl
theorem RoundTrip.traversalBinAge : Statement .traversalBinAge := of_none rfl
theorem RoundTrip.shaderBinAge : Statement .shaderBinAge := of_none rfl
theorem RoundTrip.traversalStep : Statement .traversalStep := of_none rfl
theorem RoundTrip.treeletLineArrival : Statement .treeletLineArrival := of_none rfl
theorem RoundTrip.traversalResult : Statement .traversalResult := of_none rfl
theorem RoundTrip.doneDecrement : Statement .doneDecrement := of_none rfl
theorem RoundTrip.poolPressure : Statement .poolPressure := of_none rfl
theorem RoundTrip.inboundPeerAccess : Statement .inboundPeerAccess := of_none rfl
theorem RoundTrip.peerReply : Statement .peerReply := of_none rfl
theorem RoundTrip.peerTimeout : Statement .peerTimeout := of_none rfl
theorem RoundTrip.reservationTimeout : Statement .reservationTimeout := of_none rfl
theorem RoundTrip.meshLinkFail : Statement .meshLinkFail := of_none rfl
theorem RoundTrip.timeCheck : Statement .timeCheck := of_none rfl
theorem RoundTrip.clockCheck : Statement .clockCheck := of_none rfl
theorem RoundTrip.pairLinkRestore : Statement .pairLinkRestore := of_none rfl
theorem RoundTrip.pairLinkRestoreTimeout : Statement .pairLinkRestoreTimeout := of_none rfl
theorem RoundTrip.ptpSync : Statement .ptpSync := of_none rfl
theorem RoundTrip.scaleoutPortDown : Statement .scaleoutPortDown := of_none rfl
theorem RoundTrip.replayDivergence : Statement .replayDivergence := of_none rfl
theorem RoundTrip.instructionFetchFault : Statement .instructionFetchFault := of_none rfl
theorem RoundTrip.deviceReset : Statement .deviceReset := of_none rfl
theorem RoundTrip.d3hotExit : Statement .d3hotExit := of_none rfl
theorem RoundTrip.serdesAdaptation : Statement .serdesAdaptation := of_none rfl
theorem RoundTrip.sharedCacheWriteBack : Statement .sharedCacheWriteBack := of_none rfl
theorem RoundTrip.cxlLinkTraining : Statement .cxlLinkTraining := of_none rfl

/-! ### Literals and illegal words -/

theorem RoundTrip.ldlit : ∀ d lit, Statement (.ldlit d lit) := fun d lit =>
  of_raw_literal (w := encD 45#9 d) rfl <| by
    rw [decodeRaw, opOf_encD]
    exact dec_encD 45#9 d fun x => .ldlit x lit

theorem RoundTrip.ldx : ∀ d a z lit, Statement (.ldx d a z lit) := fun d a z lit =>
  of_raw_literal (w := encDAQ 257#9 d a z) rfl <| by
    rw [decodeRaw, opOf_encDAQ]
    exact dec_encDAQ 257#9 d a z fun x y q => .ldx x y q lit

theorem decodeRow0_illegal {col : Nat} {w : W32} (h : 31 ≤ col) :
    decodeRow0 col w = .ok (.illegalInstr w) := by
  unfold decodeRow0
  split <;> first | omega | rfl

theorem decodeRow1_illegal {col : Nat} {w : W32} {lit : W32} (h : 16 ≤ col) :
    decodeRow1 col w lit = .ok (.illegalInstr w) := by
  unfold decodeRow1
  split <;> first | omega | rfl

theorem decodeRow2_illegal {col : Nat} {w : W32} (h : 16 ≤ col) :
    decodeRow2 col w = .ok (.illegalInstr w) := by
  unfold decodeRow2
  split <;> first | omega | rfl

theorem decodeRow3_illegal {col : Nat} {w : W32} (h : 17 ≤ col) :
    decodeRow3 col w = .ok (.illegalInstr w) := by
  unfold decodeRow3
  split <;> first | omega | rfl

theorem decodeRow4_illegal {col : Nat} {w : W32} (h : 18 ≤ col) :
    decodeRow4 col w = .ok (.illegalInstr w) := by
  unfold decodeRow4
  split <;> first | omega | rfl

theorem decodeRow5_illegal {col : Nat} {w : W32} (h : 30 ≤ col) :
    decodeRow5 col w = .ok (.illegalInstr w) := by
  unfold decodeRow5
  split <;> first | omega | rfl

theorem decodeRow6_illegal {col : Nat} {w : W32} (h : 17 ≤ col) :
    decodeRow6 col w = .ok (.illegalInstr w) := by
  unfold decodeRow6
  split <;> first | omega | rfl

theorem decodeRow7_illegal {col : Nat} {w : W32} (h : 15 ≤ col) :
    decodeRow7 col w = .ok (.illegalInstr w) := by
  unfold decodeRow7
  split <;> first | omega | rfl

theorem decodeRow8_illegal {col : Nat} {w : W32} {lit : W32} (h : 17 ≤ col) :
    decodeRow8 col w lit = .ok (.illegalInstr w) := by
  unfold decodeRow8
  split <;> first | omega | rfl

theorem decodeRow9_illegal {col : Nat} {w : W32} (h : 15 ≤ col) :
    decodeRow9 col w = .ok (.illegalInstr w) := by
  unfold decodeRow9
  split <;> first | omega | rfl

theorem decodeRowA_illegal {col : Nat} {w : W32} (h : 12 ≤ col) :
    decodeRowA col w = .ok (.illegalInstr w) := by
  unfold decodeRowA
  split <;> first | omega | rfl

theorem decodeRowB_illegal {col : Nat} {w : W32} (h : 9 ≤ col) :
    decodeRowB col w = .ok (.illegalInstr w) := by
  unfold decodeRowB
  split <;> first | omega | rfl

theorem decodeRowC_illegal {col : Nat} {w : W32} (h : 10 ≤ col) :
    decodeRowC col w = .ok (.illegalInstr w) := by
  unfold decodeRowC
  split <;> first | omega | rfl

theorem decodeRowD_illegal {col : Nat} {w : W32} (h : 8 ≤ col) :
    decodeRowD col w = .ok (.illegalInstr w) := by
  unfold decodeRowD
  split <;> first | omega | rfl

theorem decodeRowE_illegal {col : Nat} {w : W32} (h : 6 ≤ col) :
    decodeRowE col w = .ok (.illegalInstr w) := by
  unfold decodeRowE
  split <;> first | omega | rfl

theorem decodeRowF_illegal {col : Nat} {w : W32} (h : 8 ≤ col) :
    decodeRowF col w = .ok (.illegalInstr w) := by
  unfold decodeRowF
  split <;> first | omega | rfl

theorem decodeRaw_illegal {w lit : W32} (h : illegalColumn w = true) :
    decodeRaw w lit = .ok (.illegalInstr w) := by
  have hr : (opOf w).extractLsb' 5 4 = w.extractLsb' 28 4 := by
    apply BitVec.eq_of_toNat_eq
    simp [opOf, fieldAt, BitVec.extractLsb'_toNat, Nat.shiftRight_eq_div_pow]
    omega
  have hc : (opOf w).extractLsb' 0 5 = w.extractLsb' 23 5 := by
    apply BitVec.eq_of_toNat_eq
    simp [opOf, fieldAt, BitVec.extractLsb'_toNat, Nat.shiftRight_eq_div_pow]
  have hw := decide_eq_true_eq.mp h
  simp only [decodeRaw, hr, hc]
  have hlt : (w.extractLsb' 28 4).toNat < 16 := (w.extractLsb' 28 4).isLt
  generalize (w.extractLsb' 28 4).toNat = row at *
  generalize (w.extractLsb' 23 5).toNat = col at *
  interval_cases row
  · exact decodeRow0_illegal hw
  · exact decodeRow1_illegal hw
  · exact decodeRow2_illegal hw
  · exact decodeRow3_illegal hw
  · exact decodeRow4_illegal hw
  · exact decodeRow5_illegal hw
  · exact decodeRow6_illegal hw
  · exact decodeRow7_illegal hw
  · exact decodeRow8_illegal hw
  · exact decodeRow9_illegal hw
  · exact decodeRowA_illegal hw
  · exact decodeRowB_illegal hw
  · exact decodeRowC_illegal hw
  · exact decodeRowD_illegal hw
  · exact decodeRowE_illegal hw
  · exact decodeRowF_illegal hw

theorem RoundTrip.illegalInstr : ∀ w, Statement (.illegalInstr w) := by
  intro w v lit hv hw
  have hv : some (w, none) = some (v, lit) := hv
  cases hv
  refine decodeWord_of_raw (decodeRaw_illegal ?_) hw
  have hr : (Instr.illegalInstr w).codeReserved = !illegalColumn w := rfl
  cases hc : illegalColumn w
  · have : (Instr.illegalInstr w).illegalCause = some 3 := by rw [Instr.illegalCause, hr, hc]; rfl
    simp [Instr.wellFormed, this] at hw
  · rfl

end Sys2Proof.Laws
end

