-- ==== Sys2Proof/Tests/Slice0.lean ====
section
/-! SUPPORT. Tests: words written out from the spec's encodings, terms that the well-formedness checks refuse,
single steps, and for every statement states and operands that meet the hypotheses of its clauses. -/

namespace Sys2Proof.Machine

-- One test after another: checked all at once they take more memory than a check may use.
set_option Elab.async false

/-! ### Decoding (Tables 4.1 to 4.5) -/

/-- Every word, given with its number of bits, decodes to the instruction beside it, and the encoder writes it
back. -/
def reads (l : List (Nat × Nat × Instr)) : Bool :=
  l.all fun p => decodeTableWord p.1 p.2.1 == some p.2.2

/-- Row 0x0 of Table 4.5, one word of each instruction, field by field. -/
theorem test_decode_row0 : reads
    [(32, 0b0000_00000_0100101_0010110_0111011_0_1, .add 37#7 22#7 59#7 1#1),
     (32, 0b0000_00001_0100101_0010110_0111011_0_1, .sub 37#7 22#7 59#7 1#1),
     (32, 0b0000_00010_0100101_0010110_0111011_0_1, .mul 37#7 22#7 59#7 1#1),
     (32, 0b0000_00011_0100101_0010110_0111011_0_1, .mulh 37#7 22#7 59#7 1#1),
     (32, 0b0000_00100_0100101_0010110_0111011_0_1, .mulhn 37#7 22#7 59#7 1#1),
     (32, 0b0000_00101_0100101_0010110_0111011_0_1, .div 37#7 22#7 59#7 1#1),
     (32, 0b0000_00110_0100101_0010110_0111011_0_1, .divn 37#7 22#7 59#7 1#1),
     (32, 0b0000_00111_0100101_0010110_0111011_0_1, .rem 37#7 22#7 59#7 1#1),
     (32, 0b0000_01000_0100101_0010110_0111011_0_1, .remn 37#7 22#7 59#7 1#1),
     (32, 0b0000_01001_0100101_0010110_0111011_0_1, .and 37#7 22#7 59#7 1#1),
     (32, 0b0000_01010_0100101_0010110_0111011_0_1, .or 37#7 22#7 59#7 1#1),
     (32, 0b0000_01011_0100101_0010110_0111011_0_1, .xor 37#7 22#7 59#7 1#1),
     (32, 0b0000_01100_0100101_0010110_0111011_0_1, .andn 37#7 22#7 59#7 1#1),
     (32, 0b0000_01101_0100101_0010110_0111011_0_1, .shl 37#7 22#7 59#7 1#1),
     (32, 0b0000_01110_0100101_0010110_0111011_0_1, .shr 37#7 22#7 59#7 1#1),
     (32, 0b0000_01111_0100101_0010110_0111011_0_1, .sra 37#7 22#7 59#7 1#1),
     (32, 0b0000_10000_0100101_0010110_0111011_0_1, .rotl 37#7 22#7 59#7 1#1),
     (32, 0b0000_10001_0100101_0010110_0111011_0_1, .min 37#7 22#7 59#7 1#1),
     (32, 0b0000_10010_0100101_0010110_0111011_0_1, .max 37#7 22#7 59#7 1#1),
     (32, 0b0000_10011_0100101_0010110_0111011_0_1, .minn 37#7 22#7 59#7 1#1),
     (32, 0b0000_10100_0100101_0010110_0111011_0_1, .maxn 37#7 22#7 59#7 1#1),
     (32, 0b0000_10101_0000000_0010110_0111011_0_1, .cmp 22#7 59#7 1#1),
     (32, 0b0000_10110_0000000_0010110_0111011_0_1, .cmpn 22#7 59#7 1#1),
     (32, 0b0000_10111_0100101_0010110_0111011_0_1, .sel 37#7 22#7 59#7 1#1),
     (32, 0b0000_11000_0100101_0010110_00000000_1, .clz 37#7 22#7 1#1),
     (32, 0b0000_11001_0100101_0010110_00000000_1, .ctz 37#7 22#7 1#1),
     (32, 0b0000_11010_0100101_0010110_00000000_1, .popc 37#7 22#7 1#1),
     (32, 0b0000_11011_0100101_0010110_00000000_1, .brev 37#7 22#7 1#1),
     (32, 0b0000_11100_0100101_0010110_0111011_0_1, .bfx 37#7 22#7 59#7 1#1),
     (32, 0b0000_11101_0100101_0010110_0111011_0_1, .bfi 37#7 22#7 59#7 1#1),
     (32, 0b0000_11110_0100101_0010110_00000000_1, .mov 37#7 22#7 1#1)] = true := by decide

/-- Row 0x1 of Table 4.5, one word of each instruction, field by field. -/
theorem test_decode_row1 : reads
    [(32, 0b0001_00000_0100101_0010110_101100110, .addi 37#7 22#7 358#9),
     (32, 0b0001_00001_0100101_0010110_101100110, .andi 37#7 22#7 358#9),
     (32, 0b0001_00010_0100101_0010110_101100110, .ori 37#7 22#7 358#9),
     (32, 0b0001_00011_0100101_0010110_101100110, .xori 37#7 22#7 358#9),
     (32, 0b0001_00100_0100101_0010110_000_100110, .shli 37#7 22#7 38#6),
     (32, 0b0001_00101_0100101_0010110_000_100110, .shri 37#7 22#7 38#6),
     (32, 0b0001_00110_0100101_0010110_000_100110, .srai 37#7 22#7 38#6),
     (32, 0b0001_00111_0000000_0010110_101100110, .cmpi 22#7 358#9),
     (32, 0b0001_01000_0000000_0010110_101100110, .cmpni 22#7 358#9),
     (32, 0b0001_01001_0100101_1010011000110101, .movi 37#7 42549#16),
     (32, 0b0001_01010_0100101_1010011000110101, .movhi 37#7 42549#16),
     (32, 0b0001_01011_0100101_1010011000110101, .movxi 37#7 42549#16),
     (32, 0b0001_01100_0100101_1010011000110101, .movti 37#7 42549#16),
     (64, 0x40490FDB * 2 ^ 32 + 0b0001_01101_0100101_0000000000000000, .ldlit 37#7 0x40490FDB#32),
     (32, 0b0001_01110_0100101_0010110_0111011_10, .lea 37#7 22#7 59#7 2#2),
     (32, 0b0001_01111_0100101_0001001_000000000, .gets 37#7 9#7)] = true := by decide

/-- Row 0x2 of Table 4.5, one word of each instruction, field by field. -/
theorem test_decode_row2 : reads
    [(32, 0b0010_00000_0100101_0010110_0111011_0_1, .fadd 37#7 22#7 59#7 1#1),
     (32, 0b0010_00001_0100101_0010110_0111011_0_1, .fsub 37#7 22#7 59#7 1#1),
     (32, 0b0010_00010_0100101_0010110_0111011_0_1, .fmul 37#7 22#7 59#7 1#1),
     (32, 0b0010_00011_0100101_0010110_0111011_0_1, .ffma 37#7 22#7 59#7 1#1),
     (32, 0b0010_00100_0100101_0010110_0111011_0_1, .fdiv 37#7 22#7 59#7 1#1),
     (32, 0b0010_00101_0100101_0010110_00000000_1, .fsqrt 37#7 22#7 1#1),
     (32, 0b0010_00110_0100101_0010110_0111011_0_1, .fmin 37#7 22#7 59#7 1#1),
     (32, 0b0010_00111_0100101_0010110_0111011_0_1, .fmax 37#7 22#7 59#7 1#1),
     (32, 0b0010_01000_0100101_0010110_00000000_1, .fabs 37#7 22#7 1#1),
     (32, 0b0010_01001_0100101_0010110_00000000_1, .fneg 37#7 22#7 1#1),
     (32, 0b0010_01010_0000000_0010110_0111011_0_1, .fcmp 22#7 59#7 1#1),
     (32, 0b0010_01011_0100101_0010110_00000000_1, .fcvt 37#7 22#7 1#1),
     (32, 0b0010_01100_0100101_0010110_00000000_1, .ftoi 37#7 22#7 1#1),
     (32, 0b0010_01101_0100101_0010110_00000000_1, .itof 37#7 22#7 1#1),
     (32, 0b0010_01110_0100101_0010110_00000000_1, .fclass 37#7 22#7 1#1),
     (32, 0b0010_01111_0100101_0010110_00000000_1, .frnd 37#7 22#7 1#1)] = true := by decide

/-- Row 0x3 of Table 4.5, one word of each instruction, field by field. -/
theorem test_decode_row3 : reads
    [(32, 0b0011_00000_0000_1010011000110101011, .br 340395#19),
     (32, 0b0011_00001_1001_1010011000110101011, .bcc 9#4 340395#19),
     (32, 0b0011_00010_1001_1010011000110101011, .bmz 9#4 340395#19),
     (32, 0b0011_00011_1001_1010011000110101011, .bmnz 9#4 340395#19),
     (32, 0b0011_00100_0000_1010011000110101011, .call 340395#19),
     (32, 0b0011_00101_0100101_0010110_000000000, .callr 37#7 22#7),
     (32, 0b0011_00110_0000000_0010110_000000000, .ret 22#7),
     (32, 0b0011_00111_0000000_0010110_000000000, .jmpr 22#7),
     (32, 0b0011_01000_0010110_10010110_10_000000, .loop 22#7 150#8 2#2),
     (32, 0b0011_01001_0000110_10010110_10_000000, .loopi 6#7 150#8 2#2),
     (32, 0b0011_01010_0000010_0000000000000000, .lbrk 2#7),
     (32, 0b0011_01011_00000000000000000000000, .yield),
     (32, 0b0011_01100_0000000_0010110_0111011_00, .waitc 22#7 59#7),
     (32, 0b0011_01101_0000000_0010110_0111011_00, .watch 22#7 59#7),
     (32, 0b0011_01110_00000000000000000000000, .exit),
     (32, 0b0011_01111_00000000000000000000000, .nop),
     (32, 0b0011_10000_0000000_1010011000110101, .trapi 42549#16)] = true := by decide

/-- Row 0x4 of Table 4.5, one word of each instruction, field by field. -/
theorem test_decode_row4 : reads
    [(32, 0b0100_00000_0000000_0010010010000011, .mset 9347#16),
     (32, 0b0100_00001_0000000_0010110_000000000, .msetr 22#7),
     (32, 0b0100_00010_0100101_0000000000000000, .mget 37#7),
     (32, 0b0100_00011_0000101_0000110_000000000, .mpush 5#7 6#7),
     (32, 0b0100_00100_0000101_0000110_000000000, .melse 5#7 6#7),
     (32, 0b0100_00101_00000000000000000000000, .mpop),
     (32, 0b0100_00110_0000101_0000110_0000111_00, .mand 5#7 6#7 7#7),
     (32, 0b0100_00111_0000101_0000110_0000111_00, .mor 5#7 6#7 7#7),
     (32, 0b0100_01000_0000101_0000110_0000111_00, .mxor 5#7 6#7 7#7),
     (32, 0b0100_01001_0000101_0000110_0000111_00, .mandn 5#7 6#7 7#7),
     (32, 0b0100_01010_0000101_0000110_000000000, .mnot 5#7 6#7),
     (32, 0b0100_01011_0000101_0000110_000000000, .mmov 5#7 6#7),
     (32, 0b0100_01100_0100101_0000110_000000000, .mcnt 37#7 6#7),
     (32, 0b0100_01101_0100101_0000110_000000000, .mffs 37#7 6#7),
     (32, 0b0100_01110_0100101_0000110_0111011_00, .mtos 37#7 6#7 59#7),
     (32, 0b0100_01111_0000101_0010110_0111011_00, .mfrs 5#7 22#7 59#7),
     (32, 0b0100_10000_0000101_0010110_000000000, .mlen 5#7 22#7),
     (32, 0b0100_10001_0100101_0000110_000000000, .mall 37#7 6#7)] = true := by decide

/-- Row 0x5 of Table 4.5, one word of each instruction, field by field. -/
theorem test_decode_row5 : reads
    [(32, 0b0101_00000_0100101_0010110_0111011_0_1, .vadd 37#7 22#7 59#7 1#1),
     (32, 0b0101_00001_0100101_0010110_0111011_0_1, .vsub 37#7 22#7 59#7 1#1),
     (32, 0b0101_00010_0100101_0010110_0111011_0_1, .vmul 37#7 22#7 59#7 1#1),
     (32, 0b0101_00011_0100101_0010110_0111011_0_1, .vfma 37#7 22#7 59#7 1#1),
     (32, 0b0101_00100_0100101_0010110_0111011_0_1, .vfms 37#7 22#7 59#7 1#1),
     (32, 0b0101_00101_0100101_0010110_0111011_0_1, .vmin 37#7 22#7 59#7 1#1),
     (32, 0b0101_00110_0100101_0010110_0111011_0_1, .vmax 37#7 22#7 59#7 1#1),
     (32, 0b0101_00111_0100101_0010110_00000000_1, .vabs 37#7 22#7 1#1),
     (32, 0b0101_01000_0100101_0010110_00000000_1, .vneg 37#7 22#7 1#1),
     (32, 0b0101_01001_0100101_0010110_0111011_0_1, .vand 37#7 22#7 59#7 1#1),
     (32, 0b0101_01010_0100101_0010110_0111011_0_1, .vor 37#7 22#7 59#7 1#1),
     (32, 0b0101_01011_0100101_0010110_0111011_0_1, .vxor 37#7 22#7 59#7 1#1),
     (32, 0b0101_01100_0100101_0010110_00000000_1, .vnot 37#7 22#7 1#1),
     (32, 0b0101_01101_0100101_0010110_0111011_0_1, .vshl 37#7 22#7 59#7 1#1),
     (32, 0b0101_01110_0100101_0010110_0111011_0_1, .vshr 37#7 22#7 59#7 1#1),
     (32, 0b0101_01111_0100101_0010110_0111011_0_1, .vsra 37#7 22#7 59#7 1#1),
     (32, 0b0101_10000_0000101_0010110_0111011_00, .vcmpeq 5#7 22#7 59#7),
     (32, 0b0101_10001_0000101_0010110_0111011_00, .vcmpne 5#7 22#7 59#7),
     (32, 0b0101_10010_0000101_0010110_0111011_00, .vcmplt 5#7 22#7 59#7),
     (32, 0b0101_10011_0000101_0010110_0111011_00, .vcmple 5#7 22#7 59#7),
     (32, 0b0101_10100_0100101_0010110_0111011_0_1, .vsel 37#7 22#7 59#7 1#1),
     (32, 0b0101_10101_0100101_0010110_00000000_1, .vmov 37#7 22#7 1#1),
     (32, 0b0101_10110_0100101_0010110_0111011_0_1, .vbcast 37#7 22#7 59#7 1#1),
     (32, 0b0101_10111_0100101_0010110_0111011_0_1, .vidx 37#7 22#7 59#7 1#1),
     (32, 0b0101_11000_0100101_0010110_0111011_0_1, .vclamp 37#7 22#7 59#7 1#1),
     (32, 0b0101_11001_0100101_0010110_0111011_0_1, .vmulp 37#7 22#7 59#7 1#1),
     (32, 0b0101_11010_0100101_0010110_0111011_0_1, .vdotp 37#7 22#7 59#7 1#1),
     (32, 0b0101_11011_0100101_0010110_00_01001_0_1, .vcvt 37#7 22#7 9#5 1#1),
     (32, 0b0101_11100_0100101_0010110_0111011_0_1, .vpack 37#7 22#7 59#7 1#1),
     (32, 0b0101_11101_0100101_0010110_000000_1_0_1, .vunpk 37#7 22#7 1#1 1#1)] = true := by decide

/-- Row 0x6 of Table 4.5, one word of each instruction, field by field. -/
theorem test_decode_row6 : reads
    [(32, 0b0110_00000_0100101_0010110_00000000_1, .vrcp 37#7 22#7 1#1),
     (32, 0b0110_00001_0100101_0010110_00000000_1, .vrsq 37#7 22#7 1#1),
     (32, 0b0110_00010_0100101_0010110_00000000_1, .vsqrt 37#7 22#7 1#1),
     (32, 0b0110_00011_0100101_0010110_0111011_0_1, .vdiv 37#7 22#7 59#7 1#1),
     (32, 0b0110_00100_0100101_0010110_00000000_1, .vexp2 37#7 22#7 1#1),
     (32, 0b0110_00101_0100101_0010110_00000000_1, .vlog2 37#7 22#7 1#1),
     (32, 0b0110_00110_0100101_0010110_00000000_1, .vsin 37#7 22#7 1#1),
     (32, 0b0110_00111_0100101_0010110_00000000_1, .vcos 37#7 22#7 1#1),
     (32, 0b0110_01000_0100101_0010110_00000000_1, .vtanh 37#7 22#7 1#1),
     (32, 0b0110_01001_0100101_0010110_00000000_1, .vfloor 37#7 22#7 1#1),
     (32, 0b0110_01010_0100101_0010110_00000000_1, .vfrac 37#7 22#7 1#1),
     (32, 0b0110_01011_0100101_0010110_00000000_1, .vcompact 37#7 22#7 1#1),
     (32, 0b0110_01100_0100101_0010110_00000000_1, .vexpand 37#7 22#7 1#1),
     (32, 0b0110_01101_0100101_0010110_0111011_0_1, .vshfl 37#7 22#7 59#7 1#1),
     (32, 0b0110_01110_0100101_0010110_0111011_0_1, .vrotl 37#7 22#7 59#7 1#1),
     (32, 0b0110_01111_0100101_0010110_0111011_00, .vextr 37#7 22#7 59#7),
     (32, 0b0110_10000_0100101_0010110_0111011_0_1, .vins 37#7 22#7 59#7 1#1)] = true := by decide

/-- Row 0x7 of Table 4.5, one word of each instruction, field by field. -/
theorem test_decode_row7 : reads
    [(32, 0b0111_00000_0100101_0010110_00000000_1, .rcoal 37#7 22#7 1#1),
     (32, 0b0111_00001_0100101_0010110_000000000, .rcnt 37#7 22#7),
     (32, 0b0111_00010_0100101_0000000_000000010, .rallot 37#7 2#9),
     (32, 0b0111_00011_0100101_0010110_000000000, .rpool 37#7 22#7),
     (32, 0b0111_00100_0100101_0010110_0111011_00, .rsave 37#7 22#7 59#7),
     (32, 0b0111_00101_0100101_0010110_00000000_1, .rload 37#7 22#7 1#1),
     (32, 0b0111_00110_0100101_0010110_000000000, .vredadd 37#7 22#7),
     (32, 0b0111_00111_0100101_0010110_000000000, .vredmin 37#7 22#7),
     (32, 0b0111_01000_0100101_0010110_000000000, .vredmax 37#7 22#7),
     (32, 0b0111_01001_0100101_0010110_000000000, .vredand 37#7 22#7),
     (32, 0b0111_01010_0100101_0010110_000000000, .vredor 37#7 22#7),
     (32, 0b0111_01011_0100101_0010110_00000000_1, .vscan 37#7 22#7 1#1),
     (32, 0b0111_01100_0100101_0010110_00000000_1, .vrng 37#7 22#7 1#1),
     (32, 0b0111_01101_0000000_0010110_0111011_00, .rngseed 22#7 59#7),
     (32, 0b0111_01110_0100101_0000001_000000000, .rngget 37#7 1#7)] = true := by decide

/-- Row 0x8 of Table 4.5, one word of each instruction, field by field. -/
theorem test_decode_row8 : reads
    [(32, 0b1000_00000_0100101_0010110_0111011_10, .ld 37#7 22#7 59#7 2#2),
     (64, 0x40490FDB * 2 ^ 32 + 0b1000_00001_0100101_0010110_0000000_10, .ldx 37#7 22#7 2#2 0x40490FDB#32),
     (32, 0b1000_00010_0100101_0010110_0111011_10, .st 37#7 22#7 59#7 2#2),
     (32, 0b1000_00011_0100101_0010110_0111011_10, .lda 37#7 22#7 59#7 2#2),
     (32, 0b1000_00100_0100101_0010110_0000011_10, .stl 37#7 22#7 3#7 2#2),
     (32, 0b1000_00101_0100101_0010110_0111011_0_1, .atadd 37#7 22#7 59#7 1#1),
     (32, 0b1000_00110_0100101_0010110_0111011_0_1, .atmin 37#7 22#7 59#7 1#1),
     (32, 0b1000_00111_0100101_0010110_0111011_0_1, .atmax 37#7 22#7 59#7 1#1),
     (32, 0b1000_01000_0100101_0010110_0111011_0_1, .atminn 37#7 22#7 59#7 1#1),
     (32, 0b1000_01001_0100101_0010110_0111011_0_1, .atmaxn 37#7 22#7 59#7 1#1),
     (32, 0b1000_01010_0100101_0010110_0111011_0_1, .atand 37#7 22#7 59#7 1#1),
     (32, 0b1000_01011_0100101_0010110_0111011_0_1, .ator 37#7 22#7 59#7 1#1),
     (32, 0b1000_01100_0100101_0010110_0111011_0_1, .atxor 37#7 22#7 59#7 1#1),
     (32, 0b1000_01101_0100101_0010110_0111011_0_1, .atxch 37#7 22#7 59#7 1#1),
     (32, 0b1000_01110_0100101_0010110_0111011_0_1, .atcas 37#7 22#7 59#7 1#1),
     (32, 0b1000_01111_00000000000000_0000011_00, .fence 3#7),
     (32, 0b1000_10000_0000000_0010110_0111011_00, .linv 22#7 59#7)] = true := by decide

/-- Row 0x9 of Table 4.5, one word of each instruction, field by field. -/
theorem test_decode_row9 : reads
    [(32, 0b1001_00000_0100101_0010110_0000111_0_1, .vld 37#7 22#7 7#7 1#1),
     (32, 0b1001_00001_0100101_0000110_0000111_0_1, .vlds 37#7 6#7 7#7 1#1),
     (32, 0b1001_00010_0100101_0010110_0000111_00, .vst 37#7 22#7 7#7),
     (32, 0b1001_00011_0100101_0000110_0000111_00, .vsts 37#7 6#7 7#7),
     (32, 0b1001_00100_0100101_0010110_0000111_0_1, .vldb 37#7 22#7 7#7 1#1),
     (32, 0b1001_00101_0100101_0010110_0111011_00, .preq 37#7 22#7 59#7),
     (32, 0b1001_00110_0100101_0010110_0111011_00, .sld 37#7 22#7 59#7),
     (32, 0b1001_00111_0100101_0010110_0111011_00, .sst 37#7 22#7 59#7),
     (32, 0b1001_01000_0100101_0010110_0111011_0_1, .sgath 37#7 22#7 59#7 1#1),
     (32, 0b1001_01001_0100101_0010110_0111011_00, .sscat 37#7 22#7 59#7),
     (32, 0b1001_01010_0100101_0010110_0111011_0_1, .sldt 37#7 22#7 59#7 1#1),
     (32, 0b1001_01011_0100101_0010110_00000000_1, .sldc 37#7 22#7 1#1),
     (32, 0b1001_01100_0100101_0010110_0111011_00, .sstc 37#7 22#7 59#7),
     (32, 0b1001_01101_0100101_0010110_0111011_00, .clds 37#7 22#7 59#7),
     (32, 0b1001_01110_0100101_0010110_0111011_00, .csts 37#7 22#7 59#7)] = true := by decide

/-- Row 0xA of Table 4.5, one word of each instruction, field by field. -/
theorem test_decode_row10 : reads
    [(32, 0b1010_00000_0100101_0010110_0111011_00, .upd 37#7 22#7 59#7),
     (32, 0b1010_00001_0100101_0010110_000000000, .upds 37#7 22#7),
     (32, 0b1010_00010_0000000_0010110_0111011_00, .uflush 22#7 59#7),
     (32, 0b1010_00011_0000000_0010110_000000000, .tdec 22#7),
     (32, 0b1010_00100_0000000_0010110_000000000, .tinc 22#7),
     (32, 0b1010_00101_0000000_0010110_000000000, .tspawn 22#7),
     (32, 0b1010_00110_0000000_0010110_0111011_00, .cset 22#7 59#7),
     (32, 0b1010_00111_0000000_0010110_0111011_00, .cadd 22#7 59#7),
     (32, 0b1010_01000_0100101_0010110_000000000, .cget 37#7 22#7),
     (32, 0b1010_01001_0100101_0010110_0111011_00, .cbar 37#7 22#7 59#7),
     (32, 0b1010_01010_0100101_0010110_0111011_00, .dsmop 37#7 22#7 59#7),
     (32, 0b1010_01011_0100101_0010110_0111011_00, .dsmred 37#7 22#7 59#7)] = true := by decide

/-- Row 0xB of Table 4.5, one word of each instruction, field by field. -/
theorem test_decode_row11 : reads
    [(32, 0b1011_00000_0100101_0010110_0000111_00, .cpy 37#7 22#7 7#7),
     (32, 0b1011_00001_0100101_0010110_0000111_00, .cpyg 37#7 22#7 7#7),
     (32, 0b1011_00010_0100101_0010110_0000111_00, .cpyx 37#7 22#7 7#7),
     (32, 0b1011_00011_0100101_0010110_0000111_00, .cpyq 37#7 22#7 7#7),
     (32, 0b1011_00100_0100101_0010110_0000111_00, .cpyt 37#7 22#7 7#7),
     (32, 0b1011_00101_0100101_0010110_0000111_00, .discard 37#7 22#7 7#7),
     (32, 0b1011_00110_0100101_0010110_0000111_00, .prefetch 37#7 22#7 7#7),
     (32, 0b1011_00111_0100101_0010110_0000111_00, .cpya 37#7 22#7 7#7),
     (32, 0b1011_01000_0100101_0010110_0000111_00, .cwalk 37#7 22#7 7#7)] = true := by decide

/-- Row 0xC of Table 4.5, one word of each instruction, field by field. -/
theorem test_decode_row12 : reads
    [(32, 0b1100_00000_0100101_0010110_0111011_00, .mcfg 37#7 22#7 59#7),
     (32, 0b1100_00001_0000101_0010110_000000000, .mzero 5#7 22#7),
     (32, 0b1100_00010_0000101_0000110_000000000, .mma 5#7 6#7),
     (32, 0b1100_00011_0000101_0000110_0111011_00, .mmag 5#7 6#7 59#7),
     (32, 0b1100_00100_0000101_0000110_0111011_00, .mmas 5#7 6#7 59#7),
     (32, 0b1100_00101_0000101_0000110_000000000, .mmad 5#7 6#7),
     (32, 0b1100_00110_0000101_0000110_000000000, .mlda 5#7 6#7),
     (32, 0b1100_00111_0000101_0000110_000000000, .msta 5#7 6#7),
     (32, 0b1100_01000_0100101_0000110_0111011_0_1, .mtov 37#7 6#7 59#7 1#1),
     (32, 0b1100_01001_0100101_0010110_000000000, .malloc 37#7 22#7)] = true := by decide

/-- Row 0xD of Table 4.5, one word of each instruction, field by field. -/
theorem test_decode_row13 : reads
    [(32, 0b1101_00000_0100101_0010110_0111011_0_1, .xhad 37#7 22#7 59#7 1#1),
     (32, 0b1101_00001_0100101_0010110_0111011_0_1, .xqnt 37#7 22#7 59#7 1#1),
     (32, 0b1101_00010_0100101_0010110_00000000_1, .xact 37#7 22#7 1#1),
     (32, 0b1101_00011_0000000_0010110_0000001_00, .xtld 22#7 1#7),
     (32, 0b1101_00100_00000000000000_0000010_00, .xtbind 2#7),
     (32, 0b1101_00101_0100101_0010110_0111011_0_1, .xtopk 37#7 22#7 59#7 1#1),
     (32, 0b1101_00110_0100101_0010110_0111011_0_1, .xtrn 37#7 22#7 59#7 1#1),
     (32, 0b1101_00111_0100101_0010110_0111011_0_1, .xsort 37#7 22#7 59#7 1#1)] = true := by decide

/-- Row 0xE of Table 4.5, one word of each instruction, field by field. -/
theorem test_decode_row14 : reads
    [(32, 0b1110_00000_0100101_0010110_000000000, .trace 37#7 22#7),
     (32, 0b1110_00001_0100101_0000110_0111011_00, .spawn 37#7 6#7 59#7),
     (32, 0b1110_00010_0000101_0010110_000000000, .retire 5#7 22#7),
     (32, 0b1110_00011_0100101_0010110_000000000, .defer 37#7 22#7),
     (32, 0b1110_00100_00000000000000000000000, .epend),
     (32, 0b1110_00101_0100101_0000010_000000000, .poolq 37#7 2#7)] = true := by decide

/-- Row 0xF of Table 4.5, one word of each instruction, field by field. -/
theorem test_decode_row15 : reads
    [(32, 0b1111_00000_0100101_0000000100000111, .csrr 37#7 263#16),
     (32, 0b1111_00001_0100101_0000000100000111, .csrw 37#7 263#16),
     (32, 0b1111_00010_00000000000000000000000, .eret),
     (32, 0b1111_00011_0000000_0010110_0111011_00, .tlbinv 22#7 59#7),
     (32, 0b1111_00100_0000000_0010110_000000000, .halt 22#7),
     (32, 0b1111_00101_0100101_0010110_0111011_00, .monr 37#7 22#7 59#7),
     (32, 0b1111_00110_0000000_1010011000110101, .mark 42549#16),
     (32, 0b1111_00111_0000000_1010011000110101, .bkpt 42549#16)] = true := by decide

/-- A word that decoding reads as `i`, with the bytes behind it left over. -/
def readsBytes (i : Instr) (rest : List Byte) : Bool :=
  i.wellFormed && (encodeWords i).isSome && decide (decode (encode i ++ rest) = .ok (i, rest))

/-- Meets the hypotheses of DecodeOfEncode and EncodeOfDecode: one word, two words, every operand at its limit. -/
theorem test_meets_DecodeOfEncode :
    (readsBytes (.add 63#7 92#7 92#7 1#1) [] && readsBytes (.ldlit 0#7 0xFFFFFFFF#32) [1#8] &&
      readsBytes (.vld 95#7 92#7 15#7 1#1) [0#8, 0#8] && readsBytes (.loopi 127#7 255#8 2#2) [] &&
      readsBytes (.cpy 0#7 0#7 62#7) []) = true := by decide +kernel

/-! ### Well-formedness: a term that each check refuses (Table 4.6) -/

/-- Check 3: every code field beyond its range. -/
theorem test_illformed_codes :
    ([.gets 0#7 13#7, .bcc 13#4 0#19, .loop 0#7 1#8 3#2, .loop 0#7 0#8 0#2, .loopi 0#7 1#8 0#2, .lbrk 3#7,
      .mset 0x0C00#16, .mset 0x00D0#16, .rallot 0#7 0#9, .rallot 0#7 97#9, .rngget 0#7 2#7, .stl 0#7 0#7 4#7 0#2,
      .fence 4#7, .xtld 0#7 2#7, .xtbind 3#7, .poolq 0#7 4#7, .csrr 0#7 0x00B#16, .csrw 0#7 0x108#16] :
      List Instr).all (fun i => i.illegalCause == some 3) = true := by decide +kernel

/-- Check 4: a register code that names nothing, of every kind of operand. -/
theorem test_illformed_registers :
    ([.add 0#7 93#7 0#7 0#1, .add 93#7 0#7 0#7 0#1, .vadd 1#7 99#7 1#7 0#1, .vadd 99#7 1#7 1#7 0#1,
      .mand 1#7 16#7 1#7, .mand 16#7 1#7 1#7, .mzero 8#7 0#7, .vlds 0#7 63#7 0#7 0#1, .mma 0#7 61#7,
      .spawn 0#7 65#7 0#7, .cpy 0#7 0#7 63#7, .cpy 0#7 0#7 65#7, .retire 94#7 0#7, .retire 97#7 0#7] :
      List Instr).all (fun i => i.illegalCause == some 4) = true := by decide +kernel

/-- Check 5: a read-only register as a destination. -/
theorem test_illformed_destinations :
    ([.add 64#7 0#7 0#7 0#1, .vadd 96#7 0#7 0#7 0#1, .mand 0#7 1#7 1#7] : List Instr).all
      (fun i => i.illegalCause == some 5) = true := by decide +kernel

/-- What the checks refuse, the decoder refuses too: s93 as a source, and the first illegal column. -/
theorem test_illformed_words :
    (decodeTableWord 32 0b0000_00000_0000101_1011101_0000000_0_0 == none &&
      decodeWord 0b0011_10001_0000000_0000000_000000000#32 0#32 == .ok (.illegalInstr 0x38800000#32) &&
      decodeWord 0b0000_11111_0000000_0000000_000000000#32 0#32 == .ok (.illegalInstr 0x0F800000#32)) = true := by
  decide +kernel

/-! ### The states of the tests -/

/-- A launched team of 32 lanes on core 0 that issues next, firmware running; the page at 0x10000 maps to itself, to be read,
written and executed. -/
def here : State :=
  let s := State.reset.launch
  { s with cur := 1, host := { s.host with status := 3#64 } }

/-- That team. -/
def me : Team := Team.atStart 1 1 launchIdent 0x10000#64 0#64 96 64 8 1 0

/-- The team with some scalar registers. -/
def Team.withS (t : Team) (l : List (Nat × Word)) : Team := l.foldl (fun t p => t.setS p.1 p.2) t

/-- The launched state with its team as `t`. -/
def hereAs (t : Team) : State := here.putTeam t

/-- The team issues the instruction, and it passes every check. -/
def issuesNow (s : State) (t : Team) (i : Instr) : Bool :=
  decide (s.team? s.cur = some t) && s.canIssue t && t.pend.isNone && !s.interlocked t i &&
    (!i.privileged || s.privileged t) &&
    i.wellFormed && (s.rayVectors t i).all (fun n => decide (n ≤ 95)) &&
    (s.namedVectors t i).all (fun n => decide (n < t.allot)) && (i.timeReads == 0 || !s.logsTime t)

theorem issues_of {s : State} {t : Team} {i : Instr} (h : issuesNow s t i = true) : Issues s t i := by
  simp only [issuesNow, Bool.and_eq_true, decide_eq_true_eq, Bool.not_eq_true', Bool.or_eq_true,
    List.all_eq_true, beq_iff_eq, Option.isNone_iff_eq_none] at h
  obtain ⟨⟨⟨⟨⟨⟨⟨⟨cur, can⟩, settled⟩, free⟩, priv⟩, formed⟩, implied⟩, allot⟩, quiet⟩ := h
  exact ⟨⟨cur, can, settled, free⟩, fun hp => priv.resolve_left (by simp [hp]), formed, implied, allot, quiet⟩

/-- The team, as `t`, issues every instruction of a list. -/
def issuesAll (t : Team) (l : List Instr) : Bool := l.all (issuesNow (hereAs t) t)

/-- An instruction leaves a next state in which the issuing team satisfies `p`. -/
def leaves (s : State) (i : Instr) (p : State → Team → Bool) : Bool :=
  match exec i s with
  | .next r => (r.team? s.cur).any (p r)
  | _ => false

/-- An instruction of the launched team with some registers leaves `v` in s5. -/
def gives (l : List (Nat × Word)) (i : Instr) (v : Word) : Bool :=
  leaves (hereAs (me.withS l)) i fun _ u => u.getS 5 == v && u.pc == 0x10004#64

/-- A tested team in a handler. -/
def inHandler (t : Team) : Team := { t with inHandler := true }

/-- Meets the hypotheses of IllegalColumns at the first illegal column of the first and the last row. -/
theorem test_meets_IllegalColumns :
    ([0x0F800000#32, 0xF4000000#32] : List W32).all (fun w => decodeWord w 0#32 == .ok (.illegalInstr w) &&
      decide (here.team? here.cur = some me) && here.canIssue me && !here.interlocked me (.illegalInstr w) &&
      leaves here (.illegalInstr w) fun _ u => u.pc == 0x10400#64 && u.trap.tinfo == w.setWidth 64) = true := by
  decide +kernel

/-! ### Scalar instructions -/

/-- Meets the hypotheses of ScalarIntegerResults: every row, at both widths. -/
theorem test_meets_ScalarIntegerResults :
    ([0#1, 1#1].all fun q => issuesAll me (table53.map (fun p => p.1 5#7 6#7 7#7 q) ++
      table53One.map (fun p => p.1 5#7 6#7 q) ++ [.cmp 6#7 7#7 q, .cmpn 6#7 7#7 q])) = true := by decide +kernel

/-- Sums wrap at 32 and at 64 bits, and the 32-bit result is zero-extended (R103). -/
theorem test_add_wraps :
    (gives [(6, 0xFFFFFFFFFFFFFFFF#64), (7, 2#64)] (.add 5#7 6#7 7#7 0#1) 1#64 &&
      gives [(6, 0xFFFFFFFF#64), (7, 1#64)] (.add 5#7 6#7 7#7 1#1) 0#64) = true := by decide +kernel

/-- Division by zero and the overflow of the most negative number (R104). -/
theorem test_division_corners :
    (gives [(6, 9#64)] (.div 5#7 6#7 7#7 0#1) 0xFFFFFFFFFFFFFFFF#64 &&
      gives [(6, 9#64)] (.rem 5#7 6#7 7#7 0#1) 9#64 &&
      gives [(6, 0x8000000000000000#64), (7, 0xFFFFFFFFFFFFFFFF#64)] (.div 5#7 6#7 7#7 0#1) 0x8000000000000000#64 &&
      gives [(6, 0xFFFFFFFFFFFFFFF9#64), (7, 2#64)] (.div 5#7 6#7 7#7 0#1) 0xFFFFFFFFFFFFFFFD#64) = true := by decide +kernel

/-- Shift amounts count modulo the width, and SRA copies the sign (R103). -/
theorem test_shifts :
    (gives [(6, 1#64), (7, 65#64)] (.shl 5#7 6#7 7#7 0#1) 2#64 &&
      gives [(6, 0x80000000#64), (7, 35#64)] (.sra 5#7 6#7 7#7 1#1) 0xF0000000#64 &&
      gives [(6, 0x8000000000000001#64), (7, 1#64)] (.rotl 5#7 6#7 7#7 0#1) 3#64) = true := by decide +kernel

/-- A field beyond the register's top is cut off, and BFI keeps the old bits around it (R105). -/
theorem test_bit_fields :
    (gives [(6, 0xF000000000000000#64), (7, 0x0F3C#64)] (.bfx 5#7 6#7 7#7 0#1) 0xF#64 &&
      gives [(5, 0xFFFF#64), (6, 0#64), (7, 0x0304#64)] (.bfi 5#7 6#7 7#7 0#1) 0xFF0F#64) = true := by decide +kernel

/-- SEL takes b where the old destination is zero (R103). -/
theorem test_sel :
    (gives [(6, 1#64), (7, 2#64)] (.sel 5#7 6#7 7#7 0#1) 2#64 &&
      gives [(5, 8#64), (6, 1#64), (7, 2#64)] (.sel 5#7 6#7 7#7 0#1) 1#64) = true := by decide +kernel

/-- −1 is below 1 signed and above it unsigned (R102). -/
theorem test_compares :
    (leaves (hereAs (me.withS [(6, 0xFFFFFFFFFFFFFFFF#64), (7, 1#64)])) (.cmp 6#7 7#7 0#1) (fun _ u => u.cc == 2#4) &&
      leaves (hereAs (me.withS [(6, 1#64), (7, 0xFFFFFFFFFFFFFFFF#64)])) (.cmpn 6#7 7#7 0#1)
        (fun _ u => u.cc == 4#4)) = true := by decide +kernel

/-- Meets the hypotheses of ScalarImmediatesComplete; GETS of a condition and of a loop counter at its limits, LDLIT
with its two words on both sides of a loop's end. -/
theorem test_meets_ScalarImmediatesComplete :
    (let u := ({ me with active := [0], pc := 0x10010#64 }).setLoop 0
       { count := 2#32, start := 0x1000C#64, stop := 0x10014#64 }
     issuesAll u [.ldlit 5#7 7#32] && u.active.any (fun k => (u.loop k).stop == u.pc + 4#64) &&
       leaves (hereAs u) (.ldlit 5#7 7#32) fun _ v => v.trap.tcause == 0x40E#64 && v.getS 5 == 0#64) = true ∧
    issuesAll me (table54.map (fun p => p.1 5#7 6#7 511#9) ++ table54Shift.map (fun p => p.1 5#7 6#7 63#6) ++
      table54Wide.map (fun p => p.1 5#7 0xFFFF#16) ++ [.cmpi 6#7 256#9, .cmpni 6#7 256#9, .lea 5#7 6#7 7#7 3#2,
        .gets 5#7 12#7, .gets 5#7 18#7, .ldlit 5#7 0xFFFFFFFF#32]) = true := by decide +kernel

/-- Immediates extend with their sign; MOVHI keeps the other parts (R106). -/
theorem test_immediates :
    (gives [] (.addi 5#7 6#7 504#9) 0xFFFFFFFFFFFFFFF8#64 && gives [] (.movi 5#7 0x8000#16) 0xFFFFFFFFFFFF8000#64 &&
      gives [(5, 0xFFFFFFFFFFFFFFFF#64)] (.movhi 5#7 0#16) 0xFFFFFFFF0000FFFF#64 &&
      gives [(6, 16#64), (7, 3#64)] (.lea 5#7 6#7 7#7 2#2) 28#64) = true := by decide +kernel

/-- LDLIT has two words, and its literal is zero-extended (R106, R79). -/
theorem test_ldlit : leaves here (.ldlit 5#7 0x80000000#32)
    (fun _ u => u.getS 5 == 0x80000000#64 && u.pc == 0x10008#64) = true := by decide +kernel

/-- Meets the hypotheses of ScalarFloat in both formats. -/
theorem test_meets_ScalarFloat :
    ([0#1, 1#1].all fun q => issuesAll me (table62.map (fun p => p.1 5#7 6#7 7#7 q) ++ [.fcvt 5#7 6#7 q,
      .itof 5#7 6#7 q, .fmin 5#7 6#7 7#7 q, .fmax 5#7 6#7 7#7 q, .fsqrt 5#7 6#7 q, .fabs 5#7 6#7 q,
      .fneg 5#7 6#7 q, .ftoi 5#7 6#7 q, .fclass 5#7 6#7 q, .frnd 5#7 6#7 q, .fcmp 6#7 7#7 q])) = true := by decide +kernel

/-- 1.0 + 1.0, 1.0 ÷ 3.0 to nearest, and √2 in F32 (R108; IEEE 754). -/
theorem test_float :
    (gives [(6, 0x3F800000#64), (7, 0x3F800000#64)] (.fadd 5#7 6#7 7#7 1#1) 0x40000000#64 &&
      gives [(6, 0x3F800000#64), (7, 0x40400000#64)] (.fdiv 5#7 6#7 7#7 1#1) 0x3EAAAAAB#64 &&
      gives [(6, 0x40000000#64)] (.fsqrt 5#7 6#7 1#1) 0x3FB504F3#64 &&
      gives [(6, 0x3F800000#64)] (.fneg 5#7 6#7 1#1) 0xBF800000#64) = true := by decide +kernel

/-- FTOI saturates, a NaN gives 0, and an unordered compare sets UN alone (R110, R111). -/
theorem test_float_corners :
    (gives [(6, 0x7F800000#64)] (.ftoi 5#7 6#7 1#1) 0x7FFFFFFFFFFFFFFF#64 &&
      gives [(6, 0x7FC00000#64)] (.ftoi 5#7 6#7 1#1) 0#64 &&
      leaves (hereAs (me.withS [(6, 0x7FC00000#64)])) (.fcmp 6#7 7#7 1#1) (fun _ u => u.cc == 8#4)) = true := by
  decide +kernel

/-- Meets the hypotheses of RoundingIsExactOnItsFormat: the greatest encoding, a NaN, the least subnormal and the
infinity of every format; a P8 byte and the numbers of its value. -/
theorem test_meets_RoundingIsExactOnItsFormat :
    ((table36.all fun p => let f := p.1
        let top := 2 ^ (f.ew + f.fw)
        let inf := (2 ^ f.ew - 1) * 2 ^ f.fw
        decide (2 * top = 2 ^ f.width) && (inf + 1) / 2 ^ f.fw % 2 ^ f.ew == 2 ^ f.ew - 1 &&
          (inf + 1) % 2 ^ f.fw == 1 && inf / 2 ^ f.fw % 2 ^ f.ew == 2 ^ f.ew - 1 && inf % 2 ^ f.fw == 0 &&
          1 / 2 ^ f.fw % 2 ^ f.ew == 0 && 1 % 2 ^ f.fw == 1) &&
      p8Units 0x77 == 0 && p8Units 0x7F == p8Units 0x77) = true := by decide +kernel

/-- A NaN rounds to the canonical one of Table 3.6, a subnormal under DNZ to zero, an infinity to itself, and −8 in
I4 to itself (R68 to R71). -/
theorem test_round_exact :
    (let z := fun (dnz : Bool) => ({ me with mode := if dnz then 0x10#16 else 0#16 } : Team).roundingNoDraw
     roundFmt .f32 (z false) (Fmt.f32.decode false 0xFF800001) == 0x7FC00000 &&
       roundFmt .bf16 (z false) (Fmt.bf16.decode false 0xFF80) == 0xFF80 &&
       Fmt.f16.decode true 0x8001 == .zero true &&
       roundToInt true 4 (z false) (subVal (.int true 4) false 8) == 8) = true := by decide +kernel

/-! ### Control flow and masks -/

/-- Meets the hypotheses of BranchTargets: branches taken and not, at the greatest offset, and targets aligned and
not. -/
theorem test_meets_BranchTargets :
    (issuesAll me [.br 0x3FFFF#19, .call 0x40000#19, .bcc 0#4 1#19, .bmz 1#4 1#19, .bmnz 1#4 1#19] &&
      issuesAll (me.withS [(6, 0x20000#64)]) [.callr 5#7 6#7, .ret 6#7, .jmpr 6#7] &&
      issuesAll (me.withS [(6, 0x20001#64)]) [.callr 5#7 6#7, .ret 6#7, .jmpr 6#7]) = true := by decide +kernel

/-- A backward branch, a call and a jump to an odd address (R81, R113). -/
theorem test_branches :
    (leaves here (.br 0x7FFFE#19) (fun _ u => u.pc == 0xFFF8#64) &&
      leaves here (.call 2#19) (fun _ u => u.pc == 0x10008#64 && u.getS 63 == 0x10004#64) &&
      leaves (hereAs (me.withS [(6, 2#64)])) (.jmpr 6#7) (fun _ u => u.pc == 0x10400#64 &&
        u.trap.tpc == 0x10000#64 && u.trap.taddr == 2#64 && u.trap.tcause == 15#64)) = true := by decide +kernel

/-- The team inside loop 0, which encloses loop 1; loop 0 has `n` iterations left. -/
def inLoops (n : W32) : Team :=
  ({ me with active := [0], pc := 0x10010#64 }).setLoop 0 { count := n, start := 0x1000C#64, stop := 0x10014#64 }

/-- Meets the hypotheses of LoopsEnd and HardwareLoops: a loop ended by a branch, at the end of its body with one
and with more iterations left, entered, skipped, broken, and nested with the same E. -/
theorem test_meets_loops :
    ((inLoops 2#32).leftLoop 0x10010#64 0x20000#64 == some 0 && (inLoops 2#32).active == [0] &&
      (inLoops 2#32).inLoop 0 0x10010#64 && (inLoops 2#32).pc + 4#64 == ((inLoops 2#32).loop 0).stop &&
      ((inLoops 1#32).loop 0).count == 1#32 && issuesAll (inLoops 2#32) [.lbrk 0#7] &&
      issuesAll me [.loop 6#7 255#8 2#2, .loopi 1#7 1#8 0#2, .loopi 127#7 255#8 2#2] &&
      (let t : Team := { inLoops 9#32 with pc := 0x1000C#64 }
       issuesAll t [.loopi 7#7 1#8 1#2] && t.inLoop 0 t.pc &&
         leaves (hereAs t) (.loopi 7#7 1#8 1#2) fun _ u => u.active == [1, 0] && u.loop 0 == t.loop 0)) = true := by
  decide +kernel

/-- LOOP_STATE: an active counter, a body beyond the enclosing one, an inactive counter (R117, Table 19.2); meets
those clauses of HardwareLoops. -/
theorem test_loop_state :
    (let t := inLoops 2#32
     let traps := fun (i : Instr) (c : Word) => issuesAll t [i] &&
       leaves (hereAs t) i fun _ u => u.trap.tcause == c && u.loops == t.loops && u.active == [0]
     traps (.loop 6#7 1#8 0#2) 0x10E#64 && traps (.loopi 7#7 1#8 1#2) 0x20E#64 && traps (.lbrk 2#7) 0x30E#64) =
    true := by decide +kernel

/-- Loop 1 nested in loop 0, both ending at 0x10014, with `a` and `b` iterations left. -/
def nested (a b : W32) : Team :=
  ({ inLoops b with active := [1, 0] }).setLoop 1 { count := a, start := 0x10010#64, stop := 0x10014#64 }

/-- Meets the hypotheses of BranchTargets and LoopsEnd on the program counter: no loop that ends, two that share their
E of which both end, one ends and the other goes back, or none ends; a handler; a branch that leaves both, one that
leaves the inner one alone, and one within the bodies. -/
theorem test_meets_nested :
    (([(nested 1#32 1#32, [1, 0], []), (nested 1#32 2#32, [1], [0]), (nested 2#32 1#32, [], [1, 0]),
        ({ nested 1#32 1#32 with pc := 0x1000C#64 }, [], [])] : List (Team × List Nat × List Nat)).all fun (t, gone, rest) =>
       !t.inHandler && decide t.active.Nodup && t.active.all (fun n => decide (n < 3)) &&
         t.active.filter (fun n => t.inLoop n t.pc && t.pc + 4#64 == (t.loop n).stop) == gone ++ rest &&
         gone.all (fun n => (t.loop n).count == 1#32) && rest.head?.all (fun n => decide (1#32 < (t.loop n).count))) =
      true ∧ (inHandler (nested 1#32 1#32)).inHandler = true ∧
    (Leaves (nested 2#32 2#32) 0x20000#64 0 ∧ Leaves (nested 2#32 2#32) 0x20000#64 1) ∧
    (Leaves (nested 2#32 2#32) 0x1000C#64 1 ∧ ¬Leaves (nested 2#32 2#32) 0x1000C#64 0) ∧
    ∀ n, ¬Leaves (nested 2#32 2#32) 0x10010#64 n := by
  refine ⟨by decide +kernel, by decide +kernel, ?_, ?_, ?_⟩
  · unfold Leaves; decide +kernel
  · unfold Leaves; decide +kernel
  · rintro n ⟨h, -, -, k⟩
    have : n = 1 ∨ n = 0 := by simpa [nested, Team.setLoop, inLoops] using h
    rcases this with rfl | rfl <;> revert k <;> decide +kernel

/-- Of two loops that share their E the inner one ends and the outer one goes back; a branch out of both ends both
(R115, R116). -/
theorem test_nested_loops :
    (leaves (hereAs (nested 1#32 2#32)) .nop (fun _ u => u.pc == 0x1000C#64 && u.active == [0] &&
        (u.loop 1).count == 0#32 && (u.loop 0).count == 1#32) &&
      leaves (hereAs (nested 2#32 2#32)) (.br 0x100#19) (fun _ u => u.pc == 0x10410#64 && u.active == [] &&
        (u.loop 0).count == 0#32)) = true := by decide +kernel

/-- A loop goes back while iterations are left, and else ends (R115, Table 5.8). -/
theorem test_loop_end :
    (leaves (hereAs (inLoops 2#32)) .nop (fun _ u => u.pc == 0x1000C#64 && (u.loop 0).count == 1#32) &&
      leaves (hereAs (inLoops 1#32)) .nop (fun _ u => u.pc == 0x10014#64 && u.active == [])) = true := by decide +kernel

/-- LOOPI of 7 iterations over one word, as Table 5.8 prints it; a count of 0 skips the body (R114). -/
theorem test_loop_starts :
    (leaves here (.loopi 7#7 1#8 0#2) (fun _ u => u.pc == 0x10004#64 && (u.loop 0).count == 7#32 &&
        (u.loop 0).stop == 0x10008#64) &&
      leaves here (.loop 6#7 1#8 0#2) (fun _ u => u.pc == 0x10008#64 && u.active == [])) = true := by decide +kernel

/-- Meets the hypotheses of WaitsAndEnds: counters at, below and above the bound, a watched word that is aligned,
mapped and served. -/
theorem test_meets_WaitsAndEnds :
    (issuesAll me [.yield, .waitc 6#7 7#7] &&
      (let t := me.withS [(6, 0x1FFF8#64), (7, 1#64)]
       issuesAll t [.watch 6#7 7#7] && match (hereAs t).translateResident t.walker 0x1FFF8#64 .read [0, 1, 3] with
         | .ok (s, m) => decide (s.ctxs = here.ctxs) && decide (s.team? 1 = some t) && !s.pairsTo t m.phys &&
             !s.mustQueue t m.phys && !s.poisoned m.phys && m.phys.space == .gddr
         | _ => false) && [0x1FFF4#64, 0x4000000#64].all fun a => issuesAll (me.withS [(6, a)]) [.watch 6#7 7#7]) =
     true := by decide +kernel

/-- WAITC goes on at a counter equal to the bound; WATCH waits while the word equals s7 (R120, R121). -/
theorem test_waits :
    (leaves (here.setCounter 0 3 1#32) (.waitc 6#7 7#7) (fun _ u => u.wait.isNone) &&
      leaves ((hereAs (me.withS [(6, 3#64)])).setCounter 0 3 1#32) (.waitc 6#7 7#7) (fun _ u => u.wait.isSome) &&
      leaves (hereAs (me.withS [(6, 0x10008#64)])) (.watch 6#7 7#7) (fun _ u => u.wait.isSome) &&
      leaves (hereAs (me.withS [(6, 0x10008#64), (7, 1#64)])) (.watch 6#7 7#7) (fun _ u => u.wait.isNone)) = true := by
  decide +kernel

/-- Meets the hypotheses of WaitsAndEnds on EXIT, NOP and TRAPI. -/
theorem test_meets_ends : issuesAll me [.exit, .nop, .trapi 0xFFFF#16] = true := by decide +kernel

/-- TRAPI returns to the next instruction and carries its code (R122). -/
theorem test_trapi : leaves here (.trapi 0x1234#16) (fun _ u => u.pc == 0x10400#64 && u.trap.tpc == 0x10004#64 &&
    u.trap.tcause == 0x123400000016#64 && u.inHandler) = true := by decide +kernel

/-- Meets the hypotheses of ModeAccess: values at their limits, and reserved ones. -/
theorem test_meets_ModeAccess :
    (issuesAll me [.mset 0x3ACF#16, .mget 5#7] && issuesAll (me.withS [(6, 0x3ACF#64)]) [.msetr 6#7] &&
      issuesAll (me.withS [(6, 0x0C00#64)]) [.msetr 6#7] && issuesAll (me.withS [(6, 0x10000#64)]) [.msetr 6#7] &&
      here.canIssue me && !here.interlocked me (.mset 0x0C00#16) && !here.interlocked me (.mset 0x00D0#16)) = true := by
  decide +kernel

/-- A reserved RND leaves MODE and raises MODE_VALUE (R123). -/
theorem test_msetr : (leaves (hereAs (me.withS [(6, 0x0C00#64)])) (.msetr 6#7) (fun _ u =>
      u.trap.tcause == 16#64 && u.trap.tinfo == 0xC00#64) &&
    leaves (hereAs (me.withS [(6, 0x3ACF#64)])) (.msetr 6#7) (fun _ u => u.mode == 0x3ACF#16)) = true := by decide +kernel

/-- A stack of `n` entries. -/
def stacked (n : Nat) : Team :=
  { me with stack := List.replicate n { mask := 0xF0#1024, mode := 3#16 }, mode := 1#16 }

/-- Meets the hypotheses of MaskStack: at none, at 31 and at 32 entries. -/
theorem test_meets_MaskStack :
    ([0, 1, 31, 32].all fun n => issuesAll (stacked n) [.mpush 15#7 1#7, .melse 1#7 15#7, .mpop]) = true := by decide +kernel

/-- MPUSH narrows m0 by mA; MPOP restores the guard of the entry's MODE; MPUSH at 32 traps (R125). -/
theorem test_mask_stack :
    (leaves (hereAs (me.setMask 2 0xFF#1024)) (.mpush 3#7 2#7) (fun _ u => u.mask 3 == 0xFF#1024 && u.mode == 3#16 &&
        u.stack.length == 1) &&
      leaves (hereAs (stacked 1)) .mpop (fun _ u => u.mask 3 == 0xF0#1024 && u.mode == 3#16 && u.stack == []) &&
      leaves (hereAs (stacked 32)) (.mpush 3#7 2#7) (fun _ u => u.trap.tcause == 13#64 && u.trap.tinfo == 32#64)) =
      true := by decide +kernel

/-- Meets the hypotheses of MaskRegisters; lane 32 does not exist for a team of 32. -/
theorem test_meets_MaskRegisters :
    (issuesAll me [.mand 1#7 2#7 3#7, .mor 1#7 2#7 3#7, .mxor 1#7 2#7 3#7, .mandn 1#7 2#7 3#7, .mnot 1#7 2#7,
        .mmov 1#7 2#7, .mlen 1#7 6#7, .mfrs 1#7 6#7 7#7, .mcnt 5#7 2#7, .mffs 5#7 2#7, .mtos 5#7 2#7 7#7,
        .mall 5#7 2#7] && decide (me.ident.elanes ≤ 32)) = true := by decide +kernel

/-- MNOT reaches the existing lanes only; MFFS of an empty mask is all ones (R29, Table 5.9). -/
theorem test_masks :
    (leaves here (.mnot 1#7 2#7) (fun _ u => u.mask 1 == 0xFFFFFFFF#1024) &&
      gives [] (.mffs 5#7 2#7) 0xFFFFFFFFFFFFFFFF#64 &&
      leaves (hereAs (me.withS [(6, 5#64)])) (.mlen 1#7 6#7) (fun _ u => u.mask 1 == 31#1024)) = true := by decide +kernel

/-! ### Vector registers -/

/-- The team under an element type, a rounding mode and a random source (Table 3.5). -/
def inMode (etype rnd rsrc : Nat) (t : Team) : Team :=
  { t with mode := BitVec.ofNat 16 (16 * etype + 512 * rnd + 16384 * rsrc) }

/-- A register of `n` runs of one lane each. -/
def oneEach (n : Nat) : VReg := (List.range n).map fun k => { val := BitVec.ofNat 32 k, cnt := 1 }

/-- A team that has 256 run slots and uses them all: v7 and v8 hold 16 runs, the seven others 32. -/
def full : Team := { me with budget := 1, vregs := List.replicate 7 (oneEach 32) ++ List.replicate 2 (oneEach 16) }

/-- Whether a team's write of a register leaves its occupancy within its budget. -/
def fits (t : Team) (d : Nat) (v : VReg) : Bool :=
  decide ((hereAs t).occupancyAfter t [(d, v)] ≤ 256 * t.budget)

/-- A noise word in core 0's buffer. -/
def noisy (t : Team) : State := (hereAs t).modCore 0 fun k => { k with noise := [7#64] }

/-- Meets the hypotheses of VectorElementWise for every form: an element type that it takes, one that it does not,
a draw, a write that fits and one that does not. -/
theorem test_meets_VectorElementWise :
    ((table6Two.all fun p => issuesNow (hereAs (inMode (p.2.etypes.headD 0) 0 0 me))
          (inMode (p.2.etypes.headD 0) 0 0 me) (p.1 4#7 5#7 6#7 0#1) && !p.2.etypes.contains 13 &&
        !p.2.rounds.draws (inMode (p.2.etypes.headD 0) 0 0 me)) &&
      (table6Two.all fun p => p.2.rounds == .never || p.2.rounds.draws (inMode 1 5 0 me)) &&
      ((table6One 5#5 1#1).all fun p => issuesNow here me (p.1 4#7 5#7 0#1)) &&
      fits me 4 (zeroVReg 32) && fits full 8 (oneEach 16) && !fits full 8 (oneEach 32) &&
      (hereAs full).occupancy full == 256 && issuesAll full [.vmov 8#7 0#7 0#1]) = true := by decide +kernel

/-- The worked case of the run chapter: three runs, cut at the source's boundary and at the guard's edges. -/
theorem test_vadd_runs :
    (let t : Team := { me with
        ident := { launchIdent with elanes := 128, lanes := 128 }, mode := 1#16
        vregs := [[], [], [⟨0x3F800000#32, 64⟩, ⟨0x40000000#32, 64⟩], [⟨0x3F000000#32, 128⟩], [⟨0#32, 128⟩]]
        masks := me.masks.set 1 0xFFFFFFFFFFFFFFFF000000FFFFFFFFFF#1024 }
     leaves (hereAs t) (.vadd 4#7 2#7 3#7 0#1) fun _ u => u.vregs.getD 4 [] ==
       [⟨0x3FC00000#32, 40⟩, ⟨0#32, 24⟩, ⟨0x40200000#32, 64⟩]) = true := by decide +kernel

/-- RUN_OVERFLOW writes nothing and names the occupancy and the budget (R63); ETYPE_OP names the type (R128). -/
theorem test_vector_traps :
    (leaves (hereAs full) (.vmov 8#7 0#7 0#1) (fun _ u => u.trap.tcause == 3#64 &&
        u.trap.tinfo == 0x11000000100#64 && u.vregs == full.vregs) &&
      leaves (hereAs (inMode 0 0 0 me)) (.vshl 4#7 5#7 6#7 0#1) (fun _ u => u.trap.tcause == 4#64)) = true := by
  decide +kernel

/-- Meets the hypotheses of VectorSpecialFunctions. -/
theorem test_meets_VectorSpecialFunctions :
    (table65.all fun p => issuesAll me [p.1 4#7 5#7 0#1] && etypesF.contains me.etype && !p.2.2.draws me &&
      (p.2.2 == .never || p.2.2.draws (inMode 0 5 0 me)) && !etypesF.contains 3 &&
      ((hereAs (inMode 0 5 0 me)).beginDraw (inMode 0 5 0 me)).toOption.isSome && fits me 4 (zeroVReg 32)) = true := by
  decide +kernel

/-- A special function whose runs do not fit traps, with and without a draw; meets those clauses of
VectorSpecialFunctions. -/
theorem test_special_overflow :
    (table65.all fun p => issuesAll full [p.1 8#7 0#7 0#1] && issuesAll (inMode 0 5 0 full) [p.1 8#7 0#7 0#1] &&
      [full, inMode 0 5 0 full].all fun t => leaves (hereAs t) (p.1 8#7 0#7 0#1) fun _ u =>
        u.trap.tcause == 3#64 && u.trap.tinfo == 0x11000000100#64) = true := by decide +kernel

/-- Meets the hypotheses of VectorCompares, in a type that they take and one that they do not. -/
theorem test_meets_VectorCompares :
    (issuesAll me [.vcmpeq 1#7 5#7 6#7, .vcmpne 1#7 5#7 6#7, .vcmplt 1#7 5#7 6#7, .vcmple 1#7 5#7 6#7] &&
      issuesAll (inMode 12 0 0 me) [.vcmpeq 15#7 5#7 6#7] && !etypesNum.contains 13 && etypesNum.contains 12) = true := by
  decide +kernel

/-- A NaN lane equals nothing; VCMPNE holds there (R138). -/
theorem test_compare_nan :
    (let t : Team := { me with vregs := me.vregs.set 5 [⟨0x7FC00000#32, 1⟩, ⟨0#32, 31⟩] }
     leaves (hereAs t) (.vcmpeq 1#7 5#7 5#7) (fun _ u => u.mask 1 == 0xFFFFFFFE#1024) &&
       leaves (hereAs t) (.vcmpne 1#7 5#7 5#7) (fun _ u => u.mask 1 == 1#1024)) = true := by decide +kernel

/-- Meets the hypotheses of LanesGeneratedAndMoved: a rotation of some lanes and of none, an insertion at the last
lane and beyond it. -/
theorem test_meets_LanesGeneratedAndMoved :
    (issuesAll me [.vsel 4#7 5#7 6#7 0#1, .vbcast 4#7 6#7 7#7 0#1, .vidx 4#7 6#7 7#7 0#1, .vcompact 4#7 5#7 0#1,
        .vexpand 4#7 5#7 0#1, .vshfl 4#7 5#7 6#7 0#1, .vrotl 4#7 5#7 6#7 0#1, .vextr 5#7 5#7 6#7] &&
      (let t : Team := { me with vregs := me.vregs.set 5 [] }
       issuesAll t [.vrotl 4#7 5#7 6#7 0#1] && (t.vread 5#7).len == 0) &&
      decide (0 < (me.vread 5#7).len) && issuesAll (me.withS [(7, 31#64)]) [.vins 4#7 6#7 7#7 0#1] &&
      issuesAll (me.withS [(7, 32#64)]) [.vins 4#7 6#7 7#7 0#1]) = true := by decide +kernel

/-- The VCOMPACT of the run chapter, coalesced. -/
theorem test_vcompact :
    (let t : Team := { me with
        ident := { launchIdent with elanes := 64, lanes := 64 }, mode := 0x42#16
        vregs := [[], [], [], [], [], [⟨7#32, 20⟩, ⟨9#32, 44⟩], []]
        masks := me.masks.set 2 0xF000003F3FF#1024 }
     leaves (hereAs t) (.vcompact 6#7 5#7 1#1) fun _ u => u.vregs.getD 6 [] == [⟨7#32, 16⟩, ⟨9#32, 4⟩]) = true := by
  decide +kernel

/-- VIDX counts from sread(A) in steps of sread(B); VINS beyond the lanes does nothing (R140, R150). -/
theorem test_lanes :
    (leaves (hereAs (me.withS [(6, 3#64), (7, 2#64)])) (.vidx 4#7 6#7 7#7 0#1) (fun _ u => (u.vread 4#7).lane 31 == 65#32) &&
      leaves (hereAs (me.withS [(6, 3#64), (7, 32#64)])) (.vins 4#7 6#7 7#7 0#1) (fun _ u => u.vregs == me.vregs)) =
      true := by decide +kernel

/-- Meets the hypotheses of RunsAndBudgets: an allotment that shrinks, one that grows, one without room. -/
theorem test_meets_RunsAndBudgets :
    (issuesAll me [.rcoal 4#7 5#7 0#1, .rcnt 5#7 5#7, .rallot 5#7 1#9, .rallot 5#7 96#9, .rpool 5#7 6#7] &&
      issuesAll full [.rallot 5#7 96#9] && decide (full.allot < 96) && full.allot == 9 && me.allot == 96) = true := by
  decide +kernel

/-- RPOOL of the launched team's 64 granules down to the least it may hold: one (R154). -/
theorem test_rpool : (leaves here (.rpool 5#7 6#7) (fun _ u => u.budget == 1 && u.getS 5 == 1#64) &&
    leaves here (.rallot 5#7 4#9) (fun _ u => u.allot == 4 && u.getS 5 == 96#64)) = true := by decide +kernel

/-- Meets the hypotheses of ReductionsScansDraws, with and without a draw. -/
theorem test_meets_ReductionsScansDraws :
    (issuesAll me [.vredmin 5#7 5#7, .vredmax 5#7 5#7, .vredand 5#7 5#7, .vredor 5#7 5#7, .vredadd 5#7 5#7,
        .vscan 4#7 5#7 0#1, .vrng 4#7 5#7 0#1, .rngseed 6#7 7#7, .rngget 5#7 0#7, .rngget 5#7 1#7] &&
      !Rounds.floats.draws me && etypesNum.contains me.etype && Rounds.floats.draws (inMode 0 5 0 me) &&
      ((hereAs (inMode 0 5 0 me)).beginDraw (inMode 0 5 0 me)).toOption.isSome &&
      issuesAll (inMode 0 5 0 me) [.vredadd 5#7 5#7, .vscan 4#7 5#7 0#1] &&
      issuesAll (inMode 12 0 0 me) [.vscan 4#7 5#7 0#1] && !Rounds.floats.draws (inMode 12 0 0 me) &&
      me.guard.getLsbD 1 && me.guard.getLsbD 0 && decide (1 < me.ident.elanes) && (me.vread 5#7).lane 1 == 0#32 &&
      (me.vread 5#7).bounds == []) = true := by decide +kernel

/-- Under P8x4 a zero word is no zero, so that its lanes are cut as those of any other word are; under F32 a run of
zeros is not cut (R78, R157). -/
theorem test_p8_scan :
    (leaves (hereAs (inMode 12 0 0 me)) (.vscan 4#7 5#7 0#1) (fun _ u => (u.vread 4#7).length == 32) &&
      leaves here (.vscan 4#7 5#7 0#1) (fun _ u => (u.vread 4#7).length == 1) &&
      leaves (hereAs (inMode 12 0 0 { me with vregs := me.vregs.set 5 [⟨0x10#32, 32⟩] })) (.vscan 4#7 5#7 0#1)
        (fun _ u => (u.vread 4#7).length == 32)) = true := by decide +kernel

/-- The sum of 32 lanes of 1 under I32, and their running sums (R156, R157). -/
theorem test_sums :
    (let t := inMode 3 0 0 { me with vregs := me.vregs.set 5 [⟨1#32, 32⟩] }
     leaves (hereAs t) (.vredadd 5#7 5#7) (fun _ u => u.getS 5 == 32#64) &&
       leaves (hereAs t) (.vscan 4#7 5#7 0#1) (fun _ u => (u.vread 4#7).lane 31 == 32#32 &&
         (u.vread 4#7).length == 32)) = true := by decide +kernel

/-- Meets the hypotheses of RunsOfRegisters: cuts of a source's boundaries, a lane in the middle, and neighbours. -/
theorem test_meets_RunsOfRegisters :
    (let r : RawForm := { guard := 0xF#1024, elanes := 8, old := [⟨1#32, 4⟩, ⟨2#32, 4⟩], len := 8, split := true }
     let v : VReg := [⟨1#32, 1⟩, ⟨1#32, 1⟩, ⟨2#32, 1⟩]
     (r.runs [v] fun _ => 0#32).len == 8 && (sourceCuts [v]) == [3, 1, 2] && v.coalesce == [⟨1#32, 2⟩, ⟨2#32, 1⟩]) =
     true := by decide +kernel

/-- Meets the hypotheses of DrawSources: the key, a noise word, none, and a failed source. -/
theorem test_meets_DrawSources :
    (let t := inMode 0 5 1 me
     here.rsrcFor me == 0 && (noisy t).rsrcFor t == 1 && ((noisy t).core 0).noise == [7#64] &&
       !((noisy t).core 0).noiseFailed && ((hereAs t).core 0).noise == [] &&
       ((hereAs t).modCore 0 fun k => { k with noiseFailed := true }).rsrcFor t == 1) = true := by decide +kernel

/-- The launched team under RSRC 2 or 3 with its noise log from 0x10040 to `stop`, and a noise word. -/
def noiseLogged (rsrc stop : Nat) : State :=
  noisy { inMode 0 5 rsrc me with nlog := 0x10040#64, nlend := BitVec.ofNat 64 stop }

/-- Meets the hypotheses of DrawSources on the noise log: one with room and one without, to be written and to be read,
an address without a page, a replayed context. -/
theorem test_meets_NoiseLog :
    (let t := fun (rsrc stop : Nat) => ((noiseLogged rsrc stop).team? 1).getD me
     let mapped := fun (rsrc : Nat) (kind : Access) =>
       match (noiseLogged rsrc 0x10048).translateResident me.walker 0x10040#64 kind [0, 1, 3] with
       | .ok (s, m) => !s.pairsTo (t rsrc 0x10048) m.phys && !s.blocked (t rsrc 0x10048) m.phys &&
           !s.loadBlocked (t rsrc 0x10048) m.phys m.nc && (s.needRegions 0 1 m.phys).toOption.isSome &&
           (s.teamLoad (t rsrc 0x10048) m 8).toOption.isSome && m.phys.space == .gddr && s.memWf &&
           s.die0.bins == [] && (s.learnFx 0 1 0x10040#64 m.phys).die0.fxLines == []
       | .error _ => false
     let draws := fun (s : State) (t : Team) => (s.beginDraw t).toOption.map fun p => (p.2.key, p.2.rsrc)
     let replayed := (noiseLogged 2 0x10048).modCtx 1 fun c => { c with replay := some (0x12000#64, 32) }
     mapped 2 .write && mapped 3 .read && (noiseLogged 2 0).rsrcFor (t 2 0) == 2 && (noiseLogged 3 0).rsrcFor (t 3 0) == 3 &&
       replayed.rsrcFor (t 2 0) == 3 && !((noiseLogged 2 0).core 0).noiseFailed &&
       draws (noiseLogged 2 0x10048) (t 2 0x10048) == some (7#64, 2) && draws (noiseLogged 2 0x10047) (t 2 0x10047) == none &&
       draws (noiseLogged 3 0x10048) (t 3 0x10048) != none && draws (noiseLogged 3 0x10047) (t 3 0x10047) == none &&
       (match here.translateResident me.walker 0x30000#64 .read [0, 1, 3] with
        | .error (.trap _) => true
        | _ => false)) = true := by decide +kernel

/-- A draw under RSRC 2 stores its word at NLOG and moves NLOG on; without room it raises LOG_LIMIT (R364). -/
theorem test_noise_log :
    (leaves (noiseLogged 2 0x10048) (.vrng 4#7 5#7 0#1) (fun r u => r.die0.mem.read 0x10040 8 == 7 &&
        u.nlog == 0x10048#64 && u.ctr == 1#64) &&
      leaves (noiseLogged 2 0x10047) (.vrng 4#7 5#7 0#1) (fun _ u => u.trap.tcause == 21#64 &&
        u.trap.taddr == 0x10040#64 && u.trap.tinfo == 0x10047#64)) = true := by decide +kernel

/-- A draw under RSRC 1 takes the noise word, and CTR is one more (R160, R161). -/
theorem test_draw : leaves (noisy (inMode 0 5 1 me)) (.vrng 4#7 5#7 0#1)
    (fun r u => u.ctr == 1#64 && (r.core 0).noise == []) = true := by decide +kernel

/-! ### Scalar memory -/

/-- A state at a later TIME of die 0. -/
def later (s : State) : State := s.modDie 0 fun k => { k with time := 10 }

/-- What an aligned access finds, where it reaches a resident page without an unaccepted pair of the team. -/
def reached (s : State) (t : Team) (va : Word) (n : Nat) (kind : Access) : Option (State × Mapped) :=
  match s.translateResident t.walker va kind [0, 1, 3] with
  | .ok (s', m) =>
    if va.toNat % n = 0 && !s'.pairsTo t m.phys && (s'.needRegions t.coreId t.ctx m.phys).toOption.isSome then
      some (s', m) else none
  | .error _ => none

theorem reaches_of {s s' : State} {t : Team} {va : Word} {n : Nat} {kind : Access} {m : Mapped}
    (h : reached s t va n kind = some (s', m)) : ReachesStore s t va n kind [0, 1, 3] s' m := by
  simp only [reached] at h
  split at h
  · rename_i s1 m1 hm
    split at h
    · rename_i hc
      cases h
      simp only [Bool.and_eq_true, decide_eq_true_eq, Bool.not_eq_true'] at hc
      refine ⟨⟨hc.1.1, hm, hc.1.2⟩, ?_⟩
      cases k : s'.needRegions t.coreId t.ctx m.phys with
      | ok => rfl
      | error e => simp [k, Except.toOption] at hc
    · cases h
  · cases h

/-- An address at which translation traps. -/
def unmapped (s : State) (t : Team) (va : Word) (kind : Access) (spaces : List Nat) : Bool :=
  match s.translateResident t.walker va kind spaces with
  | .error (.trap _) => true
  | _ => false

/-- The state in which core 1 holds a write lease on the line of 0x10000. -/
def contended (s : State) : State :=
  s.modDie 0 fun k => { k with wleases := [{ line := 0x10000, core := 1, g0 := 0, expiry := 1000 }] }

/-- A request of the team's stands queued at the home of the line of 0x10000. -/
def storing (s : State) : State :=
  let q : MeshReq := { kind := .store [1#8], uid := 1, ctx := 1, core := 0, nc := false, since := 0,
                       loc := { space := .gddr, unit := 0, addr := 0x10000 }, seq := none }
  s.modDie 0 fun k => { k with mesh := [q] }

/-- Meets the hypotheses of WaitsAndEnds where WATCH does not complete: its home busy, an earlier store of the team
queued there, no page, a misaligned address. -/
theorem test_meets_WatchHeld :
    (let l := me.withS [(6, 0x10000#64)]
     let i := Instr.watch 6#7 7#7
     issuesNow (contended (hereAs l)) l i && issuesNow (storing (hereAs l)) l i &&
       (reached (contended (hereAs l)) l 0x10000#64 8 .read).any (fun p => p.1.mustQueue l p.2.phys) &&
       (reached (storing (hereAs l)) l 0x10000#64 8 .read).any (fun p => p.1.mustQueue l p.2.phys) &&
       unmapped here me 0x30000#64 .read [0, 1, 3] && issuesAll (me.withS [(6, 0x30000#64)]) [i] &&
       leaves (storing (hereAs l)) i (fun r u => r.stalled && u.pc == 0x10000#64)) = true := by decide +kernel

/-- Meets the hypotheses of ScalarLoads: misaligned, unmapped, served at once, queued, and at a loop's end. -/
theorem test_meets_ScalarLoads :
    (let t := me.withS [(6, 0x10FF8#64)]
     let l := me.withS [(6, 0x10000#64)]
     let ls := [Instr.ld 5#7 6#7 7#7 0#2, .lda 5#7 6#7 7#7 0#2, .ldx 5#7 6#7 0#2 0#32]
     issuesAll t ls && Machine.sizeOf 0#2 == 8 &&
       issuesAll (me.withS [(6, 0x10001#64)]) ls && issuesAll (me.withS [(6, 0x30000#64)]) ls &&
       unmapped here me 0x30000#64 .read [0, 1, 3] &&
       (reached (hereAs t) t 0x10FF8#64 8 .read).any (fun p => !p.1.loadQueues t p.2.phys false &&
         (p.1.teamLoad t p.2 8).toOption.isSome) &&
       issuesNow (contended (hereAs l)) l (.ld 5#7 6#7 7#7 0#2) &&
       (reached (contended (hereAs l)) l 0x10000#64 8 .read).any (fun p => p.1.loadQueues l p.2.phys false &&
         p.1.hasCredit l.coreId p.2.phys && !({ p.1 with intakeCap := 0 } : State).hasCredit l.coreId p.2.phys) &&
       (reached (storing (hereAs l)) l 0x10000#64 8 .read).any (fun p => p.1.loadQueues l p.2.phys true) &&
       (let u := { inLoops 2#32 with pc := 0x10010#64 }
        issuesAll u [.ldx 5#7 6#7 0#2 0#32] && u.active.any fun k => (u.loop k).stop == u.pc + 4#64)) = true := by
  decide +kernel

/-- The launched team whose load into s5 from 0x10000 is on its way. -/
def awaiting (acquire : Bool) : Team :=
  { me.withS [(6, 0x10040#64), (8, 0x10000#64)] with
    pend := some (.load 5 8 { space := .gddr, unit := 0, addr := 0x10000 } acquire) }

/-- Meets the hypotheses of ScalarLoads on what follows a load: instructions that go past it and name other registers,
one that names s5, a store, a load that must queue behind a line in use, TRAPI, EXIT, and an acquire load. -/
theorem test_meets_LoadsAreOvertaken :
    (let t := awaiting false
     let past := fun (s : State) (i : Instr) => decide (s.team? s.cur = some t) && s.canIssue t && t.loading == some 5 &&
       !s.interlocked { t with pend := none } i && i.wellFormed && !i.privileged && (s.namedVectors t i).isEmpty &&
       (s.rayVectors t i).isEmpty && i.timeReads == 0
     let l := { awaiting false with sregs := t.sregs.set 6 0x10000#64 }
     table53.all (fun p => past (hereAs t) (p.1 7#7 6#7 8#7 0#1) && !(p.1 7#7 6#7 8#7 0#1).scalarNumbers.contains 5) &&
       past (hereAs t) (.st 7#7 6#7 9#7 0#2) && (reached (hereAs t) t 0x10040#64 8 .write).any (fun p =>
         !p.1.mustQueue t p.2.phys) && past (hereAs t) (.ld 7#7 6#7 9#7 0#2) && past (hereAs t) (.trapi 5#16) &&
       (reached (contended (hereAs l)) l 0x10000#64 8 .read).any (fun p => p.1.loadQueues l p.2.phys p.2.nc) &&
       (Instr.add 5#7 6#7 7#7 0#1).scalarNumbers.contains 5 &&
       [Instr.exit, .add 5#7 6#7 7#7 0#1, .epend].all (fun i => (encodeWords i).isSome && leaves (hereAs t) i
         fun r _ => r.stalled) && leaves (hereAs t) (.add 7#7 6#7 8#7 0#1) (fun r u => !r.stalled && u.pend == t.pend &&
         u.getS 7 == 0x20040#64) &&
       leaves (hereAs (awaiting true)) (.add 7#7 6#7 8#7 0#1) (fun r _ => r.stalled)) = true := by decide +kernel

/-- A load that is taken late waits in the mesh, and a store after it performs first (R182). -/
theorem test_overtaking :
    (let t := me.withS [(6, 0x10040#64), (7, 9#64), (8, 0x100#64)]
     leaves { hereAs t with late := true } (.ld 5#7 6#7 9#7 0#2) fun r u => r.die0.mesh.length == 1 &&
       u.loading == some 5 &&
       leaves { r with late := false } (.st 7#7 6#7 8#7 0#2) (fun q _ => q.die0.mem.read 0x10140 8 == 9)) = true := by
  decide +kernel

/-- A load zero-extends; one beyond the tables traps at its address (R195, Table 19.2). -/
theorem test_loads :
    (let s := hereAs (me.withS [(6, 0x10008#64), (7, 0x30000#64)])
     let s := s.modDie 0 fun k => { k with mem := k.mem.write 0x10008 8 0xFFEEDDCCBBAA9988 }
     leaves s (.ld 5#7 6#7 8#7 2#2) (fun _ u => u.getS 5 == 0x9988#64) &&
       leaves s (.ld 5#7 7#7 8#7 1#2) (fun _ u => u.trap.tcause == 0x407#64 && u.trap.taddr == 0x30000#64)) = true := by
  decide +kernel

/-- Meets the hypotheses of StoresAndFences: a store at once and queued, a fence that holds and one that does not, no
bytes and more than 2 MiB. -/
theorem test_meets_StoresAndFences :
    (let t := me.withS [(6, 0x1FFF8#64), (8, 0x200001#64)]
     let l := me.withS [(6, 0x10000#64)]
     let w : Team := { t with outstanding := 1 }
     issuesAll t [.st 5#7 6#7 7#7 0#2, .stl 5#7 6#7 3#7 0#2, .fence 3#7, .linv 6#7 7#7, .linv 6#7 8#7] &&
       issuesAll (me.withS [(6, 0x1FFFF#64)]) [.st 5#7 6#7 7#7 1#2, .stl 5#7 6#7 0#7 1#2] &&
       unmapped here me 0x20000#64 .write [0, 1, 3] &&
       (reached (hereAs t) t 0x1FFF8#64 8 .write).any (fun p => !p.1.mustQueue t p.2.phys) &&
       (reached (contended (hereAs l)) l 0x10000#64 8 .write).any (fun p => p.1.mustQueue l p.2.phys) &&
       (later here).fenceHolds me 3 && !(hereAs w).fenceHolds w 0 && issuesAll w [.stl 5#7 6#7 0#7 0#2, .fence 0#7] &&
       (t.getS 7).toNat == 0 && decide (2097152 < (t.getS 8).toNat) &&
       (let u := me.withS [(6, 0x10000#64), (7, 2097152#64)]
        issuesAll u [.linv 6#7 7#7] && here.die0.bins == [] && here.die1.bins == [] &&
          ((hereAs u).eachPage u 0x10000 2097152 (fun r p n => r.endLeases u.coreId p n)
            ((List.range 34).map fun k => 1 + k)).toOption.isSome)) = true := by decide +kernel

/-- LINV of one byte ends the leases on its line and no other: a read lease, a write lease, that of a reply (R185,
R199). -/
theorem test_linv :
    (let leased := fun (a : Nat) => ({ die := 0, line := a, data := [], exp := 1000 } : L1Line)
     let s := hereAs (me.withS [(6, 0x1007F#64), (7, 1#64)])
     let s := s.modCore 0 fun k => { k with
       l1 := [leased 0x10000, leased 0x10080]
       replies := [{ uid := 2, d := 5, n := 8, loc := { space := .gddr, unit := 0, addr := 0x10010 }, nc := false,
                     data := [], exp := 1000, fills := true, sent := 0 }] }
     let s := s.modDie 0 fun k => { k with
       wleases := [0, 1].flatMap fun c => [0x10000, 0x10080].map fun a => { line := a, core := c, g0 := 0, expiry := 1000 } }
     leaves s (.linv 6#7 7#7) fun r _ => (r.core 0).l1 == [leased 0x10080] &&
       r.die0.wleases.map (fun w => (w.core, w.line)) == [(0, 0x10080), (1, 0x10000), (1, 0x10080)] &&
       (r.core 0).replies.map LoadReply.fills == [false]) = true := by decide +kernel

/-- A store changes its own bytes; the last byte of the page is one of them (R195). -/
theorem test_stores :
    leaves (hereAs (me.withS [(5, 0x1122334455667788#64), (6, 0x1FFFE#64)])) (.st 5#7 6#7 7#7 2#2)
      (fun r _ => r.die0.mem.read 0x1FFFC 4 == 0x77880000 && r.die0.mem.read 0x20000 4 == 0) = true := by decide +kernel

/-- Meets the hypotheses of ScalarAtomics: both widths, served at once and queued, with and without a lease. -/
theorem test_meets_ScalarAtomics :
    (let t := me.withS [(6, 0x10040#64)]
     let l := me.withS [(6, 0x10000#64)]
     issuesAll t (table83.flatMap fun p => [p.1 5#7 6#7 7#7 0#1, p.1 5#7 6#7 7#7 1#1]) &&
       issuesAll (me.withS [(6, 0x10004#64)]) (table83.map fun p => p.1 5#7 6#7 7#7 0#1) &&
       unmapped here me 0x20000#64 .both [0, 1, 3] &&
       (reached (hereAs t) t 0x10040#64 8 .both).any (fun p =>
         let s := p.1.learnFx t.coreId t.ctx 0x10040#64 p.2.phys
         !s.mustQueue t p.2.phys && !s.poisoned p.2.phys) &&
       (reached (contended (hereAs l)) l 0x10000#64 8 .both).any (fun p =>
         (p.1.learnFx l.coreId l.ctx 0x10000#64 p.2.phys).mustQueue l p.2.phys)) = true := by decide +kernel

/-- ATADD wraps at 32 bits; ATCAS writes only where the old value is s[D]'s (Table 8.3). -/
theorem test_atomics :
    (let s := (hereAs (me.withS [(5, 9#64), (6, 0x10040#64), (7, 1#64)])).modDie 0 fun k =>
       { k with mem := k.mem.write 0x10040 8 0xFFFFFFFF }
     leaves s (.atadd 5#7 6#7 7#7 1#1) (fun r u => r.die0.mem.read 0x10040 8 == 0 && u.getS 5 == 0xFFFFFFFF#64) &&
       leaves s (.atcas 5#7 6#7 7#7 0#1) (fun r u => r.die0.mem.read 0x10040 8 == 0xFFFFFFFF &&
         u.getS 5 == 0xFFFFFFFF#64) &&
       leaves s (.atmin 5#7 6#7 7#7 1#1) (fun r _ => r.die0.mem.read 0x10040 8 == 0xFFFFFFFF)) = true := by decide +kernel

/-- Where the byte at 0x10000 lies. -/
def pageStart : Mapped :=
  { leaf := 0x1001F#64, phys := { space := .gddr, unit := 0, addr := 0x1007C }, nc := false, resident := true }

/-- Meets the hypotheses of HomesHoldTheBytes: the end of a line, unleased, leased, and in DSM; memories in canonical
form. -/
theorem test_meets_HomesHoldTheBytes :
    (let l : L1Line := { die := 0, line := 0x10000, data := [], exp := 1000 }
     let s := here.modCore 0 fun k => { k with l1 := [l] }
     !here.poisoned pageStart.phys && decide (pageStart.phys.addr % 128 + 4 ≤ 128) &&
       (here.leased? me.coreId 0 0x10000).isNone && (here.ownLease? me.coreId 0 0x10000).isNone &&
       s.leased? me.coreId 0 0x10000 == some l && here.memWf &&
       ((here.recallLine 0 0 0x10000).applyLine 0 0x10000).memWf &&
       (((here.recallLine 0 0 0x10000).applyLine 0 0x10000).die 0).fxLines == []) = true := by decide +kernel

/-- The line `v` of those that share set 0, held for class `k`. -/
def setLine (v k : Nat) : CacheLine := { line := v * 0x108000000, cls := k }

/-- A die whose set 0 holds `n` lines of class `k` before those of another list. -/
def cached (n k : Nat) (rest : List CacheLine) : Die :=
  { here.die0 with cache := (List.range n).map (fun v => setLine v k) ++ rest }

/-- Meets the hypotheses of HomesHoldTheBytes on the shared cache: a line that it holds, a class at its limit, a free
way, every way in use. -/
theorem test_meets_CacheFills :
    ((cached 3 0 []).cache.find? (fun l => l.line == 0x108000000) == some (setLine 1 0) &&
      [(3, 3), (3, 15), (9, 15)].all (fun p =>
        let d := { cached p.1 0 [] with regs := { here.die0.regs with closq := BitVec.ofNat 64 p.2 } }
        !d.caches 0x948000000 && (d.cache.filter fun l => cacheSet l.line == cacheSet 0x948000000).length == p.1 &&
          wordBits d.regs.closq 0 4 == p.2 && 16 - d.poolw - d.trlw - d.dsmw == 9)) = true := by decide +kernel

/-- A hit moves its line to the front; a full set loses its least recently used line, whose EXP the set keeps; a class
at its limit loses a line of its own, and one that may hold none fills nothing (R176, R188). -/
theorem test_cache :
    (((cached 3 0 []).touch 0x108000000 2).cache == [setLine 1 0, setLine 0 0, setLine 2 0] &&
      (let d := { cached 8 0 [setLine 20 1] with exp := [(20 * 0x108000000, 77)] }.touch (setLine 9 0).line 0
       d.cache.head? == some (setLine 9 0) && d.cache.length == 9 && !d.caches (setLine 20 0).line &&
         d.lineExp (setLine 20 0).line == 77 && d.lineExp (setLine 25 0).line == 77) &&
      (let r := { here.die0.regs with closq := 0x30#64 }
       ({ cached 3 1 [setLine 20 0] with regs := r }.touch (setLine 9 0).line 1).cache ==
           [setLine 9 1, setLine 0 1, setLine 1 1, setLine 20 0] &&
         { cached 3 1 [] with regs := r }.touch (setLine 9 0).line 0 == { cached 3 1 [] with regs := r })) = true := by
  decide +kernel

/-! ### Vector memory -/

/-- Whether a vector load of elements can go on: translated, servable, loaded. -/
def lanesLoad (t : Team) (addr : Nat → Word) (lanes : List Nat) : Bool :=
  match (hereAs t).mapLanes t .read addr lanes with
  | .ok (s, es) =>
    let present := es.filter (fun e => e.at_.resident)
    (s.needElements t present).toOption.isSome && present.all (fun e => (s.needRegions 0 1 e.at_.phys).toOption.isSome) && (s.loadElements t present).toOption.isSome
  | .error _ => false

/-- Meets the hypotheses of VectorLoads and of the stores: strides aligned and not, lanes up to the page's last
word. -/
theorem test_meets_VectorLoads :
    (let t := me.withS [(6, 0x1FF80#64), (7, 4#64)]
     issuesAll t [.vld 4#7 6#7 1#7 0#1, .vlds 4#7 6#7 1#7 0#1, .vldb 4#7 6#7 1#7 0#1, .vst 4#7 6#7 1#7,
         .vsts 4#7 6#7 1#7] &&
       issuesAll (me.withS [(6, 0x1FF80#64), (7, 2#64)]) [.vlds 4#7 6#7 1#7 0#1, .vsts 4#7 6#7 1#7] &&
       (t.guarded 32).length == 32 && lanesLoad t (fun n => 0x1FF80#64 + BitVec.ofNat 64 (4 * n)) (t.guarded 32) &&
       lanesLoad t (fun _ => 0x1FFFC#64) ((t.guarded 32).take 1) && fits t 4 (oneEach 32) &&
       (match (hereAs t).mapLanes t .write (fun n => 0x1FF80#64 + BitVec.ofNat 64 (4 * n)) (t.guarded 32) with
        | .ok (s, es) => (s.needElements t es).toOption.isSome
        | .error _ => false)) = true := by decide +kernel

/-- VLD of 32 words, a store of them 4 bytes apart, and a misaligned stride (R201). -/
theorem test_vector_memory :
    (let s := (hereAs (me.withS [(6, 0x10100#64), (7, 2#64)])).modDie 0 fun k =>
       { k with mem := k.mem.write 0x1017C 4 77 }
     leaves s (.vld 4#7 6#7 0#7 0#1) (fun _ u => u.vregs.getD 4 [] == [⟨0#32, 31⟩, ⟨77#32, 1⟩]) &&
       leaves s (.vlds 4#7 6#7 0#7 0#1) (fun _ u => u.trap.tcause == 5#64 && u.trap.taddr == 2#64)) = true := by
  decide +kernel

/-- A load whose runs do not fit writes nothing (R63); meets that clause of VectorLoads. -/
theorem test_vld_overflow :
    (let t := full.withS [(6, 0x10100#64)]
     let s := (hereAs t).modDie 0 fun k =>
       { k with mem := (List.range 32).foldl (fun m n => m.write (0x10100 + 4 * n) 4 (n + 1)) k.mem }
     issuesNow s t (.vld 8#7 6#7 0#7 0#1) &&
       leaves s (.vld 8#7 6#7 0#7 0#1) fun _ u => u.trap.tcause == 3#64 && u.trap.tinfo == 0x11000000100#64 &&
         u.vregs == full.vregs) = true := by decide +kernel

/-- The launched state whose context has a page-request ring of two entries in the host's memory, with `n` requests
in it. -/
def ringed (n : Nat) (t : Team) : State :=
  let s := (hereAs t).modCtx 1 fun c => { c with prbase := 0x1000#64, prlog2n := 1 }
  { s with host := { s.host with mem := Memory.write [] 0x1004 4 n } }

/-- Meets the hypotheses of VectorStoresAndPageRequests: no bytes, a full ring, and one with room. -/
theorem test_meets_VectorStoresAndPageRequests :
    (let t := me.withS [(5, 9#64), (6, 0x12345#64), (7, 1#64)]
     issuesNow (ringed 1 t) t (.preq 5#7 6#7 7#7) && issuesNow (ringed 2 t) t (.preq 5#7 6#7 8#7) &&
       (ringed 2 t).host.mem.read 0x1004 4 == 2 && (ringed 2 t).host.mem.wf && (t.getS 8).toNat == 0) = true := by
  decide +kernel

/-- A page request stands at the tail with its first page, and raises vector 1 (R203). -/
theorem test_preq :
    leaves (ringed 1 (me.withS [(6, 0x12345#64), (7, 1#64)])) (.preq 5#7 6#7 7#7) (fun r u => r.host.msix == [1] &&
      r.host.mem.read 0x1060 8 == 0x10000 && r.host.mem.read 0x1004 4 == 2 && u.pc == 0x10004#64) = true := by decide +kernel

/-- The state in which one word of core 0's scratchpad is uncorrectable. -/
def unsound (s : State) (w : Nat) : State := s.modCore 0 fun k => { k with badScratch := [w] }

/-- A misaligned base of SLDT traps with no lane guarded; a read of an uncorrectable word halts the context, and a
store makes it sound (R207, R365). -/
theorem test_scratch_errors :
    (leaves (hereAs ({ me.withS [(6, 2#64)] with mode := 1#16 }.setMask 1 0#1024)) (.sldt 4#7 6#7 7#7 0#1)
        (fun _ u => u.trap.tcause == 5#64 && u.trap.taddr == 2#64) &&
      leaves (unsound (hereAs me) 4) (.sld 5#7 6#7 7#7) (fun _ u => u.pc == 0x10004#64) &&
      leaves (unsound (hereAs me) 0) (.sld 5#7 6#7 7#7) (fun r u => u.pc == 0x10000#64 && r.ctxs.map Ctx.halted == [true]) &&
      leaves (unsound (hereAs me) 0) (.sst 5#7 6#7 7#7) (fun r _ => (r.core 0).badScratch == [])) = true := by decide +kernel

/-- Meets the hypotheses of ScratchpadAccess: the last word of the scratchpad, the first beyond it, a misaligned
offset, and aligned lanes. -/
theorem test_meets_ScratchpadAccess :
    ([4092, 4096, 4093].all (fun o => issuesAll (me.withS [(6, BitVec.ofNat 64 o)]) [.sld 5#7 6#7 7#7,
        .sst 5#7 6#7 7#7]) && me.scrSize == 4096 &&
      issuesAll me [.sgath 4#7 5#7 6#7 0#1, .sscat 4#7 5#7 6#7, .sldt 4#7 6#7 7#7 0#1] &&
      issuesAll (me.withS [(6, 2#64)]) [.sldt 4#7 6#7 7#7 0#1] && issuesAll (me.withS [(7, 2#64)]) [.sldt 4#7 6#7 7#7 0#1] &&
      !(here.core 0).badAt (me.ident.scrBase + 4092) 4 && issuesNow (unsound (hereAs me) 0) me (.sld 5#7 6#7 7#7) &&
      ((unsound (hereAs me) 0).core 0).badAt me.ident.scrBase 4 &&
      ((me.guarded 32).all fun n => decide (((me.vread 5#7).lane n).toNat % 4 = 0) &&
        decide (((me.vread 5#7).lane n).toNat < 4096))) = true := by decide +kernel

/-- The highest lane of a scatter wins; an offset of SCRSIZE raises SCR_RANGE (R206, R166). -/
theorem test_scratchpad :
    (let t : Team := { me.withS [(7, 4096#64)] with vregs := me.vregs.set 4 (oneEach 32) }
     leaves (hereAs t) (.sscat 4#7 5#7 6#7) (fun r _ => (r.core 0).scratch.read 0 4 == 31) &&
       leaves (hereAs t) (.sld 5#7 7#7 8#7) (fun _ u => u.trap.tcause == 10#64 && u.trap.taddr == 4096#64)) = true := by
  decide +kernel

/-- A cluster of two cores, its team of rank 0. -/
def clustered : Team := { me with ident := { launchIdent with clw := 2 } }

/-- Meets the hypotheses of ImagesAndPeers: images in memory and in the scratchpad, an invalid one, a peer's last
word, a rank and an offset beyond the range. -/
theorem test_meets_ImagesAndPeers :
    (let t := me.withS [(6, 0x10000#64), (7, 8#64)]
     let image := (t.vread 5#7).image
     let s := (hereAs t).modCore 0 fun k => { k with scratch := Memory.setBytes [] 8 image }
     let m := s.modDie 0 fun k => { k with mem := k.mem.setBytes 0x10000 image }
     let bad := hereAs t |>.modCore 0 fun k => { k with scratch := Memory.write [] 8 8 0x800 }
     issuesNow s t (.rsave 5#7 5#7 6#7) && issuesNow s t (.sstc 5#7 5#7 7#7) && issuesNow s t (.sldc 4#7 7#7 0#1) &&
       issuesNow m t (.rload 4#7 6#7 0#1) && decide (8 + image.length ≤ t.scrSize) &&
       (s.core 0).scratch.bytes 8 image.length == image && (t.vread 5#7).len == 32 &&
       (match s.mapParts t .write [0, 1] (partsOf 0x10000#64 image.length) with
        | .ok (s1, ps) => (s1.needParts t ps).toOption.isSome
        | .error _ => false) &&
       (match m.mapParts t .read [0, 1] (partsOf 0x10000#64 8) with
        | .ok (s1, hp) => (match s1.loadParts t hp with
          | .ok (_, hb) => headerValid (leNat hb) 32 && (s1.needParts t hp).toOption.isSome
          | .error _ => false)
        | .error _ => false) &&
       !(s.core 0).badAt 8 image.length && !(bad.core 0).badAt 8 8 && issuesNow bad t (.sldc 4#7 7#7 0#1) && !headerValid ((bad.core 0).scratch.read 8 8) 32 &&
       issuesAll (clustered.withS [(6, 1#64), (7, 4092#64)]) [.clds 5#7 6#7 7#7, .csts 5#7 6#7 7#7] &&
       issuesAll (clustered.withS [(6, 2#64), (7, 4096#64)]) [.clds 5#7 6#7 7#7, .csts 5#7 6#7 7#7] &&
       issuesAll (clustered.withS [(7, 4093#64)]) [.clds 5#7 6#7 7#7]) = true := by decide +kernel

/-- An image saved to memory loads back (R65, R155); a peer's request names its core (R209). -/
theorem test_images :
    (let t : Team := { me.withS [(6, 0x10000#64)] with vregs := me.vregs.set 5 [⟨7#32, 20⟩, ⟨9#32, 12⟩] }
     leaves (hereAs t) (.rsave 5#7 5#7 6#7) (fun r u => u.getS 5 == 24#64 &&
       leaves r (.rload 4#7 6#7 0#1) fun _ v => v.vregs.getD 4 [] == [⟨7#32, 20⟩, ⟨9#32, 12⟩]) &&
       leaves (hereAs (clustered.withS [(6, 1#64)])) (.clds 5#7 6#7 7#7) (fun r u => (r.core 1).inbound.length == 1 &&
         u.pend.isSome)) = true := by decide +kernel

/-! ### Streams, counters, barriers, DSM -/

/-- The launched state with an update region of ADD32 over the second half of the page. -/
def regioned (t : Team) : State :=
  (hereAs t).modCore 0 fun k => { k with
    regions := [(1, [{ vbase := 0x18000#64, size := 0x4000#64, opw := 1#64, shadow := 0#64 },
      { vbase := 0x1C000#64, size := 0x4000#64, opw := 99#64, shadow := 0#64 },
      { vbase := 0x20000#64, size := 0x1000#64, opw := 1#64, shadow := 0#64 }])] }

/-- Meets the hypotheses of UpdatePairs: a misaligned base, a full stream, one with room for 32 pairs, pairs on their
way, and each fate of a pair. -/
theorem test_meets_UpdatePairs :
    (let t := me.withS [(6, 0x18000#64)]
     let p : Pair := { uid := 1, core := 0, ctx := 1, die := 0, addr := 0, op := 1, fxf := 0, shadow := 0, off := 0,
                       val := 0#32, ray := none, seq := none }
     let streams := fun (n : Nat) => (regioned t).modCore 0 fun k => { k with streams := [(0, List.replicate n p)] }
     let fate := fun (va : Word) => ((regioned t).pairFate t (((regioned t).core 0).regions.headD (0, [])).2
       { va := va, val := 1#32, ray := none }).toOption.map fun r => match r.2 with
         | .inl _ => 0
         | .inr d => d.code
     let ls := [Instr.upd 4#7 6#7 5#7, .upds 4#7 6#7, .uflush 6#7 7#7]
     let f := t.withS [(7, 65535#64)]
     ((hereAs f).eachPage f 0x18000 65535 (fun r p k => r.applyRange f p k)
       ((hereAs f).pagesMeeting f 0x18000 65535)).toOption.isSome && issuesAll f ls && !(hereAs f).streaming f &&
       issuesAll t ls && issuesAll (me.withS [(6, 2#64)]) ls && ls.all (issuesNow (streams 1000) t) &&
       ls.all (issuesNow (streams 992) t) && ((streams 992).streamOf t).length + 32 == 1024 &&
       (streams 1).streaming t && !(hereAs t).streaming t && (t.getS 7).toNat == 0 &&
       ((regioned t).regionsOf 0 1).toOption.isSome && fate 0x18000#64 == some 0 && fate 0x1BFFC#64 == some 0 &&
       fate 0x17FFC#64 == some 64 && fate 0x1C000#64 == some 65 && fate 0x20000#64 == some 66) = true := by decide +kernel

/-- UPDS sends one pair per lane; a pair that no region covers is dropped and recorded (R210, R401). -/
theorem test_updates :
    (leaves (regioned (me.withS [(6, 0x18000#64)])) (.upds 4#7 6#7) (fun r u => (r.streamOf u).length == 32 &&
        r.host.preRingCount == 0) &&
      leaves (regioned (me.withS [(6, 0x10000#64)])) (.upds 4#7 6#7) (fun r u => r.streamOf u == [] &&
        r.host.preRingCount == 1)) = true := by decide +kernel

/-- Meets the hypotheses of CountersComplete: addresses aligned and not, mapped and not, fences that hold and not. -/
theorem test_meets_CountersComplete :
    (let ls := [Instr.tdec 6#7, .tinc 6#7, .tspawn 6#7]
     let t := me.withS [(6, 0x10040#64)]
     let w : Team := { t with outstanding := 1 }
     issuesAll t (ls ++ [.cset 6#7 7#7, .cadd 6#7 7#7, .cget 5#7 6#7]) && issuesAll (me.withS [(6, 0x10020#64)]) ls &&
       issuesAll (me.withS [(6, 0x20000#64)]) ls && unmapped here me 0x20000#64 .both [0, 1] &&
       (reached (later (hereAs t)) t 0x10040#64 64 .both).any (fun p => p.1.fenceHolds t 3) &&
       (reached (hereAs w) w 0x10040#64 64 .both).any (fun p => !p.1.fenceHolds w 3) &&
       issuesAll w (ls ++ [.cset 6#7 7#7, .cadd 6#7 7#7]) && here.fenceHolds me 0 && !(hereAs w).fenceHolds w 0) = true := by
  decide +kernel

/-- CADD wraps at 32 bits (R215); TDEC is on its way with its address (R213). -/
theorem test_counters :
    (let t := me.withS [(6, 255#64), (7, 0xFFFFFFFF#64), (8, 0x10040#64)]
     leaves ((hereAs t).setCounter 0 255 2#32) (.cadd 6#7 7#7) (fun r _ => r.counter 0 255 == 1#32) &&
       leaves (later (hereAs t)) (.tdec 8#7) (fun r u => r.depQ.map DepOp.va == [0x10040#64] && u.pc == 0x10004#64)) =
     true := by decide +kernel

/-- The launched state with a page of DSM at 0x20000. -/
def withDsm (t : Team) : State :=
  later ((hereAs t).modDie 0 fun k => { k with
    regs := { k.regs with slicecfg := 0x132#64 }, mem := k.mem.write 0xE010 8 0x30F })

/-- Meets the hypotheses of Barriers: each mode, a reserved bit, a misaligned word, arrivals below and at the
target. -/
theorem test_meets_Barriers :
    (let t := fun (v : Nat) => me.withS [(6, 0x20040#64), (7, BitVec.ofNat 64 v)]
     let i := Instr.cbar 5#7 6#7 7#7
     let found := fun (v : Nat) (kind : Access) => (reached (withDsm (t v)) (t v) 0x20040#64 64 kind).any fun p =>
       p.1.fenceHolds (t v) 2 && !p.1.mustQueue (t v) p.2.phys && !p.1.poisoned p.2.phys && p.2.phys.space == .dsm &&
         decide (p.1.teams = (withDsm (t v)).teams) && p.1.memWf
     let w : Team := { t 2 with outstanding := 1 }
     let l := fun (v : Nat) => me.withS [(6, 0x10000#64), (7, BitVec.ofNat 64 v)]
     let busy := fun (v : Nat) (kind : Access) => (reached (contended (later (hereAs (l v)))) (l v) 0x10000#64 64 kind).any fun p =>
       p.1.fenceHolds (l v) 2 && ((p.1.learnFx 0 1 0x10000#64 p.2.phys).mustQueue (l v) p.2.phys) && p.1.blocked (l v) p.2.phys &&
         (p.1.learnFx 0 1 0x10000#64 p.2.phys).hasCredit 0 p.2.phys &&
         !({ p.1.learnFx 0 1 0x10000#64 p.2.phys with landingCap := 0 } : State).hasCredit 0 p.2.phys
     let word : Phys := { space := .dsm, unit := 0, addr := 0x40 }
     (reached (withDsm w) w 0x20040#64 64 .both).any (fun p => !p.1.fenceHolds w 2 && !p.1.fenceHolds w 3) &&
       issuesNow (withDsm w) w i && busy 2 .both && busy (2 ^ 33) .read && issuesNow (contended (later (hereAs (l 2)))) (l 2) i &&
       issuesNow (contended (later (hereAs (l (2 ^ 33))))) (l (2 ^ 33)) i && decide (0x48 ≤ (withDsm me).die0.dsmSize) &&
       (withDsm me).memWf && (withDsm me).peek word 8 == 0 &&
     ([3 * 2 ^ 32, 2 ^ 34, 2, 2 ^ 32 + 2, 2 ^ 33].all fun v => issuesNow (withDsm (t v)) (t v) i) &&
       found 2 .both && found (2 ^ 32 + 2) .both && found (2 ^ 33) .read &&
       issuesAll (me.withS [(6, 0x10020#64), (7, 2#64)]) [i]) = true := by decide +kernel

/-- The arrival that reaches the target starts the next generation; the one before it waits (R216). -/
theorem test_cbar :
    (let t := me.withS [(6, 0x20040#64), (7, 2#64)]
     leaves (withDsm t) (.cbar 5#7 6#7 7#7) (fun r u => r.die0.dsm.read 0x40 8 == 1 && u.wait.isSome) &&
       leaves ((withDsm t).modDie 0 fun k => { k with dsm := k.dsm.write 0x40 8 0x500000001 }) (.cbar 5#7 6#7 7#7)
         (fun r u => r.die0.dsm.read 0x40 8 == 0x600000000 && u.wait.isNone && u.getS 5 == 5#64)) = true := by
  decide +kernel

/-- Mode 2 goes on where GEN differs from s5 and waits where it is equal; a busy home queues an arrival and holds a
mode 2 (R216). -/
theorem test_cbar_modes :
    (let t := me.withS [(6, 0x20040#64), (7, 0x200000000#64)]
     let l := fun (v : Nat) => me.withS [(6, 0x10000#64), (7, BitVec.ofNat 64 v)]
     let i := Instr.cbar 5#7 6#7 7#7
     leaves (withDsm t) i (fun _ u => u.wait.isSome) &&
       leaves (withDsm (t.withS [(5, 7#64)])) i (fun _ u => u.wait.isNone && u.pc == 0x10004#64) &&
       leaves (contended (later (hereAs (l 2)))) i (fun r u => r.die0.mesh.length == 1 && u.pend.isSome) &&
       leaves (contended (later (hereAs (l (2 ^ 33))))) i (fun r u => r.stalled && u.pc == 0x10000#64)) = true := by decide +kernel

/-- Meets the hypotheses of DsmOperations: a type that they take and one not, operations at both ends of their ranges,
lanes and words of DSM. -/
theorem test_meets_DsmOperations :
    (let t := fun (e v : Nat) => inMode e 0 0 (me.withS [(6, 0x20000#64), (7, BitVec.ofNat 64 v)])
     let ok := fun (e v : Nat) (i : Instr) => issuesNow (withDsm (t e v)) (t e v) i
     let op := Instr.dsmop 4#7 6#7 7#7
     let red := Instr.dsmred 5#7 6#7 7#7
     ok 0 0 op && ok 4 6 op && ok 3 7 op && ok 1 0 op && ok 0 (2 ^ 32 + 2) red && ok 4 (6 * 2 ^ 32) red && ok 3 0 red &&
       ok 3 (7 * 2 ^ 32) red && ok 1 (2 ^ 32) red &&
       (match (withDsm (t 0 0)).mapDsm (t 0 0) (fun n => 0x20000#64 + BitVec.ofNat 64 (4 * n)) (me.guarded 32) with
        | .ok (s, ps) => (s.needBanks (t 0 0) ps).toOption.isSome && ps.length == 32
        | .error _ => false) &&
       (match (withDsm me).mapParts me .read [3] (partsOf 0x20000#64 8) with
        | .ok (s, ps) => (s.needParts me ps).toOption.isSome && (s.loadParts me ps).toOption.isSome
        | .error _ => false)) = true := by decide +kernel

/-! ### Copies, matrices, transforms -/

/-- The launched state with a copy record of one row of four elements at offset 0, `v` its format word. -/
def recorded (v : Nat) : State :=
  here.modCore 0 fun k => { k with scratch := ((Memory.write [] 0x18 4 1).write 0x1C 4 4).write 0x28 4 v }

/-- The copy instructions with a format word that each takes (Tables 10.2 to 10.4). -/
def copies : List (Instr × CopyKind × Nat) :=
  [(.cpy 5#7 6#7 64#7, .cpy, 0x11), (.cpyg 5#7 6#7 64#7, .cpyg, 0), (.cpyx 5#7 6#7 64#7, .cpyx, 0x25),
   (.cpyq 5#7 6#7 64#7, .cpyq, 0x200051), (.cpyt 5#7 6#7 64#7, .cpyt, 0), (.discard 5#7 6#7 64#7, .discard, 0),
   (.prefetch 5#7 6#7 64#7, .prefetch, 0), (.cpya 5#7 6#7 64#7, .cpya, 0x11), (.cwalk 5#7 6#7 64#7, .cwalk, 0xA00)]

/-- Meets the hypotheses of CopyIssue for every copy: a record that it takes with its ranges, one that it does not,
an offset misaligned and one beyond the scratchpad. -/
theorem test_meets_CopyIssue :
    (copies.all fun p =>
      let h := Shape.ofNat (((recorded p.2.2).core 0).scratch.read 0 64)
      h.ok p.2.1 && (checkAll (fun q => needAligned q.1 q.2) (h.alignments p.2.1 h.src h.dst)).toOption.isSome &&
        (checkAll me.needFixed (h.ranges p.2.1 h.src h.dst)).toOption.isSome && issuesNow (recorded p.2.2) me p.1 &&
        !((recorded p.2.2).core 0).badAt me.ident.scrBase 64 &&
        !(Shape.ofNat (((recorded 0xFF).core 0).scratch.read 0 64)).ok p.2.1 && issuesNow (recorded 0xFF) me p.1 &&
        [32, 4096].all (fun o => issuesAll (me.withS [(6, BitVec.ofNat 64 o)]) [p.1])) = true := by decide +kernel

/-- Each copy joins the engine's list and its team goes on; a record with a reserved format traps (R234, R235). -/
theorem test_copies :
    ((copies.all fun p => leaves (recorded p.2.2) p.1 fun r u => (r.core 0).copies.map CopyOp.kind == [p.2.1] &&
        u.pc == 0x10004#64) &&
      leaves (recorded 0xFF) (.cpy 5#7 6#7 64#7) (fun r u => (r.core 0).copies == [] && u.trap.tcause == 0x6000B#64)) =
      true := by decide +kernel

/-- A matrix operation's descriptor in s8 to s11: 2 rows, 3 columns, 4 deep, F32, all from offset 0. -/
def descriptor (shape ctr : Nat) (t : Team) : Team :=
  { t.withS [(8, 0x1000000000#64), (9, 0x1000000000#64), (10, BitVec.ofNat 64 shape), (11, BitVec.ofNat 64 ctr)] with
    tiles := [(7, [])] }

/-- The matrix instructions with a descriptor, on tile 7. -/
def matrices : List (Instr × MatKind) :=
  [(.mma 7#7 8#7, .mma), (.mmag 7#7 8#7 5#7, .mmag), (.mmas 7#7 8#7 5#7, .mmas), (.mmad 7#7 8#7, .mmad),
   (.mlda 7#7 8#7, .mlda), (.msta 7#7 8#7, .msta)]

/-- Meets the hypotheses of MatrixIssue: a shape and a counter word in their ranges and beyond them, a tile that is
owned and one that is not, rows at both ends for MZERO. -/
theorem test_meets_MatrixIssue :
    (let good := 1 + 2 * 2 ^ 8 + 3 * 2 ^ 16 + 2 * 2 ^ 42
     let t := descriptor good 0 me
     shapeWordValid (t.getS 10) && matCtrValid (t.getS 11) && t.owns 7 && !t.owns 0 &&
       !shapeWordValid ((descriptor (good + 2 ^ 44) 0 me).getS 10) && !matCtrValid ((descriptor good 512 me).getS 11) &&
       issuesAll t (matrices.map Prod.fst ++ [.mzero 7#7 6#7, .mzero 0#7 6#7]) &&
       issuesAll (t.withS [(6, 1023#64)]) [.mzero 7#7 6#7] && issuesAll (t.withS [(6, 1024#64)]) [.mzero 7#7 6#7] &&
       matrices.all (fun p =>
         let d := MatDesc.ofWords [t.getS 8, t.getS 9, t.getS 10, t.getS 11]
         let o : MatOp := t.matOp p.2 7 d.row0 [t.getS 8, t.getS 9, t.getS 10, t.getS 11]
         (checkAll (fun q => needAligned q.1 q.2) (d.alignments p.2)).toOption.isSome &&
           (o.needRange t (here.core 0).scratch).toOption.isSome &&
           !(here.core 0).badAt (me.ident.scrBase + d.maps) d.mapBytes)) = true := by decide +kernel

/-- MMA joins the queue; a tile that is not owned raises ACC_OWN (R264, R278). -/
theorem test_matrix :
    (let t := descriptor (1 + 2 * 2 ^ 8 + 3 * 2 ^ 16 + 2 * 2 ^ 42) 0 me
     leaves (hereAs t) (.mma 7#7 8#7) (fun r _ => (r.core 0).mats.length == 1) &&
       leaves (hereAs t) (.mma 0#7 8#7) (fun r u => (r.core 0).mats == [] && u.trap.tcause == 0xC#64 &&
         u.trap.tinfo == 0x80#64)) = true := by decide +kernel

/-- Meets the hypotheses of TilesAndShapes: the greatest shape and one beyond it in each operand, a column in and
beyond the lanes, an allocation that fits and a reserved one. -/
theorem test_meets_TilesAndShapes :
    (let go := fun (x y : Nat) => issuesAll (descriptor 0 0 (me.withS [(6, BitVec.ofNat 64 x), (7, BitVec.ofNat 64 y)]))
       [.mcfg 5#7 6#7 7#7, .mtov 4#7 7#7 7#7 0#1, .mtov 4#7 0#7 7#7 0#1, .malloc 5#7 6#7]
     go (128 + 32 * 2 ^ 16 + 1023 * 2 ^ 32) (65536 + 3 * 2 ^ 32) && go (128 + 64 * 2 ^ 16) (65536 + 3 * 2 ^ 32) &&
       go (128 + 64 * 2 ^ 16) 65537 && go 255 63 && go 256 (2 ^ 16 * 31) && go 0 (2 ^ 16 * 32) && go 0 64) = true := by
  decide +kernel

/-- The shape word of R271 and the tiles that MALLOC gives a team alone on its core (R277). -/
theorem test_mcfg :
    (leaves (hereAs (me.withS [(6, 0x500030002#64), (7, 0x200000004#64)])) (.mcfg 5#7 6#7 7#7)
        (fun _ u => u.getS 5 == 0x80500030201#64) &&
      leaves (hereAs ({ me with tiles := [] }.withS [(6, 3#64)])) (.malloc 5#7 6#7) (fun _ u => u.accmap == 3)) = true := by
  decide +kernel

/-- Meets the hypotheses of TransformsIssue: operands in and out of their ranges, a bound and an unbound bank, a
reservation that fits and one that does not. -/
theorem test_meets_TransformsIssue :
    (let t := fun (e : Nat) => inMode e 0 0 (me.withS [(7, 1#64)])
     let b : Team := { t 0 with binding := some 1 }
     issuesAll (t 0) [.xhad 4#7 5#7 7#7 0#1, .xtopk 4#7 5#7 7#7 0#1, .xtrn 4#7 5#7 7#7 0#1, .xsort 4#7 5#7 7#7 0#1,
         .xact 4#7 5#7 0#1, .xtld 6#7 1#7, .xtbind 0#7, .xtbind 2#7] &&
       issuesAll (t 12) [.xqnt 4#7 5#7 7#7 0#1] && issuesAll (t 3) [.xhad 4#7 5#7 7#7 0#1] &&
       issuesAll b [.xact 4#7 5#7 0#1, .xtld 6#7 1#7] && (hereAs b).bindingOf b == some 1 && (here.bindingOf me).isNone &&
       [XfKind.xhad, .xqnt, .xact, .xtopk, .xtrn, .xsort].all (fun k => transformOperand k 1#64 32) &&
       [XfKind.xhad, .xqnt, .xtopk, .xtrn].all (fun k => !transformOperand k 0#64 32) && !transformOperand .xsort 2#64 32 &&
       issuesAll full [.xhad 8#7 0#7 7#7 0#1] && !here.bankLoading 0 1 && !here.bankBound 0 1 &&
       (let shared := { here with teams := here.teams ++ [{ b with uid := 2 }] }
        shared.bankBound 0 1 && issuesNow shared me (.xtld 6#7 1#7) && (shared.bindingOf me).isNone) && decide (3576 + 520 ≤ me.scrSize) && issuesAll (me.withS [(6, 3576#64)]) [.xtld 6#7 1#7] &&
       decide (256 * full.budget - (hereAs full).occupancy full + 16 < 32)) = true := by decide +kernel

/-- A transform enters the pipe with its slots; one without room holds its team (R380). -/
theorem test_transforms :
    (leaves (hereAs (me.withS [(7, 1#64)])) (.xhad 4#7 5#7 7#7 0#1) (fun r u => u.pc == 0x10004#64 &&
        (r.core 0).xfs.map XfOp.reserved == [some 31]) &&
      leaves (hereAs (full.withS [(6, 1#64)])) (.xhad 8#7 0#7 6#7 0#1) (fun r u => u.pc == 0x10000#64 &&
        (r.core 0).xfs.map XfOp.reserved == [none])) = true := by decide +kernel

/-! ### Rays and the system -/

/-- A wave that holds ray 3 in lane 0. -/
def waving : Team := { me with ident := { launchIdent with isWave := true }, rays := [(0, 3)] }

/-- The state in which the wave's ray stands in the pool. -/
def withRay (t : Team) : State :=
  (hereAs t).modDie 0 fun k => { k with
    rays := [{ num := 3, ctx := 1, words := List.replicate 32 0#32, state := .held 1 0, key := 0, since := 0,
               src := none }] }

/-- Meets the hypotheses of RayInstructions: in a wave and out of one, a base aligned and not, no lane, a request
that the pool grants, can grant later, and never can. -/
theorem test_meets_RayInstructions :
    (let w := waving
     [Instr.trace 5#7 6#7, .defer 5#7 6#7, .retire 4#7 6#7, .retire 96#7 6#7, .epend, .poolq 5#7 0#7, .poolq 5#7 3#7].all
         (issuesNow (withRay w) w) &&
       issuesAll me [.trace 5#7 6#7, .defer 5#7 6#7, .retire 4#7 6#7, .spawn 5#7 0#7 7#7] &&
       issuesNow (withRay (w.withS [(6, 2#64)])) (w.withS [(6, 2#64)]) (.retire 4#7 6#7) &&
       ((withRay w).fates w (w.retirePairs 0#64 4 w.heldLanes)).toOption.isSome && w.heldLanes == [(0, 3)] &&
       here.poolGrants me 32 && decide (32 ≤ here.poolMost me) &&
       (let s := here.modDie 0 fun k => { k with regs := { k.regs with slicecfg := 0x43#64 }, pendSlice := some 0x42#64 }
        !s.poolGrants me 32 && issuesNow s me (.spawn 5#7 0#7 7#7)) &&
       (let s := here.modDie 0 fun k => { k with regs := { k.regs with slicecfg := 0x40#64 } }
        decide (s.poolMost me < 32) && issuesNow s me (.spawn 5#7 0#7 7#7)) &&
       (let t := inMode 0 0 0 { me with mode := 1#16 }
        (({ t with mode := 1#16 } : Team).guarded 32).isEmpty) &&
       (let g : Team := { me with granted := 32, placed := List.range 32 }
        issuesAll g [.spawn 5#7 0#7 7#7] && (g.guarded 32).length == 32) &&
       (let p : Pair := { uid := 1, core := 0, ctx := 1, die := 0, addr := 0, op := 1, fxf := 0, shadow := 0, off := 0,
                          val := 0#32, ray := none, seq := none }
        let stream := fun (n : Nat) => (withRay w).modCore 0 fun k => { k with streams := [(0, List.replicate n p)] }
        [928, 929].all (fun n => issuesNow (stream n) w (.retire 4#7 6#7)) && ((stream 928).streamOf w).length == 928 &&
          ((stream 928).fates w (w.retirePairs 0#64 4 w.heldLanes)).toOption.isSome)) = true := by decide +kernel

/-- SPAWN of 32 lanes raises LRC by 32; TRACE outside a wave raises RAY_CONTEXT; DEFER without a shader frees the ray
(R287, R303, R310). -/
theorem test_rays :
    (leaves here (.spawn 5#7 0#7 7#7) (fun r u => r.die0.rays.length == 32 && (r.ctxs.map Ctx.lrc) == [32] &&
        u.getS 5 == 32#64) &&
      leaves here (.trace 5#7 6#7) (fun _ u => u.trap.tcause == 17#64) &&
      leaves (withRay waving) (.trace 5#7 6#7) (fun r u => u.rays == [] && u.getS 5 == 1#64 &&
        r.die0.rays.map Ray.state == [.entering none])) = true := by decide +kernel

/-- The first SPAWN of a task takes its hold and counts one more (R287); meets that clause of RayInstructions. -/
theorem test_first_spawn :
    (let s := { here with tasks := [{ loc := launchIdent.taskAt, ctx := 1, gwct := 0, hold := false }] }
     leaves s (.spawn 5#7 0#7 7#7) fun r u => r.ctxs.map Ctx.lrc == [33] && r.tasks.map TaskState.hold == [true] &&
       u.getS 5 == 32#64) = true := by decide +kernel

/-- A SPAWN whose records the pool has granted writes them and counts none again (R286, R287). -/
theorem test_granted_spawn :
    (let t : Team := { me with mode := 1#16, granted := 1, placed := [3], masks := me.masks.set 1 1#1024 }
     leaves (withRay t) (.spawn 5#7 0#7 7#7) fun r u => r.die0.rays.map Ray.state == [.entering none] &&
       r.ctxs.map Ctx.lrc == [0] && u.getS 5 == 1#64 && u.placed == []) = true := by decide +kernel

/-- The team in a handler. -/
def handling : Team := { me with inHandler := true, trap := { me.trap with tpc := 0x10020#64, tmode := 0x21#64 } }

/-- Meets the hypotheses of RegisterAccess: registers that a team may write, may not, and one under CTXCTL.SYS. -/
theorem test_meets_RegisterAccess :
    (issuesAll me [.csrr 5#7 0x20A#16, .csrw 5#7 9#16, .csrw 5#7 10#16, .csrw 5#7 0x107#16, .csrw 5#7 0x200#16] &&
      issuesAll handling [.csrw 5#7 0#16, .csrw 5#7 0x107#16] && !(here.privileged me) && (hereAs handling).privileged handling &&
      (let s := here.modCtx 1 fun c => { c with ctxctl := 16#64 }
       issuesNow s me (.csrw 5#7 0x200#16) && issuesNow s me (.csrw 5#7 0x107#16)) &&
       (contextValues.all fun p => p.2 0 && !p.2 (2 ^ 63 + 1)) && (here.ctx? me.ctx).isSome &&
       (dieValues.all fun p => [0, 11, 64, 2048, 2 ^ 63].all fun v =>
         here.dieRegValid 0 p.1 (BitVec.ofNat 64 v) == p.2 v) &&
       [(0x200, 0x41), (0x202, 11), (0x207, 0), (0x208, 64), (0x209, 64)].all (fun p =>
         here.dieRegValid 0 p.1 (BitVec.ofNat 64 p.2)) && !here.dieRegValid 0 0x200 (2 ^ 63) && !here.dieRegValid 0 0x207 8#64 &&
       here.die0.stitchValid 0 0#64 && here.dieRegValid 0 0x210 0#64 && !here.dieRegValid 0 0x210 (2 ^ 63) &&
       teamRegValid 1 0xFFFF00FFFFFF#64 && teamRegValid 4 0xFFFFF#64 && teamRegValid 9 8#64) = true := by decide +kernel

/-- NLOG is any team's to write, TVEC is not (R366, R367). -/
theorem test_csrw :
    (leaves (hereAs (me.withS [(5, 0x40#64)])) (.csrw 5#7 9#16) (fun _ u => u.nlog == 0x40#64 && u.pc == 0x10004#64) &&
      leaves (hereAs (me.withS [(5, 0x40#64)])) (.csrw 5#7 0x106#16) (fun _ u => u.trap.tcause == 20#64 &&
        u.trap.tinfo == 0x106#64) &&
      leaves (hereAs handling) (.csrr 5#7 0#16) (fun _ u => u.getS 5 == 0x10020#64)) = true := by decide +kernel

/-- Meets the hypotheses of SystemInstructions: a fence that holds and one that does not, monitors and words at and
beyond their ranges, debugging off and on. -/
theorem test_meets_SystemInstructions :
    (let t := handling.withS [(6, 0x1F05#64), (7, 9#64)]
     let w : Team := { handling with outstanding := 1 }
     issuesNow (later (hereAs handling)) handling (.tlbinv 6#7 7#7) && (later (hereAs handling)).fenceHolds handling 3 &&
       !(hereAs handling).unsettled 1 && (storing (hereAs handling)).unsettled 1 &&
       issuesNow (storing (later (hereAs handling))) handling (.tlbinv 6#7 7#7) && decide (here.nDies = 1 ∨ here.linkWorks) &&
 issuesAll w [.tlbinv 6#7 7#7] && !(hereAs w).fenceHolds w 3 &&
       issuesAll handling [.halt 6#7] && issuesAll t [.monr 5#7 6#7 7#7, .mark 0xFFFF#16, .bkpt 1#16] &&
       issuesAll (me.withS [(6, 8#64)]) [.monr 5#7 6#7 7#7] && issuesAll (me.withS [(7, 10#64)]) [.monr 5#7 6#7 7#7] &&
       !here.logs 1 && !(later (hereAs handling)).anyLanding &&
       (let m := (later (hereAs handling)).modDie 0 fun k => { k with shoot := [(0, 1, 0)] }
        m.anyLanding && issuesNow m handling (.tlbinv 6#7 7#7)) &&
       (let s := here.modCtx 1 fun c => { c with ctxctl := 8#64 }
        issuesNow s me (.bkpt 1#16))) = true := by decide +kernel

/-- The launched state whose context records to, or replays from, `size` bytes at 0x12000; an entry of a MARK of 9 and one of
a first read of TIME that gave 77 stand there. -/
def logging (replay : Bool) (size : Nat) : State :=
  let s := here.modCtx 1 fun c => { c with
    ctxctl := if replay then 0#64 else 4#64, rlbase := 0x12000#64, rlsize := BitVec.ofNat 64 size
    replay := if replay then some (0x12000#64, size) else none }
  let words := entryWords here me 7 (entryIds me ++ [9#64, 0#64]) ++ entryWords here me 1 ([77#64] ++ entryIds me ++ [0#64])
  if replay then s.modDie 0 fun k => { k with
    mem := k.mem.setBytes 0x12000 (words.flatMap fun w => leBytes 8 w.toNat) } else s

/-- Meets the hypotheses of SystemInstructions on the context log: an entry that fits and one that does not, an equal,
a different and a missing entry in replay. -/
theorem test_meets_logs :
    (let i := Instr.mov 5#7 65#7 0#1
     let c := fun (s : State) (p : Ctx → Bool) => (s.ctx? 1).any p
     let ready := fun (s : State) => decide (s.team? s.cur = some me) && s.canIssue me && me.pend.isNone && !s.interlocked me i
     let entry := fun (s : State) (n : Nat) => ((s.replayLog 1 0).filter fun e => e.type == n).map fun e => e.payload
     [48, 47].all (fun n => issuesNow (logging false n) me (.mark 9#16) && ready (logging false n)) &&
       c (logging false 48) (fun c => c.recording && c.replay == none && c.logWait == [] && c.logPos == 0) &&
       ((logging false 48).ctxWrite (deviceWalker 0 1) 0x12000#64 (entryWords here me 7 (entryIds me ++ [9#64, 0#64]))).toOption.isSome &&
       (((logging false 48).putTeam me.advance).ctxWrite (deviceWalker 0 1) 0x12000#64 [0#64]).toOption.isSome &&
       issuesNow (logging true 96) me (.mark 9#16) && issuesNow (logging true 96) me (.mark 8#16) && ready (logging true 96) &&
       c (logging true 96) (fun c => !c.recording && c.replay.isSome) && entry (logging true 96) 7 == [entryIds me ++ [9#64, 0#64]] &&
       entry (logging true 96) 1 == [[77#64] ++ entryIds me ++ [0#64]] && entry (logging true 48) 1 == []) = true := by
  decide +kernel

/-- An entry of 48 bytes stands at RLBASE, and one without room halts the context (R363); in replay a MARK of 8 differs
from the entry of 9, and a read of TIME gives the logged 77 (R424, R425). -/
theorem test_logs :
    (leaves (logging false 48) (.mark 9#16) (fun r u => r.die0.mem.read 0x12000 8 == 0x207 && r.die0.mem.read 0x12020 8 == 9 &&
        r.ctxs.map Ctx.logPos == [48] && u.pc == 0x10004#64) &&
      leaves (logging false 47) (.mark 9#16) (fun r _ => r.ctxs.map Ctx.halted == [true]) &&
      leaves (logging true 96) (.mark 9#16) (fun r u => r.ctxs.map Ctx.halted == [false] && u.marks == 1) &&
      leaves (logging true 96) (.mark 8#16) (fun r _ => r.ctxs.map Ctx.halted == [true]) &&
      leaves (logging true 96) (.mov 5#7 65#7 0#1) (fun _ u => u.getS 5 == 77#64 && u.timeReads == 1) &&
      leaves (logging true 48) (.mov 5#7 65#7 0#1) (fun r _ => r.ctxs.map Ctx.halted == [true]) &&
      leaves (logging false 48) (.mov 5#7 65#7 0#1) (fun r _ => r.die0.mem.read 0x12000 8 == 0x201)) = true := by
  decide +kernel

/-- HALT halts the context and TLBINV empties the TLB of the range (R368, R369); BKPT returns to the next instruction
(R371). -/
theorem test_system :
    (leaves (hereAs handling) (.halt 6#7) (fun r _ => r.ctxs.map Ctx.halted == [true] && r.host.preRingCount == 1) &&
      leaves ((later (hereAs (handling.withS [(6, 0x10000#64), (7, 1#64)]))).modCore 0 fun k => { k with
          tlb := [{ ctx := 1, vpn := 1, leaf := 0#64, leafDie := 0, leafAddr := 0 },
            { ctx := 1, vpn := 2, leaf := 0#64, leafDie := 0, leafAddr := 0 }] })
        (.tlbinv 6#7 7#7) (fun r _ => (r.core 0).tlb.map TlbEntry.vpn == [2]) &&
      leaves (here.modCtx 1 fun c => { c with ctxctl := 8#64 }) (.bkpt 5#16) (fun _ u => u.trap.tpc == 0x10004#64 &&
        u.trap.tcause == 0x500000017#64)) = true := by decide +kernel

/-! ### Full queues -/

/-- The state in which the queue that an instruction joins holds `n` entries like its own; the
matrix operations are another team's. -/
def crowded (s : State) (i : Instr) (n : Nat) : State :=
  match exec i s with
  | .next r => s.modCore 0 fun k => { k with
      copies := ((r.core 0).copies.take 1).flatMap (List.replicate n)
      mats := ((r.core 0).mats.take 1).flatMap fun o => List.replicate n { o with uid := 9 }
      xfs := ((r.core 0).xfs.take 1).flatMap (List.replicate n) }
  | _ => s

/-- The instruction issues, and its team is held at it. -/
def holds (s : State) (t : Team) (i : Instr) : Bool :=
  issuesNow s t i && (match exec i s with
    | .next r => decide (r = { s with stalled := true })
    | _ => false)

/-- Meets the clauses of CopyIssue, MatrixIssue and TransformsIssue on full queues, one entry below them, and for a
bank that a load fills. -/
theorem test_meets_full_queues :
    (let c := crowded (recorded 0x11) (.cpy 5#7 6#7 64#7)
     let t := descriptor (1 + 2 * 2 ^ 8 + 3 * 2 ^ 16 + 2 * 2 ^ 42) 0 me
     let m := crowded (hereAs t) (.mma 7#7 8#7)
     let v := me.withS [(7, 1#64)]
     let x := crowded (hereAs v) (.xhad 4#7 5#7 7#7 0#1)
     let l := crowded (hereAs v) (.xtld 6#7 1#7) 1
     copies.all (fun p => holds (c 64) me p.1) && ((c 63).core 0).copies.length == 63 &&
       ((matrices.map Prod.fst) ++ [Instr.mzero 7#7 6#7]).all (fun i => holds (m 32) t i) &&
       ((m 31).core 0).mats.length == 31 && [Instr.xhad 8#7 9#7 7#7 0#1, .xact 8#7 9#7 0#1, .xtopk 8#7 9#7 7#7 0#1,
         .xtrn 8#7 9#7 7#7 0#1, .xsort 8#7 9#7 7#7 0#1, .xtld 6#7 1#7, .xtbind 0#7].all (fun i => holds (x 16) v i) &&
       ((x 15).core 0).xfs.length == 15 && l.bankLoading 0 1 && holds l v (.xtbind 1#7) && holds l v (.xtld 6#7 1#7)) =
      true := by decide +kernel

/-! ### Traps, fetch and step -/

/-- Meets the hypotheses of TrapEntry and HandlersAndHalts: codes at both ends; in a handler, out of one, without a
handler, and under CTXCTL.SYS. -/
theorem test_meets_TrapEntry :
    (let r : Trap := { code := 255, detail := 255, field := 255, code16 := 65535 }
     (here.ctx? me.ctx).any (fun c => c.tvec != 0#64) && !me.inHandler && decide (r.code < 2 ^ 8) &&
       decide (r.code16 < 2 ^ 16) && (here.ctx? handling.ctx).isSome && handling.inHandler &&
       ((here.modCtx 1 fun c => { c with tvec := 0#64, ctxctl := 16#64 }).ctx? 1).any (fun c => c.tvec == 0#64 &&
         c.sys)) = true := by decide +kernel

/-- A trap in a handler, and one without a handler, halts the context with the trap's record (R355). -/
theorem test_trap_halts :
    (leaves (hereAs handling) (.trapi 7#16) (fun r _ => r.ctxs.map Ctx.halted == [true] && r.host.preRingCount == 1) &&
      leaves (here.modCtx 1 fun c => { c with tvec := 0#64 }) (.trapi 7#16) (fun r _ =>
        r.ctxs.map Ctx.halted == [true])) = true := by decide +kernel

/-- A team in its handler with TMODE and TPC. -/
def returning (m p : Word) : Team := { handling with trap := { handling.trap with tmode := m, tpc := p } }

/-- Meets the hypotheses of EretReturns: fields in their ranges and beyond them, a TPC aligned and not. -/
theorem test_meets_EretReturns :
    ([(0xF3ACF#64, 0x10020#64), (0x0C00#64, 0#64), (0xD0#64, 0#64), (0#64, 2#64)].all fun p =>
      issuesAll (returning p.1 p.2) [.eret]) = true := by decide +kernel

/-- Out of a handler, under CTXCTL.SYS and with a handler installed, a misaligned TPC halts the context too (R354). -/
theorem test_eret_nested :
    (let t : Team := { returning 0#64 2#64 with inHandler := false }
     leaves ((hereAs t).modCtx 1 fun c => { c with ctxctl := 16#64 }) .eret (fun r u => r.ctxs.map Ctx.halted == [true] &&
       u.pc == 0x10000#64)) = true := by decide +kernel

/-- ERET returns to TPC and leaves the handler; a misaligned TPC raises PC_ALIGN, which halts in a handler (R354). -/
theorem test_eret :
    (leaves (hereAs (returning 0x30021#64 0x10020#64)) .eret (fun _ u => u.pc == 0x10020#64 && u.cc == 3#4 &&
        u.mode == 0x21#16 && !u.inHandler) &&
      leaves (hereAs (returning 0#64 2#64)) .eret (fun r _ => r.ctxs.map Ctx.halted == [true])) = true := by decide +kernel

/-- Meets the hypotheses of DecodingChecks: a privileged form with and without privilege, a field at fault, and a
vector register at the allotment. -/
theorem test_meets_DecodingChecks :
    (let ok := fun (t : Team) (i : Instr) => (encodeWords i).isSome && decide ((hereAs t).team? (hereAs t).cur = some t) &&
       (hereAs t).canIssue t && !(hereAs t).interlocked t i
     let few := { me with vregs := me.vregs.take 8 }
     ok me .eret && !here.privileged me && ok handling (.csrw 5#7 0x108#16) && (hereAs handling).privileged handling &&
       Instr.illegalCause (.csrw 5#7 0x108#16) == some 3 && ok me (.add 93#7 0#7 0#7 0#1) &&
       ok me (.add 64#7 0#7 0#7 0#1) && ok few (.vadd 7#7 8#7 7#7 0#1) &&
       (Instr.vectorNumbers (.vadd 7#7 8#7 7#7 0#1)).find? (fun v => decide (few.vregs.length ≤ v)) == some 8 &&
       (let high := me.withS [(7, 1#64)]
        ok high (.spawn 5#7 96#7 7#7) && ok high (.spawn 93#7 95#7 7#7) && here.rayVectors high (.spawn 93#7 95#7 7#7) == [95, 95] &&
          ok few (.spawn 5#7 8#7 7#7) && here.rayVectors few (.spawn 5#7 8#7 7#7) == [8]) &&
       here.rayVectors (me.withS [(6, 0x80000001#64)]) (.trace 5#7 6#7) == [0, 31] &&
       here.rayVectors me (.retire 95#7 6#7) == [11]) = true := by decide +kernel

/-- A privileged word, a reserved field and a register beyond the allotment trap with their causes (R88). -/
theorem test_decoding_checks :
    (leaves here .eret (fun _ u => u.trap.tcause == 0x201#64) &&
      leaves here (.add 93#7 0#7 0#7 0#1) (fun _ u => u.trap.tcause == 0x401#64) &&
      leaves (hereAs { me with vregs := me.vregs.take 8 }) (.vadd 7#7 8#7 7#7 0#1) (fun _ u =>
        u.trap.tcause == 0x80002#64 && u.trap.tinfo == 8#64)) = true := by decide +kernel

/-- The launched state with a word at the PC and one behind it. -/
def wordsAt (w : Nat) : State :=
  { here.modDie 0 (fun k => { k with mem := k.mem.write 0x10000 8 w }) with agenda := [] }

/-- What a fetch of the launched team gives. -/
def fetched (s : State) (t : Team) : Option (W32 × W32) := (s.fetch t).toOption.map fun r => (r.2.1, r.2.2)

/-- SPAWN's base counts against the allotment without a mask bit, and RETIRE's v11 does (R304, R305, R375). -/
theorem test_ray_vectors :
    (let few := { me with vregs := me.vregs.take 8 }
     leaves (hereAs few) (.spawn 5#7 8#7 7#7) (fun _ u => u.trap.tcause == 0x80002#64) &&
       leaves (hereAs few) (.retire 4#7 6#7) (fun _ u => u.trap.tcause == 0xB0002#64)) = true := by decide +kernel

/-- Meets the hypotheses of FetchReadsMemory: one word, two words, and an address without a page. -/
theorem test_meets_FetchReadsMemory :
    (let found := fun (s : State) (t : Team) => match s.translateResident t.walker t.pc .fetch [0] with
       | .ok (s1, m) => !s1.poisoned m.phys
       | .error _ => false
     let t := { me with pc := 0x20000#64 }
     found here me && found here { me with pc := 0x10004#64 } && isXFormat 0x16800000#32 && !isXFormat 0x1005000C#32 &&
       (let held := here.modDie 0 fun k => { k with migration := { k.migration with step := .holding, srcPage := 1 } }
        held.die0.migrates 0x10000 && !here.die0.migrates 0x10000 && fetched held me == none) &&
       unmapped here me 0x20000#64 .fetch [0] && issuesAll t [.instructionFetchFault] &&
       (match (hereAs t).fetch t with
        | .error (.trap r) => r.code == 7
        | _ => false)) = true := by decide +kernel

/-- The literal is the word at PC + 4, of an X-format word alone (R79). -/
theorem test_fetch :
    (fetched (wordsAt 0x123456781005000C) me == some (0x1005000C#32, 0#32) &&
      fetched (wordsAt 0x1234567816870000) me == some (0x16870000#32, 0x12345678#32)) = true := by decide +kernel

/-- Meets the hypotheses of StepRunsDecoded: the turn of a scheduler by name, an issue turn with no name, and a
device step. -/
theorem test_meets_StepRunsDecoded :
    (let s := wordsAt 0x1005000C
     let now := s.passTime
     let runs := (now.issueOrder 0 0).map Team.uid == [1] && (match now.issueOrder 0 0 with
       | t :: _ => (match now.fetch t with
         | .ok (s1, w, lit) => (match decodeWord w lit with
           | .ok i => (match exec i (s1.begin t) with
             | .next r => !r.stalled
             | _ => false)
           | .error _ => false)
         | .error _ => false)
       | [] => false)
     runs && (({ s with agenda := [.issue 0 0 true] } : State).passTime.issueOrder 0 0).map Team.uid == [1] && !now.devicesFirst && now.issueTurn.head? == some (0, 0) && (encodeWords .deviceReset).isNone) = true := by
  decide +kernel

/-- A state that a step leaves. -/
def steps (s : State) (p : State → Bool) : Bool :=
  match step s with
  | .next r => p r
  | _ => false

/-- Meets the clauses of StepRunsDecoded on errors: a corrected one, and an uncorrectable one in each structure, in the
state that holds what it strikes. -/
theorem test_meets_errors :
    (let u : Upset := { struct := 0, die := 0, isSlice := false, tile := 0, at_ := 0x18004, dsm := false, ctx := 1,
                        corrected := false }
     let b : Bin := { line := 0x18000, op := 1, fxf := 0, shadow := 0, off := 0, ctx := 1, mismatch := false, words := [] }
     let dirty := here.modDie 0 fun k => { k with dirty := [0x18000], bins := [b] }
     let l : L1Line := { die := 0, line := 0x18000, data := [], exp := 99 }
     let cached := here.modCore 0 fun k => { k with l1 := [l] }
     let word : Phys := { space := .gddr, unit := 0, addr := 0x18004 }
     let by_ := fun (s : State) (n : Nat) => s.upset { u with struct := n }
     let stopped := fun (r : State) => r.ctxs.map Ctx.halted == [true]
     steps { here with agenda := [.upset { u with struct := 1, corrected := true }] } (fun r => r.host.preRingCount == 1) &&
       ((by_ cached 1).core 0).l1 == [] && (by_ dirty 3).poisoned word && !(by_ here 3).poisoned word &&
       (here.upset { u with struct := 3, dsm := true }).poisoned { word with space := .dsm } && (by_ here 10).poisoned word &&
       ((by_ here 5).core 0).badAt 0x18004 1 && stopped (here.upset { u with struct := 5, at_ := 2 ^ 20 }) &&
       stopped (by_ here 4) && stopped (by_ here 9) && stopped (by_ dirty 6) && (by_ dirty 6).die0.bins == [] &&
       (withRay me).ray? 0 3 != none && stopped ((withRay me).upset { u with struct := 7, at_ := 3 }) &&
       stopped (by_ here 8) &&
       (let tree := here.modDie 0 fun k => { k with treelets := [{ base := 0x18000, ctx := 1, data := [], lines := [] }] }
        (tree.upset { u with struct := 1, isSlice := true }).die0.treelets.isEmpty) &&
       (let shadowed := here.modDie 0 fun k => { k with fxLines := [(0x18000, 1, 0, 0)] }
        stopped (by_ shadowed 6))) = true := by decide +kernel

/-- A step runs ADDI s5, s0, 12 at the PC, as the first instruction after reset and by the schedule, and a step runs
a device step by name. -/
theorem test_step :
    (steps (State.reset.withFetchWord 32 0x1005000C) (fun r => r.teams.map (fun u => (u.getS 5, u.pc)) ==
        [(12#64, 0x10004#64)]) &&
      steps (wordsAt 0x1005000C) (fun r => r.teams.map (fun u => (u.getS 5, u.pc)) == [(12#64, 0x10004#64)]) &&
      steps { here.setCounter 0 3 2#32 with agenda := [.event .completionDoorbell { EventArg.none with w := 3#64 }] }
        (fun r => r.counter 0 3 == 1#32)) = true := by decide +kernel

/-- The turns in which the host programs an HDM decoder, programs it again, ends it, and names one that does not exist;
meets the clauses of StepRunsDecoded on them (R330, R334). -/
theorem test_hdm :
    ([([], 1, 16, [(1, 0, 16)]), ([(1, 0, 8)], 1, 16, [(1, 0, 16)]), ([(0, 0, 8), (1, 8, 8)], 1, 0, [(0, 0, 8)]),
      ([(0, 0, 8)], 2, 16, [(0, 0, 8)])] : List (List (Nat × Nat × Nat) × Nat × Nat × List (Nat × Nat × Nat))).all
        (fun (old, n, size, out) =>
          steps { here with host := { here.host with hdm := old }, agenda := [.hdm n 0 size] } fun r =>
            r.host.hdm.length == out.length && r.host.hdm.all fun x => out.contains x) = true := by decide +kernel

/-- Meets the hypotheses of FrameOfOtherInstructions: one instruction of each kind, with no pair, no FXADD line, no
ring and no log. -/
theorem test_meets_frame_elsewhere :
    (let t := { me.withS [(6, 0x10040#64), (7, 8#64)] with tiles := [(7, [])] }
     let s := later (hereAs t)
     s.die0.bins == [] && s.die1.bins == [] && s.die0.fxLines == [] && s.die1.fxLines == [] &&
       s.die0.regs.errring == 0#64 && !s.logs 1 && (s.core 0).regions == [] &&
       (s.ctx? 1).all (fun x => x.eff.rgncnt == 0#64) && t.active == [] &&
       [Instr.rsave 5#7 5#7 6#7, .sst 5#7 7#7 9#7, .sstc 5#7 5#7 7#7, .sld 5#7 7#7 9#7, .tdec 6#7, .cset 7#7 9#7,
         .cget 5#7 7#7, .mtov 4#7 7#7 9#7 0#1, .malloc 5#7 9#7, .poolq 5#7 0#7, .spawn 5#7 0#7 9#7, .csrr 5#7 9#16,
         .csrw 9#7 9#16, .mark 7#16, .bkpt 1#16, .exit, .fence 3#7, .xtbind 0#7].all fun i =>
           elsewhere i && issuesNow s t i && leaves s i fun _ u => !u.inHandler && u.pc != t.pc || u.place == .exiting) =
     true := by decide +kernel

/-- Meets the hypotheses of the two frames: a scalar, a vector and a mask destination, a store of each width, and an
atomic, with no pair and no region; they go on without a trap. -/
theorem test_meets_frames :
    (let t := me.withS [(6, 0x10040#64)]
     let s := (hereAs t)
     let on := fun (i : Instr) => issuesNow s t i && leaves s i (fun _ u => !u.inHandler && u.trap == t.trap)
     t.rnd != 5 && [Instr.add 5#7 6#7 6#7 0#1, .vadd 4#7 5#7 5#7 0#1, .mand 1#7 2#7 3#7, .call 4#19, .mset 3#16,
         .rngseed 6#7 7#7, .loopi 7#7 1#8 0#2].all (fun i => inRegisters i && on i) &&
       s.die0.bins.isEmpty && s.die1.fxLines.isEmpty && (s.core 0).regions.isEmpty &&
       (s.ctx? 1).all (fun x => x.eff.rgncnt == 0#64) && [0#2, 1#2, 2#2, 3#2].all (fun z => on (.st 5#7 6#7 7#7 z)) &&
       [Instr.ld 5#7 6#7 7#7 0#2, .lda 5#7 6#7 7#7 0#2, .ldx 5#7 6#7 0#2 0#32, .stl 5#7 6#7 0#7 0#2,
         .atadd 5#7 6#7 7#7 0#1, .atcas 5#7 6#7 8#7 1#1, .vld 4#7 6#7 0#7 0#1, .vst 4#7 6#7 0#7].all on) = true := by
  decide +kernel

/-- Meets the hypotheses of StepKeepsMemoryCanonical: a step that stores, from memories in canonical form. -/
theorem test_meets_StepKeepsMemoryCanonical :
    (let t := me.withS [(5, 7#64), (6, 0x10040#64)]
     let s := { (hereAs t).modDie 0 (fun k => { k with
       mem := k.mem.write 0x10000 8 (((encodeWords (.st 5#7 6#7 7#7 0#2)).map fun w => w.1.toNat).getD 0) }) with agenda := [] }
     s.memWf && steps s (fun r => r.die0.mem.read 0x10040 8 == 7 && r.memWf)) = true := by decide +kernel

/-! ### Device steps

Each theorem lists, for every clause, a state that meets its hypotheses, and takes its step there. -/

/-- A state with the subject of its device step. -/
def State.on (s : State) (f : EventArg → EventArg) : State := { s with arg := f EventArg.none }

/-- A device step is taken in a state, and leaves one that satisfies `p`. -/
def takes (s : State) (e : Instr) (p : State → Bool) : Bool :=
  match exec e s with
  | .next r => p r
  | _ => false

/-- A location in die 0's GDDR7. -/
def gddr (a : Nat) : Phys := { space := .gddr, unit := 0, addr := a }

/-- The launched state with two requests at a home, the second of them the team's. -/
def asking (k : ReqKind) (nc : Bool) : State :=
  let q : MeshReq := { kind := k, uid := 1, ctx := 1, core := 0, loc := gddr 0x10040, nc := nc, since := 0, seq := none }
  (here.modDie 0 fun d => { d with mesh := [{ q with uid := 2, loc := gddr 0x100C0 }, q] }).on fun a => { a with n := 1 }

/-- The launched state in which an access of the device, the host or the fabric to 0x10040 waits that a migration held. -/
def heldOver (k : ReqKind) : State :=
  (here.modDie 0 fun d => { d with mesh := [deviceReq k 0xFFFF (edgeRequester 0) 0 0x10040 0] }).on id

/-- Meets the clauses of RequestsServed, with an access that a migration held among them. -/
theorem test_meets_RequestsServed :
    ([!(asking (.load 5 8) false).die0.olderHeld 0x10000 none, !(heldOver .read).die0.olderHeld 0x10000 (some 0),
      !(heldOver .read).busyAt (edgeRequester 0) (gddr 0x10040),
      takes (heldOver (.device [7#8])) .homeStore (fun r => r.die0.mem.read 0x10040 1 == 7 && r.die0.mesh == []),
      takes (heldOver (.store [7#8])) .homeStore (fun r => r.die0.mem.read 0x10040 1 == 7 && r.die0.acks == []),
      takes (heldOver (.host [7#8])) .homeStore (fun r => r.die0.mem.read 0x10040 1 == 7 && r.host.writeDone == 2),
      takes (heldOver .read) .homeRead (fun r => r.die0.mesh == [] && (r.core 0).replies == []),
      !(asking (.load 5 8) false).busyAt 0 (gddr 0x10040), !(asking (.load 5 8) false).poisoned (gddr 0x10040),
      takes (asking (.load 5 8) false) .homeRead (fun r => (r.core 0).replies.length == 1 && r.die0.mesh.length == 1),
      (let bad := (asking (.load 5 8) false).modDie 0 fun k => { k with poison := [0x10000] }
       bad.poisoned (gddr 0x10040) && (bad.team? 1).isSome && takes bad .homeRead (fun r =>
         r.ctxs.map Ctx.halted == [true] && r.die0.mesh.length == 1)),
      takes (asking (.store [7#8]) false) .homeStore (fun r => r.die0.acks.length == 1 &&
        r.die0.mem.read 0x10040 1 == 7),
      (asking (.atomic 0 8 1#64 0#64 5) true).runsAtHome 0 (gddr 0x10040) true,
      takes (asking (.atomic 0 8 1#64 0#64 5) true) .homeAtomic (fun r => r.die0.mem.read 0x10040 8 == 1 &&
        r.die0.wleases == []),
      !(asking (.atomic 0 8 1#64 0#64 5) false).runsAtHome 0 (gddr 0x10040) false,
      takes (asking (.atomic 0 8 1#64 0#64 5) false) .writeLeaseGrant (fun r => r.die0.mem.read 0x10040 8 == 1 &&
        r.die0.wleases.length == 1),
      takes (asking (.barrier 0 2#32 5) false) .cbarArrival (fun r => r.die0.mem.read 0x10040 4 == 1)] : List Bool).all
      id = true := by decide +kernel

/-- Meets the clauses of RepliesArrive. -/
theorem test_meets_RepliesArrive :
    (let p : LoadReply := { uid := 1, d := 5, n := 8, loc := gddr 0x10040, nc := false, data := [], exp := 99,
                            fills := true, sent := 0 }
     let a : Ack := { uid := 1, core := 0, loc := gddr 0x10040, gwct := 7, sent := 1 }
     let gone := { here.modDie 0 fun k => { k with acks := [{ a with uid := 9 }] } with
       tasks := [{ loc := gddr 0x10080, ctx := 1, gwct := 3, hold := false }]
       leftovers := [{ uid := 9, ctx := 1, core := 0, task := gddr 0x10080, wave := false, count := 1 }] }
     let q : DsmReq := { uid := 1, die := 0, addr := 0x40, op := 0, etype := 4, mode := 0#16, val := 5#32 }
     [takes (here.modCore 0 fun k => { k with replies := [p] }) .loadReply (fun r => (r.core 0).replies == [] &&
        (r.core 0).l1.map L1Line.exp == [99]),
      takes (here.modDie 0 fun k => { k with acks := [a] }) .storeAck (fun r => r.die0.acks == [] &&
        r.teams.map Team.gwct == [7]), !here.replyBefore 0 (gddr 0x10040) 0,
      !takes ((here.modDie 0 fun k => { k with acks := [a] }).modCore 0 fun k => { k with replies := [p] }) .storeAck
        (fun _ => true),
      (gone.team? 9).isNone, takes gone .storeAck (fun r => r.tasks.map TaskState.gwct == [7] && r.die0.acks == []),
      ((withDsm me).modDie 0 fun k => { k with dsmQ := [q] }).memWf,
      !((withDsm me).modDie 0 fun k => { k with dsmQ := [q] }).poisoned { space := .dsm, unit := 0, addr := 0x40 },
      takes ((withDsm me).modDie 0 fun k => { k with dsmQ := [q] }) .dsmElementOp (fun r =>
        r.die0.dsm.read 0x40 4 == 5 && r.die0.dsmQ == [])].all id) = true := by decide +kernel

/-- The launched state whose team waits for a peer. -/
def peering : Team := { me with pend := some (.peer (some 5) 0 0 0 0) }

/-- Meets the clauses of PeersAnswer: a read, a write, a reply, a failed one, one without its team, and the timeout. -/
theorem test_meets_PeersAnswer :
    (let q : PeerReq := { uid := 1, ctx := 1, cluster := 0, rank := 0, offset := 4092, write := none, since := 0,
                          task := launchIdent.taskAt, wave := none, back := 0 }
     let asked := fun (w : Option W32) => (hereAs peering).modCore 0 fun k => { k with inbound := [{ q with write := w }] }
     let p : PeerReply := { uid := 1, from_ := 0, since := 0, word := 9#32, failed := false, syndrome := 5#64 }
     let told := fun (p : PeerReply) => (hereAs peering).modCore 0 fun k => { k with peerReplies := [p] }
     let failing := fun (q : PeerReq) (code : Nat) (s : State) =>
       takes (s.modCore 0 fun k => { k with inbound := [q] }) .inboundPeerAccess (fun r =>
         (r.core 0).peerReplies.map (fun p => (p.failed, p.syndrome)) == [(true, peerSyndrome 0 code false)])
     [failing { q with cluster := 1 } 10 (hereAs peering), failing { q with offset := 4096 } 10 (hereAs peering),
      failing q 32 (unsound (hereAs peering) 4092), (here.peerTeam? none 1 launchIdent.taskAt 1 0).isNone,
      (here.peerTeam? none 1 launchIdent.taskAt 0 0).any (fun t => t.coreId == 0),
      takes (asked none) .inboundPeerAccess (fun r => (r.core 0).peerReplies.map PeerReply.failed == [false]),
      takes (asked (some 8#32)) .inboundPeerAccess (fun r => (r.core 0).scratch.read 4092 4 == 8),
      takes (told p) .peerReply (fun r => r.teams.map (fun u => u.getS 5) == [9#64]),
      takes (told { p with failed := true }) .peerReply (fun r => r.teams.map (fun u => u.trap.tcause) == [18#64]),
      takes (told { p with uid := 9 }) .peerReply (fun r => r.teams == [peering]),
      takes (((hereAs peering).modDie 0 fun k => { k with time := 100000 }).on fun a => { a with n := 1 }) .peerTimeout
        (fun r => r.teams.map (fun u => u.trap.tcause) == [19#64])].all id) = true := by decide +kernel

/-- Meets the clauses of LinesAtTheirHomes. -/
theorem test_meets_LinesAtTheirHomes :
    (let s := contended here |>.on fun a => { a with n := 0x10000 }
     let w := { here with host := { here.host with hdm := [(0, 0, 2 ^ 20)] } }.on fun a =>
       { a with n := 0x10040, bytes := [1#8, 2#8] }
     let moved := w.modDie 0 fun k => { k with migration := { k.migration with step := .holding, srcPage := 1 } }
     [takes s .leaseRecall (fun r => r.die0.wleases == []),
      takes (s.modDie 0 fun k => { k with time := 1000 }) .writeLeaseExpiry (fun r => r.die0.wleases == []),
      !w.homeBusy (edgeRequester 0) 0 (lineOf 0x10040), takes w .hostRead (fun _ => true),
      w.hostReaches 0 0x10040, !({ w with host := { w.host with hdm := [] } } : State).hostReaches 0 0x10040, w.hostOrdered,
      !w.portCut 0 0 0 0x10040, w.host.fwok, moved.die0.deviceHeld 0x10000, !w.die0.deviceHeld 0x10000,
      takes moved .hostRead (fun r => r.die0.mesh.map MeshReq.kind == [.read]),
      takes moved .hostWrite (fun r => r.die0.mesh.map MeshReq.kind == [.host [1#8, 2#8]] && r.die0.mem == moved.die0.mem),
      takes moved .fabricWriteArrival (fun r => r.die0.mesh.map MeshReq.kind == [.store [1#8, 2#8]]), decide (0x10040 < w.gddrSize),
      takes w .hostWrite (fun r => r.die0.mem.read 0x10040 2 == 0x201 && r.host.writeDone == 2),
      takes ((here.modDie 0 fun k => { k with dirty := [0x8000], dram := [], poison := [0x8000] }).on fun a =>
        { a with n := 0x8000 }) .sharedCacheWriteBack (fun r => r.die0.dramPoison == [0x8000]),
      takes (w.on fun a => { a with n := 0x40, ok := true, bytes := [3#8] }) .hostWrite (fun r =>
        r.host.mem.read 0x40 1 == 3),
      takes w .fabricWriteArrival (fun r => r.die0.mem.read 0x10040 2 == 0x201),
      takes ((here.modDie 0 fun k => { k with dirty := [0x8000], dram := [] }).on fun a => { a with n := 0x8000 })
        .sharedCacheWriteBack (fun r => r.die0.dram.read 0x8000 8 == 0xA001 && r.die0.dirty == [])].all id) = true := by
  decide +kernel

/-- A pair of context 1 for the word at 0x18004. -/
def somePair : Pair :=
  { uid := 1, core := 0, ctx := 1, die := 0, addr := 0x18004, op := 1, fxf := 0, shadow := 0, off := 0, val := 3#32,
    ray := none, seq := none }

/-- Meets the clauses of PairsReachMemory; the bin holds two contributions to the second word of its line. -/
theorem test_meets_PairsReachMemory :
    (let sent := here.modCore 0 fun k => { k with streams := [(0, [somePair])] }
     let flies := here.modDie 0 fun k => { k with flight := [somePair] }
     let b : Bin := { line := 0x18000, op := 1, fxf := 0, shadow := 0, off := 0, ctx := 1, mismatch := false,
                      words := [{ idx := 1, vals := [3#32, 4#32], sum := 0, flags := 0#4 }] }
     [takes sent .pairInject (fun r => r.die0.flight == [somePair] && lookup [] 0 (r.core 0).streams == []),
      (let full := here.modCore 0 fun k => { k with
         streams := [(0, List.replicate 1024 somePair)]
         entering := [{ uid := 1, sched := 0, groups := [[{ somePair with val := 9#32 }]] }] }
       takes full .pairInject (fun r => (lookup [] 0 (r.core 0).streams).length == 1024 &&
         ((lookup [] 0 (r.core 0).streams).getLast?.map Pair.val) == some 9#32 && (r.core 0).entering == [])),
      !flies.pairWaits somePair [],
      takes flies .homeAcceptPair (fun r => r.die0.flight == [] && r.die0.bins.map Bin.line == [0x18000]),
      takes ((here.modDie 0 fun k => { k with bins := [b] }).on fun a => { a with n := 0x18000 }) .binApply (fun r =>
        r.die0.mem.read 0x18000 8 == 7 * 2 ^ 32 && r.die0.bins == [])].all id) = true := by decide +kernel

/-- The launched state with a migration of the page at 0x10000 to 0x20000 requested, its leaf at `a`. -/
def moving (a : Nat) : State :=
  here.modDie 0 fun k => { k with
    regs := { k.regs with migctl := 1#64, migpte := BitVec.ofNat 64 a, migdst := 0x20000#64, pltbase := 0x40000#64 } }

/-- The state in which the migration's translations are dropped. -/
def dropping (s : State) : State :=
  s.modDie 0 fun k => { k with migration := { k.migration with step := .shooting } }

/-- Meets the clauses of PagesMove: a page that moves, refused ones, the copy, the multicast, the shootdown, the end. -/
theorem test_meets_PagesMove :
    (let held := match exec .migrationStart (moving 0xE008) with
       | .next r => r
       | _ => here
     let m : Multicast := { dests := [0], held := 0, leafDie := 0, leafAddr := 0xE008, since := 0 }
     let e : TlbEntry := { ctx := 1, vpn := 1, leaf := 0x1001F#64, leafDie := 0, leafAddr := 0xE008 }
     [!(moving 0xE008).migRefused 0x1001F#64 0,
      takes (moving 0xE008) .migrationStart (fun r => r.die0.regs.migctl == 2#64 && r.die0.migration.step == .holding),
      takes (moving 0xE010) .migrationStart (fun r => r.die0.regs.migctl == 6#64),
      takes (moving (2 ^ 40)) .migrationStart (fun r => r.die0.regs.migctl == 6#64),
      held.die0.migration.step == .holding, held.migSettled 0 held.die0.migration.srcPage,
      takes held .migrationCopy (fun r => r.die0.migration.step == .shooting && r.die0.multicasts.length == 1 &&
        r.die0.mem.read 0xE008 8 == 0x2001F),
      takes (here.modDie 0 fun k => { k with multicasts := [m] }) .multicastDeliver (fun r =>
        r.die0.multicasts == [{ m with held := 1 }] && r.die0.shoot == []),
      takes (here.modDie 0 fun k => { k with multicasts := [{ m with held := 1 }] }) .multicastDeliver (fun r =>
        r.die0.multicasts == [] && r.die0.shoot == [(0, 0, 0xE008)]),
      here.pageSettled 0 0 here.die0.migration.srcPage,
      takes ((here.modDie 0 fun k => { k with shoot := [(0, 0, 0xE008)] }).modCore 0 fun k => { k with tlb := [e] })
        .shootdown (fun r => r.die0.shoot == [] && (r.core 0).tlb == []),
      takes (dropping held) .migrationFinish (fun r => r.die0.regs.migctl == 4#64)].all id) = true := by decide +kernel

/-- The launched state with queue 0 of context 1 (16 entries, cores 0 to 7, no entry to take) and at 0x10080 a task
record: one team of 32 lanes, 8 vector registers, entry 0x10000, no resources beyond its budget. -/
def queued (dep st : Nat) : State :=
  (here.modDie 0 fun k => { k with
    mem := ((((((((k.mem.write 0 8 0x11000).write 0x10 4 0x10084).write 0x18 8 0xFF).write 0x10080 4 dep).write 0x10084 4
      (16 * st)).write 0x1008C 4 1).write 0x10090 8 0x10000).write 0x10098 8 77).write 0x100A0 8 0x0110000001080020 })

/-- Where the record lies. -/
def taskAt : Phys := gddr 0x10080

/-- Meets `still`: nothing waits to be applied. -/
def quiet (s : State) : Bool :=
  s.die0.bins.isEmpty && s.die1.bins.isEmpty && s.die0.fxLines.isEmpty && s.die1.fxLines.isEmpty && s.memWf

/-- A state with one operation on the record's DEPCNT. -/
def counting (k : DepKind) (checked : Bool) (ctx dep st : Nat) : State :=
  { queued dep st with depQ := [{ kind := k, loc := taskAt, va := 0x10080#64, ctx := ctx, core := 0, checked := checked,
                                  host := false }] }

/-- Meets the clauses of CountsUpdate. -/
theorem test_meets_CountsUpdate :
    (let left := fun (k : DepKind) (dep st n : Nat) (ready : Bool) => takes (counting k false 1 dep st) .depcntUpdate
       fun r => r.peek taskAt 4 == n && r.readyQ.isEmpty != ready && r.depQ.isEmpty
     let fails := fun (s : State) => takes s .depcntUpdate fun r => r.host.preRingCount == 1 && r.die0.mem == s.die0.mem
     [quiet (counting .dec false 1 1 0), (counting .dec false 1 1 0).depQ.all (fun o =>
        !(counting .dec false 1 1 0).depWaits o []), !(queued 0 0).poisoned taskAt, ((queued 0 0).record taskAt).valid,
      fails (counting .dec true 2 1 0), takes (counting .dec true 1 1 0) .depcntUpdate (fun r => r.readyQ.length == 1),
      left .dec 1 0 0 true, left .dec 2 0 1 false, left .dec 1 1 0 false, fails (counting .dec false 1 0 0),
      left .inc 1 0 2 false, fails (counting .inc false 1 (2 ^ 32 - 1) 0),
      left .spawn 0 0 0 true, left .spawn 3 0 3 false, fails (counting .spawn false 1 0 2)].all id) = true := by
  decide +kernel

/-- A state with the task ready and not yet on a list. -/
def readying (s : State) : State :=
  { s with readyQ := [{ loc := taskAt, va := 0x10080#64, ctx := 1, core := 0, host := false }] }

/-- Meets the clauses of TasksBecomeReady: the queue's list, a local list, a rectangle that fits nowhere. -/
theorem test_meets_TasksBecomeReady :
    (let tall := (queued 0 0).modDie 0 fun k => { k with mem := k.mem.write 0x100A4 4 0x02100000 |>.write 0x1008C 4 2 }
     let loc := (queued 0 0).modDie 0 fun k => { k with mem := k.mem.write 0x10 4 0x100A4 }
     let fits := fun (s : State) => let r := s.record taskAt
       r.valid && rectInMask r.clw r.clh (s.queue r.queue).cmask && (s.queue r.queue).serves
     [quiet (readying (queued 0 0)), !(queued 0 0).recordBusy (engineRequester 0) taskAt, fits (queued 0 0),
      takes (readying (queued 0 0)) .taskReady (fun r => r.die0.ready.map TaskRef.loc == [taskAt]),
      ((queued 0 1).record taskAt).state == 1, !(queued 0 0).queueBusy 0 0, takes (readying (queued 0 1)) .taskReady
        (fun r => r.readyQ == [] && (r.record taskAt).state == 1 && r.die0.ready.isEmpty && r.die0.locals.isEmpty),
      fits loc, takes (readying loc) .taskReady (fun r => r.die0.locals.map (fun p => p.2.loc) == [taskAt]),
      !fits tall, takes (readying tall) .taskReady (fun r => r.die0.ready.isEmpty && r.die0.locals.isEmpty &&
        (r.record taskAt).state == 3)].all id) = true := by decide +kernel

/-- Meets the clauses of EntriesSubmit: an entry that becomes ready, one with a dependence left, one misaligned, one
that does not translate, and one whose page table migrates. -/
theorem test_meets_EntriesSubmit :
    (let s := queued 0 0
     let moving := s.modDie 0 fun k => { k with migration := { k.migration with step := .holding, srcPage := 0 } }
     let submits := fun (s : State) (e : Nat) => s.submitEntry (s.queue 0) 0x11000 (BitVec.ofNat 64 e)
     let walks := fun (s : State) (e : Nat) => s.translateResident (deviceWalker 0 1) (BitVec.ofNat 64 e) .read [0, 1]
     let refused := fun (e : Nat) => (submits s e).any fun r => r.readyQ.isEmpty && r.host.preRingCount == 1
     [quiet s, quiet moving, (s.queue 0).die == 0 && (s.queue 0).ctx == 1,
      (walks s 0x10080).toOption.any (fun p => quiet p.1 && p.2.phys == taskAt && !p.1.poisoned taskAt &&
        !p.1.recordBusy (engineRequester 0) taskAt),
      (submits s 0x10080).any (fun r => r.readyQ.map ReadyOp.loc == [taskAt]),
      (submits (queued 1 0) 0x10080).any (fun r => r.readyQ.isEmpty),
      refused 0x10081, refused 0x900000, (match walks s 0x900000 with | .error (.trap _) => true | _ => false),
      (match walks moving 0x10080 with | .error .hold => true | _ => false), (submits moving 0x10080).isNone].all id) = true := by
  decide +kernel

/-- The state with PROD, CONS and the word with IDLE of queue 0. -/
def ringAt (prod cons w : Nat) : State :=
  ((queued 0 0).modDie 0 fun k => { k with
    mem := (((k.mem.write 8 4 prod).write 12 4 cons).write 0x10 4 w).write 0x11000 8 0x10080 })

/-- Meets the clauses of QueuesAdvance: an entry, the last CONS, none left, a second look, bad descriptors, doorbells of an
idle queue and of another. -/
theorem test_meets_QueuesAdvance :
    (let bad := (ringAt 1 0 0x10084).modDie 0 fun k => { k with mem := k.mem.write 0x18 8 0 }
     let again := (ringAt 1 0 0x10094).modDie 0 fun k => { k with time := 2, queueStop := [(0, 0)] }
     [quiet (ringAt 1 0 0x10084), ((ringAt 1 0 0x10084).queue 0).enable, !((ringAt 1 0 0x10084).queue 0).bad,
      !(ringAt 1 0 0x10084).homeBusy (engineRequester 0) 0 0, (ringAt 1 0 0x10084).ctxRuns 1,
      !(ringAt 1 0 0x10084).replaying 1, !(ringAt 1 0 0x10084).queueBusy 0 0, (ringAt 1 0 0x10084).hostOrdered, here.host.fwok,
      ((ringAt 1 0 0x10094).queue 0).serves && ((ringAt 1 0 0x10094).queue 0).idle && !((ringAt 1 0 0x10084).queue 0).idle,
      takes (ringAt 1 0 0x10084) .queueConsume (fun r => (r.queue 0).cons == 1),
      takes (ringAt 0 (2 ^ 32 - 1) 0x10084) .queueConsume (fun r => (r.queue 0).cons == 0),
      takes (ringAt 1 1 0x10084) .queueConsume (fun r => (r.queue 0).idle && r.die0.queueStop.map Prod.fst == [0]),
      (bad.queue 0).bad, takes bad .queueConsume (fun r => r.die0.badQueues == [0]),
      takes again .queueIdleRecheck (fun r => !(r.queue 0).idle && r.die0.queueStop.isEmpty),
      takes (ringAt 1 0 0x10094) .queueDoorbell (fun r => !(r.queue 0).idle),
      takes (ringAt 1 0 0x10084) .queueDoorbell (fun r => r.host == here.host && r.die0.mem == (ringAt 1 0 0x10084).die0.mem)].all id) = true := by
  decide +kernel

/-- The state whose team stands at a place with `pairs` update pairs under way and no store unacknowledged, its task's
record started, with the subject it. -/
def ending (p : Place) (pairs : Nat) : State :=
  let x : Pair := { uid := 1, core := 0, ctx := 1, die := 0, addr := 0x10100, op := 1, fxf := 0, shadow := 0, off := 0,
                    val := 0#32, ray := none, seq := none }
  let s := (queued 0 2).putTeam { me with place := p, ident := { launchIdent with taskAt := taskAt } }
  (State.modDie { s with tasks := [{ loc := taskAt, ctx := 1, gwct := 0, hold := false }] } 0 fun k => { k with
    flight := List.replicate pairs x }).on fun a => { a with n := 1 }

/-- Meets the clauses of TasksEnd: with and without pairs under way, in both places; a store not yet acknowledged, which
is left over and holds back the successors; a successor's decrement. -/
theorem test_meets_TasksEnd :
    (let x : SuccOp := { loc := taskAt, ctx := 1, die := 0, core := 0, succ := 0x10080#64, gwct := 0, held := false }
     [(ending .exiting 1).teams.all (fun t => !(ending .exiting 1).pipesBusy t && (ending .exiting 1).tailBusy t),
      takes (ending .exiting 1) .teamExited (fun r => r.teams.map Team.place == [.left] && r.teams.all (fun u =>
        u.vregs.isEmpty)),
      (let ops := match exec (.cpy 5#7 6#7 64#7) (recorded 0x11) with
         | .next r => (r.core 0).copies
         | _ => []
       let copying := (ending .exiting 0).modCore 0 fun k => { k with copies := ops }
       copying.teams.all (fun t => copying.copiesBusy t && !copying.pipesBusy t) && takes copying .teamExited (fun r =>
         r.teams.map (fun u => (u.place, u.ident.scrG)) == [(.left, 1)])),
      takes (ending .exiting 1) .teamExited (fun r => r.teams.map (fun u => u.ident.scrG) == [0]),
      takes ((ending .left 1).modTeam 1 id) .teamExited (fun r => r.teams.map (fun u => (u.place, u.ident.scrG)) ==
        [(.left, 0)]),
      (ending .exiting 0).teams.all (fun t => !(ending .exiting 0).tailBusy t),
      !(ending .exiting 0).recordBusy (engineRequester 0) taskAt, (queued 1 0).leftovers.isEmpty, takes (ending .exiting 0) .teamExited (fun r =>
        r.teams.isEmpty), takes (ending .left 0) .teamExited (fun r => r.teams.isEmpty), here.linkWorks,
      takes ((ending .left 0).modTeam 1 fun t => { t with outstanding := 1 }) .teamExited (fun r => r.teams.isEmpty &&
        r.leftovers.map Leftover.task == [taskAt] && !takes ({ later r with succQ := [x] }.on id) .successorDecrement fun _ => true),
      takes ({ later (queued 1 0) with succQ := [x] }) .successorDecrement (fun r => r.succQ.isEmpty)].all id) = true := by
  decide +kernel

/-- A completed task's list at 0x10100. -/
def listedOp : SuccOp := { loc := taskAt, ctx := 1, die := 0, core := 0, succ := 0x10100#64, gwct := 0, held := false }

/-- The state in which that list has one entry `e`, and the record's DEPCNT is 1. -/
def successors (e : Nat) : State :=
  (queued 1 0).modDie 0 fun k => { k with mem := (k.mem.write 0x10100 8 1).write 0x10108 8 e }

/-- Meets the clauses of SuccessorsFall: an entry whose record becomes ready, and one that does not translate. -/
theorem test_meets_SuccessorsFall :
    (let w := deviceWalker 0 1
     let words := fun (s : State) (n : Nat) (a : Word) => match s.succWords w n 0 a with
       | .ok (_, l) => l.map BitVec.toNat
       | .error _ => []
     let s := successors 0x10080
     let gone := successors 0x900000
     [s.clos == s.classOf 1, words s 1 0x10100#64 == [1], words s 1 0x10108#64 == [0x10080], words gone 1 0x10108#64 == [0x900000],
      (s.succTarget w 0x10080#64).toOption.any (fun p => quiet p.1 && p.2 == taskAt && !p.1.poisoned p.2 &&
        !p.1.depWaits (listedOp.decrement 0x10080#64 p.2) [] && p.1.peek p.2 4 == 1),
      (s.succRun listedOp).any (fun r => r.peek taskAt 4 == 0 && r.readyQ.map ReadyOp.loc == [taskAt]),
      (match gone.succTarget w 0x900000#64 with | .error (.trap _) => true | _ => false),
      (gone.succRun listedOp).any (fun r => r.peek taskAt 4 == 1 && r.host.preRingCount == 1)].all id) = true := by
  decide +kernel

/-- The state with the task on its queue's ready list, and a placement due. -/
def listed (s : State) : State :=
  s.modDie 0 fun k => { k with
    placeDue := true, ready := [{ loc := taskAt, va := 0x10080#64, ctx := 1, queue := 0, prio := 0 }] }

/-- Meets the clauses of TeamsStart: a candidate that fits, one that no core has room for, and none. -/
theorem test_meets_TeamsStart :
    (let big := listed ((queued 0 1).modDie 0 fun k => { k with mem := k.mem.write 0x18 8 1 |>.write 0x100A4 4 0x1100100 })
     [(listed (ending .exiting 1)).returnsDue 0, !takes (listed (ending .exiting 1)) .placementAttempt (fun _ => true),
      [listed (queued 0 1), big, here.modDie 0 fun k => { k with placeDue := true }].all (fun s => s.attemptDue 0 (s.offers 0)),
      (listed (queued 0 1)).die0.hold.isNone, ((listed (queued 0 1)).offers 0).length == 1,
      ((listed (queued 0 1)).startFirst 0 ((listed (queued 0 1)).offers 0)).isSome,
      takes (listed (queued 0 1)) .placementAttempt (fun r => r.teams.map (fun u => (u.pc, u.getS 0)) ==
        [(0x10000#64, 0#64), (0x10000#64, 77#64)] && r.die0.placeDue),
      (big.offers 0).length == 1, (big.startFirst 0 (big.offers 0)).isNone,
      takes big .placementAttempt (fun r => r.teams.length == 1 && r.die0.first.isSome && !r.die0.placeDue),
      takes (here.modDie 0 fun k => { k with placeDue := true }) .placementAttempt (fun r => !r.die0.placeDue)].all id) =
      true := by decide +kernel

/-- The launched team in class 3 with all tiles and nothing in its registers, and a save area of one frame at 0x10000,
its frame at 0x20000. -/
def savable (t : Team) : State :=
  let s := (hereAs t).modCtx 1 fun c => { c with save := 0x10000#64, nframe := 1 }
  s.modDie 0 fun k => { k with mem := k.mem.write 0xE010 8 0x2001F }

/-- A team without vector registers and tiles, in class 3. -/
def light : Team := { me with vregs := [], tiles := [], ident := { launchIdent with prio := 3 } }

/-- The state with a task of class 0 that needs all eight tiles of core 0 waiting since TIME 0, and its team in
class 3. -/
def crowdedOut (frames : Nat) : State :=
  let t : Team := { me with ident := { launchIdent with prio := 3 } }
  let s := (listed (queued 0 1)).putTeam t |>.modCtx 1 fun c => { c with nframe := frames }
  s.modDie 0 fun k => { k with
    mem := (k.mem.write 0x18 8 1).write 0x100A4 4 0x1180000, time := 10000, first := some (.queued 0, 0) }

/-- The state in which the team has been asked to leave with a frame, or without. -/
def asked (f : Option Nat) : State := (savable { light with preemptReq := true, frame := f }).on fun a => { a with n := 1 }

/-- Meets the clauses of TeamsLeaveAndWake on waking and leaving: a met wait, and a wake-up that travels; a team asked
to leave without a frame, with one behind an uncorrectable page table, and one that cannot be written. -/
theorem test_meets_TeamsWake :
    (let woken := fun (k : WaitKind) => takes ((hereAs { me with wait := some { kind := k, fired := true } }).on fun a =>
       { a with n := 1 }) .teamWake fun r => r.teams.all (fun u => u.wait.isNone)
     [woken (.pool 1), !here.landing 0, woken (.watch (gddr 0x10040) 0#64),
      ((asked (some 0)).team? 1).any (fun t => t.preemptReq && t.isResident && t.pend.isNone && t.frame == some 0),
      takes ((asked (some 0)).modCtx 1 fun c => { c with save := 0x900000#64 }) .teamPreempted (fun r =>
        r.teams.all (fun u => u.isResident && !u.preemptReq && u.frame.isNone)),
      takes ((asked (some 0)).modDie 0 fun k => { k with poison := [0xE000] }) .teamPreempted (fun r =>
        r.ctxs.map Ctx.halted == [true]),
      takes (asked none) .teamPreempted (fun r => r.teams.all (fun u => u.isResident && !u.preemptReq))].all id) =
      true := by decide +kernel

/-- Whether a team's frame 0 can be taken, and the beginning of every part of it written. -/
def canSave (s : State) (t : Team) : Bool :=
  let w := deviceWalker 0 1
  let ok := fun (x : Except Stop State) => x.toOption.isSome
  t.isResident && t.pend.isNone && ok (s.mapBit w 0x10000#64 0 true) &&
    t.frameParts.all fun p => ok (s.ctxWrite w (frameAt 0x10000#64 0 + BitVec.ofNat 64 p.1) (p.2.take 1))

/-- A team with a frame can leave: each of its parts can be written. -/
theorem test_meets_TeamsLeave : canSave (asked (some 0)) light = true := by decide +kernel

/-- Meets the clauses of TeamsLeaveAndWake on room: a candidate whose victim has a frame and one whose victim has none; a wave and another team that wait for the pool. -/
theorem test_meets_TeamsLeaveAndWake :
    (let wait := fun (t : Team) => (hereAs { t with wait := some { kind := .pool 32, fired := false } }).modDie 0 fun k =>
       { k with waiters := [1] }
     let open_ := (crowdedOut 1).modDie 0 fun k => { k with hold := none }
     [((crowdedOut 1).offers 0).map Offer.cand == [.queued 0], !(crowdedOut 1).leaving 0,
      ((crowdedOut 1).offers 0).all (fun o => (open_.pickCores (fun _ => false) 0 o).isNone &&
        (open_.pickCores (fun t => t.isResident && decide (o.prio < t.ident.prio)) 0 o).isSome),
      takes (crowdedOut 1) .preemptForCandidate (fun r => r.leaving 0 && r.teams.all (fun u => u.frame == some 0)),
      takes (crowdedOut 0) .preemptForCandidate (fun r => !r.leaving 0 && r.die0.hold.isNone &&
        r.die0.first == some (.queued 0, 10000)),
      ((wait me).poolHead 0 true).isNone && ((wait me).poolHead 0 false).isSome,
      takes (wait me) .poolGrant (fun r => r.teams.map Team.granted == [32]),
      ((wait waving).poolHead 0 true).isSome, takes (wait waving) .poolGrant (fun r => r.die0.waiters == [])].all id) =
      true := by decide +kernel

/-- The state in which the resident team of class 0 has watched for 50,000 ticks while another was out, whose frame
is poisoned. -/
def spinning (tiles : Nat) : State :=
  let w : Team := { me with wait := some { kind := .watch (gddr 0x10040) 0#64, fired := false } }
  let p : Team := { light with
    uid := 2, place := .preempted 5, frame := some 0, tiles := (List.range tiles).map (fun k => (k, []))
    ident := { launchIdent with prio := 1, teamid := 1 } }
  let s := (savable w).modDie 0 fun k => { k with time := 50000, poison := [0x20000] }
  ({ s with teams := s.teams ++ [p], watchSince := [(128, 0)] }).on fun a => { a with n := 1 }

/-- A donee of class 3, resident or out. -/
def donee (t : Team) : State := (savable { t with donated := true }).on fun a => { a with n := 1 }

/-- Meets the clauses of SlotsAreDonated on the beginning: room for the team that is out, and no frame. -/
theorem test_meets_DonationBegins :
    (let full_ := (spinning 8).modCtx 1 fun c => { c with nframe := 0 }
     [(spinning 0).spins 0 1, ((spinning 0).lockHolder? 0 1).map Team.uid == some 2,
      ((spinning 0).lockHolder? 0 1).any (fun p => ((spinning 0).restoreHere p).isSome),
      takes (spinning 0) .donationStart (fun r => r.teams.map Team.donated == [false, true]),
      full_.spins 0 1 && (full_.lockHolder? 0 1).any (fun p =>
        match full_.displace p p.offer.need full_.teams with
        | .ok none => true
        | _ => false),
      takes full_ .donationStart (fun r => r.teams.map Team.isResident == [true, false])].all id) = true := by
  decide +kernel

/-- Meets the clauses of SlotsAreDonated on the end: a turn that a watched word, a yield or a wait has ended, one that
goes on, also in a wait from before it, no frame, a donee that is out or has gone, and a watched word that changes. -/
theorem test_meets_DonationEnds :
    (let stays := fun (t : Team) => !takes (donee t) .donationEnd fun _ => true
     let watched := (spinning 0).putTeam { light with uid := 2, donated := true } |>.modDie 0 fun k => { k with
       mem := k.mem.write 0x10040 8 1 }
     let ended := fun (p : Team) => (donee p).teams.all fun p => p.donated && p.isResident && p.pend.isNone &&
       (p.donationOver || p.yielded || p.wait.isSome && !p.cameWaiting)
     let waits : Team := { light with wait := some { kind := .pool 1, fired := false } }
     [ended { light with donationOver := true }, ended { light with yielded := true }, ended waits,
      canSave (donee { light with yielded := true }) light, stays light, stays { light with wait := some { kind := .pool 1, fired := false }, cameWaiting := true },
      takes ((donee { light with donationOver := true }).modCtx 1 fun c => { c with nframe := 0 }) .donationEnd (fun r =>
        r.teams.map (fun u => (u.isResident, u.donated)) == [(true, false)]),
      takes (donee { light with place := .preempted 1 }) .donationEnd (fun r => r.teams.map Team.donated == [false]),
      watched.teams.all (fun w => w.uid == 2 || w.onWatch && watched.waitHolds w (.watch (gddr 0x10040) 0#64)),
      ((watched.fireWaits fun _ _ => true).team? 2).any Team.donationOver,
      takes ((savable { light with displacedBy := some 5 }).on fun a => { a with n := 5 }) .donationEnd (fun r =>
        r.teams.map Team.displacedBy == [none])].all id) = true := by decide +kernel

/-- The state with the task on core 0's local list at TIME 1,000, and core 1's steal. -/
def stealing (st : Steal) (flags : Nat) : State :=
  let s := (queued 0 1).modDie 0 fun k => { k with
    time := 1000, locals := [(0, { loc := taskAt, va := 0x10080#64, ctx := 1, queue := 0, prio := 0 })]
    mem := k.mem.write 0x10084 4 flags }
  (s.modCore 1 fun k => { k with steal := st }).on fun a => { a with core := 1 }

/-- Meets the clauses of TasksAreStolen: an idle thief, a claim, a refusal, a team that starts, a next victim and the
last one. -/
theorem test_meets_TasksAreStolen :
    (let no : Steal := { tried := [], victim := none, claimed := none, carries := none, reserve := none, answered := false,
                         retry := 0 }
     let asks : Steal := { no with victim := some 0, carries := some ((queued 0 1).freeOf 1) }
     let keep : Reserve := { sched := 0, slot := 0, budget := 1, acc := 0, scrBase := 0, scrG := 0 }
     let won : Steal := { asks with
       answered := true, claimed := some (taskAt, 0x10080#64, 1, 0), reserve := some keep }
     let lost := fun (l : List Nat) => ({ asks with answered := true, tried := l } : Steal)
     [(stealing no 16).coreIdle 1, ((stealing no 16).core 1).derate == 0, !(stealing no 16).stitching 1,
      nextVictim 1 [] == some 0,
      takes (stealing no 16) .stealRequest (fun r => (r.core 1).steal.victim == some 0 &&
        (r.core 1).steal.carries == some ((stealing no 16).freeOf 1)),
      ((stealing asks 16).stealable 1 0).isSome,
      takes (stealing asks 16) .stealClaim (fun r => (r.core 1).steal.claimed == some (taskAt, 0x10080#64, 1, 0)),
      ((stealing asks 24).stealable 1 0).isNone,
      takes (stealing asks 24) .stealClaim (fun r => (r.core 1).steal.claimed.isNone && (r.core 1).steal.answered),
      (stealing won 16).thiefOpen 1, ((queued 0 1).record taskAt).queue == 0,
      ((stealing asks 16).reserveFor 1 ((queued 0 1).record taskAt)).isSome,
      takes (stealing won 16) .stealReply (fun r => r.teams.map Team.coreId == [0, 1]),
      (nextVictim 1 [0]).isSome, takes (stealing (lost []) 16) .stealReply (fun r => (r.core 1).steal.tried == [0]),
      (nextVictim 1 (0 :: (List.range 64).drop 2)).isNone,
      takes (stealing (lost ((List.range 64).drop 2)) 16) .stealReply (fun r => (r.core 1).steal.retry == 2000)].all id) =
      true := by decide +kernel

/-- The state in which a copy of a record has joined the engine. -/
def copying (s : State) (i : Instr) : State :=
  match exec i s with
  | .next r => r.on fun a => { a with n := ((r.core 0).copies.map CopyOp.id).headD 0 }
  | _ => s

/-- A copy's result of no row and code 0. -/
def noRows : CopyResult := { ndone := 0, ecode := 0, rflag := false, g := 0, far := false, until_ := 0 }

/-- Meets the clauses of CopiesRun: to the end, short of room, a trap, a machine check; and a completion. -/
theorem test_meets_CopiesRun :
    (let ends := fun (s : State) (n code : Nat) => s.forkHolds 1 && takes s .copyStart fun r =>
       (r.core 0).copies.map (fun o => o.result.map fun y => (y.ndone, y.ecode)) == [some (n, code)]
     let from_ := fun (v a : Nat) => (recorded v).modCore 0 fun k => { k with scratch := k.scratch.write 0 8 a }
     let done := (copying (recorded 0xA11) (.cpy 5#7 6#7 64#7)).modCore 0 fun k => { k with
       copies := k.copies.map fun o => { o with result := some noRows } }
     [ends (copying (recorded 0xA11) (.cpy 5#7 6#7 64#7)) 1 0, ends (copying (recorded 0xA00) (.cpyt 5#7 6#7 64#7)) 0 0,
      ends (copying (recorded 0x811) (.cpy 5#7 6#7 64#7)) 0 7,
      ends ((copying (from_ 0x811 0x10000) (.cpy 5#7 6#7 64#7)).modDie 0 fun k => { k with poison := [0x10000] }) 0 32,
      done.memWf, takes done .copyComplete (fun r => (r.core 0).copies == []),
      takes (done.setCounter 0 0 2#32) .copyComplete (fun r => r.counter 0 0 == 1#32)].all id) = true := by decide +kernel

/-- The state whose first matrix operation has taken `n` steps. -/
def multiplying (i : Instr) (started : Bool) (n : Nat) : State :=
  let t := descriptor (1 + 2 * 2 ^ 8 + 3 * 2 ^ 16 + 2 * 2 ^ 42) 0 me
  match exec i ((hereAs t).modCore 0 fun k => { k with scratch := Memory.write [] 0 32 (2 ^ 256 - 1) }) with
  | .next r => (r.modCore 0 fun k => { k with
      mats := k.mats.map fun o => { o with started := started, step := n } }).on id
  | _ => here

/-- Meets the clauses of MatricesRun for every operation: before its first step, in a step, after its last; an
element in and beyond the rows. -/
theorem test_meets_MatricesRun :
    (let all := (matrices.map Prod.fst) ++ [Instr.mzero 7#7 6#7]
     [all.all (fun i => takes (multiplying i false 0) .matrixOpStart fun r => (r.core 0).mats.map MatOp.started == [true]),
      all.all (fun i => takes (multiplying i true 0) .matrixStep fun r => (r.core 0).mats.map MatOp.step == [1]),
      all.all (fun i => (multiplying i false 0).forkHolds 1 && ((multiplying i true 0).matHead 0).isSome),
      (let bad := unsound (multiplying (.mma 7#7 8#7) true 0) 0
       ((bad.core 0).mats.all fun o => ((o.stepReads (bad.core 0).scratch o.step).find? fun p =>
         (bad.core 0).badAt (o.scrBase + p.1) p.2).isSome) && takes bad .matrixStep fun r => r.ctxs.map Ctx.halted == [true]),
      ((multiplying (.mma 7#7 8#7) true 0).core 0).mats.all (fun o => ((o.stepReads [] o.step).find? fun p =>
        (here.core 0).badAt (o.scrBase + p.1) p.2).isNone),
      all.all (fun i => takes (multiplying i true 9999) .matrixComplete fun r => (r.core 0).mats == []),
      all.all (fun i => takes (multiplying i false 9999) .matrixComplete fun r => (r.core 0).mats == []),
      !takes ((multiplying (.mma 7#7 8#7) false 9999).modTeam 1 fun t => { t with outstanding := 1 }) .matrixComplete
        (fun _ => true),
      ((multiplying (.mma 7#7 8#7) true 0).core 0).mats.all (fun o => o.d.n == 3 && o.rows == [0, 1] && o.kind == .mma),
      ((multiplying (.mlda 7#7 8#7) true 0).core 0).mats.all (fun o => o.d.fmt == 2 && o.rows.length == 2),
      ((multiplying (.mmas 7#7 8#7 5#7) true 0).core 0).mats.all (fun o => o.dest == 5)].all id) = true := by decide +kernel

/-- The state whose transform is at the head of the pipe. -/
def transforming (i : Instr) (started : Bool) : State :=
  match exec i (hereAs (me.withS [(7, 1#64)])) with
  | .next r => (r.modCore 0 fun k => { k with
      xfs := k.xfs.map fun o => { o with started := started, buffer := List.replicate 130 1#32 } }).on id
  | _ => here

/-- Meets the clauses of TransformsRun for a table load, a binding and its end, and the others. -/
theorem test_meets_TransformsRun :
    (let all := [Instr.xhad 4#7 5#7 7#7 0#1, .xtrn 4#7 5#7 7#7 0#1, .xtopk 4#7 5#7 7#7 0#1, .xtld 6#7 1#7, .xtbind 1#7,
       .xtbind 2#7]
     [all.all (fun i => takes (transforming i false) .transformStart fun r => (r.core 0).xfs.map XfOp.started == [true]),
      all.all (fun i => takes (transforming i true) .transformComplete fun r => (r.core 0).xfs == []),
      all.all (fun i => ((transforming i false).xfHead 0).isSome && (transforming i false).forkHolds 1),
      takes (unsound (transforming (.xtld 6#7 1#7) false) 516) .transformStart (fun r => r.ctxs.map Ctx.halted == [true]),
      takes (transforming (.xtld 6#7 1#7) true) .transformComplete (fun r => (r.core 0).bank1.read 516 4 == 1),
      takes (transforming (.xtbind 1#7) true) .transformComplete (fun r => r.teams.map Team.binding == [some 1])].all id) =
      true := by decide +kernel

/-- The launched state with ray 3 in a state, its words counting up (word 13 names shader 13 for a hit), and shader 0 of
32 lanes at 0x11000. -/
def rayed (st : RayState) : State :=
  let s := here.modCtx 1 fun c => { c with eff := { c.eff with shdtab := 0x11000#64, shdcnt := 1#64 } }
  (s.modDie 0 fun k => { k with
    mem := (k.mem.write 0x11000 8 0x10000).write 0x11010 8 0x0110000002200020
    rays := [{ num := 3, ctx := 1, words := (List.range 32).map (BitVec.ofNat 32), state := st, key := 0, since := 0,
               src := none }] }).on
      fun a => { a with n := 3 }

/-- A bin of so many rays from number 3 on, under a key. -/
def binOf (key n : Nat) : SkBin :=
  { slice := keySlice key, key := key, ctx := 1, rays := (List.range n).map (fun k => (3 + k, 0)), prefetched := false }

/-- A state with bins at a TIME. -/
def State.withBins (s : State) (t : Nat) (l : List SkBin) : State :=
  s.modDie 0 fun k => { k with time := t, skBins := l }

/-- Meets the clauses of RaysEnterBins: a traversal bin, shader bins of a valid and of no shader, a scene beyond the
tables, a bin joined and a new one, a batch and a wave by age. -/
theorem test_meets_RaysEnterBins :
    (let s := rayed (.entering none)
     let far := (rayed (.entering none)).modCtx 1 fun c => { c with eff := { c.eff with scene := 0x30000#64 } }
     let key := binKey ((List.range 32).map (BitVec.ofNat 32)) none none
     let sh := 2 ^ 33
     let aged := ((rayed .traversalBin).withBins 4096 [binOf key 1]).on fun a => { a with n := keySlice key }
     let shaded := ((rayed .shaderBin).withBins 4096 [binOf sh 1]).on fun a => { a with n := keySlice sh }
     [s.ctxRuns 1, takes s .rayEntersBin (fun r => r.die0.skBins.map SkBin.key == [key]),
      takes (rayed (.entering (some 0))) .rayEntersBin (fun r => r.die0.skBins.map SkBin.isShader == [true]),
      [(0, true), (1, false)].all (fun p => match s.shader 0 1 p.1 with
       | .ok (_, h) => h.isSome == p.2
       | .error _ => false),
      (match far.sceneOf (deviceWalker 0 1) with
       | .error (.fault c _ _) => c == 2
       | _ => false),
      ((s.withBins 0 [binOf key 1023]).ray? 0 3).all (fun r => ((s.withBins 0 [binOf key 1023]).joinBin 0 r key).any
        fun x => x.die0.skBins.map (fun b => b.rays.length) == [1024]),
      ((s.withBins 0 [binOf key 1024]).ray? 0 3).all (fun r => ((s.withBins 0 [binOf key 1024]).joinBin 0 r key).any
        fun x => x.die0.skBins.map (fun b => b.rays.length) == [1024, 1]),
      aged.batchCore 0 == some 0, takes aged .traversalBinAge (fun r => (r.core 0).batches.map Batch.rays == [[3]]),
      (shaded.die0.shaderBins (keySlice sh)).map (shaded.waveReady 0) == [true],
      takes shaded .shaderBinAge (fun r => r.die0.waves.map Wave.rays == [[3]])].all id) = true := by decide +kernel

/-- The state in which core 0's traversal unit has a batch of ray 3. -/
def batched (st : RayState) : State :=
  ((rayed st).modCore 0 fun k => { k with batches := [{ key := 0, ctx := 1, rays := [3] }] }).on id

/-- The state that owes a DONE decrement of the record at 0x10080 at TIME 10. -/
def doneOf (done : Nat) : State :=
  let s := (later (queued 1 0)).modCtx 1 fun c =>
    { c with doneDue := [0], eff := { c.eff with scene := 0x12000#64 } }
  (s.modDie 0 fun k => { k with mem := k.mem.write 0x12020 8 done }).on fun a => { a with n := 1 }

/-- Meets the clauses of RaysTraverse: a ray's step, a line of a treelet, a miss and a hit with a shader
and without, DONE of 0 and of a record, pressure. -/
theorem test_meets_RaysTraverse :
    (let tree := ((rayed .batched).modDie 0 fun k => { k with
       treelets := [{ base := 0x10000, ctx := 1, data := [], lines := [0x11000] }] }).on fun a => { a with n := 0x11000 }
     let hit := fun (h : Nat) => some (1#32, 2#32, 3#32, 4#32, 5#32, h)
     let next := fun (h : Option (W32 × W32 × W32 × W32 × W32 × Nat)) (n : Nat) => takes (rayed (.traversed h))
       .traversalResult fun r => r.die0.rays.map Ray.state == [.entering (some n)]
     let busy := (batched .batched).core 0
     let full_ := (rayed .batched).modDie 0 fun k => { k with time := 100000, waveFullSince := some 0 }
     [busy.power != .off, ((batched .batched).batchLeft 0 { key := 0, ctx := 1, rays := [3] }).length == 1,
      takes (batched .batched) .traversalStep (fun r => r.die0.rays.map Ray.state == [.traversed none] &&
        (r.core 0).batches == busy.batches),
      takes tree .treeletLineArrival (fun r => r.die0.treelets.all fun t => t.lines == [] && t.data.read 0x11000 8 == 0x10000),
      next none 0, next (hit 65534) 65534, next (hit 65535) 13,
      takes (rayed (.traversed (hit 7))) .traversalResult (fun r => r.die0.rays.all fun y => y.words.getD 14 0#32 == 1#32 &&
        y.words.getD 12 0#32 == 0x100000C#32),
      takes ((rayed (.traversed none)).modDie 0 fun k => { k with rays := k.rays.map fun y => { y with
        words := y.words.set 13 0xFFFF0000#32 } }) .traversalResult (fun r => r.die0.rays == []),
      takes (doneOf 0) .doneDecrement (fun r => r.ctxs.map Ctx.doneDue == [[]]),
      (match (doneOf 0x10080).sceneOf (deviceWalker 0 1) with
       | .ok (s1, some e) => e.done == 0x10080#64 && (match s1.sceneMap (deviceWalker 0 1) e.done with
         | .ok (s2, p) => p == taskAt && !s2.recordBusy (engineRequester 0) p
         | .error _ => false)
       | _ => false),
      full_.pressed 0 3, takes full_ .poolPressure (fun r => r.host.preRingCount == 1)].all id) = true := by decide +kernel

/-! ### A traversal (R301's example) -/

/-- The ray of R301's example. -/
def exampleRay : Ray :=
  { num := 3, ctx := 1, state := .batched, key := 0, since := 0, src := none
    words := ([0x3E800000, 0x3E800000, 0xBF800000, 0, 0, 0, 0x3F800000, 0x42C80000] ++ List.replicate 24 0).map
      (BitVec.ofNat 32) }

/-- Its triangle, with TRI, GEOM and HSHD behind the vertices. -/
def exampleTri : Nat :=
  ((List.range 12).map fun k => [0, 0, 0, 0x3F800000, 0, 0, 0, 0x40400000, 0, 77, 88, 5].getD k 0 * 2 ^ (32 * k)).sum

/-- A walker of core 0. -/
def exampleWalker : Walker := { die := 0, tlb := some 0, ctx := 1 }

/-- What the core's TLB holds for the page of the scene. -/
def exampleLeaf : TlbEntry := { ctx := 1, vpn := 1, leaf := 0x1001F#64, leafDie := 0, leafAddr := 0xE008 }

/-- The launched state with a descriptor at 0x12000 whose root is a leaf of one triangle, at 0x12040, and without a
treelet cache. -/
def exampleScene : State :=
  (here.modCtx 1 fun c => { c with eff := { c.eff with scene := 0x12000#64 } }).modDie 0 fun k => { k with
    mem := ((k.mem.write 0x12000 8 0x10000).write 0x12008 4 0x40000081).write 0x12040 64 exampleTri
    regs := { k.regs with slicecfg := 0#64 } }

/-- The triangle stands in memory, its page in the TLB, its line in the cache without a bin. -/
abbrev Standing (z : State) : Prop :=
  z.die0.mem.read 0x12040 64 = exampleTri ∧ z.die0.bins = [] ∧ z.die0.trlw = 0 ∧ z.product = .m ∧
    (z.core 0).tlb.find? (fun e => e.ctx == 1 && e.vpn == 1) = some exampleLeaf ∧
    (z.die0.cache.find? (fun x => x.line == 0x12000)).isSome = true

theorem standing_map {z : State} (h : Standing z) :
    z.sceneMap exampleWalker 0x12040#64 = .ok (z, gddr 0x12040) := by
  obtain ⟨-, -, -, hp, htlb, -⟩ := h
  have beyond : z.pfnBeyond exampleWalker exampleLeaf.leaf = none := by
    simp only [State.pfnBeyond, show leafLoc exampleLeaf.leaf = 0 by decide, State.gddrSize, hp]; decide
  have dies : z.nDies = 1 := by simp only [State.nDies, hp]
  have leaf : z.leafOf exampleWalker 0x12040#64 = .ok (z, exampleLeaf.leaf, exampleLeaf.leafAddr, true) := by
    simp only [State.leafOf, exampleWalker, Option.bind_some, show (0x12040#64).toNat / 65536 = 1 by decide, htlb]
  simp only [State.sceneMap, State.translateResident, State.translate, leaf, beyond, dies, bind, Except.bind]
  rfl

theorem standing_home {z : State} (h : Standing z) : Standing (z.homeRead exampleWalker.requester 0 0x12000 false) := by
  obtain ⟨hm, hb, ht, hp, htlb, hc⟩ := h
  obtain ⟨l, hc⟩ := Option.isSome_iff_exists.mp hc
  let w := exampleWalker.requester
  have same : z.homeRead w 0 0x12000 false = z.modDie 0 fun k => { k with
      wleases := k.wleases.filter fun x => x.line != 0x12000 || x.core == w
      recent := (0x12000, w, k.time) :: k.recent.filter fun r => !(r.1 == 0x12000 && r.2.1 == w)
      cache := l :: k.cache.filter fun x => x.line != 0x12000 } := by
    have unbinned : (z.recallLine w 0 0x12000).applyLine 0 0x12000 = z.recallLine w 0 0x12000 := by
      simp [State.applyLine, State.recallLine, State.modDie, State.die, State.setDie, hb]
    show (((z.recallLine w 0 0x12000).applyLine 0 0x12000).noteRequest 0 0x12000 w).touchLine 0 0x12000 = _
    rw [unbinned]
    simp [State.touchLine, State.noteRequest, State.recallLine, State.modDie, State.die, State.setDie, Die.touch, hc]
  rw [same]
  have top := List.find?_some hc
  exact ⟨hm, hb, ht, hp, htlb, by simp [State.modDie, State.setDie, State.die, top]⟩

theorem standing_bvh {z y : State} {p : Phys} {v : Nat} (h : Standing z)
    (hr : z.bvhRead exampleWalker 0x12040#64 64 = .ok (y, p, v)) : v = exampleTri ∧ Standing y := by
  simp only [State.bvhRead, standing_map h, bind, Except.bind] at hr
  rw [show (z.die (gddr 0x12040).unit).trlw = 0 from h.2.2.1, show linesOf (gddr 0x12040) 64 = [gddr 0x12000] by decide] at hr
  have lands := standing_home h
  simp only [if_true, List.foldlM, bind, Except.bind, State.readLine] at hr
  split at hr
  · cases hr
  · rename_i x heq
    split at heq
    · cases heq
    · rename_i x' heq'
      cases heq
      cases hr
      split at heq'
      · cases heq'
      · split at heq' <;> cases heq'
        exact ⟨lands.1, lands⟩

/-- The walk of the example from a base. -/
def exampleEnv (base : Word) (ray : RayIn) : WalkEnv :=
  { w := exampleWalker, base := base, ray := ray, num := 3, key := 0 }

theorem example_triangle (ray : RayIn) : triAddr (exampleEnv 0x10000#64 ray) 0x40000081 0 = 0x12040#64 := by
  simp only [triAddr, exampleEnv]; decide

/-- The BVH of the example: every read of it gives the triangle, and leaves it standing. -/
theorem example_stands (ray : RayIn) :
    BvhStands (exampleEnv 0x10000#64 ray) Standing (fun _ _ => exampleTri) 0x40000081 := by
  intro z hz
  refine ⟨fun _ => hz, fun ref held => ?_⟩
  have only : ref = 0x40000081 := by
    induction held with
    | root => rfl
    | child _ _ _ kind _ _ ih => subst ih; exact absurd kind (by decide)
  subst only
  refine ⟨fun kind => absurd kind (by decide), fun _ j hj y p v hr => standing_bvh (p := p) hz ?_⟩
  obtain rfl : j = 0 := Nat.le_zero.mp (le_trans hj (by decide))
  rwa [example_triangle] at hr

/-- Meets the hypotheses of TraversalFindsNearest with a hit, and a ray that misses before anything is tested. -/
theorem test_meets_TraversalFindsNearest : (RayIn.ofWords [0#32, 0#32, 0#32, 0x3F800000#32]).misses = true ∧
    ∃ s0 s1 sc h,
      let ray := RayIn.ofWords exampleRay.words
      let f := fun (_ : Word) (_ : Nat) => exampleTri
      let env := exampleEnv (bvhBase sc.bvh) ray
      ray.misses = false ∧ exampleScene.sceneOf exampleWalker = .ok (s0, some sc) ∧ Standing s0 ∧
        BvhStands env Standing f sc.root ∧ exampleScene.traverse exampleWalker exampleRay = .ok (s1, some h) ∧
        h.addr = 0x12040#64 ∧ triangleHit env f h.addr = some (h.t, h.u, h.v) ∧ Below env f ray.tmax h.addr sc.root := by
  have base : bvhBase 0x10000#64 = 0x10000#64 := by simp only [bvhBase]; decide
  have found : (match exampleScene.sceneOf exampleWalker with
    | .ok (z, some sc) => decide (Standing z) && sc.bvh == 0x10000#64 && sc.root == 0x40000081
    | _ => false) = true := by decide +kernel
  have ends : (match exampleScene.traverse exampleWalker exampleRay with
    | .ok (_, some h) => h.addr == 0x12040#64 && triangleHit (exampleEnv 0x10000#64 (.ofWords exampleRay.words))
        (fun _ _ => exampleTri) h.addr == some (h.t, h.u, h.v)
    | _ => false) = true := by decide +kernel
  refine ⟨by decide +kernel, ?_⟩
  split at found
  · rename_i s0 sc at_
    split at ends
    · rename_i s1 h hits
      simp only [Bool.and_eq_true, decide_eq_true_eq, beq_iff_eq] at found ends
      obtain ⟨⟨stands, bvh⟩, root⟩ := found
      refine ⟨s0, s1, sc, h, ?_⟩
      simp only [bvh, base, root, ends.1]
      exact ⟨by decide +kernel, at_, stands, example_stands _, hits, trivial, ends.1 ▸ ends.2,
        .leaf _ 0 (by decide) (by decide) (example_triangle _).symm⟩
    · cases ends
  · cases found

/-- The launched state with core 0 changed, at a TIME. -/
def coreAt (t : Nat) (f : Core → Core) : State :=
  ((here.modDie 0 fun k => { k with time := t }).modCore 0 f).on id

/-- The launched state without its team. -/
def noTeam (s : State) : State := { s with teams := [] }

/-- Meets the clauses of PowerAndDerating. -/
theorem test_meets_PowerAndDerating :
    (let i : Interval := { kind := 3, code := 2, struct := 0, sl := true, unit := 0, opened := 0, count := 0, counted := true,
                           record := List.replicate 8 0#64 }
     let closing := fun (n : Nat) => here.modDie 0 fun k => { k with time := 1000000, intervals := [{ i with count := n }] }
     let waits := fun (s : State) => s.putTeam { me with wait := some { kind := .counter 0 0#64, fired := false } }
     let cold := coreAt 9 fun k => { k with power := .off, wakeAt := some 9 }
     [takes (closing 0) .recordIntervalClose (fun r => r.die0.intervals == [] && r.host.preRingCount == 0),
      takes (closing 5) .recordIntervalClose (fun r => r.die0.intervals == [] && r.host.preRingCount == 1),
      !(waits (coreAt 0 fun k => { k with cycles := 1000 })).coreWanted 0,
      takes (waits (coreAt 0 fun k => { k with cycles := 1000 })) .coreClockGate (fun r => (r.core 0).power == .idle),
      takes (noTeam (coreAt 1000000 fun k => { k with power := .idle })) .corePowerGate (fun r => (r.core 0).power == .off),
      takes (here.on fun a => { a with v := 95, n := 0 }) .derateSample (fun r => (r.core 0).temp == 95 &&
        (r.core 0).thermal == 1),
      takes (coreAt 0 fun k => { k with temp := 115 }) .thermalTrip (fun r => (r.core 0).tripped &&
        r.ctxs.map Ctx.halted == [true]),
      (coreAt 0 fun k => { k with power := .idle }).coreWanted 0,
      takes (coreAt 0 fun k => { k with power := .idle }) .coreWake (fun r => (r.core 0).power == .run),
      takes cold .coreWake (fun r => (r.core 0).power == .run),
      takes ((coreAt 0 fun k => { k with tripped := true, batches := [{ key := 0, ctx := 1, rays := [] }] }).on fun a =>
        { a with v := 0 }) .derateSample (fun r => !(r.core 0).tripped),
      takes here .d3hotEntry (fun r => r.host.d3hot && (r.core 0).power == .off),
      takes { cold with host := { here.host with d3hot := true } } .d3hotExit (fun r => !r.host.d3hot &&
        (r.core 0).wakeAt.isSome)].all id) = true := by decide +kernel

/-- Meets the clauses of LoopsAndMonitors; noise that fails twice within 1,000,000 ticks. -/
theorem test_meets_LoopsAndMonitors :
    (let loops := (here.modDie 0 fun k => { k with
       regs := { k.regs with skcfg := k.regs.skcfg ||| 0x0C00000000000000#64 } }).on fun a => { a with n := 31 }
     let failed := (coreAt 999999 fun k => { k with noiseFailAt := some 0 })
     [takes (here.on fun a => { a with v := 16 }) .clockLoop (fun r => (r.core 0).clock == 16 &&
        (r.core 0).clockFloorSince.isSome), takes (here.on fun a => { a with v := 64 }) .clockLoop (fun r =>
        (r.core 0).clock == 64), takes (here.on fun a => { a with ok := true }) .gddr7Equalisation (fun _ => true),
      takes (here.on fun a => { a with n := 31 }) .gddr7Equalisation (fun r => r.host.preRingCount == 1),
      takes (here.on fun a => { a with ok := true }) .serdesAdaptation (fun _ => true),
      takes (here.on fun a => { a with n := 63 }) .serdesAdaptation (fun r => r.host.preRingCount == 1),
      skcfgValid loops.die0.regs.skcfg, takes loops .waveAgeLoop (fun r => (r.die0.sliceLoop 31).formed == 0),
      takes loops .prefetchThresholdLoop (fun r => (r.die0.sliceLoop 31).reads == 0),
      takes (here.on fun a => { a with n := 7, v := -(2 ^ 31) }) .monitorSample (fun r => (r.die0.monitor 7 0).count == 1),
      takes ({ here with host := { here.host with thresholds := [(3, -5, 5)] } }.on fun a => { a with n := 3, m := 63, v := 6 })
        .monitorSample (fun r => (r.die0.monitor 3 63).rearm == 16),
      takes (here.on fun a => { a with ok := true }) .noiseWord (fun r => (r.core 0).noise.length == 1),
      takes here .noiseWord (fun r => (r.core 0).noiseFailAt == some 0 && !(r.core 0).noiseFailed),
      takes failed .noiseWord (fun r => (r.core 0).noiseFailed)].all id) = true := by decide +kernel

/-- The pair with its link as given, at a TIME of die 1. -/
def paired (up : Bool) (t : Nat) : State :=
  ({ here with product := .w2, host := { here.host with linkUp := up } }.modDie 1 fun k => { k with time := t }).on id

/-- Meets the clauses of LinksAndClocks. -/
theorem test_meets_LinksAndClocks :
    (let q : MeshReq := { kind := .load 5 8, uid := 1, ctx := 1, core := 0, loc := gddr 0x10040, nc := false, since := 0, seq := none }
     let far : MeshReq := { q with loc := { q.loc with unit := 1 } }
     let late := here.modDie 0 fun k => { k with time := 1000000, mesh := [q] }
     let port := fun (k t : Nat) (l : List PortDown) => (here.modDie 0 fun d => { d with time := t, ports := l }).on fun a =>
       { a with k := k }
     let log := fun (type since : Nat) => ((here.modCtx 1 fun c => { c with
       replay := some (0x12000#64, 32), replaySince := [(6, since), (10, since)] }).modDie 0 fun k => { k with
         time := 10000000, mem := k.mem.write 0x12000 8 (0x100 + type) }).on fun a => { a with n := 1 }
     let unlogged := (listed ((queued 0 1).modCtx 1 fun c => { c with
       replay := some (0x12000#64, 32), replaySince := [(6, 0), (10, 0)] })).on fun a => { a with n := 1 }
     [(nextTile (coreTile 0) 1).isSome, here.die0.linkFails.isEmpty,
      takes (here.on fun a => { a with k := 1, ok := false }) .meshLinkFail (fun r => r.die0.linkFails.length == 1),
      takes (here.on fun a => { a with v := -1 }) .timeCheck (fun r => r.ctxs.map Ctx.halted == [false]),
      takes (here.on fun a => { a with v := 2 }) .timeCheck (fun r => r.ctxs.map Ctx.halted == [true]),
      (let lines := [0, 1].map fun d => ({ die := d, line := 0x10000, data := [], exp := 99 } : L1Line)
       let s := (paired true 5).modCore 0 fun k => { k with l1 := lines }
       let s := s.modDie 0 fun k => { k with wleases := [0, 64].map fun c => { line := 0x10000, core := c, g0 := 0, expiry := 99 } }
       takes (s.on fun a => { a with v := 2 }) .timeCheck (fun r => lookup 0 0 r.die0.held == 2 && (r.core 0).l1 == [] &&
           r.die0.wleases.map WLease.core == [64]) &&
         takes (s.on fun a => { a with k := 1 }) .clockCheck (fun r => (r.core 0).l1 == lines.take 1 &&
           r.die0.wleases.map WLease.core == [0])),
      takes ((paired true 5).on fun a => { a with ok := true }) .clockCheck (fun r => r.linkWorks),
      takes ((paired true 5).on fun a => { a with k := 1 }) .clockCheck (fun r => !r.linkWorks && r.host.clockOk &&
        r.host.linkDownAt == 5), (paired true 0).linkWorks,
      takes (paired false 5) .pairLinkRestore (fun r => r.linkWorks),
      takes ((paired false 1000000).modDie 0 fun k => { k with mesh := [far] }) .pairLinkRestoreTimeout (fun r =>
        r.host.linkTimedOut && r.ctxs.map Ctx.halted == [true]),
      (let ran := { here with host := { here.host with ranOnce := true } }
       !takes (ran.on fun a => { a with n := 100 }) .ptpSync (fun r => r.die0.time == 100) &&
         takes ((ran.modDie 0 fun k => { k with time := 1000000 }).on fun a => { a with n := 100 }) .ptpSync (fun r =>
           r.die0.time == 1000100)), !here.host.ranOnce,
      takes ({ here with ctxs := [] }.on fun a => { a with v := 100, n := 7 }) .ptpSync (fun r => r.die0.time == 7),
      takes (here.on fun a => { a with v := 100 }) .ptpSync (fun r => r.die0.ptpGood == 1),
      here.scaleOut 0, takes (port 1 0 []) .scaleoutPortDown (fun r => r.die0.ports.length == 1),
      takes (port 2 0 [{ port := 0, since := 0, reported := false }]) .scaleoutPortDown (fun r => r.die0.ports == []),
      takes (port 0 100000 [{ port := 0, since := 0, reported := false }]) .scaleoutPortDown (fun r =>
        r.die0.ports.map PortDown.reported == [true]),
      takes late .reservationTimeout (fun r => r.ctxs.map Ctx.halted == [true]),
      (let waits := (here.modDie 0 fun k => { k with time := 1000000, waiters := [1], waiterSince := [(1, 0)] })
       waits.anyOverdue 0 && takes waits .reservationTimeout (fun r => r.ctxs.map Ctx.halted == [true])),
      (log 5 0).replaying 1 && ((log 5 0).nextLogged 1 0 [5]).isSome && ((log 3 0).placementsLeft 1 0).length == 1,
      [log 5 0, log 3 0, unlogged].all (fun s => takes s .replayDivergence fun r => r.ctxs.map Ctx.halted == [true]),
      unlogged.replayUnmatched 0 1, !(log 5 1).replayUnmatched 0 1,
      [log 5 1, log 3 1].all (fun s => !takes s .replayDivergence fun _ => true)].all id) = true := by decide +kernel

/-- The launched state whose context may write die registers, with a value to be written. -/
def managing (n : Nat) (w : Word) : State :=
  (here.modCtx 1 fun c => { c with ctxctl := 16#64 }).on fun a => { a with n := n, w := w }

/-- A write from outside a team: its target, and its value as a word and as bytes. -/
def writing (t : RegTarget) (w : Word) (bytes : List Byte) : State :=
  here.on fun a => { a with target := t, w := w, bytes := bytes }

/-- Meets the clauses of RegistersWritten. -/
theorem test_meets_RegistersWritten :
    (let pend := here.modDie 0 fun k => { k with pendSlice := some 0x123#64, pendStitch := [(7, 0x80001202#64)] }
     let scene := (here.modCtx 1 fun c => { c with scenePend := some 0x12000#64 }).on fun a => { a with n := 1 }
     let slice := managing 0
     let post := ((Memory.write [] 0 2 5).write 8 8 0x2080000).write 16 8 16
     let posted := { here with host := { here.host with mbox := post } }.on fun a => { a with w := 16#64 }
     [takes (writing (.bar 0x10) 0x200000#64 []) .registerWrite (fun r => r.host.qtbase == 0x200000#64),
      (writing (.bar 0x1FFF) 0#64 [7#8]).hostOrdered, (writing (.bar 0x1002) 0#64 [7#8]).mboxOp == 0,
      takes (writing (.bar 0x1000) 0#64 [0#8, 0#8, 1#8, 0#8]) .registerWrite (fun r => r.mbox 0 4 == 0),
      (let off := writing (.bar 0x10) 0x200000#64 []
       takes { off with host := { off.host with status := 0#64 } } .registerWrite (fun r => r.host.qtbase == 0#64)),
      takes (writing (.bar 0x10) 0x200001#64 []) .registerWrite (fun r => r.host.qtbase == 0#64),
      takes (writing (.bar 0x1FFF) 0#64 [7#8]) .registerWrite (fun r => r.mbox 0xFFF 1 == 7),
      [0, 0xF, 0x20, 0xFFF, 0x2000].all (fun o => takes (writing (.bar o) 9#64 []) .registerWrite (fun r =>
        r.host.mbox == [])),
      takes (writing (.csr 0x106 1 0) 0x20000#64 []) .registerWrite (fun r => r.ctxs.map (fun c => c.csr 0x106) == [0x20000#64]),
      (let hinted := (writing (.csr 0x103 1 0) 0x12000#64 []).modDie 0 fun k => { k with hints := [(1, gddr 0x11000)] }
       takes hinted .registerWrite (fun r => r.die0.hints == [] && r.ctxs.map (fun c => c.csr 0x103) == [0x12000#64])),
      takes (writing (.csr 0x106 1 0) 2#64 []) .registerWrite (fun r => r.ctxs == here.ctxs),
      takes (writing (.csr 0x107 1 0) 8#64 []) .registerWrite (fun r => r.ctxs.map Ctx.ctxctl == [8#64]),
      takes (writing (.csr 0x203 1 0) 64#64 []) .registerWrite (fun r => r.die0.regs.lease == 64#64),
      takes (writing (.csr 0x203 1 0) 63#64 []) .registerWrite (fun r => r.die0.regs.lease == 0x200#64),
      takes (here.on fun a => { a with w := 0x4000#64 }) .completionDoorbell (fun r => r.host.preRingCount == 0),
      takes ((here.setCounter 63 255 1#32).on fun a => { a with w := 0x3FFF#64 }) .completionDoorbell (fun r =>
        r.counter 63 255 == 0#32),
      takes (here.on fun a => { a with w := 0x3FFF#64 }) .completionDoorbell (fun r => r.host.preRingCount == 1),
      takes (slice 0x186#64) .slicecfgWrite (fun r => r.die0.pendSlice == some 0x186#64),
      takes (slice 0x43#64) .slicecfgWrite (fun r => r.die0.pendSlice == none),
      here.die0.stitchValid 7 0x80001202#64, takes (managing 7 0x80001202#64) .stitchWrite
        (fun r => r.die0.stitchNext 7 == 0x80001202#64),
      takes (managing 0 16#64) .soruscfgWrite (fun r => r.die0.regs.soruscfg == 16#64),
      posted.mailboxAsks 0 0x208 16#64 && !posted.sysTeam 0, takes posted .soruscfgWrite (fun r => r.die0.regs.soruscfg == 16#64),
      !takes (here.on fun a => { a with w := 16#64 }) .soruscfgWrite (fun _ => true),
      !takes (here.on fun a => { a with w := 0x186#64 }) .slicecfgWrite (fun _ => true),
      takes (managing 0 786432#64) .poolrsvWrite (fun r => r.die0.regs.poolrsv == 786432#64),
      (let many := pend.modDie 0 fun k => { k with
         regs := { k.regs with slicecfg := 0x203#64 }, dsm := k.dsm.write 0x1800000 8 1 }
       takes many .slicecfgApply (fun r => r.die0.dsm == [] && r.die0.dsmSize == 0x1000000)),
      (noTeam pend).packets 0 == [], pend.poolFree 0 == pend.die0.poolCapacity, takes pend .slicecfgApply (fun r => r.die0.regs.slicecfg == 0x123#64),
      takes ((noTeam pend).on fun a => { a with n := 7 }) .stitchApply (fun r => r.die0.regs.stitch[7]? == some 0x80001202#64),
      takes scene .sceneWrite (fun r => r.ctxs.map (fun c => c.eff.scene) == [0x12000#64])].all id) = true := by decide +kernel

/-- A state with firmware running and a request: its code, its words at 8 and 16. -/
def request (s : State) (code w8 w16 : Nat) : State :=
  ({ s with host := { s.host with
      status := 2#64, mbox := ((Memory.write [] 0 2 code).write 8 8 w8).write 16 8 w16 } }).on id

/-- A request whose message holds a descriptor of context 7: root at 0x8000, a ring of 16, at 0x40. -/
def describing (s : State) (code w8 : Nat) : State :=
  let r := request s code w8 0
  { r with host := { r.host with mbox := (r.host.mbox.write 0x40 8 0x8000).write 0x74 4 0x40007 } }

/-- Meets the clauses of MailboxAnswers, each request where it is served and where it is refused; a certificate that the
chain holds depends on the free value `certificates`. -/
theorem test_meets_MailboxAnswers :
    (let served := fun (s : State) (i : Instr) (p : State → Bool) => s.host.fwok && s.memWf && takes s i (fun r =>
       r.mbox 0 8 == 0 && r.host.msix == [2] && p r)
     let refused := fun (s : State) (i : Instr) => takes s i (fun r => r.mbox 4 4 == 1 && r.mboxOp == 0)
     let off := fun (s : State) => { s with host := { s.host with status := 0#64 } }
     let all := [(1, Instr.ctxinstall), (2, .ctxreset), (3, .ctxremove), (4, .csrread), (5, .csrwrite), (6, .errring),
       (7, .peerto), (16, .attest), (17, .cert), (48, .monread), (49, .setthr), (50, .replay)]
     let idle := noTeam here
     [!here.copying 1, all.all (fun e => refused (off (request here e.1 0 0)) e.2),
      served (describing here 1 0) .ctxinstall (fun r => r.ctxs.map Ctx.id == [1, 7]),
      refused ((describing here 1 0).modCtx 1 fun c => { c with id := 7 }) .ctxinstall,
      refused (request here 1 0 0) .ctxinstall,
      served (request here 2 1 0) .ctxreset (fun r => r.teams == []), refused (request here 2 7 0) .ctxreset,
      served (request idle 3 1 0) .ctxremove (fun r => r.ctxs == []), refused (request here 3 1 0) .ctxremove,
      served (request here 4 0x1060001 0) .csrread (fun r => r.mbox 16 8 == 0x10400),
      refused (request here 4 0x1060007 0) .csrread, !here.unsettled 1,
      served (request here 5 0x1060001 0x20000) .csrwrite (fun r => r.ctxs.map (fun c => c.csr 0x106) == [0x20000#64]),
      served (request here 5 0x2030000 8192) .csrwrite (fun r => r.die0.regs.lease == 8192#64),
      refused (request here 5 0x2030000 8193) .csrwrite, refused (request here 5 0x20F0000 0) .csrwrite,
      served (request here 6 0 0x12004) .errring (fun r => r.die0.regs.errring == 0x12004#64),
      refused (request here 6 0 0x12003) .errring,
      served (request here 7 0 10000) .peerto (fun r => r.host.peerTimeout == 10000),
      [9999, 1000001].all (fun v => refused (request here 7 0 v) .peerto), refused (request here 16 1 0) .attest,
      decide ((request here 16 0 0).mbox 8 8 < here.nDies), decide (here.nDies ≤ wordBits ((request here 17 0x100 0).mboxWord 8) 8 1),
      served (request here 48 0x1F05 0) .monread (fun r => r.mbox 0x110 8 == 0), refused (request here 48 0x2005 0) .monread,
      served (request here 49 7 0x500000005) .setthr (fun r => r.thresholds 7 == (5, 5)),
      refused (request here 49 8 0) .setthr, refused (request here 49 0 0x400000005) .setthr,
      served (describing idle 50 0x12000) .replay (fun r => r.ctxs.map Ctx.id == [1, 7]),
      refused (describing here 50 0) .replay, refused (request idle 50 0 0) .replay].all id) = true := by decide +kernel

/-- Meets the clauses of DeviceStarts: a chunk of no bytes, one out of its place, the first one and the last; CXL widths
and rates at their limits. Whether an image is valid is the free value `firmwareValid`. -/
theorem test_meets_DeviceStarts :
    (let half : State := { here with host := { here.host with fwChunks := [1#8, 2#8] } }
     let link := fun (n m : Nat) => takes ((request here 0 0 0).on fun a => { a with n := n, m := m }) .cxlLinkTraining
       fun r => r.host.cxlLanes == n && r.host.status.getLsbD 0
     [takes (request here 32 0 0) .fwload (fun r => r.mbox 4 4 == 1), takes (request here 32 0 3841) .fwload (fun r =>
        r.mbox 4 4 == 1), takes (request here 32 (2 ^ 32) 4) .fwload (fun r => r.mbox 4 4 == 1),
      takes (request half 32 0 4) .fwload (fun r => r.host.fwChunks == []),
      takes (request half 32 2 4) .fwload (fun r => r.host.fwChunks.length == 6),
      (request half 32 (2 ^ 63 + 2) 3840).mboxOp == 0x20 && half.host.fwChunks.length == 2, link 1 1, link 16 128].all
      id) = true := by decide +kernel

end Sys2Proof.Machine
end

section
/-! SUPPORT for O54. The canonical form of every memory as a predicate that each operation of the model keeps
(R8, R163, R348): what it says, the writes of the state's parts, and how it passes through results. -/

namespace Sys2Proof.Machine

/-! ### Tables -/

theorem mem_insertAt {α : Type} {k : Nat} {v : α} {l : List (Nat × α)} {x : Nat × α} (h : x ∈ insertAt k v l) :
    x = (k, v) ∨ x ∈ l := by
  induction l with
  | nil => exact .inl (by simpa [insertAt] using h)
  | cons c rest ih =>
    obtain ⟨j, w⟩ := c
    rw [insertAt] at h
    split at h
    · rcases List.mem_cons.1 h with h | h
      · exact .inl h
      · exact .inr (List.mem_cons_of_mem _ h)
    · rcases List.mem_cons.1 h with h | h
      · exact .inr (h ▸ List.mem_cons_self)
      · exact (ih h).imp_right (List.mem_cons_of_mem _)

/-- What a lookup answers is the default or stands in the table. -/
theorem lookup_induction {α : Type} {P : α → Prop} {d : α} {l : List (Nat × α)} (k : Nat) (hd : P d)
    (hl : ∀ p ∈ l, P p.2) : P (lookup d k l) := by
  induction l with
  | nil => exact hd
  | cons c rest ih =>
    obtain ⟨j, w⟩ := c
    rw [lookup]
    split
    · exact hl _ List.mem_cons_self
    · exact ih fun p hp => hl p (List.mem_cons_of_mem _ hp)

theorem forall_mem_mapWhere {α : Type} {P : α → Prop} {p : α → Bool} {f : α → α} {l : List α}
    (hl : ∀ x ∈ l, P x) (hf : ∀ x, P x → P (f x)) : ∀ x ∈ mapWhere p f l, P x := by
  induction l with
  | nil => exact hl
  | cons y rest ih =>
    have hy : P y := hl y List.mem_cons_self
    rw [mapWhere, List.forall_mem_cons]
    refine ⟨?_, ih fun x hx => hl x (List.mem_cons_of_mem _ hx)⟩
    split
    · exact hf y hy
    · exact hy

/-! ### The predicate -/

/-- Every memory of a die is in canonical form. -/
def Die.Canon (k : Die) : Prop := k.memWf = true

/-- Every memory of a core is in canonical form. -/
def Core.Canon (k : Core) : Prop := k.memWf = true

/-- Every memory of the machine is in canonical form. -/
def State.Canon (s : State) : Prop := s.memWf = true

theorem Die.canon_iff {k : Die} : k.Canon ↔
    k.mem.wf = true ∧ k.dram.wf = true ∧ k.dsm.wf = true ∧ ∀ t ∈ k.treelets, t.data.wf = true := by
  simp [Die.Canon, Die.memWf, and_assoc]

theorem Core.canon_iff {k : Core} : k.Canon ↔
    k.scratch.wf = true ∧ k.bank0.wf = true ∧ k.bank1.wf = true ∧ (∀ l ∈ k.l1, l.data.wf = true) ∧
      ∀ r ∈ k.replies, r.data.wf = true := by
  simp [Core.Canon, Core.memWf, and_assoc]

theorem State.canon_iff {s : State} : s.Canon ↔
    s.die0.Canon ∧ s.die1.Canon ∧ s.host.mem.wf = true ∧ s.host.mbox.wf = true ∧
      (∀ p ∈ s.cores, p.2.Canon) ∧ ∀ p ∈ s.fabric, p.2.wf = true := by
  simp [State.Canon, State.memWf, Die.Canon, Core.Canon, and_assoc]

/-! ### The memories of a die and of a core -/

theorem Die.Canon.mem {k : Die} (h : k.Canon) : k.mem.wf = true := (Die.canon_iff.1 h).1
theorem Die.Canon.dram {k : Die} (h : k.Canon) : k.dram.wf = true := (Die.canon_iff.1 h).2.1
theorem Die.Canon.dsm {k : Die} (h : k.Canon) : k.dsm.wf = true := (Die.canon_iff.1 h).2.2.1
theorem Die.Canon.treelets {k : Die} (h : k.Canon) : ∀ t ∈ k.treelets, t.data.wf = true :=
  (Die.canon_iff.1 h).2.2.2

theorem Die.Canon.setMem {k : Die} (h : k.Canon) {m : Memory} (hm : m.wf = true) : { k with mem := m }.Canon :=
  Die.canon_iff.2 ⟨hm, h.dram, h.dsm, h.treelets⟩

theorem Die.Canon.setDram {k : Die} (h : k.Canon) {m : Memory} (hm : m.wf = true) : { k with dram := m }.Canon :=
  Die.canon_iff.2 ⟨h.mem, hm, h.dsm, h.treelets⟩

theorem Die.Canon.setDsm {k : Die} (h : k.Canon) {m : Memory} (hm : m.wf = true) : { k with dsm := m }.Canon :=
  Die.canon_iff.2 ⟨h.mem, h.dram, hm, h.treelets⟩

theorem Die.Canon.setTreelets {k : Die} (h : k.Canon) {l : List Treelet} (hl : ∀ t ∈ l, t.data.wf = true) :
    { k with treelets := l }.Canon :=
  Die.canon_iff.2 ⟨h.mem, h.dram, h.dsm, hl⟩

theorem Core.Canon.scratch {k : Core} (h : k.Canon) : k.scratch.wf = true := (Core.canon_iff.1 h).1
theorem Core.Canon.bank0 {k : Core} (h : k.Canon) : k.bank0.wf = true := (Core.canon_iff.1 h).2.1
theorem Core.Canon.bank1 {k : Core} (h : k.Canon) : k.bank1.wf = true := (Core.canon_iff.1 h).2.2.1
theorem Core.Canon.l1 {k : Core} (h : k.Canon) : ∀ l ∈ k.l1, l.data.wf = true := (Core.canon_iff.1 h).2.2.2.1
theorem Core.Canon.replies {k : Core} (h : k.Canon) : ∀ r ∈ k.replies, r.data.wf = true :=
  (Core.canon_iff.1 h).2.2.2.2

theorem Core.Canon.setScratch {k : Core} (h : k.Canon) {m : Memory} (hm : m.wf = true) :
    { k with scratch := m }.Canon :=
  Core.canon_iff.2 ⟨hm, h.bank0, h.bank1, h.l1, h.replies⟩

theorem Core.Canon.setL1 {k : Core} (h : k.Canon) {l : List L1Line} (hl : ∀ x ∈ l, x.data.wf = true) :
    { k with l1 := l }.Canon :=
  Core.canon_iff.2 ⟨h.scratch, h.bank0, h.bank1, hl, h.replies⟩

theorem Core.Canon.setReplies {k : Core} (h : k.Canon) {l : List LoadReply} (hl : ∀ x ∈ l, x.data.wf = true) :
    { k with replies := l }.Canon :=
  Core.canon_iff.2 ⟨h.scratch, h.bank0, h.bank1, h.l1, hl⟩

theorem Die.Canon.ite {p : Prop} [Decidable p] {a b : Die} (ha : a.Canon) (hb : b.Canon) :
    (if p then a else b).Canon := by
  split
  · exact ha
  · exact hb

theorem Core.canon_atReset : Core.atReset.Canon := rfl
theorem Die.canon_atReset : Die.atReset.Canon := rfl

/-! ### The parts of the state -/

namespace State.Canon

variable {s : State}

theorem die0 (h : s.Canon) : s.die0.Canon := (State.canon_iff.1 h).1
theorem die1 (h : s.Canon) : s.die1.Canon := (State.canon_iff.1 h).2.1
theorem hostMem (h : s.Canon) : s.host.mem.wf = true := (State.canon_iff.1 h).2.2.1
theorem hostMbox (h : s.Canon) : s.host.mbox.wf = true := (State.canon_iff.1 h).2.2.2.1
theorem cores (h : s.Canon) : ∀ p ∈ s.cores, p.2.Canon := (State.canon_iff.1 h).2.2.2.2.1
theorem fabric (h : s.Canon) : ∀ p ∈ s.fabric, p.2.wf = true := (State.canon_iff.1 h).2.2.2.2.2

theorem die (h : s.Canon) (d : Nat) : (s.die d).Canon := by
  unfold State.die
  split
  · exact h.die1
  · exact h.die0

theorem core (h : s.Canon) (c : Nat) : (s.core c).Canon := lookup_induction c rfl h.cores

theorem space (h : s.Canon) (p : PhysSpace) (u : Nat) : (s.space p u).wf = true := by
  cases p
  · exact (h.die u).mem
  · exact (h.die u).dsm
  · exact h.hostMem
  · exact lookup_induction (P := fun m => Memory.wf m = true) u rfl h.fabric

theorem setDies (h : s.Canon) {k0 k1 : Die} (h0 : k0.Canon) (h1 : k1.Canon) :
    { s with die0 := k0, die1 := k1 }.Canon :=
  State.canon_iff.2 ⟨h0, h1, h.hostMem, h.hostMbox, h.cores, h.fabric⟩

theorem setHost (h : s.Canon) {k : HostIf} (hm : k.mem.wf = true) (hb : k.mbox.wf = true) :
    { s with host := k }.Canon :=
  State.canon_iff.2 ⟨h.die0, h.die1, hm, hb, h.cores, h.fabric⟩

theorem setCores (h : s.Canon) {l : List (Nat × Core)} (hl : ∀ p ∈ l, p.2.Canon) : { s with cores := l }.Canon :=
  State.canon_iff.2 ⟨h.die0, h.die1, h.hostMem, h.hostMbox, hl, h.fabric⟩

theorem setFabric (h : s.Canon) {l : List (Nat × Memory)} (hl : ∀ p ∈ l, p.2.wf = true) :
    { s with fabric := l }.Canon :=
  State.canon_iff.2 ⟨h.die0, h.die1, h.hostMem, h.hostMbox, h.cores, hl⟩

theorem mapCores {l : List Team} {f : Nat × Core → Nat × Core} (h : s.Canon)
    (hf : ∀ p : Nat × Core, p.2.Canon → (f p).2.Canon) : { s with teams := l, cores := s.cores.map f }.Canon :=
  h.setCores <| List.forall_mem_map.2 fun p hp => hf p (h.cores p hp)

theorem mapMachine {f : Nat × Core → Nat × Core} {k0 k1 : Die} (h : s.Canon) (h0 : k0.Canon) (h1 : k1.Canon)
    (hf : ∀ p : Nat × Core, p.2.Canon → (f p).2.Canon) :
    { s with cores := s.cores.map f, die0 := k0, die1 := k1 }.Canon :=
  (h.setDies h0 h1).setCores <| List.forall_mem_map.2 fun p hp => hf p (h.cores p hp)

theorem setDie {k : Die} {d : Nat} (h : s.Canon) (hk : k.Canon) : (s.setDie d k).Canon := by
  unfold State.setDie
  split
  · exact h.setDies h.die0 hk
  · exact h.setDies hk h.die1

theorem modDie {d : Nat} {f : Die → Die} (h : s.Canon) (hf : ∀ k : Die, k.Canon → (f k).Canon) :
    (s.modDie d f).Canon :=
  h.setDie (hf _ (h.die d))

theorem setCore {k : Core} {c : Nat} (h : s.Canon) (hk : k.Canon) : (s.setCore c k).Canon :=
  h.setCores fun p hp => (mem_insertAt hp).elim (fun e => e ▸ hk) (h.cores p)

theorem modCore {c : Nat} {f : Core → Core} (h : s.Canon) (hf : ∀ k : Core, k.Canon → (f k).Canon) :
    (s.modCore c f).Canon :=
  h.setCore (hf _ (h.core c))

/-! Teams, contexts and the model's own counters hold no memory. -/

theorem putTeam {t : Team} (h : s.Canon) : (s.putTeam t).Canon := h
theorem modTeam {n : Nat} {f : Team → Team} (h : s.Canon) : (s.modTeam n f).Canon := h
theorem modCtx {n : Nat} {f : Ctx → Ctx} (h : s.Canon) : (s.modCtx n f).Canon := h
theorem setNextUid {n : Nat} (h : s.Canon) : { s with nextUid := n }.Canon := h
theorem takeFree (h : s.Canon) : s.takeFree.2.Canon := h
theorem asClass {c : Nat} (h : s.Canon) : (s.asClass c).Canon := h
theorem raiseMsix {v : Nat} (h : s.Canon) : (s.raiseMsix v).Canon := h
theorem fireWaits {p : Team → WaitKind → Bool} (h : s.Canon) : (s.fireWaits p).Canon := h

theorem ite {p : Prop} [Decidable p] {a b : State} (ha : a.Canon) (hb : b.Canon) : (if p then a else b).Canon := by
  split
  · exact ha
  · exact hb

theorem foldl {α : Type} {f : State → α → State} {l : List α} (h : s.Canon)
    (hf : ∀ r x, r.Canon → (f r x).Canon) : (l.foldl f s).Canon := by
  induction l generalizing s with
  | nil => exact h
  | cons x rest ih => exact ih (hf s x h)

end State.Canon

/-! ### Results

An operation that may stop, fail or not be enabled keeps the predicate when every state that it answers has it. -/

/-- A state with a further answer is canonical. -/
def FstCanon {α : Type} (p : State × α) : Prop := p.1.Canon

/-- Whatever an operation ends with has `P`; where it stops there is nothing to hold. -/
def Ends {ε α : Type} (P : α → Prop) (x : Except ε α) : Prop := ∀ a, x = .ok a → P a

namespace Ends

variable {ε α β : Type} {P : α → Prop} {Q : β → Prop}

theorem ok {a : α} (h : P a) : Ends P (.ok a : Except ε α) := by
  rintro _ ⟨⟩
  exact h

theorem pure {a : α} (h : P a) : Ends P (Pure.pure a : Except ε α) := ok h

theorem error {e : ε} : Ends P (.error e : Except ε α) := nofun

theorem raise {r : Trap} : Ends P (raise r) := nofun

theorem bind {x : Except ε α} {f : α → Except ε β} (hx : Ends P x) (hf : ∀ a, P a → Ends Q (f a)) :
    Ends Q (x >>= f) := by
  cases x with
  | error e => exact error
  | ok a => exact hf a (hx a rfl)

/-- The state that a stage answers is canonical; the stages after it start there. -/
theorem step {x : Except ε (State × α)} {f : State × α → Except ε β} (hx : Ends FstCanon x)
    (hf : ∀ s a, s.Canon → Ends Q (f (s, a))) : Ends Q (x >>= f) :=
  bind hx fun p hp => hf p.1 p.2 hp

/-- A check answers nothing that a claim could speak of. -/
theorem check {x : Except ε α} {f : α → Except ε β} (hf : ∀ a, Ends Q (f a)) : Ends Q (x >>= f) :=
  bind (P := fun _ => True) (fun _ _ => trivial) fun a _ => hf a

theorem ite {p : Prop} [Decidable p] {x y : Except ε α} (hx : Ends P x) (hy : Ends P y) :
    Ends P (if p then x else y) := by
  split
  · exact hx
  · exact hy

end Ends

/-- Whatever an operation answers has `P`. -/
def Gives {α : Type} (P : α → Prop) (x : Option α) : Prop := ∀ a, x = some a → P a

namespace Gives

variable {α β : Type} {P : α → Prop} {Q : β → Prop}

theorem some {a : α} (h : P a) : Gives P (.some a) := by
  rintro _ ⟨⟩
  exact h

theorem none : Gives P (.none : Option α) := nofun

theorem bind {x : Option α} {f : α → Option β} (hx : Gives P x) (hf : ∀ a, P a → Gives Q (f a)) :
    Gives Q (x.bind f) := by
  cases x with
  | none => exact none
  | some a => exact hf a (hx a rfl)

theorem map {x : Option α} {f : α → β} (hx : Gives P x) (hf : ∀ a, P a → Q (f a)) : Gives Q (x.map f) := by
  cases x with
  | none => exact none
  | some a => exact some (hf a (hx a rfl))

/-- What is chosen without the state in view answers nothing that a claim could speak of. -/
theorem any {x : Option α} : Gives (fun _ => True) x := fun _ _ => trivial

theorem ite {p : Prop} [Decidable p] {x y : Option α} (hx : Gives P x) (hy : Gives P y) :
    Gives P (if p then x else y) := by
  split
  · exact hx
  · exact hy

end Gives

/-- The state that an instruction or a device step leaves is canonical. -/
def LeavesCanon (o : Host.Outcome State Fault Refusal) : Prop := ∀ s', o = .next s' → s'.Canon

namespace LeavesCanon

theorem next {s : State} (h : s.Canon) : LeavesCanon (.next s) := by
  rintro _ ⟨⟩
  exact h

theorem fault {f : Fault} : LeavesCanon (.fault f) := by
  intro _ h
  cases h

theorem refused {r : Refusal} : LeavesCanon (.refused r) := by
  intro _ h
  cases h

theorem event {name : String} {o : Option State} (h : Gives State.Canon o) : LeavesCanon (event name o) := by
  cases o with
  | none => exact refused
  | some s => exact next (h s rfl)

end LeavesCanon

end Sys2Proof.Machine
end

section
/-! SUPPORT for O54. The shared cache, the error records, halts and traps, and what the home of a line does. -/

namespace Sys2Proof.Machine

/-! ### The shared cache -/

namespace Die.Canon

variable {k : Die}

theorem raiseExp {line e : Nat} (h : k.Canon) : (k.raiseExp line e).Canon := by
  unfold Die.raiseExp
  split <;> exact h

theorem copyBack {line : Nat} (h : k.Canon) : { k with dram := k.dram.copyRange k.mem line 128 }.Canon :=
  h.setDram (Memory.wf_copyRange _ _ _ h.dram)

theorem writeBack {line : Nat} (h : k.Canon) : (k.writeBack line).Canon := by
  unfold Die.writeBack
  split
  · exact h.copyBack (line := line)
  · exact h

theorem evict {line : Nat} (h : k.Canon) : (k.evict line).Canon := h.writeBack (line := line)

theorem place {line c : Nat} (h : k.Canon) : (k.place line c).Canon := h

theorem touch {line c : Nat} (h : k.Canon) : (k.touch line c).Canon := by
  unfold Die.touch
  split
  · exact h
  · split
    · exact h.place
    · exact h.evict.place
    · exact h

theorem markDirty {line : Nat} (h : k.Canon) : (k.markDirty line).Canon := by
  unfold Die.markDirty
  split
  · exact h
  · exact h.copyBack

theorem setBytes {a : Nat} {l : List Byte} (h : k.Canon) : { k with mem := k.mem.setBytes a l }.Canon :=
  h.setMem (Memory.wf_setBytes _ _ h.mem)

theorem write {a n v : Nat} (h : k.Canon) : { k with mem := k.mem.write a n v }.Canon :=
  h.setMem (Memory.wf_write _ _ _ h.mem)

end Die.Canon

namespace State.Canon

variable {s : State}

theorem touchLine (h : s.Canon) : (s.touchLine d line).Canon := h.modDie fun _ hk => hk.touch

theorem recallLine (h : s.Canon) : (s.recallLine who d line).Canon := h.modDie fun _ hk => hk

theorem noteRequest (h : s.Canon) : (s.noteRequest d line c).Canon := h.modDie fun _ hk => hk

theorem markDirty (h : s.Canon) : (s.markDirty d line).Canon := h.modDie fun _ hk => hk.markDirty

/-! ### Error records (R359), halts (R358) and traps (R351 to R355) -/

theorem deviceStore (h : s.Canon) : (s.deviceStore d a bytes).Canon :=
  h.recallLine.touchLine.modDie fun _ hk => hk.setBytes.markDirty

theorem deviceWrite (h : s.Canon) : (s.deviceWrite d a n v).Canon := by
  unfold State.deviceWrite
  split
  · exact h.modDie fun _ hk => hk
  · exact h.deviceStore

theorem deviceWriteWords (h : s.Canon) : (s.deviceWriteWords d a ws).Canon := by
  induction ws generalizing s a with
  | nil => exact h
  | cons w rest ih => exact ih h.deviceWrite

theorem appendWords (h : s.Canon) : (s.appendWords ws).Canon := by
  unfold State.appendWords
  dsimp only
  split
  · exact h
  · split
    · exact h.deviceWrite
    · exact h.deviceWriteWords.deviceWrite.raiseMsix

theorem report (h : s.Canon) : (s.report r).Canon := h.appendWords

theorem closeInterval (h : s.Canon) : (s.closeInterval d i).Canon :=
  .ite (h.modDie fun _ hk => hk) (.appendWords (h.modDie fun _ hk => hk))

theorem openInterval (h : s.Canon) : (s.openInterval r counted).Canon := h.report.modDie fun _ hk => hk

theorem reportLimited (h : s.Canon) : (s.reportLimited r counted).Canon := by
  unfold State.reportLimited
  dsimp only
  split
  · exact h.openInterval
  · exact .ite h.closeInterval.openInterval (h.modDie fun _ hk => hk)

theorem haltCtx (h : s.Canon) : (s.haltCtx n r).Canon := .ite h h.modCtx.report

theorem machineCheck (h : s.Canon) : (s.machineCheck n st code d unit sl addr).Canon := h.haltCtx

theorem machineCheckAll (h : s.Canon) : (s.machineCheckAll d st).Canon := h.foldl fun _ _ hr => hr.machineCheck

theorem trapHalt (h : s.Canon) : (s.trapHalt t r).Canon := h.putTeam.haltCtx

theorem takeTrap (h : s.Canon) : (s.takeTrap t r).Canon := by
  unfold State.takeTrap
  split
  · exact h
  · exact .ite h.trapHalt h.putTeam

theorem takeStop (h : s.Canon) : (s.takeStop t e).Canon := by
  cases e with
  | trap r => exact h.takeTrap
  | nested r => exact h.trapHalt
  | check struct code addr => exact h.haltCtx
  | logFull addr => exact h.haltCtx
  | diverged addr seq => exact h.haltCtx
  | hold => exact h
  | holdAt p => exact noteRequest h
  | trapNoise r => exact .takeTrap <| h.modCore fun _ hk => hk
  | trapOpen r => exact h.takeFree.takeTrap

/-! ### Waits, counters, bins and stores at the home (R177, R215, R223 to R233) -/

theorem fireLine (h : s.Canon) : (s.fireLine sp u line).Canon := h.fireWaits

theorem fireCounter (h : s.Canon) : (s.fireCounter c n).Canon := h.fireWaits

theorem setCounter (h : s.Canon) : (s.setCounter c n v).Canon :=
  .fireCounter <| h.modCore fun _ hk => hk

theorem decCounter (h : s.Canon) : (s.decCounter c n source ctx).Canon := .ite h.report h.setCounter

theorem shadowReport (h : s.Canon) : (s.shadowReport d ctx code addr info).Canon := h.reportLimited

theorem homeChange {f : Memory → Memory} (h : s.Canon) (hf : ∀ m : Memory, m.wf = true → (f m).wf = true) :
    (s.homeChange d line cls f).Canon :=
  h.modDie fun _ hk => .markDirty <| hk.touch.setMem (hf _ hk.touch.mem)

/-- The shadow entry and the word that it makes visible are written together (R225). -/
theorem shadowWrite (h : s.Canon) {w : Die → Nat} :
    ((s.homeChange d line cls fun m => m.write sh 16 e).modDie d fun k =>
      { k with mem := k.mem.write pa 4 (w k) }).Canon :=
  (h.homeChange fun _ hm => Memory.wf_write _ _ _ hm).modDie fun _ hk => hk.write

theorem applyFx (h : s.Canon) : (s.applyFx d b w).Canon := by
  unfold State.applyFx
  dsimp only
  refine .ite h.machineCheck (.ite (.shadowReport ?_) ?_) <;>
    exact .ite h.shadowWrite.shadowReport h.shadowWrite

theorem applyWord (h : s.Canon) : (s.applyWord d b w).Canon := .ite h.applyFx (h.modDie fun _ hk => hk.write)

theorem applyBin (h : s.Canon) : (s.applyBin d b).Canon :=
  .fireLine <| .markDirty <| .foldl (.modDie h fun _ hk => .touch hk) fun _ _ hr => hr.applyWord

theorem applyLine (h : s.Canon) : (s.applyLine d line).Canon := by
  unfold State.applyLine
  split
  · exact h.applyBin
  · exact h

theorem reachHome (h : s.Canon) : (s.reachHome who d line).Canon := h.recallLine.applyLine.noteRequest.touchLine

theorem homeRead (h : s.Canon) : (s.homeRead c d line lease).Canon :=
  .ite (h.reachHome.modDie fun _ hk => hk.raiseExp) h.reachHome

theorem establish (h : s.Canon) : (s.establish d ctx fxf shadow pa).Canon :=
  .ite h.shadowWrite.shadowReport h.shadowWrite

theorem lineWrite (h : s.Canon) : (s.lineWrite d a bytes).Canon := by
  have hw : (((s.applyLine d (lineOf a)).touchLine d (lineOf a)).modDie d fun k =>
      { k with mem := k.mem.setBytes a bytes }).Canon := h.applyLine.touchLine.modDie fun _ hk => hk.setBytes
  unfold State.lineWrite
  dsimp only
  split
  · exact (hw.foldl fun _ _ hr => hr.establish).markDirty.fireLine
  · exact hw.markDirty.fireLine

theorem homeStore (h : s.Canon) : FstCanon (s.homeStore c d a bytes) := h.reachHome.lineWrite

theorem dsmStore (h : s.Canon) : FstCanon (s.dsmStore d a bytes) := by
  refine .fireLine <| h.modDie fun k hk => hk.setDsm ?_
  split
  · exact hk.dsm
  · exact Memory.wf_setBytes _ _ hk.dsm

/-! ### The issuing core's lines (R177, R180, R185) -/

theorem putL1 {l : List L1Line} (h : s.Canon) (hl : ∀ x ∈ l, x.data.wf = true) :
    (s.modCore c fun k => { k with l1 := l }).Canon :=
  h.modCore fun _ hk => hk.setL1 hl

theorem fillL1 {new : L1Line} (h : s.Canon) (hn : new.data.wf = true) : (s.fillL1 c new).Canon := by
  have hrest : ∀ p : L1Line → Bool, ∀ x ∈ (s.core c).l1.filter p, x.data.wf = true :=
    fun p x hx => (h.core c).l1 x (List.mem_of_mem_filter hx)
  unfold State.fillL1
  dsimp only
  split
  · exact h.putL1 (List.forall_mem_cons.2 ⟨hn, hrest _⟩)
  · exact h.takeFree.putL1 (List.forall_mem_cons.2 ⟨hn, fun x hx => hrest _ x (List.mem_of_mem_filter hx)⟩)

theorem overtake (h : s.Canon) : (s.overtake c p).Canon :=
  h.modCore fun _ hk => hk.setReplies (forall_mem_mapWhere hk.replies fun _ hx => hx)

theorem loadLine (h : s.Canon) : (s.loadLine c d line nc).1.Canon ∧ (s.loadLine c d line nc).2.wf = true := by
  unfold State.loadLine
  split
  · exact ⟨h.homeRead, Memory.wf_slice _ _ (h.homeRead.die d).mem⟩
  · split
    case h_1 _ _ l hl => exact ⟨h, (h.core c).l1 l (List.mem_of_find?_eq_some hl)⟩
    case h_2 => exact ⟨h, Memory.wf_slice _ _ (h.die d).mem⟩
    case h_3 =>
      have hr := (h.homeRead (c := c) (d := d) (line := line) (lease := true)).overtake (c := c)
        (p := fun d' l => d' == d && l == line)
      exact ⟨hr.fillL1 (Memory.wf_slice _ _ (hr.die d).mem), Memory.wf_slice _ _ (hr.die d).mem⟩

theorem refreshL1 (h : s.Canon) : (s.refreshL1 c d a n).Canon :=
  h.overtake.modCore fun _ hk => hk.setL1 <|
    forall_mem_mapWhere hk.l1 fun _ hx => Memory.wf_copyRange _ _ _ hx

theorem dropLines (h : s.Canon) : (s.dropLines c p).Canon :=
  .modDie (.modDie (h.overtake.modCore fun _ hk => hk.setL1 fun x hx => hk.l1 x (List.mem_of_mem_filter hx))
    fun _ hk => hk) fun _ hk => hk

theorem taskGwct (h : s.Canon) : (s.taskGwct task wave ctx g).Canon := .ite (.modCtx (.ite h h)) (.ite h h)

theorem joinGwct (h : s.Canon) : (s.joinGwct uid g).Canon := by
  unfold State.joinGwct
  split
  · exact h.modTeam.taskGwct
  · split
    · exact h.taskGwct
    · exact h

theorem replied (h : s.Canon) : (s.replied uid).Canon := h

theorem acknowledge (h : s.Canon) : (s.acknowledge uid g).Canon := h.joinGwct.replied

end State.Canon

end Sys2Proof.Machine
end

section
/-! SUPPORT for O54. Translation, the region cache, the context log, issue, the ray pool and the errors of memories. -/

namespace Sys2Proof.Machine

namespace State.Canon

variable {s : State}

/-! ### Translation (R168 to R171) -/

theorem tableRead (h : s.Canon) : Ends FstCanon (s.tableRead who d a) := by
  unfold State.tableRead
  dsimp only
  exact .ite .error (.ite .error (.ok h.homeRead))

theorem walkFrom (h : s.Canon) : Ends FstCanon (s.walkFrom w va levels a) := by
  induction levels generalizing s a with
  | nil => exact .step h.tableRead fun s e hs => .pure hs
  | cons l rest ih =>
    refine .step h.tableRead fun s e hs => ?_
    exact .ite .raise (.ite .raise (ih hs))

theorem leafOf (h : s.Canon) : Ends FstCanon (s.leafOf w va) := by
  unfold State.leafOf
  dsimp only
  split
  · exact .ok h
  · exact .ite .raise (.step h.walkFrom fun s ⟨e, a⟩ hs => .pure hs)

theorem fillTlb (h : s.Canon) : (s.fillTlb w va leaf a).Canon := by
  unfold State.fillTlb
  split
  · exact h.modCore fun _ hk => hk
  · exact h

theorem translate (h : s.Canon) : Ends FstCanon (s.translate w va kind locs) := by
  refine .ite .raise (.step h.leafOf fun s ⟨leaf, a, cached⟩ hs => ?_)
  refine .ite .raise (.ite .raise (.ite .raise (.ite (.pure hs) ?_)))
  split
  · exact .raise
  · exact .pure (.ite hs hs.fillTlb)

theorem translateResident (h : s.Canon) : Ends FstCanon (s.translateResident w va kind locs) :=
  .step h.translate fun _ _ hs => .ite (.pure hs) .raise

/-! ### The region cache (R220 to R222, R225) -/

theorem readRegions (h : s.Canon) : Ends FstCanon (s.readRegions who d n a) := by
  induction n generalizing s a with
  | zero => exact .ok h
  | succ n ih =>
    refine .step h.tableRead fun s w0 hs => ?_
    refine .step hs.tableRead fun s w1 hs => ?_
    refine .step hs.tableRead fun s w2 hs => ?_
    refine .step hs.tableRead fun s w3 hs => ?_
    exact .step (ih hs) fun _ _ hs => .pure hs

theorem regionsOf (h : s.Canon) : Ends FstCanon (s.regionsOf c ctx) := by
  unfold State.regionsOf
  split
  · exact .ok h
  · split
    · exact .ok h
    · exact .step h.readRegions fun s es hs => .pure (hs.modCore fun _ hk => hk)

theorem learnFx (h : s.Canon) : (s.learnFx c ctx va p).Canon := by
  unfold State.learnFx
  refine .ite h ?_
  dsimp only
  split
  · exact h
  case h_2 s' es he =>
    have hs : s'.Canon := h.regionsOf _ he
    split
    · exact hs.modDie fun _ hk => hk
    · exact .ite (hs.modDie fun _ hk => hk) (hs.modDie fun _ hk => hk)

/-! ### The context log (R363, R423, R424) -/

theorem ctxStore (h : s.Canon) : (s.ctxStore w p v).Canon := .ite (h.modDie fun _ hk => hk) h.homeStore

theorem ctxWrite (h : s.Canon) : Ends Canon (s.ctxWrite w va ws) := by
  induction ws generalizing s va with
  | nil => exact .ok h
  | cons v rest ih =>
    exact .step h.translateResident fun s m hs => .ite .error (ih hs.ctxStore)

theorem logAt (h : s.Canon) : Ends Canon (s.logAt x d type now payload) := by
  refine .ite .error ?_
  split
  · exact .error
  · exact .error
  · exact .error
  case h_4 s' he =>
    have hs : s'.Canon := h.ctxWrite _ he
    exact .ok (hs.modCtx.modDie fun _ hk => hk)

theorem appendEntry (h : s.Canon) : Ends Canon (s.appendEntry x d type payload) := .ite h.logAt .error

theorem appendLog (h : s.Canon) : Ends Canon (s.appendLog ctx d type payload) := by
  unfold State.appendLog
  split
  · exact .ok h
  · exact .ite h.appendEntry (.ok h)

theorem logFailed (h : s.Canon) : (s.logFailed ctx d e).Canon := by
  unfold State.logFailed
  split
  · exact h.haltCtx
  · exact h.machineCheck
  · exact h

theorem logEvent (h : s.Canon) : (s.logEvent ctx d type payload).Canon := by
  unfold State.logEvent
  split
  case h_1 s' he => exact h.appendLog _ he
  case h_2 => exact h.modCtx
  case h_3 => exact h.logFailed

theorem flushEntries (h : s.Canon) : (s.flushEntries ctx l).Canon := by
  induction l generalizing s with
  | nil => exact h
  | cons e rest ih =>
    unfold State.flushEntries
    split
    · exact h
    · split
      case h_1 s' he => exact ih (h.logAt _ he : s'.Canon).modCtx
      case h_2 => exact h
      case h_3 => exact h.modCtx.logFailed

theorem flushLogs (h : s.Canon) : s.flushLogs.Canon := h.foldl fun _ _ hr => hr.flushEntries

theorem diverge (h : s.Canon) : (s.diverge ctx d addr seq).Canon := h.haltCtx

theorem countReads (h : s.Canon) : (s.countReads n k).Canon := .ite h h.modTeam

theorem appendTime (h : s.Canon) : Ends Canon (s.appendTime t payload) := by
  unfold State.appendTime
  split
  · exact .ite h.appendEntry (.ok h)
  · exact .ok h

theorem logReads (h : s.Canon) : Ends Canon (s.logReads t v n k) := by
  induction n generalizing s k with
  | zero => exact .ok h
  | succ n ih => exact .ite .error (.bind h.appendTime fun _ hs => ih hs)

theorem noteTimeReads (h : s.Canon) : Ends Canon (s.noteTimeReads b t v n) :=
  .ite (.ok h.countReads) (.bind h.logReads fun _ hs => .pure hs.countReads)

end State.Canon

/-! ### Issue (R42, R88) -/

theorem Ends.settles {t : Team} {e : Effect} (h : Ends State.Canon e) : Ends State.Canon (t.settles e) := by
  cases e with
  | error e => exact .error
  | ok s => exact h

variable {s : State} {i : Instr}

/-- An instruction leaves canonical memories where its body does: a stop leaves the state as it was before the
body, with what the stop says. -/
theorem State.Canon.issue {body : Team → Effect} (h : s.Canon) (hb : ∀ t, Ends Canon (body t)) :
    LeavesCanon (issue i s body) := by
  unfold Machine.issue
  split
  · exact .fault
  case h_2 t _ =>
    have hr : Ends Canon (s.runIssue i t body) :=
      .ite .error (.settles (.check fun _ => .bind (hb t) fun _ hs => hs.noteTimeReads))
    split
    case h_1 s' he => exact .next (hr s' he)
    case h_2 => exact .next h.takeStop

theorem State.Canon.issueTeam {f : Team → Team} (h : s.Canon) : LeavesCanon (issueTeam i s f) :=
  h.issue fun _ => .ok h.putTeam

namespace State.Canon

/-! ### The ray pool (R284 to R287, R413) -/

theorem dropLrc (h : s.Canon) : (s.dropLrc d ctx n).Canon := h.modCtx

theorem modRay (h : s.Canon) : (s.modRay d n f).Canon := h.modDie fun _ hk => hk

theorem freeRay (h : s.Canon) : (s.freeRay d n).Canon := by
  unfold State.freeRay
  split
  · exact h
  · exact .dropLrc <| h.modDie fun _ hk => hk

theorem freeHeld (h : s.Canon) : (s.freeHeld t).Canon := h.foldl fun _ _ hr => hr.freeRay

theorem settlePair (h : s.Canon) : (s.settlePair d n).Canon := by
  unfold State.settlePair
  split
  · split
    · exact .ite h.freeRay h.modRay
    · exact h
  · exact h

theorem newRay (h : s.Canon) : (s.newRay d ctx words st src).Canon := h.modDie fun _ hk => hk

theorem placeRay (h : s.Canon) : (s.placeRay t words).Canon := h.newRay

theorem reserveRays (h : s.Canon) : FstCanon (s.reserveRays t n) := by
  induction n generalizing s with
  | zero => exact h
  | succ n ih => exact ih h.newRay

theorem taskHold (h : s.Canon) : (s.taskHold t).Canon := by
  unfold State.taskHold
  dsimp only
  split
  · exact .ite h h
  · exact h

theorem countRays (h : s.Canon) : (s.countRays t n).Canon := h.taskHold.modCtx

theorem resumeWaiter (h : s.Canon) : (s.resumeWaiter t n).Canon := by
  have hw : (s.modDie t.ident.die fun k => { k with
      waiters := k.waiters.filter (fun u => u != t.uid)
      waiterSince := removeAt t.uid k.waiterSince }).Canon := h.modDie fun _ hk => hk
  exact .modTeam <| reserveRays <| .ite hw hw.countRays

theorem grantHead (h : s.Canon) : Gives Canon (s.grantHead d) := by
  have try_ (waves : Bool) : Gives Canon (match s.poolHead d waves with
      | some t => if s.poolGrants t t.poolAsk then some (s.resumeWaiter t t.poolAsk) else none
      | none => none) := by
    split
    · exact .ite (.some h.resumeWaiter) .none
    · exact .none
  unfold State.grantHead
  dsimp only
  split
  case h_1 s' he => exact .some (try_ true s' he)
  case h_2 => exact try_ false

theorem grantHeads (h : s.Canon) : (s.grantHeads d n).Canon := by
  induction n generalizing s with
  | zero => exact h
  | succ n ih =>
    unfold State.grantHeads
    split
    case h_1 s' he => exact ih (h.grantHead s' he)
    case h_2 => exact h

theorem testPool (h : s.Canon) : (s.testPool d).Canon := h.grantHeads

theorem poolGrant (h : s.Canon) : Gives Canon (s.poolGrant d) := .ite (.some h.testPool) .none

theorem resumeHopeless (h : s.Canon) : (s.resumeHopeless d).Canon := h.foldl fun _ _ hr => .ite hr.resumeWaiter hr

theorem poolChanged (h : s.Canon) : (s.poolChanged d).Canon := h.resumeHopeless.testPool

end State.Canon

/-! ### Scratchpads, and errors of memories (R365, Table 19.7) -/

theorem Core.Canon.mend {k : Core} (h : k.Canon) : (k.mend a n).Canon := h

theorem Core.Canon.putScratch {k : Core} (h : k.Canon) : (k.putScratch a bytes).Canon :=
  .mend <| h.setScratch (Memory.wf_setBytes _ _ h.scratch)

namespace State.Canon

theorem dropRay (h : s.Canon) : (s.dropRay d n).Canon :=
  .testPool <| .mapCores (.modDie h.freeRay fun _ hk => hk) fun _ hp => by
    dsimp only
    split <;> exact hp

theorem upsetCheck (h : s.Canon) : (s.upsetCheck u ctx).Canon := h.machineCheck

theorem uncorrected (h : s.Canon) : (s.uncorrected u).Canon := by
  unfold State.uncorrected
  dsimp only
  split
  case h_1 =>
    exact .ite (h.modDie fun _ hk => hk.setTreelets fun t ht => hk.treelets t (List.mem_of_mem_filter ht))
      (h.modCore fun _ hk => hk.setL1 fun l hl => hk.l1 l (List.mem_of_mem_filter hl))
  case h_2 =>
    refine .ite (h.modDie fun _ hk => hk) (h.modDie fun k hk => ?_)
    split <;> exact hk
  case h_3 => exact h.upsetCheck
  case h_4 => exact h.upsetCheck
  case h_5 => exact .ite (h.modCore fun _ hk => hk) h.upsetCheck
  case h_6 =>
    split
    · exact .upsetCheck <| h.modDie fun _ hk => hk
    · split
      · exact h.upsetCheck
      · exact h
  case h_7 =>
    split
    · exact h.dropRay.upsetCheck
    · exact h
  case h_8 => exact h.machineCheckAll
  case h_9 => exact h.modDie fun _ hk => hk
  case h_10 => exact h

theorem upset (h : s.Canon) : (s.upset u).Canon := .ite (.ite h.reportLimited h) h.uncorrected

end State.Canon

end Sys2Proof.Machine
end

section
/-! SUPPORT for O54. A team's accesses to memory, draws, vector memory and the copy engine. -/

namespace Sys2Proof.Machine

namespace State.Canon

variable {s : State}

/-! ### Accesses (R177, R193) -/

theorem queueReq (h : s.Canon) : (s.queueReq t m kind).Canon := h.modDie fun _ hk => hk

theorem teamLoad (h : s.Canon) : Ends FstCanon (s.teamLoad t m n) := by
  refine .ite .error ?_
  split
  · exact .ok (loadLine h).1
  · exact .ok h.noteRequest

theorem teamStore (h : s.Canon) : (s.teamStore t va p bytes).Canon := by
  unfold State.teamStore
  split
  · dsimp only
    split
    · exact h.learnFx.lineWrite.refreshL1.joinGwct
    · exact .joinGwct (.refreshL1 h.learnFx.homeStore)
  · exact .joinGwct h.noteRequest.dsmStore
  · exact h

theorem mapParts (h : s.Canon) : Ends FstCanon (s.mapParts t kind locs ps) := by
  induction ps generalizing s with
  | nil => exact .ok h
  | cons p rest ih => exact .step h.translateResident fun s m hs => .step (ih hs) fun s ms hs => .pure hs

theorem loadParts (h : s.Canon) : Ends FstCanon (s.loadParts t ps) := by
  induction ps generalizing s with
  | nil => exact .ok h
  | cons p rest ih => exact .step h.teamLoad fun s v hs => .step (ih hs) fun s bs hs => .pure hs

theorem storeParts (h : s.Canon) : (s.storeParts t ps bytes).Canon := by
  induction ps generalizing s bytes with
  | nil => exact h
  | cons p rest ih => exact ih h.teamStore

theorem reportPeer (h : s.Canon) : (s.reportPeer ctx c code offset w).Canon := h.report

/-! ### Draws and vector registers (R63, R158 to R161) -/

theorem beginDraw (h : s.Canon) : Ends FstCanon (s.beginDraw t) := by
  unfold State.beginDraw
  dsimp only
  split
  · exact .ok h
  · refine .step ?_ fun s m hs => .step hs.teamLoad fun s z hs => .pure hs
    refine .step h.translateResident fun s m hs => .check fun _ => .ite (.check fun _ => ?_) ?_ <;>
      exact .ite .error (.ite .raise (.pure hs))
  · refine .ite .error ?_
    split
    · exact .error
    · refine .ite (.step ?_ fun s m hs => .step (.pure hs) ?_) (.step (.pure h) ?_)
      · refine .step h.translateResident fun s m hs => .check fun _ => .ite (.check fun _ => ?_) ?_ <;>
          exact .ite .error (.ite .raise (.pure hs))
      all_goals exact fun s slot hs => .pure (hs.modCore fun _ hk => hk)

theorem endDraw (h : s.Canon) : (s.endDraw t w).Canon := by
  unfold State.endDraw
  dsimp only
  split
  · exact h.putTeam
  · exact h.putTeam.teamStore

theorem vecWrite (h : s.Canon) : Ends Canon (s.vecWrite t ws) := .check fun _ => .pure h.putTeam

theorem vecDraw (h : s.Canon) : Ends Canon (s.vecDraw t draws compute) := by
  refine .ite h.vecWrite (.step h.beginDraw fun s w hs => ?_)
  dsimp only
  split
  · exact .pure hs.endDraw
  · exact .error
  · exact .error

/-! ### Vector access to memory and the scratchpad (R193, R201 to R209) -/

theorem mapLanes (h : s.Canon) : Ends FstCanon (s.mapLanes t kind addr lanes) := by
  induction lanes generalizing s with
  | nil => exact .ok h
  | cons i rest ih =>
    refine .ite .raise ?_
    split
    · exact .error
    case h_2 s' m he => exact .step (ih (h.translate _ he)) fun s es hs => .pure hs

theorem loadElements (h : s.Canon) : Ends FstCanon (s.loadElements t es) := by
  induction es generalizing s with
  | nil => exact .ok h
  | cons e rest ih => exact .step h.teamLoad fun s v hs => .step (ih hs) fun s ws hs => .pure hs

theorem vectorLoad (h : s.Canon) : Ends Canon (s.vectorLoad t d b c addr) :=
  .step h.mapLanes fun _ _ hs => .check fun _ => .step hs.loadElements fun _ _ hs => .check fun _ => .pure hs.putTeam

theorem storeElements (h : s.Canon) : (s.storeElements t x es).Canon := by
  induction es generalizing s with
  | nil => exact h
  | cons e rest ih => exact ih h.teamStore

theorem vectorStore (h : s.Canon) : Ends Canon (s.vectorStore t d b addr) :=
  .step h.mapLanes fun _ _ hs => .check fun _ => .check fun _ => .pure hs.storeElements.modTeam

theorem scrWrite (h : s.Canon) : (s.scrWrite t o bytes).Canon := h.modCore fun _ hk => hk.putScratch

theorem scrLoad (h : s.Canon) : Ends Canon (s.scrLoad t d c xs lanes off) :=
  .check fun _ => .check fun _ => h.vecWrite

theorem peerAccess (h : s.Canon) : Ends Canon (s.peerAccess t a b dest w) :=
  .ite .raise (.ite .raise (.ok (.putTeam (h.modCore fun _ hk => hk))))

end State.Canon

/-! ### The copy engine (R234 to R251) -/

/-- The state that a copy operation has reached is canonical. -/
def Move.Canon (v : Move) : Prop := v.st.Canon

/-- An operation's progress with a further answer is canonical. -/
def MoveCanon {α : Type} (p : Move × α) : Prop := p.1.Canon

theorem Ends.move {ε α β : Type} {Q : β → Prop} {x : Except ε (Move × α)} {f : Move × α → Except ε β}
    (hx : Ends MoveCanon x) (hf : ∀ v a, v.Canon → Ends Q (f (v, a))) : Ends Q (x >>= f) :=
  bind hx fun p hp => hf p.1 p.2 hp

theorem Ends.faulting {x : Except Stop Move} (hx : Ends Move.Canon x) :
    Ends Move.Canon (faulting x) := by
  cases x with
  | error e => exact .error
  | ok v => exact .ok (hx v rfl)

theorem State.Canon.copyForm {s : State} (h : s.Canon) : LeavesCanon (copyForm i k d a b s) :=
  h.issue fun _ => .ite .error <| .check fun _ => .check fun _ => .ite .raise <| .check fun _ => .check fun _ =>
    .pure (.putTeam (.setNextUid (.modCore h fun _ hk => hk)))

namespace State.Canon

variable {s : State}

theorem readLock (h : s.Canon) : FstCanon (s.readLock d page) := h.reachHome

theorem writeLock (h : s.Canon) : (s.writeLock d page e).Canon := h.lineWrite

theorem fabricPort (h : s.Canon) : FstCanon (s.fabricPort d node) := h.reachHome

end State.Canon

namespace Move.Canon

variable {v : Move}

theorem pin (h : v.Canon) : Ends Move.Canon (v.pin d page) :=
  .ite (.ok h) <| .ite .error <| .ite .error <| .ite .error <| .ok (State.Canon.readLock h).writeLock

theorem ready (h : v.Canon) : Ends Move.Canon (v.ready c va m) := by
  have hf : FstCanon (v.st.fabricPort (c / 64) m.phys.unit) := State.Canon.fabricPort h
  unfold Move.ready
  dsimp only
  split
  · split
    · exact .raise
    · split
      · exact .ite .error (.ok hf)
      · exact .ite .error .raise
  · exact .ite .error (.ok h)
  · exact .ite .error (.ite h.pin (.ok h))

theorem mapParts (h : v.Canon) : Ends MoveCanon (v.mapParts c ctx kind locs ps) := by
  induction ps generalizing v with
  | nil => exact .ok h
  | cons p rest ih =>
    refine .step (State.Canon.translateResident h) fun s m hs => ?_
    refine .ite (.check fun _ => ?_) ?_ <;>
      exact .bind (ready hs) fun v hv => .move (ih hv) fun _ _ hv => .pure hv

theorem map (h : v.Canon) : Ends MoveCanon (v.map c o space rank a n kind locs) := by
  refine .ite h.mapParts (.ite (.ite .raise (.ok h)) ?_)
  dsimp only
  split
  · exact .ite .raise (.ite .raise (.ok h))
  · exact .raise

theorem read (h : v.Canon) : Ends MoveCanon (v.read c ps) := by
  induction ps generalizing v with
  | nil => exact .ok h
  | cons p rest ih =>
    match p with
    | (.scr _ _, _) => exact .check fun _ => .move (ih h) fun v more hv => .pure hv
    | (.mem _ m, _) =>
      have hr : ∀ {b : Bool}, (if b then v.st.homeRead (copyRequester c) m.phys.unit (lineOf m.phys.addr) false
          else v.st).Canon := .ite (.homeRead h) h
      exact .ite .error (.move (ih hr) fun v more hv => .pure hv)

theorem source (h : v.Canon) : Ends MoveCanon (v.source c o a n) := h.map

theorem dest (h : v.Canon) : Ends MoveCanon (v.dest c o a n) := h.map

theorem writeMem (h : v.Canon) : (v.writeMem c ctx va p bytes).Canon := by
  unfold Move.writeMem
  split
  · exact (State.Canon.learnFx h).homeStore
  · exact State.Canon.dsmStore h
  · exact State.Canon.setHost h (Memory.wf_setBytes _ _ (State.Canon.hostMem h)) (State.Canon.hostMbox h)
  · refine State.Canon.setFabric h fun q hq => ?_
    rcases mem_insertAt hq with rfl | hq
    · exact Memory.wf_setBytes _ _ (State.Canon.space h .fabric p.unit)
    · exact State.Canon.fabric h q hq

theorem write (h : v.Canon) : (v.write c ctx ps bytes).Canon := by
  induction ps generalizing v bytes with
  | nil => exact h
  | cons p rest ih =>
    match p with
    | (.scr _ _, _) => exact ih (State.Canon.modCore h fun _ hk => hk.putScratch)
    | (.mem _ _, _) => exact ih h.writeMem

theorem writeRow (h : v.Canon) : Ends Move.Canon (v.writeRow c o f ps x) :=
  .ite (.move h.read fun _ _ hv => .pure hv.write) (.move (.ok h) fun _ _ hv => .pure hv.write)

theorem plainRow (h : v.Canon) : Ends Move.Canon (v.plainRow c o r src) :=
  .move h.dest fun _ _ hv => .move hv.read fun _ _ hv => hv.writeRow

theorem expandRow (h : v.Canon) : Ends Move.Canon (v.expandRow c o r) := by
  refine .move h.source fun _ _ hv => ?_
  refine .ite (.move (.ok hv) ?_) (.move hv.source ?_) <;>
    exact fun _ _ hv => .move hv.dest fun _ _ hv => .move hv.read fun _ _ hv => .move hv.read fun _ _ hv =>
      hv.writeRow

theorem quantRow (h : v.Canon) : Ends Move.Canon (v.quantRow c o r) :=
  .move h.source fun _ _ hv => .move hv.dest fun _ _ hv => .move hv.dest fun _ _ hv => .move hv.read fun _ _ hv =>
    .bind hv.writeRow fun _ hv => .pure hv.write

theorem addRow (h : v.Canon) : Ends Move.Canon (v.addRow c o r) :=
  .move h.source fun _ _ hv => .move hv.map fun _ _ hv => .move hv.read fun _ _ hv => .move hv.read fun _ _ hv =>
    hv.writeRow

theorem walkRow (h : v.Canon) : Ends Move.Canon (v.walkRow c o j) :=
  .move h.source fun _ _ hv => .move hv.dest fun _ _ hv => .move hv.read fun _ _ hv => hv.writeRow

theorem rows {row : Move → Nat → Except CopyEnd Move} (hr : ∀ v r, v.Canon → Ends Move.Canon (row v r))
    (h : v.Canon) : MoveCanon (Move.rows row n r v) := by
  induction n generalizing v r with
  | zero => exact h
  | succ n ih =>
    unfold Move.rows
    split
    case h_1 v' he => exact ih (hr v r h v' he)
    case h_2 => exact h

theorem gatherRow (h : v.Canon) : Ends Move.Canon (v.gatherRow c o j) := by
  unfold Move.gatherRow
  dsimp only
  split
  · exact .error
  · split
    · exact .error
    · exact .error
    case h_3 v' src he =>
      have hv : v'.Canon := h.source (v', src) he
      exact .faulting hv.plainRow

theorem tileRow (h : v.Canon) : Ends MoveCanon (v.tileRow c o r pos) := by
  unfold Move.tileRow
  dsimp only
  split
  · exact .error
  case h_2 v1 src h1 =>
    have hv : v1.Canon := h.source (v1, src) h1
    split
    · exact .error
    case h_2 v2 bs h2 =>
      have hv : v2.Canon := hv.read (v2, bs) h2
      refine .ite .error ?_
      split
      · exact .error
      case h_2 v3 dst h3 =>
        have hv : v3.Canon := hv.dest (v3, dst) h3
        split
        · exact .error
        case h_2 v4 entry h4 =>
          have hv : v4.Canon := hv.dest (v4, entry) h4
          exact .ok hv.write.write

theorem tileRows (h : v.Canon) : MoveCanon (Move.tileRows c o n r pos v) := by
  induction n generalizing v r pos with
  | zero => exact h
  | succ n ih =>
    unfold Move.tileRows
    split
    case h_1 v' pos' he => exact ih (h.tileRow _ he)
    case h_2 => exact h

end Move.Canon

/-- What DISCARD restores: the line as GDDR7 holds it where it was dirty (R250). -/
theorem Die.Canon.restore {k : Die} {p : Prop} [Decidable p] {line : Nat} (h : k.Canon) :
    { k with mem := if p then k.mem.copyRange k.dram line 128 else k.mem }.Canon := by
  refine h.setMem ?_
  split
  · exact Memory.wf_copyRange _ _ _ h.mem
  · exact h.mem

theorem State.Canon.discardLine {s : State} (h : s.Canon) : (s.discardLine d line).Canon := by
  unfold State.discardLine
  dsimp only
  refine .fireLine ?_
  split
  · exact .markDirty <| .foldl (.touchLine <| .modDie h fun _ hk => .evict (.restore hk)) fun _ _ hr => hr.establish
  · exact .modDie h fun _ hk => .evict (.restore hk)

namespace Move.Canon

variable {v : Move}

theorem lineOp (h : v.Canon) : Ends Move.Canon (v.lineOp c o kind va) := by
  unfold Move.lineOp
  split
  · exact .ok h
  · exact .error
  case h_3 s m he =>
    have hs : s.Canon := State.Canon.translateResident h _ he
    refine .ite (.ok hs) ?_
    refine .ite (.check fun _ => ?_) ?_ <;>
      refine .bind (ready hs) fun v hv =>
        .ite (.pure (State.Canon.touchLine hv)) (.ite (.pure ?_) (.pure (State.Canon.reachHome hv)))
    all_goals exact (State.Canon.learnFx hv).recallLine.discardLine

theorem lineOps (h : v.Canon) : Ends Move.Canon (Move.lineOps c o kind vas v) := by
  induction vas generalizing v with
  | nil => exact .ok h
  | cons va rest ih => exact .bind h.lineOp fun _ hv => ih hv

theorem run (h : v.Canon) : MoveCanon (v.run c o) := by
  have hrows {n : Nat} {f : Move → Nat → Except Stop Move} (hf : ∀ v r, v.Canon → Ends Move.Canon (f v r)) :
      MoveCanon (Move.rows (fun v r => faulting (f v r)) n 0 v) := rows (fun v r hv => .faulting (hf v r hv)) h
  have hlines (kind : Access) : MoveCanon (match Move.lineOps c o kind o.lines v with
      | .ok v => (v, o.shape.rows, none)
      | .error e => (v, 0, some (CopyEnd.fault e))) := by
    split
    case h_1 v' he => exact h.lineOps v' he
    case h_2 => exact h
  unfold Move.run
  dsimp only
  split
  · exact hrows fun v r hv => .move hv.source fun _ _ hv => hv.plainRow
  · exact rows (fun v r hv => hv.gatherRow) h
  · exact hrows fun v r hv => hv.expandRow
  · exact hrows fun v r hv => hv.quantRow
  · exact h.tileRows
  · exact hrows fun v r hv => hv.addRow
  · exact hrows fun v r hv => hv.walkRow
  · exact hlines .write
  · exact hlines .read

end Move.Canon

namespace State.Canon

variable {s : State}

theorem putCopy (h : s.Canon) : (s.putCopy c o).Canon := h.modCore fun _ hk => hk

theorem copyStart (h : s.Canon) : Gives Canon (s.copyStart c n) := by
  unfold State.copyStart
  dsimp only
  split
  · exact .none
  case h_2 o _ =>
    have hv : MoveCanon ((⟨s.asClass o.ctx, 0, false, false, []⟩ : Move).run c o) := Move.Canon.run h.asClass
    refine .ite .none ?_
    split
    · exact .some <| .taskGwct <| .putCopy hv
    · exact .some <| .taskGwct <| .putCopy hv
    · exact .some <| .taskGwct <| .putCopy <| .ite (.reportPeer hv) hv
    · exact .some <| .taskGwct <| .putCopy <| .haltCtx hv
    · exact .none

theorem unpin (h : s.Canon) : (s.unpin d page).Canon := .writeLock h.readLock

theorem copyComplete (h : s.Canon) : Gives Canon (s.copyComplete c n) := by
  unfold State.copyComplete
  dsimp only
  split
  · exact .none
  · split
    · exact .none
    · exact .ite .none <| .some <| .decCounter <| .foldl (.modCore h fun _ hk => .putScratch hk) fun _ _ hr => hr.unpin

end State.Canon

end Sys2Proof.Machine
end

section
/-! SUPPORT for O54. The forms that instructions share, scalar memory, update streams and bins. -/

namespace Sys2Proof.Machine

namespace State.Canon

variable {s : State}

/-! ### Fetch (R374) and the end of a wait (R42) -/

theorem fetchWord (h : s.Canon) : Ends FstCanon (s.fetchWord t va) :=
  .step h.translateResident fun _ _ hs => .ite .error (.ite .error (.pure hs.reachHome))

theorem fetch (h : s.Canon) : Ends FstCanon (s.fetch t) :=
  .step h.asClass.fetchWord fun _ _ hs => .ite (.step hs.fetchWord fun _ _ hs => .pure hs) (.pure hs)

theorem nextInstr (h : s.Canon) : FstCanon (s.nextInstr t) := by
  unfold State.nextInstr
  split
  · exact h
  case h_2 s' w lit he =>
    have hs : s'.Canon := h.fetch (s', w, lit) he
    split <;> exact hs

theorem markReady (h : s.Canon) : (s.markReady n).Canon := h.modTeam

theorem released (h : s.Canon) : (s.released before n).Canon := by
  unfold State.released
  split
  · exact h
  · exact .ite h.markReady h

/-! ### The matrix engine (R263 to R279) -/

theorem queueMat (h : s.Canon) : Ends Canon (s.queueMat t o) :=
  .ite .error (.ok (.putTeam (h.modCore fun _ hk => hk)))

theorem matrixForm (h : s.Canon) : LeavesCanon (matrixForm i kind d a f s) :=
  h.issue fun _ => .ite .error <| .check fun _ => .ite .raise <| .ite .raise <| .check fun _ => .check fun _ =>
    .ite (.check fun _ => h.queueMat) (.check fun _ => h.queueMat)

theorem matStart (h : s.Canon) : Gives Canon (s.matStart c) := by
  unfold State.matStart
  split
  · exact .none
  · exact .ite .none (.some (h.modCore fun _ hk => hk))

end State.Canon

theorem MatOp.wf_storeRow {m : Memory} (o : MatOp) (x : Tile) (r : Nat) (hm : m.wf = true) :
    (o.storeRow x r m).wf = true := by
  unfold MatOp.storeRow
  generalize List.range o.d.n = l
  induction l generalizing m with
  | nil => exact hm
  | cons c rest ih => exact ih (Memory.wf_setBytes _ _ hm)

theorem MatOp.wf_doStep {m : Memory} (o : MatOp) (x : Tile) (j : Nat) (hm : m.wf = true) :
    (o.doStep m x j).1.wf = true := by
  unfold MatOp.doStep
  dsimp only
  split
  · exact hm
  · exact hm
  · exact o.wf_storeRow _ _ hm
  · exact hm

namespace State.Canon

variable {s : State}

theorem matStep (h : s.Canon) : Gives Canon (s.matStep c) := by
  unfold State.matStep
  split
  · exact .none
  · refine .ite .none ?_
    split
    · exact .none
    · dsimp only
      split
      · exact .some h.machineCheck
      · have hk {o : MatOp} {x j} := (h.core c).setScratch (o.wf_doStep x j (h.core c).scratch)
        exact .ite (.some (.setCore h hk)) (.some (.putTeam (.setCore h hk)))

theorem matComplete (h : s.Canon) : Gives Canon (s.matComplete c) := by
  unfold State.matComplete
  split
  · exact .none
  · refine .ite .none ?_
    dsimp only
    split
    · exact .some <| .decCounter <| .released <|
        .ite (.modTeam (.modCore h fun _ hk => hk)) (.modCore h fun _ hk => hk)
    · exact .some <| .released <| .ite (.modTeam (.modCore h fun _ hk => hk)) (.modCore h fun _ hk => hk)

/-! ### Forms of register instructions -/

theorem branchForm (h : s.Canon) : LeavesCanon (branchForm i o taken s) := h.issueTeam

theorem jumpForm (h : s.Canon) : LeavesCanon (jumpForm i a s) := h.issue fun _ => .check fun _ => .pure h.putTeam

theorem loopForm (h : s.Canon) : LeavesCanon (loopForm i count len n s) :=
  h.issue fun _ => .check fun _ => .pure h.putTeam

theorem endTeam (h : s.Canon) : (s.endTeam t).Canon := h.freeHeld.putTeam.testPool

theorem vecFormRun {v : VecForm} (h : s.Canon) : LeavesCanon (v.run i d c srcs lane s) :=
  h.issue fun _ => .check fun _ => h.vecDraw

theorem arithForm (h : s.Canon) : LeavesCanon (arithForm i d a b c old f s) := h.vecFormRun

theorem subForm (h : s.Canon) : LeavesCanon (subForm i etypes d a b c f s) := h.vecFormRun

theorem subForm1 (h : s.Canon) : LeavesCanon (subForm1 i etypes d a c f s) := h.vecFormRun

theorem wordForm (h : s.Canon) : LeavesCanon (wordForm i d c srcs f s) := h.vecFormRun

theorem compareForm (h : s.Canon) : LeavesCanon (compareForm i d a b p s) :=
  h.issue fun _ => .check fun _ => .pure h.putTeam

theorem mathForm (h : s.Canon) : LeavesCanon (mathForm i fn rounds d a c s) :=
  h.issue fun _ => .check fun _ => vecDraw (s := { s with free := _ }) h

theorem reduceForm (h : s.Canon) : LeavesCanon (reduceForm i d a f s) :=
  h.issue fun _ => .check fun _ => .pure h.putTeam

theorem intForm (h : s.Canon) : LeavesCanon (intForm i d a b q r s) := h.issueTeam

theorem ccForm (h : s.Canon) : LeavesCanon (ccForm i cc s) := h.issueTeam

theorem immForm (h : s.Canon) : LeavesCanon (immForm i d v s) := h.issueTeam

/-! ### Scalar loads, stores and atomics (R195 to R199) -/

theorem scalarLoad (h : s.Canon) : Ends Canon (s.scalarLoad t d va n acquire next) :=
  .check fun _ => .step h.translateResident fun _ _ hs => .check fun _ =>
    .ite (.check fun _ => .pure hs.queueReq.modTeam) (.step hs.teamLoad fun _ _ hs => .pure hs.modTeam)

theorem scalarStore (h : s.Canon) : Ends Canon (s.scalarStore t va n v ready) :=
  .check fun _ => .step h.translateResident fun _ _ hs => .check fun _ => .check fun _ => .check fun _ =>
    .ite (.check fun _ => .pure hs.learnFx.queueReq.modTeam) (.pure hs.teamStore.modTeam)

theorem train (h : s.Canon) : (s.train c pa cont).Canon := h.modCore fun _ hk => hk

theorem grantLease (h : s.Canon) : (s.grantLease c d line).Canon := .train <| h.reachHome.modDie fun _ hk => hk

theorem atomicAt (h : s.Canon) : FstCanon (s.atomicAt c p nc op n x y) := by
  unfold State.atomicAt
  split
  · dsimp only
    have hr {q : State} {b : Prop} [Decidable b] (hq : q.Canon) : (if b then q.applyLine p.unit (lineOf p.addr) else
        q.reachHome c p.unit (lineOf p.addr)).Canon := .ite hq.applyLine hq.reachHome
    split
    · refine .refreshL1 ?_
      split
      · exact .lineWrite (hr (.ite h.recallLine h))
      · exact hr (.ite h.recallLine h)
    · refine .train (.refreshL1 ?_)
      split
      · exact .lineWrite (hr (.ite h.recallLine h))
      · exact hr (.ite h.recallLine h)
  · dsimp only
    split
    · exact h.noteRequest.train.dsmStore
    · exact h.noteRequest.train

theorem atomicForm (h : s.Canon) : LeavesCanon (atomicForm i op d a b z s) :=
  h.issue fun _ => .check fun _ => .step h.translateResident fun _ _ hs => .check fun _ => .check fun _ =>
    .ite (.check fun _ => .pure hs.learnFx.queueReq.modTeam) <| .ite .error <| .pure <| .modTeam <| .joinGwct <|
      .atomicAt <| .ite hs.learnFx hs.learnFx.grantLease

theorem pageAt (h : s.Canon) : Ends FstCanon (s.pageAt t va) := by
  unfold State.pageAt
  split
  · exact h.translateResident
  · exact h.translateResident

theorem eachPage {f : State → Phys → Nat → State} (h : s.Canon) (hf : ∀ r p n, r.Canon → (f r p n).Canon) :
    Ends Canon (s.eachPage t a n f pages) := by
  induction pages generalizing s with
  | nil => exact .ok h
  | cons page rest ih =>
    refine .ite (.bind (.pure h) fun _ hs => ih hs) ?_
    split
    case h_1 s' m he => exact .bind (.pure (hf _ _ _ (h.pageAt (s', m) he))) fun _ hs => ih hs
    case h_2 => exact .bind (.pure h) fun _ hs => ih hs
    case h_3 => exact .bind (P := Canon) .error fun _ hs => ih hs

theorem endLeases (h : s.Canon) : (s.endLeases c p n).Canon := .ite h h.dropLines

/-! ### Update pairs (R210, R222, R401) -/

theorem pairFate (h : s.Canon) : Ends FstCanon (s.pairFate t es e) := by
  unfold State.pairFate
  split
  · exact .ok h
  · refine .ite (.ok h) ?_
    split
    · exact .ok h
    · exact .error
    case h_3 s' m he =>
      have hs : s'.Canon := h.translate (s', m) he
      exact .ite (.ok hs) (.ok hs)

theorem pairFates (h : s.Canon) : Ends FstCanon (s.pairFates t es l) := by
  induction l generalizing s with
  | nil => exact .ok h
  | cons e rest ih =>
    refine .step h.pairFate fun _ _ hs => .step (ih hs) fun _ _ hs => ?_
    dsimp only
    split <;> exact .pure hs

theorem reportDrops (h : s.Canon) : (s.reportDrops t ds code).Canon := by
  unfold State.reportDrops
  dsimp only
  split
  · exact h
  · exact h.report

theorem fates (h : s.Canon) : Ends FstCanon (s.fates t ps) :=
  .step h.regionsOf fun _ _ hs => .step hs.pairFates fun _ _ hs => .pure (.foldl hs fun _ _ hr => hr.reportDrops)

end State.Canon

theorem Core.Canon.enterGroups {k : Core} (h : k.Canon) : (k.enterGroups sched now).Canon := by
  unfold Core.enterGroups
  split <;> exact h

namespace State.Canon

variable {s : State}

theorem emit (h : s.Canon) : Ends FstCanon (s.emit t ps) :=
  .ite .error <| .step h.fates fun _ _ hs => .pure (hs.modCore fun _ hk => hk)

theorem update (h : s.Canon) : Ends Canon (s.update t a lanes index x) :=
  .check fun _ => .step h.emit fun _ _ hs => .pure hs.putTeam

theorem allApplied (h : s.Canon) : (s.allApplied d).Canon := h.foldl fun _ _ hr => hr.applyBin

theorem applyRange (h : s.Canon) : (s.applyRange t p n).Canon := .ite h <| h.foldl fun _ _ hr => hr.applyBin.joinGwct

theorem taskForm (h : s.Canon) : LeavesCanon (taskForm i kind a s) :=
  h.issue fun _ => .check fun _ => .step h.translateResident fun _ _ hs => .check fun _ => .pure (.putTeam hs)

theorem arrive (h : s.Canon) : FstCanon (s.arrive c p target) := by
  have hs {b : Bool} : (if b then s.applyLine p.unit (lineOf p.addr) else s).Canon := .ite h.applyLine h
  unfold State.arrive
  dsimp only
  split
  · exact .refreshL1 hs.homeStore
  · exact hs.noteRequest.dsmStore

theorem arrived (h : s.Canon) : (s.arrived n d mode p gen).Canon := h.modTeam

theorem mapDsm (h : s.Canon) : Ends FstCanon (s.mapDsm t addr lanes) := by
  induction lanes generalizing s with
  | nil => exact .ok h
  | cons i rest ih =>
    refine .ite .raise ?_
    split
    · exact .error
    case h_2 s' m he => exact .step (ih (h.translateResident (s', m) he)) fun _ _ hs => .pure hs

/-! ### Pairs on their way into bins (R228 to R230, R401, R402) -/

theorem pairInject (h : s.Canon) : Gives Canon (s.pairInject c sched) := by
  unfold State.pairInject
  split
  · exact .none
  · refine .ite .none ?_
    dsimp only
    split
    · exact .some <| .released <| .modDie (.modCore h fun _ hk => .enterGroups hk) fun _ hk => hk
    · exact .some <| .modDie (.modCore h fun _ hk => .enterGroups hk) fun _ hk => hk

theorem spill (h : s.Canon) : (s.spill d b).Canon := .ite h.applyBin.diverge h.applyBin.logEvent

theorem spillFrom (h : s.Canon) : (s.spillFrom d slice need l).Canon := by
  induction l generalizing s with
  | nil => exact h
  | cons b rest ih => exact .ite h (ih h.spill)

theorem makeRoom (h : s.Canon) : (s.makeRoom d slice need).Canon := h.spillFrom

theorem binPair (h : s.Canon) : (s.binPair d b p).Canon :=
  .ite (.shadowReport (.modDie h.takeFree fun _ hk => hk)) (.modDie h.takeFree fun _ hk => hk)

theorem mismatch (h : s.Canon) : (s.mismatch d b p).Canon := .ite h <| .report <| h.modDie fun _ hk => hk

theorem replaySpills (h : s.Canon) : (s.replaySpills ctx d slice).Canon := h.foldl fun _ _ hr => hr.applyLine

theorem placePair (h : s.Canon) : (s.placePair p).Canon := by
  unfold State.placePair
  dsimp only
  split
  · exact h.binPair
  · exact .binPair <| .modDie h.makeRoom fun _ hk => hk

theorem settled (h : s.Canon) : (s.settled p).Canon := by
  unfold State.settled
  split
  · exact h.settlePair.testPool
  · exact h

theorem acceptPair (h : s.Canon) : (s.acceptPair p).Canon := by
  unfold State.acceptPair
  split
  · exact h.mismatch.settled
  · exact .settled <| .joinGwct <| .dropLines <| .noteRequest <| .replaySpills <| h.placePair.modDie fun _ hk => hk

theorem homeAcceptPair (h : s.Canon) : Gives Canon (s.homeAcceptPair d n) := by
  unfold State.homeAcceptPair
  dsimp only
  split
  · exact .none
  · exact .ite .none <| .some <| .acceptPair <| h.modDie fun _ hk => hk

theorem binApply (h : s.Canon) : Gives Canon (s.binApply d line) := by
  unfold State.binApply
  split
  · exact .some h.applyBin
  · exact .none

theorem spillAll (h : s.Canon) : (s.spillAll d).Canon := h.foldl fun _ _ hr => hr.makeRoom

end State.Canon

end Sys2Proof.Machine
end

section
/-! SUPPORT for O54. The control registers, the homes' own steps, tasks and queues. -/

namespace Sys2Proof.Machine

/-- Dropping treelets, hints included or not, leaves none that could be out of form. -/
theorem Die.Canon.noTreelets {k : Die} (h : k.Canon) : { k with treelets := [] }.Canon :=
  h.setTreelets fun _ ht => nomatch ht

namespace State.Canon

variable {s : State}

/-! ### Control registers (Table 19.9, R367, R387, R388) -/

theorem dropTreelets (h : s.Canon) : (s.dropTreelets d).Canon := h.modDie fun _ hk => hk.noTreelets

theorem emptyHints (h : s.Canon) : s.emptyHints.Canon := h

theorem writeCtx (h : s.Canon) : (s.writeCtx d ctx num v).Canon := .ite h.modCtx.dropTreelets.emptyHints h.modCtx

theorem tlbinv (h : s.Canon) : (s.tlbinv ctx p).Canon := .modCtx <| h.mapMachine h.die0 h.die1 fun _ hp => hp

theorem writeDie (h : s.Canon) : (s.writeDie d num v).Canon := by
  have hset : (s.modDie d fun k => { k with regs := k.regs.set num v }).Canon := h.modDie fun _ hk => hk
  unfold State.writeDie
  refine .ite (.ite h (h.modDie fun _ hk => hk)) <| .ite (.ite h (h.modDie fun _ hk => hk)) <|
    .ite (.ite h (h.modDie fun _ hk => hk)) <| .ite hset.spillAll <| .ite hset.poolChanged hset

theorem outsideWrite (h : s.Canon) : Gives Canon (s.outsideWrite num) := .ite .none (.some h.writeDie)

/-! ### Slice configuration and the scene register (R22, R285, R327) -/

theorem evictOver (h : s.Canon) : (s.evictOver d x n).Canon := by
  induction n generalizing s with
  | zero => exact h
  | succ n ih =>
    unfold State.evictOver
    dsimp only
    split
    · exact ih (.modDie h.takeFree fun _ hk => hk.evict)
    · exact h.takeFree

theorem leaveWays (h : s.Canon) : (s.leaveWays d).Canon := h.foldl fun _ _ hr => hr.evictOver

theorem sliceApply (h : s.Canon) : Gives Canon (s.sliceApply d) := by
  unfold State.sliceApply
  dsimp only
  split
  · exact .none
  · refine .ite .none (.some (.poolChanged (.leaveWays (h.modDie fun k hk => ?_))))
    exact hk.noTreelets.setDsm (Memory.wfFrom_filter _ hk.dsm)

theorem sceneWrite (h : s.Canon) : Gives Canon (s.sceneWrite n) := by
  unfold State.sceneWrite
  split
  · exact .none
  · split
    · exact .none
    · exact .ite .none <| .some <| h.modCtx.foldl fun _ _ hr => hr.modDie fun _ hk => hk.noTreelets

/-! ### Requests that waited for their home (R177, R179, R180) -/

theorem sendNumber (h : s.Canon) : s.sendNumber.2.Canon := h

/-- A request is served from the state without it; one that reads a poisoned line stops its team instead. -/
theorem serve {f : State → MeshReq → Option State} (h : s.Canon) (hf : ∀ r q, r.Canon → Gives Canon (f r q)) :
    Gives Canon (s.serve d n f) := by
  unfold State.serve
  split
  · exact .none
  case h_2 r earlier later _ =>
    have hrest : ((s.asClass r.ctx).modDie d fun k => { k with mesh := earlier ++ later }).Canon :=
      h.asClass.modDie fun _ hk => hk
    refine .ite .none ?_
    dsimp only
    split
    · exact .none
    case h_2 s' he =>
      have hs : s'.Canon := hf _ _ hrest s' he
      refine .ite ?_ (.some hs)
      split
      · exact .some hrest.takeStop
      · exact .some hs

theorem resumed (h : s.Canon) : (s.resumed before n).Canon := by
  unfold State.resumed
  split
  · exact .ite h.released h.markReady
  · exact h

theorem serveRead {r : MeshReq} (h : s.Canon) : Gives Canon (s.serveRead r) := by
  unfold State.serveRead
  split
  · exact .some h.homeRead
  · refine .some (.modCore (.sendNumber (.ite h.homeRead h.noteRequest)) fun k hk => hk.setReplies fun x hx => ?_)
    rcases List.mem_append.1 hx with hx | hx
    · exact hk.replies x hx
    · rw [List.mem_singleton.1 hx]
      exact Memory.wf_slice _ _ (space (.sendNumber (.ite h.homeRead h.noteRequest)) _ _)
  · exact .none

theorem loadReply (h : s.Canon) : Gives Canon (s.loadReply c n) := by
  unfold State.loadReply
  split
  · exact .none
  case h_2 r rest he =>
    have hr : ∀ x ∈ r :: rest, x.data.wf = true := fun x hx =>
      (h.core c).replies x (List.mem_of_mem_drop (he ▸ hx))
    have hs : (s.modCore c fun k => { k with replies := k.replies.take n ++ rest }).Canon :=
      h.modCore fun k hk => hk.setReplies fun x hx => (List.mem_append.1 hx).elim
        (fun hx => hk.replies x (List.mem_of_mem_take hx)) fun hx => hr x (List.mem_cons_of_mem _ hx)
    exact .ite .none <| .some <| .resumed <| .modTeam <| .ite (hs.fillL1 (hr r List.mem_cons_self)) hs

theorem hostStore (h : s.Canon) : (s.hostStore d a bytes).Canon := homeStore h

theorem serveStore {r : MeshReq} (h : s.Canon) : Gives Canon (s.serveStore r) := by
  unfold State.serveStore
  split
  · exact .some h.deviceStore
  · exact .some h.hostStore
  · refine .ite (.some h.homeStore) (.some (.modDie ?_ fun _ hk => hk))
    dsimp only
    split
    · exact .sendNumber (.refreshL1 h.homeStore)
    · exact .sendNumber h.noteRequest.dsmStore
  · exact .none

theorem storeAck (h : s.Canon) : Gives Canon (s.storeAck d n) := by
  unfold State.storeAck
  split
  · exact .none
  · exact .ite .none <| .some <| .acknowledge <| h.modDie fun _ hk => hk

theorem finishAtomic {r : MeshReq} (h : s.Canon) : (s.finishAtomic r op n b c d).Canon :=
  .markReady <| .modTeam <| .joinGwct <| atomicAt h

theorem serveAtomic {r : MeshReq} (h : s.Canon) : Gives Canon (s.serveAtomic r) := by
  unfold State.serveAtomic
  split
  · exact .ite (.some h.finishAtomic) .none
  · exact .none

theorem serveGrant {r : MeshReq} (h : s.Canon) : Gives Canon (s.serveGrant r) := by
  unfold State.serveGrant
  split
  · exact .ite .none (.some h.grantLease.finishAtomic)
  · exact .none

theorem serveArrival {r : MeshReq} (h : s.Canon) : Gives Canon (s.serveArrival r) := by
  unfold State.serveArrival
  split
  · exact .some <| .markReady <| .arrived <| .modTeam <| .joinGwct <| arrive h
  · exact .none

/-! ### Write leases, DSM elements, the host and the fabric (R167, R197, R217, R398) -/

theorem endLease (h : s.Canon) : (s.endLease d line).Canon := h.modDie fun _ hk => hk

theorem leaseRecall (h : s.Canon) : Gives Canon (s.leaseRecall d line) := .ite (.some h.endLease) .none

theorem leaseExpiry (h : s.Canon) : Gives Canon (s.leaseExpiry d line) := .ite (.some h.endLease) .none

theorem checkUid (h : s.Canon) : (s.checkUid n p).Canon := by
  unfold State.checkUid
  split
  · exact h.takeStop
  · split
    · exact h.machineCheck
    · exact h

theorem dsmElement (h : s.Canon) : Gives Canon (s.dsmElement d n) := by
  unfold State.dsmElement
  dsimp only
  split
  · exact .none
  · exact .ite .none <| .ite (.some (.replied (.checkUid (h.modDie fun _ hk => hk))))
      (.some (.acknowledge (dsmStore (.noteRequest (h.modDie fun _ hk => hk)))))

theorem outside {f : State → State} (h : s.Canon) (hf : ∀ r, r.Canon → (f r).Canon) :
    Gives Canon (s.outside kind who d a f) :=
  .ite (.some (h.modDie fun _ hk => hk)) (.ite .none (.some (hf _ h)))

theorem hostRead (h : s.Canon) : Gives Canon (s.hostRead d a) := .ite .none <| h.outside fun _ hr => hr.homeRead

theorem hostWrite (h : s.Canon) : Gives Canon (s.hostWrite own d a bytes) :=
  .ite .none <| .ite (.some (h.setHost (Memory.wf_setBytes _ _ h.hostMem) h.hostMbox)) <|
    .ite .none <| h.outside fun _ hr => hr.hostStore

theorem reportWindow (h : s.Canon) : (s.reportWindow d port a n log2w).Canon :=
  .ite h.report <| .ite h.reportLimited <| .ite h.reportLimited h

theorem fabricWrite (h : s.Canon) : Gives Canon (s.fabricWrite e) :=
  .ite .none <| .map (h.outside fun _ hr => hr.homeStore) fun _ hr => hr.reportWindow

theorem writeBack (h : s.Canon) : Gives Canon (s.writeBack d line) :=
  .ite (.some (h.modDie fun _ hk => hk.writeBack)) .none

/-! ### Cluster peers (R209, R403 to R405) -/

theorem peerServe (h : s.Canon) : FstCanon (s.peerServe c r) := by
  unfold State.peerServe
  dsimp only
  split
  · exact h.reportPeer
  · split
    · exact h.reportPeer
    · split
      · exact h.reportPeer
      · split
        · exact h.modCore fun _ hk => hk.putScratch
        · exact h

theorem inboundPeer (h : s.Canon) : Gives Canon (s.inboundPeer c n) := by
  unfold State.inboundPeer
  dsimp only
  split
  · exact .none
  · exact .ite .none <| .some <| .modCore (peerServe (h.modCore fun _ hk => hk)) fun _ hk => hk

theorem peerDone (h : s.Canon) : (s.peerDone t dest offset r).Canon := by
  refine .ite h.takeTrap ?_
  split
  · exact h.putTeam
  · exact h.putTeam

theorem peerReply (h : s.Canon) : Gives Canon (s.peerReply c n) := by
  unfold State.peerReply
  dsimp only
  split
  · exact .none
  case h_2 r rest _ =>
    have hs : (s.modCore c fun k =>
        { k with peerReplies := (s.core c).peerReplies.take n ++ rest }).Canon := h.modCore fun _ hk => hk
    refine .ite .none ?_
    split
    · exact .some hs
    · split
      · exact .ite (.some hs.peerDone) (.some hs)
      · exact .some hs

theorem peerTimeout (h : s.Canon) : Gives Canon (s.peerTimeout n) := by
  unfold State.peerTimeout
  split
  · exact .none
  · split
    · exact .ite .none (.some h.takeTrap.report)
    · exact .none

/-! ### Task records and queue descriptors (Tables 2.3, 13.2) -/

theorem putRecord (h : s.Canon) : (s.putRecord p off n v).Canon := h.lineWrite

theorem putState (h : s.Canon) : (s.putState p v).Canon := h.putRecord

theorem putProgress (h : s.Canon) : (s.putProgress p state next live).Canon := h.putState.putRecord.putRecord

theorem putLink (h : s.Canon) : (s.putLink p).Canon := h.takeFree.putRecord

theorem reachRecord (h : s.Canon) : (s.reachRecord d p).Canon := h.reachHome

theorem reportRecord (h : s.Canon) : (s.reportRecord p ctx code info).Canon := h.report

theorem reportDist (h : s.Canon) : (s.reportDist d ctx code addr info).Canon := h.report

theorem putQueue (h : s.Canon) : (s.putQueue q off v).Canon := h.lineWrite

theorem putIdle (h : s.Canon) : (s.putIdle q v).Canon := h.putQueue

theorem reachQueue (h : s.Canon) : (s.reachQueue d q).Canon := h.reachHome

/-! ### Dependence counters and ready tasks (R36, R213, R322, R384) -/

theorem depApply (h : s.Canon) : (s.depApply op).Canon := by
  have hs {b : Bool} {q : Nat} : (if b then ((s.asClass op.ctx).reachRecord op.loc.unit op.loc).reachQueue op.loc.unit q
      else (s.asClass op.ctx).reachRecord op.loc.unit op.loc).Canon :=
    .ite h.asClass.reachRecord.reachQueue h.asClass.reachRecord
  unfold State.depApply
  refine .ite (machineCheck hs) (.ite (reportRecord hs) ?_)
  dsimp only
  split
  · exact .ite (reportRecord hs) (.ite (putRecord hs) (putRecord hs))
  · exact .ite (reportRecord hs) (putRecord hs)
  · exact .ite (reportRecord hs) (.ite hs hs)

theorem depUpdate (h : s.Canon) : Gives Canon (s.depUpdate n) := by
  unfold State.depUpdate
  split
  · exact .none
  · exact .ite .none (.some (depApply h))

theorem enlist (h : s.Canon) : (s.enlist r t q).Canon := h.modDie fun _ hk => .ite hk hk

theorem rejects {f : State → State} (h : s.Canon) (hf : State.rejects r p x q = some f) : (f s).Canon := by
  unfold State.rejects at hf
  split at hf
  · exact Option.some.inj hf ▸ h.reportDist
  · split at hf
    · exact Option.some.inj hf ▸ h.reportDist
    · cases hf

theorem taskReady (h : s.Canon) : Gives Canon (s.taskReady n) := by
  unfold State.taskReady
  split
  · exact .none
  · refine .ite .none (.ite (.some (.reachQueue (.reachRecord (asClass h)))) ?_)
    split
    case h_1 rep he => exact .some (rejects (.putProgress (.reachQueue (.reachRecord (asClass h)))) he)
    case h_2 => exact .some (.enlist (.putLink (.putProgress (.reachQueue (.reachRecord (asClass h))))))

theorem passLogged (h : s.Canon) : (s.passLogged ctx d types).Canon := h.modCtx

theorem submitEntry (h : s.Canon) : Gives Canon (s.submitEntry q entryAt entry) := by
  refine .ite (.some h.reportDist) ?_
  split
  · exact .some h.machineCheck
  · exact .some h.reportDist
  · exact .none
  case h_4 s' m he =>
    have hs : s'.Canon := h.translateResident (s', m) he
    exact .ite .none <| .ite (.some hs.reachRecord.machineCheck) <| .ite (.some (reachRecord hs)) (.some hs.reachRecord)

theorem consumeEntry (h : s.Canon) : Gives Canon (s.consumeEntry q x) :=
  .ite .none <| .ite (.ite .none (.some h.reachHome.diverge)) <|
    .map (submitEntry (.ite h.reachHome.logEvent.passLogged h.reachHome.logEvent)) fun _ hr => hr.putQueue

theorem queueConsume (h : s.Canon) : Gives Canon (s.queueConsume d q) :=
  .ite .none <| .ite (.ite .none (.some (.reportDist (h.reachQueue.modDie fun _ hk => hk)))) <| .ite .none <|
    .ite (.consumeEntry (h.reachQueue.modDie fun _ hk => hk))
      (.some (.modDie (.putIdle (h.reachQueue.modDie fun _ hk => hk)) fun _ hk => hk))

theorem idleRecheck (h : s.Canon) : Gives Canon (s.idleRecheck d q) := by
  have hs : ((s.modDie d fun k => { k with queueStop := removeAt q k.queueStop }).reachQueue d q).Canon :=
    .reachQueue (h.modDie fun _ hk => hk)
  unfold State.idleRecheck
  split
  · exact .none
  · exact .ite .none (.some (.ite hs.putIdle hs))

theorem queueDoorbell (h : s.Canon) : Gives Canon (s.queueDoorbell w) :=
  .ite .none (.some (.ite (h.reachQueue.putIdle.modDie fun _ hk => hk) h.reachQueue))

/-! ### Completion of a task and its successors (R35, R37, R39) -/

theorem completeTask (h : s.Canon) : (s.completeTask p c).Canon := by
  unfold State.completeTask
  dsimp only
  split
  · exact h
  case h_2 k _ =>
    have hs : (if k.hold then (s.putState p 3).dropLrc (c / 64) k.ctx 1 else s.putState p 3).Canon :=
      .ite h.putState.dropLrc h.putState
    exact hs

theorem checkTask (h : s.Canon) : (s.checkTask p c).Canon := .ite h.completeTask h

theorem succTarget (h : s.Canon) : Ends FstCanon (s.succTarget w e) :=
  .ite (.check fun _ => .step h.translateResident fun _ _ hs => .pure hs)
    (.step h.translateResident fun _ _ hs => .pure hs)

theorem reportSucc (h : s.Canon) : (s.reportSucc x va index).Canon := h.reportDist

theorem succOne (h : s.Canon) : Gives Canon (s.succOne x w n e) := by
  unfold State.succOne
  split
  · exact .ite .none (.some h.reportSucc)
  case h_2 s' p he =>
    have hs : s'.Canon := h.succTarget (s', p) he
    exact .ite .none (.some hs.depApply)

theorem succEach (h : s.Canon) : Gives Canon (s.succEach x w n es) := by
  induction es generalizing s n with
  | nil => exact .some h
  | cons e rest ih =>
    unfold State.succEach
    split
    · exact .none
    case h_2 s' he => exact ih (h.succOne s' he)

theorem succWords (h : s.Canon) : Ends FstCanon (s.succWords w n k va) := by
  induction n generalizing s k va with
  | zero => exact .ok h
  | succ n ih =>
    unfold State.succWords
    split
    · exact .error
    case h_2 s' m he =>
      have hs : s'.Canon := h.translateResident (s', m) he
      refine .ite .error (.ite .error ?_)
      dsimp only
      split
      · exact .error
      case h_2 s2 l h2 => exact .ok (ih hs.reachHome (s2, l) h2 : s2.Canon)

theorem succRun (h : s.Canon) : Gives Canon (s.succRun x) := by
  refine .ite (.some h.asClass) ?_
  split
  · exact .none
  · exact .some h.asClass.reportSucc
  case h_3 s1 l1 h1 =>
    have hs : s1.Canon := h.asClass.succWords (s1, l1) h1
    refine .ite (.some hs.reportSucc) ?_
    split
    · exact .none
    · exact .some hs.reportSucc
    case h_3 s2 l2 h2 =>
      have hs : s2.Canon := hs.succWords (s2, l2) h2
      exact hs.succEach

theorem successor (h : s.Canon) : Gives Canon (s.successor n) := by
  unfold State.successor
  split
  · exact .none
  · exact .ite .none (succRun h)

/-! ### TEAM_EXITED (R38) -/

theorem returnSlot (h : s.Canon) : (s.returnSlot t).Canon := h.putTeam.fireWaits.modDie fun _ hk => hk

theorem returnScratch (h : s.Canon) : (s.returnScratch t).Canon := h.modTeam.modDie fun _ hk => hk

theorem removeTeam (h : s.Canon) : (s.removeTeam t).Canon := .ite h (.checkTask (.putRecord (.reachRecord (asClass h))))

theorem teamExited (h : s.Canon) : Gives Canon (s.teamExited n) := by
  unfold State.teamExited
  split
  · exact .none
  · refine .ite .none (.some ?_)
    have h1 {b : Bool} {t : Team} : (if b then s.returnScratch t else s).Canon := .ite h.returnScratch h
    have h2 {r : State} (hr : r.Canon) {b : Bool} {t : Team} : (if b then r.returnSlot t else r).Canon :=
      .ite hr.returnSlot hr
    exact .ite (removeTeam (h2 h1)) (h2 h1)

end State.Canon

end Sys2Proof.Machine
end

section
/-! SUPPORT for O54. The transform pipe, save frames, the distributor and the traversal of rays. -/

namespace Sys2Proof.Machine

namespace State.Canon

variable {s : State}

/-! ### The transform pipe (R252 to R261, R380) -/

theorem queueXf (h : s.Canon) : (s.queueXf t o).Canon := h.modCore fun _ hk => hk

theorem enterPipe (h : s.Canon) : (s.enterPipe t o n).Canon := .ite h.queueXf h.queueXf.putTeam

theorem transformForm (h : s.Canon) : LeavesCanon (transformForm i k etypes d a b c s) :=
  h.issue fun _ => .check fun _ => .check fun _ => .ite .raise <| by
    split
    · exact .error
    · exact .pure h.enterPipe

theorem fireBanks (h : s.Canon) : (s.fireBanks c).Canon := h.fireWaits

theorem xfStart (h : s.Canon) : Gives Canon (s.xfStart c) := by
  unfold State.xfStart
  split
  · exact .none
  · split
    · exact .none
    · exact .ite .none <| .ite (.some h.machineCheck) <| .some <| .released <| h.modCore fun _ hk => hk

end State.Canon

theorem Core.Canon.setBank {k : Core} (h : k.Canon) {m : Memory} (hm : m.wf = true) : (k.setBank b m).Canon := by
  unfold Core.setBank
  split
  · exact Core.canon_iff.2 ⟨h.scratch, h.bank0, hm, h.l1, h.replies⟩
  · exact Core.canon_iff.2 ⟨h.scratch, hm, h.bank1, h.l1, h.replies⟩

namespace State.Canon

variable {s : State}

theorem xfWrite (h : s.Canon) : (s.xfWrite t o).Canon := by
  have hs {p : Prop} [Decidable p] : (if p then { s with free := s.free + 8192 } else s).Canon := .ite h h
  unfold State.xfWrite
  dsimp only
  split
  · exact putTeam hs
  · split
    · exact putTeam hs
    · exact takeStop hs

theorem xfComplete (h : s.Canon) : Gives Canon (s.xfComplete c) := by
  unfold State.xfComplete
  split
  · exact .none
  case h_2 before o rest _ =>
    have hs : (s.modCore c fun k => { k with xfs := before ++ rest }).Canon := h.modCore fun _ hk => hk
    split
    · exact .none
    · refine .ite .none (.some (.released ?_))
      dsimp only
      split
      · exact hs.modCore fun _ hk => hk.setBank (Memory.wf_setBytes (m := []) _ _ rfl)
      · exact hs.putTeam.fireBanks
      · exact hs.xfWrite

/-! ### Save frames (R51 to R53, R361, R362) -/

theorem mapBit (h : s.Canon) : Ends Canon (s.mapBit w save f v) := by
  refine .step h.translateResident fun _ _ hs => .ite (.check fun _ => ?_) ?_ <;>
    exact .ite (.check fun _ => hs.reachHome.ctxWrite) hs.reachHome.ctxWrite

theorem writeParts (h : s.Canon) : Ends Canon (s.writeParts w base l) := by
  induction l generalizing s with
  | nil => exact .ok h
  | cons p rest ih => exact .bind h.ctxWrite fun _ hs => ih hs

theorem frameWords (h : s.Canon) : Ends FstCanon (s.frameWords w n va) := by
  induction n generalizing s va with
  | zero => exact .ok h
  | succ n ih =>
    exact .step h.translateResident fun _ _ hs => .ite .error <| .ite .error <|
      .step (ih hs.reachHome) fun _ _ hs => .pure hs

theorem leave (h : s.Canon) : (s.leave t f).Canon :=
  .setNextUid <| .modDie (.putTeam (h.modCore fun _ hk => hk)) fun _ hk => hk

theorem saveTeam (h : s.Canon) : Ends Canon (s.saveTeam t f) := by
  unfold State.saveTeam
  split
  · exact .error
  · exact .ite .error <| .bind h.asClass.takeFree.mapBit fun _ hs => .bind hs.writeParts fun _ hs => .pure hs.leave

theorem reportNoFrame (h : s.Canon) : (s.reportNoFrame c ctx addr).Canon := h.reportLimited

theorem notSaved (h : s.Canon) : Gives Canon (s.notSaved t e) := by
  unfold State.notSaved
  split
  · exact .none
  · exact .none
  · exact .some h.takeStop
  · exact .some h.putTeam.reportNoFrame

theorem teamPreempted (h : s.Canon) : Gives Canon (s.teamPreempted n) := by
  unfold State.teamPreempted
  split
  · exact .none
  · refine .ite .none ?_
    split
    · exact .some h.putTeam.reportNoFrame
    · split
      case h_1 s' he => exact .some (h.saveTeam s' he)
      case h_2 => exact h.notSaved

theorem readImages (h : s.Canon) : Ends FstCanon (s.readImages w base e n k) := by
  induction n generalizing s k with
  | zero => exact .ok h
  | succ n ih =>
    exact .step h.frameWords fun _ _ hs => .ite .error <| .step hs.frameWords fun _ _ hs => .ite .error <|
      .step (ih hs) fun _ _ hs => .pure hs

theorem readTiles (h : s.Canon) : Ends FstCanon (s.readTiles w base l) := by
  induction l generalizing s with
  | nil => exact .ok h
  | cons k rest ih => exact .step h.frameWords fun _ _ hs => .step (ih hs) fun _ _ hs => .pure hs

theorem readStack (h : s.Canon) : Ends FstCanon (s.readStack w base n k) := by
  induction n generalizing s k with
  | zero => exact .ok h
  | succ n ih => exact .step h.frameWords fun _ _ hs => .step (ih hs) fun _ _ hs => .pure hs

theorem stepMatches (h : s.Canon) : Ends FstCanon (s.stepMatches w base check n) :=
  .step h.frameWords fun _ _ hs => .pure hs

theorem readFrame (h : s.Canon) : Ends FstCanon (s.readFrame t base) := by
  refine .step h.frameWords fun _ _ hs => .step hs.frameWords fun _ _ hs => .step hs.frameWords fun _ _ hs =>
    .step hs.frameWords fun _ _ hs => .step hs.frameWords fun _ _ hs => .step hs.frameWords fun _ _ hs =>
    .step hs.frameWords fun _ _ hs => .step hs.readStack fun _ _ hs => .step hs.readTiles fun _ _ hs =>
    .step hs.readImages fun _ _ hs => ?_
  refine .ite (.step hs.stepMatches ?_) (.step (.ok hs) ?_) <;>
    exact fun _ _ hs => .ite (.check fun _ => .pure hs) (.pure hs)

theorem rejoin (h : s.Canon) : (s.rejoin t sched slot).Canon :=
  .fireWaits <| .setNextUid <| .putTeam <| h.modCore fun _ hk => hk

theorem restore (h : s.Canon) : Gives Canon (s.restore t sched slot) := by
  unfold State.restore
  split
  case h_1 c f _ _ =>
    dsimp only
    split
    · exact .some h.asClass.takeStop
    · exact .none
    case h_3 s1 t1 h1 =>
      have hs : s1.Canon := h.asClass.readFrame (s1, t1) h1
      split
      case h_1 s2 h2 => exact .some (hs.rejoin.mapBit s2 h2)
      case h_2 => exact .some hs.takeStop
      case h_3 => exact .none
  case h_2 => exact .none

/-! ### The distributor (R37 to R41, R47, R53, R294, R316 to R321) -/

theorem skipStale (h : s.Canon) : (s.skipStale ctx d).Canon := h.modCtx

theorem wakeCore (h : s.Canon) : (s.wakeCore c).Canon := h.modCore fun k hk => by
  split <;> exact hk

theorem noteRun (h : s.Canon) : s.noteRun.Canon := h

theorem arrived_ (h : s.Canon) : (s.arrived_ ctx d entry c).Canon :=
  .noteRun <| .wakeCore <| .ite h.logEvent.passLogged h.logEvent

theorem arrivedBack (h : s.Canon) : (s.arrivedBack t p).Canon := .ite h.arrived_ h

theorem startTask (h : s.Canon) : (s.startTask d t l).Canon := by
  have hs : ((s.asClass t.ctx).reachRecord d t.loc).Canon := h.asClass.reachRecord
  exact .foldl (.ite hs.putProgress hs.putProgress) fun _ _ hr => .arrived_ hr

theorem startWave (h : s.Canon) : (s.startWave d w p).Canon :=
  .arrived_ <| .modDie (.foldl h fun _ _ hr => hr.modRay) fun _ hk => hk

end State.Canon

theorem Die.Canon.newHeads {old k : Die} (h : k.Canon) : (old.newHeads k).Canon := h

theorem Die.Canon.endHold {k : Die} (h : k.Canon) : (k.endHold c).Canon := by
  unfold Die.endHold
  split
  · exact .ite h h
  · exact h

namespace State.Canon

variable {s : State}

theorem dropStarted (h : s.Canon) : (s.dropStarted d t).Canon := .ite h <| h.modDie fun _ hk => hk

theorem startOffer (h : s.Canon) : Gives Canon (s.startOffer d o l) := by
  unfold State.startOffer
  dsimp only
  split
  · split
    · exact .none
    · exact .map h.skipStale.restore fun _ hr => hr.arrivedBack
  · exact .map .any fun _ _ => h.skipStale.startWave
  · split
    · exact .none
    · exact .ite .none (.some (h.skipStale.startTask.dropStarted.modDie fun _ hk => hk))
  · split
    · exact .none
    · exact .ite .none (.some (h.skipStale.startTask.dropStarted.modDie fun _ hk => hk))
  · exact .none

theorem noteFit (h : s.Canon) : (s.noteFit d o).Canon := h.foldl fun _ _ hr => hr.modCore fun _ hk => hk

theorem startFirst (h : s.Canon) : Gives FstCanon (s.startFirst d os) := by
  induction os with
  | nil => exact .none
  | cons o rest ih =>
    unfold State.startFirst
    split
    case h_1 s' he => exact .some (Gives.bind (P := fun _ => True) .any (fun _ _ => h.noteFit.startOffer) s' he)
    case h_2 => exact ih

theorem attempt (h : s.Canon) : Gives Canon (s.attempt d) := by
  refine .ite .none ?_
  have hs : ∀ c, (s.modDie d fun k => { k.endHold c with attemptAt := s.baseCycles + 1 }).Canon :=
    fun _ => h.modDie fun _ hk => hk.endHold
  dsimp only
  split
  · exact .some ((hs _).modDie fun _ hk => hk)
  · split
    · exact .some ((hs _).modDie fun _ hk => hk)
    case h_2 s' o he =>
      have hs : s'.Canon := (hs _).startFirst (s', o) he
      exact .ite (.some (hs.modDie fun _ hk => hk)) (.some (hs.modDie fun _ hk => hk))

/-! ### Reading at a home, and treelets (R177, R298, R299, R415) -/

theorem readLine (h : s.Canon) : Ends Canon (s.readLine w who p) := .ite .error <| .ite .error <| .ok h.homeRead

theorem sceneMap (h : s.Canon) : Ends FstCanon (s.sceneMap w va) := by
  unfold State.sceneMap
  split
  case h_1 s' m he => exact .ok (h.translateResident (s', m) he : s'.Canon)
  case h_2 => exact .error
  case h_3 => exact .error
  case h_4 => exact .error

/-- Lines read one after another, as one record's or one node's are. -/
theorem foldlM {α ε : Type} {f : State → α → Except ε State} {l : List α} (h : s.Canon)
    (hf : ∀ r x, r.Canon → Ends Canon (f r x)) : Ends Canon (l.foldlM f s) := by
  induction l generalizing s with
  | nil => exact .pure h
  | cons x rest ih => exact .bind (hf s x h) fun _ hr => ih hr

theorem sceneRead (h : s.Canon) : Ends FstCanon (s.sceneRead w va n) :=
  .step h.sceneMap fun _ _ hs => .bind (hs.foldlM fun _ _ hr => hr.readLine) fun _ hs => .pure hs

theorem sceneOf (h : s.Canon) : Ends FstCanon (s.sceneOf w) := .ite (.ok h) (.step h.sceneRead fun _ _ hs => .pure hs)

theorem modLoop (h : s.Canon) : (s.modLoop d slice f).Canon := h.modDie fun _ hk => hk

end State.Canon

theorem mem_of_mem_eraseFirst {α : Type} {p : α → Bool} {l : List α} {x : α} (h : x ∈ eraseFirst p l) :
    x ∈ l := by
  induction l with
  | nil => exact h
  | cons y rest ih =>
    rw [eraseFirst] at h
    split at h
    · exact List.mem_cons_of_mem _ h
    · exact (List.mem_cons.1 h).elim (fun h => h ▸ List.mem_cons_self) fun h => List.mem_cons_of_mem _ (ih h)

theorem mem_of_mem_eraseLast {α : Type} {p : α → Bool} {l : List α} {x : α} (h : x ∈ eraseLast p l) : x ∈ l :=
  List.mem_reverse.1 (mem_of_mem_eraseFirst (List.mem_reverse.1 h))

namespace State.Canon

variable {s : State}

theorem touchTreelet (h : s.Canon) : (s.touchTreelet d ctx base).Canon := by
  have hothers : ∀ t ∈ (s.die d).treelets.filter (fun t => t.base != base), t.data.wf = true :=
    fun t ht => (h.die d).treelets t (List.mem_of_mem_filter ht)
  unfold State.touchTreelet
  dsimp only
  split
  case h_1 t ht =>
    exact h.modDie fun _ hk => hk.setTreelets <|
      List.forall_mem_cons.2 ⟨(h.die d).treelets t (List.mem_of_find?_eq_some ht), hothers⟩
  case h_2 =>
    refine h.modDie fun _ hk => hk.setTreelets <| List.forall_mem_cons.2 ⟨rfl, fun t ht => ?_⟩
    split at ht
    · exact hothers t (mem_of_mem_eraseLast ht)
    · exact hothers t ht

theorem countTreelet (h : s.Canon) : (s.countTreelet d base miss).Canon := h.modLoop

theorem landLine (h : s.Canon) : (s.landLine d line).Canon := by
  unfold State.landLine
  -- with the numeral in place the copy would be unrolled
  generalize 128 = n
  refine h.modDie fun k hk => hk.setTreelets ?_
  exact forall_mem_mapWhere hk.treelets fun t ht => Memory.wf_copyRange _ _ _ ht

theorem treeletLine (h : s.Canon) : Ends Canon (s.treeletLine w p) :=
  .ite (.bind h.readLine fun _ hs => .pure hs.landLine) (.ite .error (.ok h))

theorem bvhRead (h : s.Canon) : Ends FstCanon (s.bvhRead w va n) :=
  .step h.sceneMap fun _ _ hs => .ite
    (.bind (hs.foldlM fun _ _ hr => hr.readLine) fun _ hs => .pure hs)
    (.bind (hs.touchTreelet.countTreelet.foldlM fun _ _ hr => hr.treeletLine) fun _ hs => .pure hs)

end State.Canon

/-! ### The walk (R300) -/

/-- The state that a walk has reached is canonical. -/
def Walk.Canon (k : Walk) : Prop := k.s.Canon

/-- A walk with a further answer is canonical. -/
def WalkCanon {α : Type} (p : Walk × α) : Prop := p.1.Canon

namespace Walk.Canon

variable {k : Walk}

theorem node (h : k.Canon) : Ends Walk.Canon (k.node env off) :=
  .step (State.Canon.bvhRead h) fun _ ⟨_, _⟩ hs => .ite .error (.pure hs)

theorem triangle (h : k.Canon) : Ends WalkCanon (k.triangle env va) := by
  refine .step (State.Canon.bvhRead h) fun s ⟨p, v⟩ hs => ?_
  have hk {b : Bool} {f : Die → Die} (hf : ∀ k : Die, k.Canon → (f k).Canon) :
      (if b then { k with s := s } else { k with s := s.modDie env.w.die f, leaf := true } : Walk).Canon := by
    split
    · exact hs
    · exact hs.modDie hf
  dsimp only
  split
  · exact .pure (hk fun _ hd => hd)
  · exact .ite (.pure (hk fun _ hd => hd)) (.pure (hk fun _ hd => hd))

theorem leafTests (h : k.Canon) : Ends WalkCanon (Walk.leafTests env k offs) := by
  induction offs generalizing k with
  | nil => exact .ok h
  | cons off rest ih =>
    exact .bind h.triangle fun ⟨_, _⟩ hk => .ite (.pure hk) (ih hk)

theorem run (h : k.Canon) : Ends Walk.Canon (Walk.run env n k) := by
  induction n generalizing k with
  | zero => exact .ite (.ok h) .error
  | succ n ih =>
    unfold Walk.run
    split
    · exact .ok h
    · exact .ite .error <| .ite (.bind (node h) fun _ hk => ih hk) <|
        .bind (leafTests h) fun ⟨_, _⟩ hk => .ite (.pure hk) (ih hk)

end Walk.Canon

theorem State.Canon.traverse {s : State} (h : s.Canon) : Ends FstCanon (s.traverse w r) := by
  refine .ite (.ok h) (.step h.sceneOf fun s sc hs => ?_)
  dsimp only
  split
  · exact .pure hs
  · exact .bind (Walk.Canon.run hs) fun _ hk => .pure hk

end Sys2Proof.Machine
end

section
/-! SUPPORT for O54. Rays and their bins, donation and stealing, and a team's write of a control register. -/

namespace Sys2Proof.Machine

namespace State.Canon

variable {s : State}

/-! ### Lost rays, shader entries, batches and waves (R290 to R293) -/

theorem reportRay (h : s.Canon) : (s.reportRay c ctx code addr info).Canon := h.reportLimited

theorem leaveBatch (h : s.Canon) : (s.leaveBatch d n).Canon := h.mapCores fun _ hp => by
  split <;> exact hp

theorem loseRay (h : s.Canon) : (s.loseRay d n).Canon := h.leaveBatch.freeRay.testPool

theorem noShader (h : s.Canon) : (s.noShader d ctx key n x).Canon := h.reportLimited.loseRay

theorem shader (h : s.Canon) : Ends FstCanon (s.shader d ctx n) := by
  unfold State.shader
  split
  · exact .ok h
  · exact .ite (.ok h) (.bind h.readLine fun _ hs => .pure hs)

theorem takeFromBin (h : s.Canon) : (s.takeFromBin d b taken).Canon := h.modDie fun _ hk => hk

theorem formBatch (h : s.Canon) : Gives Canon (s.formBatch d b) :=
  .map .any fun _ _ => .modCore (.wakeCore (.takeFromBin (h.foldl fun _ _ hr => hr.modRay))) fun _ hk => hk

theorem queueWave (h : s.Canon) : (s.queueWave d b x n rays byAge).Canon :=
  .logEvent <| .modDie (.modLoop (.takeFromBin (h.foldl fun _ _ hr => hr.modRay))) fun _ hk => hk

theorem formWave (h : s.Canon) : Gives Canon (s.formWave d b x) := by
  unfold State.formWave
  dsimp only
  split
  · exact .some (h.takeFromBin.foldl fun _ _ hr => hr.noShader)
  · exact .ite .none <| .ite (.map .any fun _ _ => h.queueWave.passLogged) <|
      .some (.queueWave (h.modDie fun _ hk => hk))

/-! ### Bins (R289 to R292) -/

theorem emptyBin (h : s.Canon) : Gives Canon (State.emptyBin d old n s) := by
  induction n generalizing s with
  | zero => exact .some h
  | succ n ih =>
    unfold State.emptyBin
    dsimp only
    split
    · exact .some h
    case h_2 b _ =>
      refine .bind (P := Canon) (.ite ?_ h.formBatch) fun _ hr => ih hr
      split
      case h_1 s' x he => exact formWave (h.asClass.shader (s', x) he)
      case h_2 => exact .none

theorem freeBin (h : s.Canon) : Gives Canon (s.freeBin d slice) := by
  refine .ite (.some h) ?_
  split
  · exact .some h
  · exact h.emptyBin

theorem joinBin (h : s.Canon) : Gives Canon (s.joinBin d r key) :=
  .ite (.some (.modRay (.leaveBatch (h.modDie fun _ hk => hk))))
    (.map h.freeBin fun _ hr => .modRay (.leaveBatch (hr.modDie fun _ hk => hk)))

theorem prefetch (h : s.Canon) : (s.prefetch d b).Canon := by
  have hs : (s.modDie d fun k => { k with
      skBins := mapWhere b.same (fun (x : SkBin) => { x with prefetched := true }) k.skBins }).Canon :=
    h.modDie fun _ hk => hk
  refine .ite h ?_
  split
  · exact hs
  · exact .ite hs hs.touchTreelet

/-- A step that is taken where it can be leaves a canonical state, and so does not taking it. -/
theorem getD {o : Option State} (h : s.Canon) (ho : Gives Canon o) : (o.getD s).Canon := by
  cases o with
  | none => exact h
  | some r => exact ho r rfl

theorem afterEntry (h : s.Canon) : (s.afterEntry d key ctx x).Canon := by
  unfold State.afterEntry
  dsimp only
  split
  · exact h
  · split
    · exact h.prefetch
    · split
      · split
        · exact .ite (h.prefetch.getD h.prefetch.formWave) h.prefetch
        · exact h.prefetch
      · exact .ite (h.prefetch.getD h.prefetch.formBatch) h.prefetch

theorem enterKeyed (h : s.Canon) : Gives Canon (s.enterKeyed d r sc x) := by
  unfold State.enterKeyed
  dsimp only
  split
  · exact .map h.joinBin fun _ hr => hr.afterEntry
  · split
    case h_1 => exact .some h.machineCheck
    case h_2 => exact .none
    case h_3 s' he =>
      have hs : s'.Canon := h.shader (s', none) he
      exact .some hs.noShader
    case h_4 s' y he =>
      have hs : s'.Canon := h.shader (s', some y) he
      exact .map hs.joinBin fun _ hr => hr.afterEntry

theorem enterBin (h : s.Canon) : Gives Canon (s.enterBin d r) := by
  unfold State.enterBin
  split
  · refine .ite .none ?_
    split
    case h_1 s' sc he =>
      have hs : s'.Canon := h.asClass.sceneOf (s', sc) he
      exact hs.enterKeyed
    case h_2 => exact .some h.takeFree.reportRay.loseRay
    case h_3 => exact .some h.machineCheck
    case h_4 => exact .none
  · exact .none

theorem rayEnters (h : s.Canon) : Gives Canon (s.rayEnters d n) :=
  .bind (P := fun _ => True) .any fun r _ => .map h.enterBin fun s' hs => by
    split
    · exact hs.released
    · exact hs

theorem traversalBinAge (h : s.Canon) : Gives Canon (s.traversalBinAge d slice) :=
  .bind (P := fun _ => True) .any fun _ _ => h.formBatch

theorem shaderBinAge (h : s.Canon) : Gives Canon (s.shaderBinAge d slice) := by
  unfold State.shaderBinAge
  split
  · exact .none
  · split
    case h_1 s' x he =>
      have hs : s'.Canon := h.asClass.shader (s', x) he
      exact hs.formWave
    case h_2 => exact .none

/-! ### Traversal steps (R298 to R301) -/

theorem stepRay (h : s.Canon) : Gives Canon (s.stepRay c r) := by
  unfold State.stepRay
  dsimp only
  split
  case h_1 s' hit he =>
    have hs : s'.Canon := h.asClass.traverse (s', hit) he
    exact .some hs.modRay
  case h_2 => exact .some h.reportRay.loseRay
  case h_3 => exact .some h.machineCheck
  case h_4 => exact .none

theorem stepBatch (h : s.Canon) : Gives Canon (State.stepBatch c s l moved) := by
  induction l generalizing s moved with
  | nil => exact .ite (.some h) .none
  | cons r rest ih =>
    unfold State.stepBatch
    refine .ite (.ite (.some h) .none) ?_
    split
    case h_1 s' he => exact ih (h.stepRay s' he)
    case h_2 => exact ih h

theorem traversalStep (h : s.Canon) : Gives Canon (s.traversalStep c) := by
  unfold State.traversalStep
  dsimp only
  split
  · exact .none
  · exact .ite .none h.stepBatch

theorem treeletArrival (h : s.Canon) : Gives Canon (s.treeletArrival d line) := by
  unfold State.treeletArrival
  split
  · exact .none
  · dsimp only
    split
    case h_1 s' he =>
      have hs : s'.Canon := h.asClass.readLine s' he
      exact .some hs.landLine
    case h_2 => exact .ite (.some h.machineCheck) .none
    case h_3 => exact .none

theorem traversalResult (h : s.Canon) : Gives Canon (s.traversalResult d n) := by
  unfold State.traversalResult
  split
  · exact .none
  · split
    · exact .ite .none <| .ite (.some h.loseRay) (.some h.modRay)
    · exact .none

/-! ### The DONE decrement and pressure on the pool (R287, R412, R414) -/

theorem paidDone (h : s.Canon) : (s.paidDone n).Canon := h.modCtx

theorem reportDone (h : s.Canon) : (s.reportDone d n va).Canon := h.paidDone.reportDist

theorem sendDone (h : s.Canon) : Gives Canon (s.sendDone d n done) := by
  refine .ite (.some h.paidDone) (.ite (.some h.reportDone) ?_)
  split
  case h_1 => exact .some h.reportDone
  case h_2 => exact .some h.machineCheck
  case h_3 => exact .none
  case h_4 s' p he =>
    have hs : s'.Canon := h.sceneMap (s', p) he
    exact .ite .none (.some hs.takeFree.paidDone.depApply)

theorem doneDecrement (h : s.Canon) : Gives Canon (s.doneDecrement n) := by
  unfold State.doneDecrement
  split
  · exact .none
  · split
    · exact .none
    · refine .ite .none ?_
      split
      case h_1 s' he =>
        have hs : s'.Canon := h.asClass.sceneOf (s', none) he
        exact .some hs.paidDone
      case h_2 s' sc he =>
        have hs : s'.Canon := h.asClass.sceneOf (s', some sc) he
        exact hs.sendDone
      case h_3 => exact .some h.reportDone
      case h_4 => exact .some h.machineCheck
      case h_5 => exact .none

theorem poolPressure (h : s.Canon) : Gives Canon (s.poolPressure d slice) := .ite .none (.some h.modLoop.report)

/-! ### Pre-emption for a candidate, donated slots (R55, R321, R349) -/

theorem askOut (h : s.Canon) : (s.askOut need addr out l).Canon := by
  induction l generalizing s out with
  | nil => exact h
  | cons t rest ih =>
    unfold State.askOut
    refine .ite h (.ite (ih h) ?_)
    split
    · exact h.reportNoFrame
    · exact ih h.modTeam

theorem preemptFor (h : s.Canon) : Gives Canon (s.preemptFor d) := by
  unfold State.preemptFor
  split
  · refine .ite .none (.map .any fun cs _ => ?_)
    have hs {f : Die → Die} {g : State → Nat → State} (hf : ∀ k : Die, k.Canon → (f k).Canon)
        (hg : ∀ r x, r.Canon → (g r x).Canon) :
        (cs.foldl g ((s.modDie d fun k => { k with hold := none }).modDie d f)).Canon :=
      .foldl (.modDie (h.modDie fun _ hk => hk) hf) hg
    exact .ite (hs (fun _ hk => hk) fun _ _ hr => hr.askOut)
      (.modDie (hs (fun _ hk => hk) fun _ _ hr => hr.askOut) fun _ hk => hk)
  · exact .none

theorem displace (h : s.Canon) : Ends (Gives Canon) (s.displace p need l) := by
  induction l generalizing s with
  | nil => exact .ok (.some h)
  | cons t rest ih =>
    unfold State.displace
    refine .ite (.ok (.some h)) (.ite (ih h) ?_)
    split
    · exact .ok .none
    · split
      · exact .error
      case h_2 s' he => exact ih (modTeam (h.saveTeam s' he))

theorem restoreHere (h : s.Canon) : Gives Canon (s.restoreHere t) :=
  .bind (P := fun _ => True) .any fun _ _ => .map h.skipStale.restore fun _ hr => hr.arrivedBack

theorem unsavedDonation (h : s.Canon) : Gives Canon (s.unsavedDonation c p e) := by
  unfold State.unsavedDonation
  split
  · exact .none
  · exact .none
  · exact .some h.takeStop
  · exact .some h.reportNoFrame

theorem donationStart (h : s.Canon) : Gives Canon (s.donationStart c ctx) := by
  refine .ite .none ?_
  split
  · exact .none
  · dsimp only
    split
    case h_1 => exact h.unsavedDonation
    case h_2 => exact .some h.reportNoFrame
    case h_3 s' he =>
      have hs : s'.Canon := h.displace _ he s' rfl
      exact .map hs.restoreHere fun _ hr => hr.modTeam

theorem undisplace (h : s.Canon) : (s.undisplace n).Canon :=
  foldl h fun _ _ hr => .ite (hr.getD hr.restoreHere) hr

theorem donationEnd (h : s.Canon) : Gives Canon (s.donationEnd n) := by
  unfold State.donationEnd
  split
  · exact .ite (.some h.undisplace) .none
  · refine .ite .none (.ite (.some h.putTeam.undisplace) (.ite .none ?_))
    dsimp only
    split
    · exact .some h.putTeam.reportNoFrame.undisplace
    · split
      case h_1 s' he =>
        have hs : s'.Canon := h.putTeam.saveTeam s' he
        exact .some hs.undisplace
      case h_2 => exact .map h.putTeam.unsavedDonation fun _ hr => hr.undisplace

/-! ### Stealing and wakes (R44, R45, R323, R416) -/

theorem stealRequest (h : s.Canon) : Gives Canon (s.stealRequest c) :=
  .ite .none <| .map .any fun _ _ => h.modCore fun _ hk => hk

theorem stealClaim (h : s.Canon) : Gives Canon (s.stealClaim c) := by
  unfold State.stealClaim
  dsimp only
  split
  · exact .none
  · refine .ite .none (.ite (.some (h.modCore fun _ hk => hk)) ?_)
    split
    · exact .some (h.modCore fun _ hk => hk)
    case h_2 t r _ =>
      have hs : ((s.asClass t.ctx).reachRecord (c / 64) t.loc).Canon := h.asClass.reachRecord
      have ht {p : Prop} [Decidable p] {l : List TaskState} {x y z : Nat} :
          (if p then ((s.asClass t.ctx).reachRecord (c / 64) t.loc).putProgress t.loc x y z
            else { ((s.asClass t.ctx).reachRecord (c / 64) t.loc).putProgress t.loc x y z with tasks := l }).Canon :=
        .ite hs.putProgress hs.putProgress
      exact .ite .none <| .some <| .modCore (.dropStarted (.logEvent ht)) fun _ hk => hk

theorem startClaimed (h : s.Canon) : (s.startClaimed c p va ctx teamid keep).Canon := by
  unfold State.startClaimed
  dsimp only
  split
  · exact h
  · exact .ite h (.noteRun (.wakeCore h))

theorem stealReply (h : s.Canon) : Gives Canon (s.stealReply c) := by
  unfold State.stealReply
  dsimp only
  split
  · exact .none
  · refine .ite .none ?_
    split
    · exact .some (.modCore (h.startClaimed.modCore fun _ hk => hk) fun _ hk => hk)
    · exact .ite (.some (h.modCore fun _ hk => hk)) (.some (h.modCore fun _ hk => hk))

theorem teamWake (h : s.Canon) : Gives Canon (s.teamWake n) := by
  unfold State.teamWake
  split
  · exact .none
  · split
    · exact .ite .none (.some h.putTeam)
    · exact .none

theorem writeCsr (h : s.Canon) : (s.writeCsr t num v).Canon :=
  .ite (.ite h.putTeam h.putTeam) <| .ite (.ite h.putTeam.writeCtx h.putTeam) <|
    .ite h.putTeam.writeDie h.putTeam

end State.Canon

end Sys2Proof.Machine
end

section
/-! SUPPORT for O54. Timing, the links, page migration and the host's side. -/

namespace Sys2Proof.Machine

namespace State.Canon

variable {s : State}

/-! ### Power states, control loops, monitors and the noise source (R161, R318, R335 to R337, R429) -/

theorem alarm (h : s.Canon) : (s.alarm d code sl unit).Canon := h.reportLimited

theorem intervalClose (h : s.Canon) : Gives Canon (s.intervalClose d n) := by
  unfold State.intervalClose
  dsimp only
  split
  · exact .none
  · exact .ite .none <| .some <| .ite (h.modDie fun _ hk => hk) (.appendWords (h.modDie fun _ hk => hk))

theorem clockGate (h : s.Canon) : Gives Canon (s.clockGate c) := .ite .none (.some (h.setCore (h.core c)))

theorem powerGate (h : s.Canon) : Gives Canon (s.powerGate c) := .ite .none (.some (h.setCore (h.core c)))

theorem coreWake (h : s.Canon) : Gives Canon (s.coreWake c) := .ite .none (.some (h.setCore (h.core c)))

theorem d3hotEntry (h : s.Canon) : Gives Canon s.d3hotEntry :=
  .ite .none <| .some <| foldl (s := { s with host := _ }) h fun _ _ hr => hr.modCore fun _ hk => hk

theorem d3hotExit (h : s.Canon) : Gives Canon s.d3hotExit :=
  .ite .none <| .some <| foldl (s := { s with host := _ }) h fun _ _ hr => hr.wakeCore

end State.Canon

theorem Core.Canon.droopSample {k : Die} {c : Core} (h : c.Canon) : (k.droopSample c events).Canon := by
  unfold Die.droopSample
  dsimp only
  split <;> exact h

namespace State.Canon

variable {s : State}

theorem derateSample (h : s.Canon) : Gives Canon (s.derateSample c temp events) := by
  have hs {f : Core → Core} (hf : ∀ k : Core, k.Canon → (f k).Canon) : (s.modCore c f).Canon := h.modCore hf
  exact .ite .none <| .some <| .ite (.wakeCore (hs fun _ hk => hk.droopSample)) (hs fun _ hk => hk.droopSample)

theorem checkCore (h : s.Canon) : (s.checkCore c struct code).Canon := h.foldl fun _ _ hr => hr.machineCheck

theorem thermalTrip (h : s.Canon) : Gives Canon (s.thermalTrip c) :=
  .ite .none <| .some <| h.checkCore.modCore fun _ hk => hk

theorem clockLoop (h : s.Canon) : Gives Canon (s.clockLoop c n) := by
  have hs {x : Nat} {o : Option Nat} :
      (s.setCore c { s.core c with clock := x, clockFloorSince := o }).Canon := h.setCore (h.core c)
  refine .ite .none ?_
  split
  · exact .some (.ite hs.alarm hs)
  · exact .some hs

theorem gddrEqualise (h : s.Canon) : Gives Canon (s.gddrEqualise d channel good) := .ite .none (.some (.ite h h.alarm))

theorem serdesAdapt (h : s.Canon) : Gives Canon (s.serdesAdapt d x good) := .ite .none (.some (.ite h h.alarm))

theorem waveAgeLoop (h : s.Canon) : Gives Canon (s.waveAgeLoop d slice) :=
  .ite .none (.some (.ite h.modLoop.alarm h.modLoop))

theorem prefetchLoop (h : s.Canon) : Gives Canon (s.prefetchLoop d slice) :=
  .ite .none (.some (.ite h.modLoop.alarm h.modLoop))

theorem monitorSample (h : s.Canon) : Gives Canon (s.monitorSample d mon unit v) :=
  .ite .none <| .some <| .ite (.alarm (h.modDie fun _ hk => hk)) (h.modDie fun _ hk => hk)

theorem noiseFail (h : s.Canon) : (s.noiseFail c n).Canon := .alarm <| h.modCore fun _ hk => hk

theorem noiseStep (h : s.Canon) : Gives Canon (s.noiseStep c n good) :=
  .ite .none <| .ite (.some h.noiseFail) <| .ite .none <| .some <| h.takeFree.modCore fun _ hk => hk

/-! ### The mesh, the pair link, PTP and the ports (R329, R333, R396 to R400, R417 to R419, R425) -/

theorem stitchClear (h : s.Canon) : (s.stitchClear d sl unit p q n).Canon :=
  .ite (.report (h.modDie fun _ hk => hk)) h

theorem linkCheck (h : s.Canon) : (s.linkCheck d cause ctx sl unit).Canon :=
  .ite (.ite h.machineCheck h) (.ite h.machineCheckAll h)

theorem meshLinkFail (h : s.Canon) : Gives Canon (s.meshLinkFail d sl unit dir cause ctx) := by
  unfold State.meshLinkFail
  dsimp only
  split
  · exact .none
  · exact .ite .none <| .some <| .foldl
      (.foldl (.report (h.linkCheck.modDie fun _ hk => hk)) fun _ _ hr => hr.stitchClear)
      fun _ _ hr => hr.checkCore.modCore fun _ hk => hk

theorem stitchApply (h : s.Canon) : Gives Canon (s.stitchApply d n) := .ite .none (.some (h.modDie fun _ hk => hk))

theorem timeCheck (h : s.Canon) : Gives Canon (s.timeCheck d sl unit skew) := by
  have h1 {p : Prop} [Decidable p] {f : Die → Die} (hf : ∀ k : Die, k.Canon → (f k).Canon) :
      (if p then s.modDie d f else s).Canon := .ite (h.modDie hf) h
  have h2 {r : State} (hr : r.Canon) {b : Bool} {q : Nat → Nat → Bool} :
      (if b then r else r.dropLines (64 * d + unit) q).Canon := .ite hr hr.dropLines
  refine .ite .none <| .ite (.some h) <| .some <| .ite (.foldl (.report (h2 (h1 ?_))) fun _ _ hr => hr.checkCore)
    (.checkCore (.report (h2 (h1 ?_)))) <;> exact fun _ hk => hk

theorem endFarLeases (h : s.Canon) : s.endFarLeases.Canon :=
  .modDie (.modDie (h.foldl fun _ _ hr => hr.dropLines) fun _ hk => hk) fun _ hk => hk

theorem clockCheck (h : s.Canon) : Gives Canon (s.clockCheck good clock skew ports unit) :=
  .ite .none <| .ite (.some h) <| .some <| .report <|
    h.endFarLeases.setHost h.endFarLeases.hostMem h.endFarLeases.hostMbox

theorem linkRestore (h : s.Canon) : Gives Canon (s.linkRestore unit) :=
  .ite .none <| .some <| .report <| h.setHost h.hostMem h.hostMbox

theorem linkTimeout (h : s.Canon) : Gives Canon s.linkTimeout :=
  .ite .none <| .some <| .foldl (h.setHost h.hostMem h.hostMbox) fun _ _ hr => hr.haltCtx

theorem ptpSync (h : s.Canon) : Gives Canon (s.ptpSync offset slew) :=
  .ite .none <| .some <| .ite (.report (h.setDies h.die0 h.die1)) <| .ite (.report (h.setDies h.die0 h.die1)) <|
    h.setDies h.die0 h.die1

theorem endWaiting (h : s.Canon) : (s.endWaiting d).Canon :=
  h.foldl fun r p hr => by
    split
    · exact hr
    case h_2 s' he => exact .ite (hr.copyStart s' he) hr

theorem portDown (h : s.Canon) : Gives Canon (s.portDown d port change) := by
  refine .ite .none ?_
  split
  · exact .some (h.modDie fun _ hk => hk)
  · exact .some (h.modDie fun _ hk => hk)
  · exact .ite .none (.some (.report (.endWaiting (h.modDie fun _ hk => hk))))
  · exact .none

theorem watchAfresh (h : s.Canon) : (s.watchAfresh d).Canon :=
  .mapCores (h.modDie fun _ hk => hk) fun _ hp => by
    split <;> exact hp

theorem reservationTimeout (h : s.Canon) : Gives Canon (s.reservationTimeout d) :=
  .ite .none (.some h.watchAfresh.machineCheckAll)

theorem replayDivergence (h : s.Canon) : Gives Canon (s.replayDivergence d n) := by
  unfold State.replayDivergence
  split
  · exact .none
  · refine .ite .none ?_
    split
    · exact .some h.diverge
    · exact .ite (.some h.diverge) .none

/-! ### Migration and its shootdown (R189 to R191, R327, R391) -/

theorem putLock (h : s.Canon) : (s.putLock d page pins mig).Canon := .writeLock h.readLock

theorem migReach (h : s.Canon) : (s.migReach d a).Canon := h.reachHome

theorem migStart (h : s.Canon) : Gives Canon (s.migStart d) := by
  have hs : ((s.migReach d (s.die d).regs.migpte.toNat).modDie d fun k => k.migStatus 1).Canon :=
    h.migReach.modDie fun _ hk => hk
  exact .ite .none <| .ite (.some (.modDie hs.readLock fun _ hk => hk))
    (.some (.modDie (.putLock hs.readLock) fun _ hk => hk))

end State.Canon

theorem Die.Canon.evictPage {k : Die} (h : k.Canon) : (k.evictPage page).Canon := by
  unfold Die.evictPage
  generalize k.cache.filter (fun l => l.line / 65536 == page) = l
  induction l generalizing k with
  | nil => exact h
  | cons x rest ih => exact ih h.evict

theorem Die.Canon.copyPage {k : Die} (h : k.Canon) : (k.copyPage src dst).Canon := by
  unfold Die.copyPage
  generalize 65536 = n
  have hk : (k.evictPage dst).Canon := h.evictPage
  exact Die.canon_iff.2
    ⟨Memory.wf_movePage _ _ _ hk.mem, Memory.wf_takePage _ _ _ hk.dram, hk.dsm, hk.treelets⟩

namespace State.Canon

variable {s : State}

theorem reportMoved (h : s.Canon) : (s.reportMoved d src dst).Canon := h.foldl fun _ _ hr => hr.report

theorem migCopy (h : s.Canon) : Gives Canon (s.migCopy d) :=
  .ite .none <| .some <| .modDie (.lineWrite <| .migReach <| .modDie (.reportMoved (h.foldl fun _ _ hr => hr.applyLine))
    fun _ hk => hk.copyPage) fun _ hk => hk

theorem multicast (h : s.Canon) : Gives Canon (s.multicast d n) := by
  unfold State.multicast
  dsimp only
  split
  · exact .none
  · refine .ite .none ?_
    split
    · exact .ite .none (.some (h.modDie fun _ hk => hk))
    · exact .some (h.modDie fun _ hk => hk)

theorem shootdown (h : s.Canon) : Gives Canon (s.shootdown d c) := by
  unfold State.shootdown
  split
  · exact .none
  · exact .ite .none <| .some <| .modDie (.ite h (h.modCore fun _ hk => hk)) fun _ hk => hk

end State.Canon

theorem Core.Canon.moved {k : Core} (h : k.Canon) : (k.moved f d src).Canon :=
  h.setL1 fun l hl => h.l1 l (List.mem_of_mem_filter hl)

namespace State.Canon

variable {s : State}

theorem forward (h : s.Canon) : (s.forward d src dst).Canon :=
  h.mapMachine h.die0 h.die1 fun _ hp => hp.moved

theorem migFinish (h : s.Canon) : Gives Canon (s.migFinish d) :=
  .ite .none <| .some <| .modDie h.forward.fireWaits.putLock fun _ hk => hk

/-! ### The mailbox and its requests (R338 to R342, R358 to R360) -/

theorem mboxBytes (h : s.Canon) : (s.mboxBytes off bytes).Canon :=
  h.setHost h.hostMem (Memory.wf_setBytes _ _ h.hostMbox)

theorem answer (h : s.Canon) : (s.answer result).Canon := h.mboxBytes.mboxBytes.raiseMsix

theorem mboxRequest {body : State → Option State} (h : s.Canon) (hb : Gives Canon (body s)) :
    Gives Canon (s.mboxRequest code body) := by
  refine .ite .none (.ite (.some h.answer) ?_)
  split
  case h_1 s' he =>
    have hs : s'.Canon := hb s' he
    exact .some hs.answer
  case h_2 => exact .some h.answer

theorem barWrite (h : s.Canon) : Gives Canon (s.barWrite off w bytes) :=
  .ite .none <| .ite (.some (.ite (h.setHost h.hostMem h.hostMbox) h)) <|
    .ite (.ite .none (.some (.ite h.mboxBytes.mboxBytes h.mboxBytes.mboxBytes.answer))) (.some h)

theorem csrPlain (h : s.Canon) : Gives Canon (s.csrPlain num ctx d w) := by
  refine .ite .none (.ite ?_ (.ite (.some (.ite h.writeDie h)) .none))
  split
  · exact .none
  · exact .some (.ite h.writeCtx h)

theorem completionDoorbell (h : s.Canon) : Gives Canon (s.completionDoorbell w) :=
  .ite .none (.some (.ite h h.decCounter))

theorem forgetCtx (h : s.Canon) : (s.forgetCtx n).Canon := h.mapMachine h.die0 h.die1 fun _ hp => hp

theorem install (h : s.Canon) : Gives Canon (s.install x) := .ite .none <| .some <| forgetCtx h

theorem zeroCounters (h : s.Canon) : (s.zeroCounters c).Canon :=
  .modCore (h.foldl fun _ _ hr => hr.setCounter) fun _ hk => hk

theorem freeTeams (h : s.Canon) : (s.freeTeams x).Canon :=
  foldl h fun r t hr => .modCore (.zeroCounters (by
    split
    · split
      case h_1 s' he => exact hr.mapBit s' he
      case h_2 => exact hr
    · exact hr)) fun _ hk => hk

theorem freeWork (h : s.Canon) : (s.freeWork n).Canon := h.mapMachine h.die0 h.die1 fun _ hp => hp

theorem resetCtx (h : s.Canon) : Gives Canon (s.resetCtx n) := by
  unfold State.resetCtx
  split
  · exact .none
  · exact .some h.freeTeams.freeWork.modCtx

theorem uninstall (h : s.Canon) : Gives Canon (s.uninstall n) := .ite .none <| .some <| forgetCtx h

theorem csrWrite (h : s.Canon) : Gives Canon (s.csrWrite num n d v) :=
  .ite (.ite .none (.some (.foldl h.writeCtx.tlbinv fun _ _ hr => hr.dropTreelets))) (.ite (.some h.writeDie) .none)

theorem clearPreRing (h : s.Canon) : { s with host := { s.host with preRingCount := 0 } }.Canon :=
  h.setHost h.hostMem h.hostMbox

theorem setRing (h : s.Canon) : Gives Canon (s.setRing v) :=
  .ite .none <| .some <| clearPreRing <|
    .deviceWrite <| .deviceWrite <| .deviceWrite <| h.foldl fun _ _ hr => hr.modDie fun _ hk => hk

end State.Canon

/-! ### Firmware, power-on and device reset (R348, R405) -/

theorem Die.Canon.bringUp {k : Die} (h : k.Canon) : (k.bringUp top size).Canon :=
  Die.canon_iff.2 ⟨Memory.wf_clear _ _ h.mem, Memory.wf_clear _ _ h.dram, h.dsm, h.treelets⟩

theorem Die.Canon.deviceReset {k : Die} (h : k.Canon) : k.deviceReset.Canon :=
  Die.canon_iff.2 ⟨h.mem, h.dram, rfl, fun _ ht => nomatch ht⟩

namespace State.Canon

variable {s : State}

theorem bringUp (h : s.Canon) : s.bringUp.Canon := by
  unfold State.bringUp
  extract_lets r
  have hr : r.Canon := h.foldl fun _ _ hx => hx.modDie fun _ hk => hk.bringUp
  exact State.canon_iff.2
    ⟨hr.die0, hr.die1, hr.hostMem, hr.hostMbox, List.forall_mem_map.2 fun p hp => hr.cores p hp, hr.fabric⟩

theorem startFirmware (h : s.Canon) : s.startFirmware.Canon :=
  .ite (h.bringUp.setHost h.bringUp.hostMem h.bringUp.hostMbox) (h.setHost h.hostMem h.hostMbox)

theorem setChunks (h : s.Canon) : (s.setChunks bytes).Canon := h.setHost h.hostMem h.hostMbox

theorem storeImage (h : s.Canon) : { s with host := { s.host with fwStored := image } }.Canon :=
  h.setHost h.hostMem h.hostMbox

theorem endImage (h : s.Canon) : (s.endImage image).Canon :=
  .ite h.setChunks.answer <| answer <| .ite h.setChunks.storeImage h.setChunks.storeImage.startFirmware

theorem fwload (h : s.Canon) : s.fwload.Canon := by
  unfold State.fwload
  extract_lets w n have_ image
  exact .ite h.answer (.ite h.setChunks.answer (.ite h.endImage h.setChunks.answer))

theorem powerOn (h : s.Canon) : s.powerOn.Canon :=
  .startFirmware <| State.canon_iff.2
    ⟨Die.canon_atReset, Die.canon_atReset, h.hostMem, rfl, fun _ hp => absurd hp List.not_mem_nil, h.fabric⟩

theorem deviceReset (h : s.Canon) : s.deviceReset.Canon :=
  .startFirmware <| State.canon_iff.2
    ⟨h.die0.deviceReset, h.die1.deviceReset, h.hostMem, rfl, fun _ hp => absurd hp List.not_mem_nil, h.fabric⟩

theorem cxlTrain (h : s.Canon) : Gives Canon (s.cxlTrain lanes rate) :=
  .ite .none <| .some <| h.setHost h.hostMem h.hostMbox

theorem installReplay (h : s.Canon) : Gives Canon s.installReplay := by
  unfold State.installReplay
  split
  · exact .none
  · exact .ite .none h.install

/-! ### Forms of Decoding, Mask, Rays and ScalarFloat -/

theorem issueBare {f : Team → Option State} (h : s.Canon) (hf : ∀ t, Gives Canon (f t)) :
    LeavesCanon (issueBare name i s f) := by
  unfold Machine.issueBare
  split
  · exact .fault
  case h_2 t _ =>
    split
    · exact .next h
    · exact .event (hf t)

theorem maskForm (h : s.Canon) : LeavesCanon (maskForm i d m s) := h.issueTeam

theorem maskScalarForm (h : s.Canon) : LeavesCanon (maskScalarForm i d v s) := h.issueTeam

theorem handRay (h : s.Canon) : (s.handRay t mask defer l).Canon := by
  unfold State.handRay
  split
  · exact h
  · exact .ite h.freeRay h.modRay

theorem rayForm (h : s.Canon) : LeavesCanon (rayForm i defer d a s) :=
  h.issue fun _ => .check fun _ => .pure (.testPool (.putTeam (h.foldl fun _ _ hr => hr.handRay)))

theorem writePlaced (h : s.Canon) : (s.writePlaced t records).Canon := h.foldl fun _ _ hr => hr.modRay

theorem retireRay (h : s.Canon) : (s.retireRay d ps n).Canon := .ite h.freeRay h.modRay

theorem retireEnter (h : s.Canon) : (s.retireEnter t groups).Canon :=
  .ite h <| h.modCore fun _ hk => .enterGroups hk

theorem floatForm (h : s.Canon) : LeavesCanon (floatForm i d q x s) := h.issueTeam

theorem bitsForm (h : s.Canon) : LeavesCanon (bitsForm i d v s) := h.issueTeam

end State.Canon

end Sys2Proof.Machine
end

section
/-! SUPPORT for O54. The forms whose body is their own, and every instruction and device step. -/

namespace Sys2Proof.Machine

namespace State.Canon

variable {s : State}

/-! ### Vector registers -/

theorem execVrotl (h : s.Canon) : LeavesCanon (execVrotl d a b c s) :=
  h.issue fun _ => .ite (.ok h.putTeam) h.vecWrite

theorem execVins (h : s.Canon) : LeavesCanon (execVins d a b c s) :=
  h.issue fun _ => .ite (.ok h.putTeam) h.vecWrite

theorem execRallot (h : s.Canon) : LeavesCanon (execRallot d n s) :=
  h.issue fun _ => .ite .raise (.ok h.putTeam)

theorem execRpool (h : s.Canon) : LeavesCanon (execRpool d a s) :=
  h.issue fun _ => .ok <| .putTeam <| h.modDie fun _ hk => hk

theorem execRsave (h : s.Canon) : LeavesCanon (execRsave d a b s) :=
  h.issue fun _ => .check fun _ => .step h.mapParts fun _ _ hr => .check fun _ => .check fun _ =>
    .pure hr.storeParts.modTeam

theorem execRload (h : s.Canon) : LeavesCanon (execRload d a c s) :=
  h.issue fun _ => .check fun _ => .step h.mapParts fun _ _ hr => .check fun _ => .step hr.loadParts fun _ _ hq =>
    .ite .raise <| .step hq.mapParts fun _ _ hp => .check fun _ => .step hp.loadParts fun _ _ hl =>
      .ite .raise hl.vecWrite

theorem execVredadd (h : s.Canon) : LeavesCanon (execVredadd d a s) :=
  h.issue fun _ => .check fun _ => .ite (.step h.beginDraw fun _ _ hr => .pure hr.endDraw) (.pure h.putTeam)

/-! ### Vector memory, scratchpads and the page-request ring -/

theorem execVldb (h : s.Canon) : LeavesCanon (execVldb d a b c s) :=
  h.issue fun t => by
    dsimp only
    split
    · exact .error
    case h_2 s' es he =>
      have hs : s'.Canon := h.mapLanes (s', es) he
      exact .check fun _ => .step hs.loadElements fun _ _ hr => .check fun _ => .pure hr.putTeam

theorem execPreq (h : s.Canon) : LeavesCanon (execPreq d a b s) :=
  h.issue fun t => by
    dsimp only
    split
    · exact .error
    · refine .ite (.ok h.putTeam) <| .ite .error <| .ok <| .putTeam <| .raiseMsix <| h.setHost ?_ h.hostMbox
      dsimp only
      exact Memory.wf_write _ _ _ (Memory.wf_writeWords _ _ h.hostMem)

theorem execSld (h : s.Canon) : LeavesCanon (execSld d a b s) :=
  h.issue fun _ => .check fun _ => .check fun _ => .pure h.putTeam

theorem execSst (h : s.Canon) : LeavesCanon (execSst d a b s) :=
  h.issue fun _ => .check fun _ => .pure h.scrWrite.putTeam

theorem execSscat (h : s.Canon) : LeavesCanon (execSscat d a b s) :=
  h.issue fun _ => .check fun _ => .pure <| .putTeam <| h.foldl fun _ _ hr => hr.scrWrite

theorem execSldc (h : s.Canon) : LeavesCanon (execSldc d a c s) :=
  h.issue fun _ => .check fun _ => .check fun _ => .ite .raise <| .check fun _ => .check fun _ =>
    .ite .raise h.vecWrite

theorem execSstc (h : s.Canon) : LeavesCanon (execSstc d a b s) :=
  h.issue fun _ => .check fun _ => .check fun _ => .pure h.scrWrite.putTeam

/-! ### The matrix unit and the transform pipe -/

theorem execMzero (h : s.Canon) : LeavesCanon (execMzero d a s) :=
  h.issue fun _ => .ite .error <| .check fun _ => .ite .raise h.queueMat

theorem execMcfg (h : s.Canon) : LeavesCanon (execMcfg d a b s) :=
  h.issue fun _ => .ite .raise <| .ite .raise <| .ok h.putTeam

theorem execMtov (h : s.Canon) : LeavesCanon (execMtov d a b c s) :=
  h.issue fun _ => .check fun _ => .ite .raise <| .ite (.pure h.putTeam) h.vecWrite

theorem execMalloc (h : s.Canon) : LeavesCanon (execMalloc d a s) :=
  h.issue fun _ => .ite .raise <| .ok <| .putTeam <| .ite (h.modDie fun _ hk => hk) h

theorem execXtld (h : s.Canon) : LeavesCanon (execXtld a k s) :=
  h.issue fun _ => .check fun _ => .ite .error <| .check fun _ => .check fun _ => .ite .error <|
    .ite (.pure h.putTeam) (.pure h.queueXf.putTeam)

theorem execXtbind (h : s.Canon) : LeavesCanon (execXtbind k s) :=
  h.issue fun _ => .check fun _ => .ite .error (.pure h.queueXf.putTeam)

/-! ### Branches, loops and waits -/

theorem execCallr (h : s.Canon) : LeavesCanon (execCallr d a s) := h.issue fun _ => .check fun _ => .pure h.putTeam

theorem execLbrk (h : s.Canon) : LeavesCanon (execLbrk d s) := h.issue fun _ => .ite .raise (.ok h.putTeam)

theorem execWatch (h : s.Canon) : LeavesCanon (execWatch a b s) :=
  h.issue fun _ => .check fun _ => .step h.translateResident fun _ _ hr => .ite .error <| .ite .error <| .pure <|
    .putTeam (.ite hr.homeRead hr)

/-! ### Scalar memory, counters and the barrier -/

theorem execLdlit (h : s.Canon) : LeavesCanon (execLdlit d lit s) := h.issue fun _ => .check fun _ => .pure h.putTeam

theorem execLdx (h : s.Canon) : LeavesCanon (execLdx d a z lit s) := h.issue fun _ => .check fun _ => h.scalarLoad

theorem execFence (h : s.Canon) : LeavesCanon (execFence k s) := h.issue fun _ => .check fun _ => .pure h.putTeam

theorem execLinv (h : s.Canon) : LeavesCanon (execLinv a b s) :=
  h.issue fun _ => by
    refine .ite (.bind (.pure h) ?_) <| .ite (.bind (.pure h.dropLines) ?_) <|
      .bind (h.eachPage fun _ _ _ hr => hr.endLeases) ?_ <;> exact fun _ hr => .pure hr.modTeam

theorem execUflush (h : s.Canon) : LeavesCanon (execUflush a b s) :=
  h.issue fun _ => .ite .error <| by
    refine .ite (.bind (.pure h) ?_) <| .bind (h.eachPage fun _ _ _ hr => hr.applyRange) ?_ <;>
      exact fun _ hr => .pure hr.modTeam

theorem execCset (h : s.Canon) : LeavesCanon (execCset a b s) :=
  h.issue fun _ => .check fun _ => .pure h.setCounter.modTeam

theorem execCadd (h : s.Canon) : LeavesCanon (execCadd a b s) :=
  h.issue fun _ => .check fun _ => .pure h.setCounter.modTeam

theorem execCbar (h : s.Canon) : LeavesCanon (execCbar d a b s) :=
  h.issue fun _ => .ite .raise <| .check fun _ => .step h.translateResident fun _ _ hr => .check fun _ =>
    .ite (.check fun _ => .ite .error <| .pure <| .putTeam (.ite hr.homeRead hr)) <|
      .check fun _ => .check fun _ => .ite (.check fun _ => .pure hr.learnFx.queueReq.putTeam) <| .ite .error <|
        .pure hr.learnFx.arrive.joinGwct.modTeam.arrived

/-! ### DSM -/

theorem execDsmop (h : s.Canon) : LeavesCanon (execDsmop d a b s) :=
  h.issue fun _ => .check fun _ => .ite .raise <| .step h.mapDsm fun _ _ hr => .check fun _ => .pure <| .putTeam <|
    hr.modDie fun _ hk => hk

theorem execDsmred (h : s.Canon) : LeavesCanon (execDsmred d a b s) :=
  h.issue fun _ => .check fun _ => .ite .raise <| by
    refine .ite (.check fun _ => ?_) (.check fun _ => ?_) <;>
      exact .step h.mapParts fun _ _ hr => .check fun _ => .step hr.loadParts fun _ _ hq => .pure hq.putTeam

/-! ### Modes and masks -/

theorem execMsetr (h : s.Canon) : LeavesCanon (execMsetr a s) := h.issue fun _ => .ite (.ok h.putTeam) .raise

theorem execMpush (h : s.Canon) : LeavesCanon (execMpush d a s) := h.issue fun _ => .ite .raise (.ok h.putTeam)

theorem execMelse (h : s.Canon) : LeavesCanon (execMelse d a s) :=
  h.issue fun t => by
    split
    · exact .raise
    · exact .ok h.putTeam

theorem execMpop (h : s.Canon) : LeavesCanon (execMpop s) :=
  h.issue fun t => by
    split
    · exact .raise
    · exact .ok h.putTeam

/-! ### Rays -/

theorem execSpawn (h : s.Canon) : LeavesCanon (execSpawn d a b s) :=
  h.issue fun _ => .ite .raise <| .ite (.pure h.putTeam) <| .ite (.pure (.putTeam (h.modDie fun _ hk => hk))) <|
    .pure <| .putTeam <| .ite h.writePlaced (h.countRays.foldl fun _ _ hr => hr.placeRay)



theorem execRetire (h : s.Canon) : LeavesCanon (execRetire d a s) :=
  h.issue fun _ => .check fun _ => .check fun _ => by
    refine .ite (.check fun _ => ?_) ?_ <;>
      exact .step h.fates fun _ _ hr => .pure <| .testPool <| .putTeam <|
        hr.retireEnter.foldl fun _ _ hq => hq.retireRay

/-! ### The system's registers, traps and the record (R353, R354, R387, R388) -/

theorem execCsrw (h : s.Canon) : LeavesCanon (execCsrw d i s) := h.issue fun _ => .ite .raise (.ok h.writeCsr)

theorem execEret (h : s.Canon) : LeavesCanon (execEret s) :=
  h.issue fun _ => .ite .error <| .ite .error <| .ok h.putTeam

theorem execTlbinv (h : s.Canon) : LeavesCanon (execTlbinv a b s) :=
  h.issue fun _ => .check fun _ => .ite .error <| .pure h.putTeam.tlbinv.dropTreelets

theorem execMonr (h : s.Canon) : LeavesCanon (execMonr d a b s) :=
  h.issue fun _ => .ite .raise <| .ite .raise <| .ok h.putTeam

theorem execMark (h : s.Canon) : LeavesCanon (execMark i s) :=
  h.issue fun _ => .check fun _ => .bind h.appendLog fun _ hr => .pure hr.modTeam

theorem execBkpt (h : s.Canon) : LeavesCanon (execBkpt i s) := h.issue fun _ => .ite .raise (.ok h.putTeam)

theorem execIllegalInstr (h : s.Canon) : LeavesCanon (execIllegalInstr w s) :=
  h.issueBare fun _ => Gives.any.map fun _ _ => h.takeTrap

theorem execInstructionFetchFault (h : s.Canon) : LeavesCanon (execInstructionFetchFault s) :=
  h.issueBare fun t => by
    split
    · exact .some h.takeStop
    · exact .none

/-! ### Requests of the host (R338 to R342, R358 to R360) -/

theorem execStitchWrite (h : s.Canon) : LeavesCanon (execStitchWrite s) := .event (.ite .none h.outsideWrite)

theorem execRegisterWrite (h : s.Canon) : LeavesCanon (execRegisterWrite s) :=
  .event <| .ite .none <| by
    split
    · exact h.barWrite
    · exact h.csrPlain

theorem execCtxinstall (h : s.Canon) : LeavesCanon (execCtxinstall s) :=
  .event <| h.mboxRequest <| Gives.any.bind fun _ _ => h.install

theorem execCtxreset (h : s.Canon) : LeavesCanon (execCtxreset s) :=
  .event <| .ite .none <| h.mboxRequest h.resetCtx

theorem execCsrread (h : s.Canon) : LeavesCanon (execCsrread s) :=
  .event <| h.mboxRequest <| Gives.any.map fun _ _ => h.mboxBytes

theorem execCsrwrite (h : s.Canon) : LeavesCanon (execCsrwrite s) :=
  .event <| .ite .none <| h.mboxRequest <| Gives.any.bind fun _ _ => h.csrWrite

theorem execPeerto (h : s.Canon) : LeavesCanon (execPeerto s) :=
  .event <| h.mboxRequest <| .ite .none <| .some <| h.setHost h.hostMem h.hostMbox

theorem execAttest (h : s.Canon) : LeavesCanon (execAttest s) :=
  .event <| h.mboxRequest <| .ite .none <| .some h.mboxBytes

theorem execCert (h : s.Canon) : LeavesCanon (execCert s) :=
  .event <| h.mboxRequest <| by
    dsimp only
    split
    · exact .none
    · exact .ite .none <| .some h.mboxBytes.mboxBytes.mboxBytes

theorem execFwload (h : s.Canon) : LeavesCanon (execFwload s) := .event (.ite (.some h.fwload) .none)

theorem execMonread (h : s.Canon) : LeavesCanon (execMonread s) :=
  .event <| h.mboxRequest <| .ite .none <| .some h.mboxBytes

theorem execSetthr (h : s.Canon) : LeavesCanon (execSetthr s) :=
  .event <| h.mboxRequest <| .ite .none <| .some <| h.setHost h.hostMem h.hostMbox

end State.Canon

end Sys2Proof.Machine
end

section
/-! SUPPORT for O54. Every instruction and every device step. -/

namespace Sys2Proof.Machine

/-- The forms of an instruction and the steps of the device, one after another, leave every memory canonical. -/
theorem State.Canon.exec {s : State} (i : Instr) (h : s.Canon) : LeavesCanon (exec i s) := by
  unfold Machine.exec
  cases i with
  | add | sub | mul | mulh | mulhn | div | divn | rem | remn | and | or | xor | andn | shl | shr | sra | rotl
  | min | max | minn | maxn | sel | clz | ctz | popc | brev | bfx | bfi | mov => exact h.intForm
  | cmp | cmpn | cmpi | cmpni => exact h.ccForm
  | addi | andi | ori | xori | shli | shri | srai | movi | movhi | movxi | movti | lea | gets => exact h.immForm
  | ldlit => exact h.execLdlit
  | fadd | fsub | fmul | ffma | fdiv | fcvt | itof => exact h.floatForm
  | fsqrt | fmin | fmax | fabs | fneg | ftoi | fclass | frnd => exact h.bitsForm
  | fcmp | call | mset | mget | vextr | rcnt | rngseed | rngget | cget | csrr | yield | nop => exact h.issueTeam
  | br | bcc | bmz | bmnz => exact h.branchForm
  | callr => exact h.execCallr
  | ret | jmpr => exact h.jumpForm
  | loop | loopi => exact h.loopForm
  | lbrk => exact h.execLbrk
  | waitc | poolq => exact h.issue fun _ => .ok h.putTeam
  | watch => exact h.execWatch
  | trapi => exact h.issue fun _ => .raise
  | msetr => exact h.execMsetr
  | mpush => exact h.execMpush
  | melse => exact h.execMelse
  | mand | mor | mxor | mandn | mnot | mmov | mfrs | mlen => exact h.maskForm
  | mcnt | mffs | mtos | mall => exact h.maskScalarForm
  | vadd | vsub | vmul | vfma | vfms => exact h.arithForm
  | vmin | vmax | vshl | vshr | vsra => exact h.subForm
  | vabs | vneg => exact h.subForm1
  | vand | vor | vxor | vnot | vmov => exact h.wordForm
  | vcmpeq | vcmpne | vcmplt | vcmple => exact h.compareForm
  | vsel | vbcast | vidx | vcompact | vexpand | vshfl | rcoal => exact h.issue fun _ => h.vecWrite
  | vclamp | vmulp | vdotp | vcvt | vpack | vunpk | vdiv => exact h.vecFormRun
  | vrcp | vrsq | vsqrt | vexp2 | vlog2 | vsin | vcos | vtanh | vfloor | vfrac => exact h.mathForm
  | vrotl => exact h.execVrotl
  | vins => exact h.execVins
  | rallot => exact h.execRallot
  | rpool => exact h.execRpool
  | rsave => exact h.execRsave
  | rload => exact h.execRload
  | vredadd => exact h.execVredadd
  | vredmin | vredmax | vredand | vredor => exact h.reduceForm
  | vscan => exact h.issue fun _ => .check fun _ => h.vecDraw
  | vrng => exact h.issue fun _ => h.vecDraw
  | ld | lda => exact h.issue fun _ => h.scalarLoad
  | ldx => exact h.execLdx
  | st | stl => exact h.issue fun _ => h.scalarStore
  | atadd | atmin | atmax | atminn | atmaxn | atand | ator | atxor | atxch | atcas => exact h.atomicForm
  | fence => exact h.execFence
  | linv => exact h.execLinv
  | vld => exact h.issue fun _ => h.vectorLoad
  | vlds => exact h.issue fun _ => .check fun _ => h.vectorLoad
  | vst => exact h.issue fun _ => h.vectorStore
  | vsts => exact h.issue fun _ => .check fun _ => h.vectorStore
  | vldb => exact h.execVldb
  | preq => exact h.execPreq
  | sld => exact h.execSld
  | sst => exact h.execSst
  | sgath => exact h.issue fun _ => h.scrLoad
  | sscat => exact h.execSscat
  | sldt => exact h.issue fun _ => .check fun _ => .check fun _ => h.scrLoad
  | sldc => exact h.execSldc
  | sstc => exact h.execSstc
  | clds | csts => exact h.issue fun _ => h.peerAccess
  | upd | upds => exact h.issue fun _ => h.update
  | uflush => exact h.execUflush
  | tdec | tinc | tspawn => exact h.taskForm
  | cset => exact h.execCset
  | cadd => exact h.execCadd
  | cbar => exact h.execCbar
  | dsmop => exact h.execDsmop
  | dsmred => exact h.execDsmred
  | cpy | cpyg | cpyx | cpyq | cpyt | discard | prefetch | cpya | cwalk => exact h.copyForm
  | mcfg => exact h.execMcfg
  | mzero => exact h.execMzero
  | mma | mmag | mmas | mmad | mlda | msta => exact h.matrixForm
  | mtov => exact h.execMtov
  | malloc => exact h.execMalloc
  | xhad | xqnt | xact | xtopk | xtrn | xsort => exact h.transformForm
  | xtld => exact h.execXtld
  | xtbind => exact h.execXtbind
  | trace | defer => exact h.rayForm
  | spawn => exact h.execSpawn
  | retire => exact h.execRetire
  | csrw => exact h.execCsrw
  | tlbinv => exact h.execTlbinv
  | halt => exact h.issue fun _ => .ok h.putTeam.haltCtx
  | monr => exact h.execMonr
  | mark => exact h.execMark
  | bkpt => exact h.execBkpt
  | illegalInstr => exact h.execIllegalInstr
  | exit | epend => exact h.issue fun _ => .ok h.endTeam
  | mpop => exact h.execMpop
  | eret => exact h.execEret
  | recordIntervalClose => exact .event h.intervalClose
  | queueDoorbell => exact .event h.queueDoorbell
  | completionDoorbell => exact .event h.completionDoorbell
  | registerWrite => exact h.execRegisterWrite
  | ctxinstall => exact h.execCtxinstall
  | ctxreset => exact h.execCtxreset
  | ctxremove => exact .event (h.mboxRequest h.uninstall)
  | csrread => exact h.execCsrread
  | csrwrite => exact h.execCsrwrite
  | errring => exact .event (h.mboxRequest h.setRing)
  | peerto => exact h.execPeerto
  | attest => exact h.execAttest
  | cert => exact h.execCert
  | fwload => exact h.execFwload
  | monread => exact h.execMonread
  | setthr => exact h.execSetthr
  | replay => exact .event (h.mboxRequest h.installReplay)
  | slicecfgWrite | soruscfgWrite | poolrsvWrite => exact .event h.outsideWrite
  | slicecfgApply => exact .event h.sliceApply
  | stitchWrite => exact h.execStitchWrite
  | stitchApply => exact .event h.stitchApply
  | sceneWrite => exact .event h.sceneWrite
  | migrationStart => exact .event h.migStart
  | migrationCopy => exact .event h.migCopy
  | migrationFinish => exact .event h.migFinish
  | powerOn => exact .event (.some h.powerOn)
  | d3hotEntry => exact .event h.d3hotEntry
  | coreClockGate => exact .event h.clockGate
  | corePowerGate => exact .event h.powerGate
  | coreWake => exact .event h.coreWake
  | taskReady => exact .event h.taskReady
  | depcntUpdate => exact .event h.depUpdate
  | queueConsume => exact .event h.queueConsume
  | queueIdleRecheck => exact .event h.idleRecheck
  | placementAttempt => exact .event h.attempt
  | teamExited => exact .event h.teamExited
  | successorDecrement => exact .event h.successor
  | preemptForCandidate => exact .event h.preemptFor
  | teamPreempted => exact .event h.teamPreempted
  | donationStart => exact .event h.donationStart
  | donationEnd => exact .event h.donationEnd
  | stealRequest => exact .event h.stealRequest
  | stealClaim => exact .event h.stealClaim
  | stealReply => exact .event h.stealReply
  | derateSample => exact .event h.derateSample
  | thermalTrip => exact .event h.thermalTrip
  | teamWake => exact .event h.teamWake
  | clockLoop => exact .event h.clockLoop
  | gddr7Equalisation => exact .event h.gddrEqualise
  | waveAgeLoop => exact .event h.waveAgeLoop
  | prefetchThresholdLoop => exact .event h.prefetchLoop
  | monitorSample => exact .event h.monitorSample
  | homeRead => exact .event (h.serve fun _ _ hr => hr.serveRead)
  | loadReply => exact .event h.loadReply
  | homeStore => exact .event (h.serve fun _ _ hr => hr.serveStore)
  | storeAck => exact .event h.storeAck
  | homeAtomic => exact .event (h.serve fun _ _ hr => hr.serveAtomic)
  | writeLeaseGrant => exact .event (h.serve fun _ _ hr => hr.serveGrant)
  | leaseRecall => exact .event h.leaseRecall
  | writeLeaseExpiry => exact .event h.leaseExpiry
  | pairInject => exact .event h.pairInject
  | homeAcceptPair => exact .event h.homeAcceptPair
  | binApply => exact .event h.binApply
  | dsmElementOp => exact .event h.dsmElement
  | cbarArrival => exact .event (h.serve fun _ _ hr => hr.serveArrival)
  | hostRead => exact .event h.hostRead
  | hostWrite => exact .event h.hostWrite
  | fabricWriteArrival => exact .event h.fabricWrite
  | shootdown => exact .event h.shootdown
  | multicastDeliver => exact .event h.multicast
  | copyStart => exact .event h.copyStart
  | copyComplete => exact .event h.copyComplete
  | matrixOpStart => exact .event h.matStart
  | matrixStep => exact .event h.matStep
  | matrixComplete => exact .event h.matComplete
  | transformStart => exact .event h.xfStart
  | transformComplete => exact .event h.xfComplete
  | noiseWord => exact .event h.noiseStep
  | poolGrant => exact .event h.poolGrant
  | rayEntersBin => exact .event h.rayEnters
  | traversalBinAge => exact .event h.traversalBinAge
  | shaderBinAge => exact .event h.shaderBinAge
  | traversalStep => exact .event h.traversalStep
  | treeletLineArrival => exact .event h.treeletArrival
  | traversalResult => exact .event h.traversalResult
  | doneDecrement => exact .event h.doneDecrement
  | poolPressure => exact .event h.poolPressure
  | inboundPeerAccess => exact .event h.inboundPeer
  | peerReply => exact .event h.peerReply
  | peerTimeout => exact .event h.peerTimeout
  | reservationTimeout => exact .event h.reservationTimeout
  | meshLinkFail => exact .event h.meshLinkFail
  | timeCheck => exact .event h.timeCheck
  | clockCheck => exact .event h.clockCheck
  | pairLinkRestore => exact .event h.linkRestore
  | pairLinkRestoreTimeout => exact .event h.linkTimeout
  | ptpSync => exact .event h.ptpSync
  | scaleoutPortDown => exact .event h.portDown
  | replayDivergence => exact .event h.replayDivergence
  | instructionFetchFault => exact h.execInstructionFetchFault
  | deviceReset => exact .event (.some h.deviceReset)
  | d3hotExit => exact .event h.d3hotExit
  | serdesAdaptation => exact .event h.serdesAdapt
  | sharedCacheWriteBack => exact .event h.writeBack
  | cxlLinkTraining => exact .event h.cxlTrain

end Sys2Proof.Machine
end

section
/-! SUPPORT for O54. One turn: the passing of time, the issue of a team, the device's due steps (log entries 6, 7);
and the obligation. -/

namespace Sys2Proof.Machine

/-- An issue leaves canonical memories: in the state it ends in, and where every team is held. -/
def IssuesCanon (x : Except State (Host.Outcome State Fault Refusal)) : Prop :=
  (∀ r, x = .error r → r.Canon) ∧ Ends LeavesCanon x

namespace IssuesCanon

theorem held {s : State} (h : s.Canon) : IssuesCanon (.error s) :=
  ⟨by rintro _ ⟨⟩; exact h, .error⟩

theorem issued {o : Host.Outcome State Fault Refusal} (h : LeavesCanon o) : IssuesCanon (.ok o) := by
  refine ⟨fun _ he => ?_, .ok h⟩
  cases he

end IssuesCanon

theorem HostIf.setDecoder_mem (k : HostIf) (n base size : Nat) : (k.setDecoder n base size).mem = k.mem := by
  unfold HostIf.setDecoder
  split <;> rfl

theorem HostIf.setDecoder_mbox (k : HostIf) (n base size : Nat) : (k.setDecoder n base size).mbox = k.mbox := by
  unfold HostIf.setDecoder
  split <;> rfl

namespace State.Canon

variable {s : State}

theorem passTime (h : s.Canon) : s.passTime.Canon :=
  State.canon_iff.2 ⟨h.flushLogs.die0, h.flushLogs.die1, h.flushLogs.hostMem, h.flushLogs.hostMbox,
    List.forall_mem_map.2 fun p hp => h.flushLogs.cores p hp, h.flushLogs.fabric⟩

theorem begin (h : s.Canon) : (s.begin t).Canon := h.setCore (h.core t.coreId)

theorem tried (h : s.Canon) : (s.tried r t).Canon := setDies h.modTeam h.die0 h.die1

section

variable {run : Instr → State → Host.Outcome State Fault Refusal}
variable (hrun : ∀ i s, s.Canon → LeavesCanon (run i s))

include hrun

theorem issueFirst (h : s.Canon) : IssuesCanon (s.issueFirst run l) := by
  induction l generalizing s with
  | nil => exact .held h
  | cons t rest ih =>
    rw [State.issueFirst]
    dsimp only
    have hn : (s.nextInstr t).1.Canon := h.nextInstr
    generalize (s.nextInstr t).1 = q at hn
    have ho : LeavesCanon (run (s.nextInstr t).2 (q.begin t)) := hrun _ _ hn.begin
    split
    case h_1 r hr =>
      split
      · exact ih h.tried
      · exact .issued (hr ▸ ho)
    · exact .issued ho

theorem issueAny (h : s.Canon) : IssuesCanon (s.issueAny run l) := by
  induction l generalizing s with
  | nil => exact .held h
  | cons x rest ih =>
    obtain ⟨hheld, hissued⟩ := h.issueFirst hrun (l := s.issueOrder x.1 x.2)
    rw [State.issueAny]
    split
    case h_1 o ho => exact .issued (hissued o ho)
    case h_2 r hr => exact ih (hheld r hr)

theorem runDue (h : s.Canon) : Gives LeavesCanon (s.runDue run l) := by
  induction l with
  | nil => exact .none
  | cons x rest ih =>
    have ho : LeavesCanon (run x.1 { s with arg := x.2, clos := 0 }) := hrun _ _ h
    rw [State.runDue]
    split
    · exact ih
    · exact .some ho

theorem runFirst (h : s.Canon) : LeavesCanon (s.runFirst run l) := by
  unfold State.runFirst
  cases ho : s.runDue run l with
  | none => exact .next h
  | some o => exact h.runDue hrun o ho

theorem freeTurn (h : s.Canon) : LeavesCanon (s.freeTurn run due idle) := by
  unfold State.freeTurn
  have hdue : Gives LeavesCanon (if s.devicesFirst then s.runDue run (due s) else none) := .ite (h.runDue hrun) .none
  split
  case h_1 o ho => exact hdue o ho
  case h_2 =>
    obtain ⟨hheld, hissued⟩ := h.issueAny hrun (l := s.issueTurn)
    split
    case h_1 o ho => exact hissued o ho
    case h_2 r hr => exact (hheld r hr).runFirst hrun

theorem turn (h : s.Canon) : LeavesCanon (s.turn run due idle) := by
  unfold State.turn
  split
  case h_1 e a rest _ =>
    split
    · exact .refused
    · exact hrun _ _ h
  case h_2 c sched late rest _ =>
    dsimp only
    generalize hs : { s with agenda := rest, late := late } = r
    have hr : r.Canon := hs ▸ h
    obtain ⟨hheld, hissued⟩ := hr.issueFirst hrun (l := r.issueOrder c sched)
    split
    case h_1 o ho => exact hissued o ho
    case h_2 q hq => exact .next (hheld q hq)
  case h_3 u rest _ => exact .next (upset (s := { s with agenda := rest, clos := 0 }) h)
  case h_4 n base size rest _ =>
    exact .next <| setHost (s := { s with agenda := rest }) h
      ((HostIf.setDecoder_mem ..).symm ▸ h.hostMem) ((HostIf.setDecoder_mbox ..).symm ▸ h.hostMbox)
  case h_5 => exact h.freeTurn hrun

end

theorem step (h : s.Canon) : LeavesCanon (step s) := h.passTime.turn fun i _ hr => hr.exec i

end State.Canon

/-- Settles O54: every instruction and every device step keeps the canonical form, and so do the passing of time
and the choice of the turn around it. -/
theorem stepKeepsMemoryCanonical : Obligations.StepKeepsMemoryCanonical := by
  unfold Obligations.StepKeepsMemoryCanonical
  intro s s' hs hstep
  exact State.Canon.step (s := s) hs s' hstep

end Sys2Proof.Machine
end

section
/-! SUPPORT for O52 and O53. What the parts of the reset state are: every die and every core is at its own reset
value, and bytes that nothing has written read as zero (R348, log entry 3); and the two obligations. -/

namespace Sys2Proof.Machine

/-- A memory that lists no byte reads as 0 at every width. -/
@[simp] theorem Memory.read_nil (a n : Nat) : Memory.read [] a n = 0 := by
  rw [Memory.read]
  induction n generalizing a with
  | zero => rfl
  | succ n ih => rw [Memory.bytes, leNat, ih, Memory.byte_nil]; rfl

@[simp] theorem State.die_reset (d : Nat) : State.reset.die d = Die.atReset := ite_self _

@[simp] theorem State.core_reset (c : Nat) : State.reset.core c = Core.atReset := rfl

@[simp] theorem State.counter_reset (c k : Nat) : State.reset.counter c k = 0#32 := rfl

theorem State.canon_reset : State.reset.Canon :=
  State.canon_iff.2 ⟨Die.canon_atReset, Die.canon_atReset, rfl, rfl, List.forall_mem_nil _, List.forall_mem_nil _⟩

/-- Settles O52: every die and every core of the reset state is at its own reset value, whichever is asked for. -/
theorem resetValues : Obligations.ResetValues := by
  unfold Obligations.ResetValues
  refine ⟨rfl, rfl, rfl, rfl, rfl, fun d => ?registers, fun d => ?memory, fun c => ?core⟩
  case registers =>
    rw [State.die_reset]
    exact ⟨rfl, rfl, rfl, rfl, rfl, rfl, rfl, rfl, rfl, rfl, rfl, rfl⟩
  case memory =>
    rw [State.time, State.die_reset]
    exact ⟨rfl, rfl, Memory.byte_nil⟩
  case core =>
    rw [State.core_reset]
    exact ⟨State.counter_reset c, rfl, rfl, fun a n => ⟨Memory.read_nil a n, Memory.read_nil a n⟩⟩

/-- Settles O53: a die or a core at reset is canonical, and the reset state lists no other memory. -/
theorem resetMemoryCanonical : Obligations.ResetMemoryCanonical := State.canon_reset

end Sys2Proof.Machine
end

section
/-! SUPPORT for O15, O17 and O32. What an issued instruction leaves when its body answers a state, and when
it stops. -/

namespace Sys2Proof.Machine

variable {s r : State} {t u : Team} {i : Instr} {body : Team → Effect}

theorem issue_ok (h : Issues s t i) (hb : body t = .ok r) :
    issue i s body = .next (r.countReads t.uid i.timeReads) := by
  rw [issue_of_issues h, hb]

theorem issue_stop {e : Stop} (h : Issues s t i) (hb : body t = .error e) :
    issue i s body = .next (s.takeStop t e) := by
  rw [issue_of_issues h, hb]

theorem issue_raise {e : Trap} (h : Issues s t i) (hb : body t = raise e) :
    issue i s body = .next (s.takeTrap t e) :=
  issue_stop h hb

@[simp] theorem State.core_countReads (c n k : Nat) : (s.countReads n k).core c = s.core c := by
  simp [core]

theorem State.team_countReads (n : Nat) (h : s.team? t.uid = some t) :
    (s.countReads t.uid n).team? t.uid = some { t with timeReads := t.timeReads + n } := by
  by_cases hn : n = 0
  · simp [countReads, hn, h]
  · rw [countReads, if_neg hn]
    exact team_modTeam s (f := fun t => { t with timeReads := t.timeReads + n }) (fun _ => rfl) h

/-- An instruction that leaves its team as `u` in the state `r` completes with that team, its reads of TIME
counted. -/
theorem Completes.of_putTeam {P : State → Team → Prop} (h : Issues s t i) (ht : r.teams = s.teams)
    (hu : u.uid = t.uid) (he : exec i s = .next ((r.putTeam u).countReads t.uid i.timeReads))
    (hP : P ((r.putTeam u).countReads t.uid i.timeReads) { u with timeReads := u.timeReads + i.timeReads }) :
    Completes s i P := by
  have hput : (r.putTeam u).team? u.uid = some u :=
    team_putTeam r (by rw [State.team?, ht, hu, h.uid]; exact h.cur)
  refine ⟨_, _, he, ?_, hP⟩
  rw [← h.uid, ← hu]
  exact State.team_countReads i.timeReads hput

end Sys2Proof.Machine
end

section
/-! SUPPORT for O15. What a mask register reads after a write, the PC that an instruction leaves whatever it did to
masks, MODE and the mask stack, and the obligation. -/

namespace Sys2Proof.Machine

variable {s : State} {t u : Team} {i : Instr}

/-! ### Mask registers (R29, R84, R124) -/

theorem Team.mask_congr (n : Nat) (hm : u.masks = t.masks) (hi : u.ident = t.ident) : u.mask n = t.mask n := by
  simp [mask, hm, hi]

theorem Team.mask_setMask_self {n : Nat} {m : Mask} (h0 : n ≠ 0) (h : n < 16) :
    (t.setMask n m).mask n = m &&& existingMask t.ident.elanes := by
  simp [setMask, mask, h0, h]

theorem Team.mask_setMask_other {n k : Nat} {m : Mask} (h : n = 0 ∨ k ≠ n) :
    (t.setMask n m).mask k = t.mask k := by
  simp only [setMask]
  split_ifs with hn h0
  · rfl
  · simp [mask, (h.resolve_left h0).symm]
  · rfl

theorem Team.mask_advance (n : Nat) : t.advance.mask n = t.mask n := mask_congr n (by simp) (by simp)

/-! ### The PC that an instruction leaves (R115) -/

theorem Team.loopEnds_pc_congr (pc : Word) (l : List Nat) (npc : Word) (h : u.loops = t.loops) :
    (u.loopEnds pc l npc).2 = (t.loopEnds pc l npc).2 := by
  induction l generalizing u t npc with
  | nil => rfl
  | cons n rest ih =>
    have hl (k : Nat) : u.loop k = t.loop k := by simp [Team.loop, h]
    have hin : u.inLoop n pc = t.inLoop n pc := by simp [Team.inLoop, hl]
    simp only [Team.loopEnds, hl, hin]
    split_ifs
    · exact ih _ (by simp only [Team.setLoop]; split_ifs <;> simp [h])
    · rfl
    · exact ih _ h

/-- The next PC depends on the PC, the loops and the handler alone. -/
theorem Team.advance_pc_congr (hp : u.pc = t.pc) (hh : u.inHandler = t.inHandler) (hl : u.loops = t.loops)
    (ha : u.active = t.active) : u.advance.pc = t.advance.pc := by
  simp only [Team.advance, Team.goTo, hp, hh, ha]
  split
  · rfl
  · exact loopEnds_pc_congr t.pc t.active (t.pc + 4#64) hl

/-! ### The guard that MODE names and the destination of a mask form -/

theorem withGuard_of_lt {m : BitVec 16} {g : Nat} (h : g < 16) :
    withGuard m g = BitVec.ofNat 16 (m.toNat / 16 * 16 + g) := by
  have : setBitsOf m.toNat 0 4 g = m.toNat / 16 * 16 + g := by simp [setBitsOf]; omega
  rw [withGuard, this]

/-- MPUSH and MELSE write one of m1 to m15 (R84, Table 4.6). -/
theorem maskDst_of_wellFormed {d a : Field} (ho : i.operands = [.maskDst d, .maskSrc a]) (h : i.wellFormed = true) :
    d.toNat ≠ 0 ∧ d.toNat < 16 := by
  have hc : i.illegalCause = none := by simpa [Instr.wellFormed] using h
  simp only [Instr.illegalCause, ho, List.any_cons, List.any_nil, Operand.reserved, Operand.readOnly] at hc
  split_ifs at hc with _ hr h0
  simp at hr h0
  omega

/-! ### The three forms (R125) -/

/-- The team that MPUSH leaves. -/
def Team.pushed (t : Team) (d a : Field) : Team :=
  { (({ t with stack := { mask := t.guard, mode := t.mode } :: t.stack } : Team).setMask d.toNat
      (t.guard &&& t.mask a.toNat)).advance with mode := withGuard t.mode d.toNat }

/-- The team that MELSE leaves with the entry `e` on top. -/
def Team.complemented (t : Team) (e : StackEntry) (d a : Field) : Team :=
  { (t.setMask d.toNat (e.mask &&& ~~~(t.mask a.toNat))).advance with mode := withGuard t.mode d.toNat }

/-- The team that MPOP leaves of the entry `e` above `rest`. -/
def Team.popped (t : Team) (e : StackEntry) (rest : List StackEntry) : Team :=
  (({ t with stack := rest, mode := e.mode } : Team).setMask (e.mode.toNat % 16) e.mask).advance

theorem exec_mpush {d a : Field} (h : Issues s t (.mpush d a)) (hl : t.stack.length < 32) :
    exec (.mpush d a) s = .next ((s.putTeam (t.pushed d a)).countReads t.uid (Instr.mpush d a).timeReads) :=
  issue_ok h (if_neg (not_le.2 hl))

theorem exec_melse {d a : Field} {e : StackEntry} {rest : List StackEntry} (h : Issues s t (.melse d a))
    (hs : t.stack = e :: rest) : exec (.melse d a) s =
      .next ((s.putTeam (t.complemented e d a)).countReads t.uid (Instr.melse d a).timeReads) :=
  issue_ok h (by rw [hs]; rfl)

theorem exec_mpop {e : StackEntry} {rest : List StackEntry} (h : Issues s t .mpop) (hs : t.stack = e :: rest) :
    exec .mpop s = .next ((s.putTeam (t.popped e rest)).countReads t.uid Instr.mpop.timeReads) :=
  issue_ok h (by rw [hs]; simp [Team.popped, Team.guardReg, bitsOf])

/-- Settles O15: each form leaves the team that R125 gives, or raises MASK_STACK with the depth. -/
theorem maskStack : Obligations.MaskStack := by
  unfold Obligations.MaskStack
  intro s t d a guardTo
  refine ⟨fun h => ⟨fun hl => ?push, fun hl => ?full⟩,
    fun h => ⟨fun e rest hs => ?complement, fun hs => ?noEntry⟩, fun h => ⟨fun e rest hs => ?pop, fun hs => ?empty⟩⟩
  case push =>
    obtain ⟨h0, hd⟩ := maskDst_of_wellFormed rfl h.formed
    refine .of_putTeam h rfl (by simp [Team.pushed]) (exec_mpush h hl)
      ⟨?_, (Team.mask_advance _).trans (Team.mask_setMask_self h0 hd), withGuard_of_lt hd,
        Team.advance_pc_congr ?_ ?_ ?_ ?_, ?_, ?_⟩
    all_goals simp [Team.pushed]
  case full => exact issue_raise h (if_pos hl)
  case complement =>
    obtain ⟨h0, hd⟩ := maskDst_of_wellFormed rfl h.formed
    refine .of_putTeam h rfl (by simp [Team.complemented]) (exec_melse h hs)
      ⟨?_, (Team.mask_advance _).trans (Team.mask_setMask_self h0 hd), withGuard_of_lt hd,
        Team.advance_pc_congr ?_ ?_ ?_ ?_, ?_, ?_⟩
    all_goals simp [Team.complemented]
  case noEntry => exact issue_raise h (by rw [hs]; rfl)
  case pop =>
    have hg : e.mode.toNat % 16 < 16 := Nat.mod_lt _ (by decide)
    refine .of_putTeam h rfl (by simp [Team.popped]) (exec_mpop h hs)
      ⟨?_, ?_, Team.advance_pc_congr ?_ ?_ ?_ ?_, ?_, ?_,
      fun h0 => (Team.mask_advance _).trans (Team.mask_setMask_self h0 hg),
      fun n _ hk => (Team.mask_advance n).trans (Team.mask_setMask_other hk)⟩
    all_goals simp [Team.popped]
  case empty => exact issue_raise h (by rw [hs]; rfl)

end Sys2Proof.Machine
end

section
/-! SUPPORT for O17. What a form that writes one vector register does, with and without a draw (R63, R128, R160), and
that the element-wise forms are such forms with the lanes of Tables 6.2 to 6.4. -/

namespace Sys2Proof.Machine

variable {s : State} {t : Team} {i : Instr} {d : Field} {c : BitVec 1} {v : VReg} {f : LaneForm}
  {srcs : Team → List VReg} {lane : Team → Word → Nat → W32}

/-! ### Writing one register (R63) -/

theorem State.writeVs_one_ok (h : s.occupancyAfter t [(d.toNat, v)] ≤ 256 * t.budget) :
    s.writeVs t [(d.toNat, v)] = .ok { t with vregs := t.vregs.set d.toNat v } := if_neg (not_lt.2 h)

theorem State.writeVs_one_overflow (h : 256 * t.budget < s.occupancyAfter t [(d.toNat, v)]) :
    s.writeVs t [(d.toNat, v)] =
      raise (trapRunOverflow (s.occupancyAfter t [(d.toNat, v)]) (256 * t.budget)) := if_pos h

/-- An instruction whose body writes one register, without a draw. -/
theorem WritesV.of_vecWrite {body : Team → Effect} (hi : exec i s = issue i s body)
    (hb : body t = s.vecWrite t [(d.toNat, v)]) : WritesV s t i d v := by
  intro h
  rw [hi]
  refine ⟨fun hle => ?_, fun hlt => issue_raise h ?_⟩
  · have he := issue_ok h (hb.trans (by rw [State.vecWrite, State.writeVs_one_ok hle]; rfl))
    rwa [State.after, advance_uid]
  · rw [hb, State.vecWrite, State.writeVs_one_overflow hlt]
    rfl

theorem State.vecDraw_ok {s' : State} {z : Draw} {u : Team} {w : Word → List (Nat × VReg)}
    (hz : s.beginDraw t = .ok (s', z)) (hw : s.writeVs t (w z.key) = .ok u) :
    s.vecDraw t true w = .ok (s'.endDraw u z) := by
  simp [vecDraw, hz, bind, Except.bind, hw, pure, Except.pure]

theorem State.vecDraw_raise {s' : State} {z : Draw} {r : Trap} {w : Word → List (Nat × VReg)}
    (hz : s.beginDraw t = .ok (s', z)) (hw : s.writeVs t (w z.key) = raise r) :
    s.vecDraw t true w = .error (if z.rsrc = 1 ∨ z.rsrc = 2 then .trapNoise r else .trap r) := by
  simp [vecDraw, hz, bind, Except.bind, hw, raise]

/-- An instruction whose body writes one register from a key that it draws. -/
theorem DrawsV.of_vecDraw {body : Team → Effect} {w : Word → VReg} (hi : exec i s = issue i s body)
    (hb : body t = s.vecDraw t true fun k => [(d.toNat, w k)]) : DrawsV s t i d w := by
  intro h s' z hz
  rw [hi]
  exact ⟨fun hle => issue_ok h (hb.trans (State.vecDraw_ok hz (State.writeVs_one_ok hle))),
    fun hlt => issue_stop h (hb.trans (State.vecDraw_raise hz (State.writeVs_one_overflow hlt)))⟩

/-! ### Element-wise forms (R61, R128, R130, R131) -/

theorem Team.needEtype_of_mem {ok : List Nat} (h : t.etype ∈ ok) : t.needEtype ok = .ok () := by
  simp [Team.needEtype, h]

theorem Team.needEtype_of_not_mem {ok : List Nat} (h : t.etype ∉ ok) : t.needEtype ok = raise (trapEtype t) := by
  simp [Team.needEtype, h]

theorem maxLen_eq_foldl (xs : List VReg) : maxLen xs = (xs.map VReg.len).foldl max 0 := by
  rw [maxLen, List.foldl_map]

/-- An instruction that runs as an element-wise form does what the form says. -/
theorem LaneForm.says_of_run
    (hi : exec i s = VecForm.run ⟨f.etypes, f.rounds, f.old⟩ i d c srcs lane s) :
    f.Says s t i d c (srcs t) (lane t) := by
  refine ⟨fun h hne => ?_, fun hmem hd => .of_vecWrite hi ?_, fun hmem hd => .of_vecDraw hi ?_⟩
  · rw [hi]
    exact issue_raise h (by rw [Team.needEtype_of_not_mem hne]; rfl)
  · simp only [Team.needEtype_of_mem hmem, hd, State.vecDraw, maxLen_eq_foldl]
    rfl
  · simp only [Team.needEtype_of_mem hmem, hd, maxLen_eq_foldl]
    rfl

/-- Every row of Tables 6.2 and 6.3, and VDIV, runs as its element-wise form. -/
theorem exec_table6Two : ∀ p ∈ table6Two, ∀ (d a b : Field) (c : BitVec 1) (s : State),
    exec (p.1 d a b c) s = VecForm.run ⟨p.2.etypes, p.2.rounds, p.2.old⟩ (p.1 d a b c) d c
      (fun t => [t.vread a, t.vread b])
      (fun t k n => p.2.lane t k n ((t.vread a).lane n) ((t.vread b).lane n) ((t.vread d).lane n)) s := by
  simp only [table6Two, List.forall_mem_cons]
  refine ⟨?vadd, ?vsub, ?vmul, ?vfma, ?vfms, ?vmin, ?vmax, ?vclamp, ?vshl, ?vshr, ?vsra, ?vand, ?vor, ?vxor, ?vmulp,
    ?vdotp, ?vpack, ?vdiv, List.forall_mem_nil _⟩
  all_goals exact fun _ _ _ _ _ => rfl

/-- Every row with one vector source runs as its element-wise form. -/
theorem exec_table6One (ty : BitVec 5) (h : BitVec 1) : ∀ p ∈ table6One ty h,
    ∀ (d a : Field) (c : BitVec 1) (s : State), exec (p.1 d a c) s = VecForm.run ⟨p.2.etypes, p.2.rounds, p.2.old⟩ (p.1 d a c) d c (fun t => [t.vread a])
      (fun t k n => p.2.lane t k n ((t.vread a).lane n) 0#32 ((t.vread d).lane n)) s := by
  simp only [table6One, List.forall_mem_cons]
  refine ⟨?vabs, ?vneg, ?vnot, ?vmov, ?vcvt, ?vunpk, List.forall_mem_nil _⟩
  all_goals exact fun _ _ _ _ => rfl

/-- Settles O17: every row of the tables runs as its element-wise form, and such a form does what it says. -/
theorem vectorElementWise : Obligations.VectorElementWise := by
  unfold Obligations.VectorElementWise
  exact ⟨fun p hp d a b c s t => LaneForm.says_of_run (srcs := fun t => [t.vread a, t.vread b])
      (lane := fun t k n => p.2.lane t k n ((t.vread a).lane n) ((t.vread b).lane n) ((t.vread d).lane n))
      (exec_table6Two p hp d a b c s),
    fun ty h p hp d a c s t => LaneForm.says_of_run (srcs := fun t => [t.vread a])
      (lane := fun t k n => p.2.lane t k n ((t.vread a).lane n) 0#32 ((t.vread d).lane n))
      (exec_table6One ty h p hp d a c s)⟩

end Sys2Proof.Machine
end

section
/-! SUPPORT for O23. A form whose lanes differ where nothing cuts: the first clause of the obligation takes every
function of the lane's number for the form's values, and a run has one value. -/

namespace Sys2Proof.Machine

/-- Two guarded lanes, no old runs, no split: R130 cuts between them only where a source does. -/
def uncutForm : RawForm := { guard := 3#1024, elanes := 2, old := [], len := 2, split := false }

/-- Without a source's cut the two lanes make one run, which takes the value of its first lane. -/
theorem uncutForm_runsWith :
    uncutForm.runsWith (fun _ => false) (fun n => BitVec.ofNat 32 n) = [{ val := 0#32, cnt := 2 }] := by
  decide +kernel

/-- Refutes O23: R130 gives a run lane_result of its first lane, so where the values differ from lane to lane and
nothing cuts, lane 1 of `uncutForm`'s one run reads 0, the value of lane 0, and not its own, 1. The clause on lanes
lacks the premise that a form's values change only at its cuts. -/
theorem not_runsOfRegisters : ¬ Obligations.RunsOfRegisters := by
  unfold Obligations.RunsOfRegisters
  rintro ⟨hraw, -⟩
  obtain ⟨-, -, hlane, -⟩ := hraw uncutForm (fun _ => false) (fun n => BitVec.ofNat 32 n)
  have h1 := hlane 1 (by decide)
  rw [uncutForm_runsWith] at h1
  exact absurd h1 (by decide +kernel)

end Sys2Proof.Machine
end

section
/-! SUPPORT for O32. Run images as bytes: what a header and an entry say, and that the words of an image read back as
the register (R65, R381). -/

namespace Sys2Proof.Machine

/-! ### Ranges of bytes -/

theorem Memory.bytes_add (m : Memory) (a j k : Nat) : m.bytes a (j + k) = m.bytes a j ++ m.bytes (a + j) k := by
  induction j generalizing a with
  | zero => simp [bytes]
  | succ j ih => rw [Nat.add_right_comm, bytes, ih, bytes, List.cons_append, Nat.add_right_comm a 1 j]; rfl

/-- A read of bytes that start as `l` does. -/
theorem Memory.bytes_of_append {m : Memory} {a k : Nat} {l rest : List Byte}
    (h : m.bytes a (l.length + k) = l ++ rest) : m.bytes a l.length = l ∧ m.bytes (a + l.length) k = rest := by
  rw [bytes_add] at h
  exact List.append_inj h (by simp)

/-- Sound bytes stay sound in any part of their range (R365). -/
theorem Core.badAt_mono {k : Core} {a n b j : Nat} (h : k.badAt a n = false) (ha : a ≤ b) (hb : b + j ≤ a + n) :
    k.badAt b j = false := by
  simp only [badAt, List.any_eq_false, Bool.and_eq_true, decide_eq_true_eq] at h ⊢
  intro w hw
  have := h w hw
  omega

/-! ### Headers and entries (Tables 3.3, 3.4) -/

/-- The header of a register's image. -/
def VReg.header (v : VReg) : Nat := v.len + 2 ^ 16 * v.length

/-- The entry of a run. -/
def Run.entry (r : Run) : Nat := r.val.toNat + 2 ^ 32 * (r.cnt - 1)

theorem VReg.image_eq (v : VReg) : v.image = leBytes 8 v.header ++ v.flatMap fun r => leBytes 8 r.entry := rfl

theorem VReg.length_entries (v : VReg) : (v.flatMap fun r => leBytes 8 r.entry).length = 8 * v.length := by
  simp [List.length_flatMap, Nat.mul_comm]

theorem VReg.length_image (v : VReg) : v.image.length = 8 + 8 * v.length := by
  rw [image_eq, List.length_append, length_entries, length_leBytes]

theorem VReg.cnt_le_len {v : VReg} {r : Run} (h : r ∈ v) : r.cnt ≤ v.len :=
  List.le_sum_of_mem (List.mem_map_of_mem h)

theorem VReg.length_le_len {v : VReg} (h : ∀ r ∈ v, 0 < r.cnt) : v.length ≤ v.len := by
  have := List.length_le_sum_of_one_le (v.map Run.cnt) (by simpa [Nat.one_le_iff_ne_zero, Nat.pos_iff_ne_zero] using h)
  simpa [VReg.len] using this

theorem bitsOf_header {v : VReg} (h : v.len ≤ 1024) (hl : v.length ≤ v.len) :
    bitsOf v.header 0 11 = v.len ∧ bitsOf v.header 16 11 = v.length ∧ bitsOf v.header 11 5 = 0 ∧
      bitsOf v.header 27 37 = 0 := by
  simp only [bitsOf, VReg.header]
  omega

theorem headerValid_header {v : VReg} {e : Nat} (hp : ∀ r ∈ v, 0 < r.cnt) (h : v.len ≤ 1024) (he : v.len ≤ e) :
    headerValid v.header e = true := by
  have hle := VReg.length_le_len hp
  obtain ⟨hlen, hn, hz, hz'⟩ := bitsOf_header h hle
  have h0 : v.length = 0 ↔ v.len = 0 := by
    refine ⟨fun h0 => ?_, fun h0 => by omega⟩
    rw [List.eq_nil_of_length_eq_zero h0]
    rfl
  have hempty : (v.length == 0) = (v.len == 0) := Bool.eq_iff_iff.2 (by simpa using h0)
  simp [headerValid, hlen, hn, hz, hz', hle, he, hempty]

theorem bitsOf_entry {r : Run} (h0 : 0 < r.cnt) (h : r.cnt ≤ 1024) :
    bitsOf r.entry 0 32 = r.val.toNat ∧ bitsOf r.entry 32 10 = r.cnt - 1 ∧ bitsOf r.entry 42 22 = 0 := by
  have hv := r.val.isLt
  simp only [bitsOf, Run.entry]
  omega

theorem imageRuns_entries {v : VReg} (hp : ∀ r ∈ v, 0 < r.cnt) (h : v.len ≤ 1024) :
    imageRuns (v.map Run.entry) = v := by
  rw [imageRuns, List.map_map]
  conv_rhs => rw [← List.map_id v]
  refine List.map_congr_left fun r hr => ?_
  obtain ⟨hval, hcnt, -⟩ := bitsOf_entry (hp r hr) ((VReg.cnt_le_len hr).trans h)
  have h1 : r.cnt - 1 + 1 = r.cnt := Nat.sub_add_cancel (hp r hr)
  simp [hval, hcnt, h1]

theorem entriesValid_entries {v : VReg} (hp : ∀ r ∈ v, 0 < r.cnt) (h : v.len ≤ 1024) :
    entriesValid v.header (v.map Run.entry) = true := by
  obtain ⟨hlen, -⟩ := bitsOf_header h (VReg.length_le_len hp)
  have hz : ∀ r ∈ v, bitsOf r.entry 42 22 = 0 := fun r hr =>
    (bitsOf_entry (hp r hr) ((VReg.cnt_le_len hr).trans h)).2.2
  simpa [entriesValid, imageRuns_entries hp h, hlen] using hz

/-! ### An image read back (R381) -/

theorem VReg.header_lt {v : VReg} (h : v.len ≤ 1024) (hl : v.length ≤ v.len) : v.header < 256 ^ 8 := by
  simp only [header]
  omega

theorem Run.entry_lt {r : Run} (h : r.cnt ≤ 1024) : r.entry < 256 ^ 8 := by
  have := r.val.isLt
  simp only [entry]
  omega

/-- The words of a register's entries, read one after the other. -/
theorem Memory.read_entries {m : Memory} {a : Nat} {v : VReg} (hc : ∀ r ∈ v, r.cnt ≤ 1024)
    (h : m.bytes a (8 * v.length) = v.flatMap fun r => leBytes 8 r.entry) :
    (List.range v.length).map (fun k => m.read (a + 8 * k) 8) = v.map Run.entry := by
  induction v generalizing a with
  | nil => rfl
  | cons r rest ih =>
    obtain ⟨hr, hrest⟩ := bytes_of_append (l := leBytes 8 r.entry) (k := 8 * rest.length)
      (by rw [length_leBytes, Nat.add_comm]; exact h)
    rw [length_leBytes] at hr hrest
    have hfirst : m.read a 8 = r.entry := by
      rw [read, hr, leNat_leBytes, Nat.mod_eq_of_lt (Run.entry_lt (hc r (by simp)))]
    have hothers := ih (fun q hq => hc q (by simp [hq])) hrest
    rw [List.length_cons, List.range_succ_eq_map, List.map_cons, List.map_map, List.map_cons, Nat.mul_zero,
      Nat.add_zero, hfirst, ← hothers]
    simp [Function.comp_def, Nat.mul_add, Nat.add_assoc, Nat.add_comm 8]

/-- Where a memory holds the image of a register, its first word is the header and the others are the entries. -/
theorem Memory.read_image {m : Memory} {a : Nat} {v : VReg} (hp : ∀ r ∈ v, 0 < r.cnt) (h : v.len ≤ 1024)
    (hm : m.bytes a v.image.length = v.image) :
    m.read a 8 = v.header ∧
      (List.range v.length).map (fun k => m.read (a + 8 + 8 * k) 8) = v.map Run.entry := by
  have hb : m.bytes a ((leBytes 8 v.header).length + 8 * v.length) = leBytes 8 v.header ++
      v.flatMap fun r => leBytes 8 r.entry := by
    rw [length_leBytes, ← VReg.length_image, hm, VReg.image_eq]
  obtain ⟨hh, he⟩ := bytes_of_append hb
  rw [length_leBytes] at hh he
  exact ⟨by rw [read, hh, leNat_leBytes, Nat.mod_eq_of_lt (VReg.header_lt h (VReg.length_le_len hp))],
    read_entries (fun r hr => (VReg.cnt_le_len hr).trans h) he⟩

end Sys2Proof.Machine
end

section
/-! SUPPORT for O32. The checks of an offset and of a range that pass, each instruction's effect, and the
obligation. -/

namespace Sys2Proof.Machine

variable {s r : State} {t : Team} {i : Instr} {body : Team → Effect}

theorem Does.of_issue (hi : exec i s = issue i s body) (hb : body t = .ok r) : Does s t i r :=
  fun h => hi.trans (issue_ok h hb)

theorem Traps.of_issue {e : Trap} (hi : exec i s = issue i s body) (hb : body t = raise e) : Traps s t i e :=
  fun h => hi.trans (issue_raise h hb)

/-! ### Checks that pass -/

theorem needAligned_ok {va : Word} {n : Nat} (h : va.toNat % n = 0) : needAligned va n = .ok () := if_pos h

theorem checkAll_ok {α : Type} {f : α → Except Stop Unit} {l : List α} (h : ∀ x ∈ l, f x = .ok ()) :
    checkAll f l = .ok () := by
  induction l with
  | nil => rfl
  | cons x rest ih =>
    rw [checkAll, h x (by simp)]
    exact ih fun y hy => h y (by simp [hy])

theorem Team.needScr_ok {o : Word} {n lane : Nat} (h : o.toNat % n = 0) (hr : o.toNat < t.scrSize) :
    t.needScr o n lane = .ok () := by
  simp [needScr, h, hr]

theorem Team.needScrRange_ok {o n : Nat} (h : o + n ≤ t.scrSize) : t.needScrRange o n = .ok () :=
  if_neg (not_lt.2 h)

theorem State.scrSound_ok {o n : Nat} (h : (s.core t.coreId).badAt (t.ident.scrBase + o) n = false) :
    s.scrSound t o n = .ok () := by
  simp [scrSound, soundScratch, h]

/-! ### Run images (R155, R208, R381) -/

theorem rsave_does {d a b : Field} {s1 : State} {ps : List (Word × Nat × Mapped)}
    (ha : (s.sread t b).toNat % 8 = 0)
    (hmap : s.mapParts t .write [0, 1] (partsOf (s.sread t b) (t.vread a).image.length) = .ok (s1, ps))
    (hready : s1.needParts t ps = .ok ()) (hreg : ∀ q ∈ ps, s1.needRegions t.coreId t.ctx q.2.2.phys = .ok ()) :
    Does s t (.rsave d a b) ((s1.storeParts t ps (t.vread a).image).modTeam t.uid fun u =>
      (u.setD d (BitVec.ofNat 64 (t.vread a).image.length)).advance) := by
  refine .of_issue rfl ?_
  simp only [needAligned_ok ha, hmap, hready, checkAll_ok hreg, bind, Except.bind]
  rfl

theorem sstc_does {d a b : Field} (ha : (s.sread t b).toNat % 8 = 0)
    (hr : (s.sread t b).toNat + (t.vread a).image.length ≤ t.scrSize) :
    Does s t (.sstc d a b) ((s.scrWrite t (s.sread t b).toNat (t.vread a).image).putTeam
      (t.setD d (BitVec.ofNat 64 (t.vread a).image.length)).advance) := by
  have hlt : (s.sread t b).toNat < t.scrSize := by
    have := VReg.length_image (t.vread a)
    omega
  refine .of_issue rfl ?_
  simp only [Team.needScr_ok ha hlt, Team.needScrRange_ok hr, bind, Except.bind]
  rfl

theorem sldc_writes {d a : Field} {c : BitVec 1} {v : VReg} (he : v.len ≤ t.ident.elanes)
    (hp : ∀ q ∈ v, 0 < q.cnt) (h : v.len ≤ 1024) (ha : (s.sread t a).toNat % 8 = 0)
    (hr : (s.sread t a).toNat + v.image.length ≤ t.scrSize)
    (hs : (s.core t.coreId).badAt (t.ident.scrBase + (s.sread t a).toNat) v.image.length = false)
    (hm : (s.core t.coreId).scratch.bytes (t.ident.scrBase + (s.sread t a).toNat) v.image.length = v.image) :
    WritesV s t (.sldc d a c) d (v.asked c) := by
  refine .of_vecWrite rfl ?_
  obtain ⟨hh, hes⟩ := Memory.read_image hp h hm
  rw [VReg.length_image] at hr hs
  have hn := (bitsOf_header h (VReg.length_le_len hp)).2.1
  have hlt : (s.sread t a).toNat < t.scrSize := by omega
  have hrange : (s.sread t a).toNat + 8 + 8 * v.length ≤ t.scrSize := by omega
  have hsound : s.scrSound t (s.sread t a).toNat 8 = .ok () :=
    State.scrSound_ok (Core.badAt_mono hs (by omega) (by omega))
  have hsound' : s.scrSound t ((s.sread t a).toNat + 8) (8 * v.length) = .ok () :=
    State.scrSound_ok (Core.badAt_mono hs (by omega) (by omega))
  have hread : s.scrRead t (s.sread t a).toNat 8 = v.header := hh
  have hreads : (List.range v.length).map (fun k => s.scrRead t ((s.sread t a).toNat + 8 + 8 * k) 8) =
      v.map Run.entry := by
    simpa [State.scrRead, Nat.add_assoc] using hes
  simp only [Team.needScr_ok ha hlt, hsound, hread, headerValid_header hp h he, hn,
    Team.needScrRange_ok hrange, hsound', hreads, entriesValid_entries hp h,
    imageRuns_entries hp h, bind, Except.bind]
  rfl

theorem sldc_traps {d a : Field} {c : BitVec 1} (ha : (s.sread t a).toNat % 8 = 0)
    (hr : (s.sread t a).toNat < t.scrSize)
    (hs : (s.core t.coreId).badAt (t.ident.scrBase + (s.sread t a).toNat) 8 = false)
    (hv : headerValid ((s.core t.coreId).scratch.read (t.ident.scrBase + (s.sread t a).toNat) 8) t.ident.elanes =
      false) : Traps s t (.sldc d a c) (trapOperand a.toNat (s.sread t a)) := by
  have hread : headerValid (s.scrRead t (s.sread t a).toNat 8) t.ident.elanes = false := hv
  refine .of_issue rfl ?_
  simp only [Team.needScr_ok ha hr, State.scrSound_ok hs, hread, bind, Except.bind]
  rfl

/-- RLOAD where both reads are served and the image is valid. -/
theorem rload_does {d a : Field} {c : BitVec 1} {s1 s2 s3 s4 : State} {hp ps : List (Word × Nat × Mapped)}
    {hb bs : List Byte} (ha : (s.sread t a).toNat % 8 = 0)
    (hmap : s.mapParts t .read [0, 1] (partsOf (s.sread t a) 8) = .ok (s1, hp)) (hready : s1.needParts t hp = .ok ())
    (hload : s1.loadParts t hp = .ok (s2, hb)) (hv : headerValid (leNat hb) t.ident.elanes = true)
    (hmap' : s2.mapParts t .read [0, 1] (partsOf (s.sread t a + 8#64) (8 * bitsOf (leNat hb) 16 11)) = .ok (s3, ps))
    (hready' : s3.needParts t ps = .ok ()) (hload' : s3.loadParts t ps = .ok (s4, bs))
    (hes : entriesValid (leNat hb) (wordsOf (bitsOf (leNat hb) 16 11) bs) = true)
    (hocc : s4.occupancyAfter t [(d.toNat, (imageRuns (wordsOf (bitsOf (leNat hb) 16 11) bs)).asked c)] ≤
      256 * t.budget) :
    Does s t (.rload d a c) (s4.putTeam (t.setVs
      [(d.toNat, (imageRuns (wordsOf (bitsOf (leNat hb) 16 11) bs)).asked c)]).advance) := by
  refine .of_issue rfl ?_
  simp only [needAligned_ok ha, hmap, hready, hload, hv, hmap', hready', hload', hes, State.vecWrite,
    State.writeVs_one_ok hocc, bind, Except.bind]
  rfl

theorem runImages : RunImages := by
  intro s t d a b c image size asked
  exact ⟨fun _ _ => rsave_does, sstc_does, fun _ => sldc_writes, sldc_traps,
    fun _ _ _ _ _ _ _ _ => rload_does⟩

/-! ### Peers (R166, R209, R404) -/

/-- A team that waits for a peer's reply issues nothing (R404). -/
theorem State.canIssue_of_peer {d : Option Nat} {k o c w : Nat} (h : t.pend = some (.peer d k o c w)) :
    s.canIssue t = false := by
  simp [canIssue, waitsTurn, Team.goesOn, Team.loading, h]

theorem peerAccess_misaligned {a b : Field} {dest : Option Nat} {write : Option W32}
    (h : (s.sread t b).toNat % 4 ≠ 0) :
    s.peerAccess t a b dest write = raise (trapMisaligned (s.sread t b) 0) := by
  simp [State.peerAccess, h]

theorem peerAccess_out_of_range {a b : Field} {dest : Option Nat} {write : Option W32}
    (h : (s.sread t b).toNat % 4 = 0)
    (hr : t.ident.clw * t.ident.clh ≤ (s.sread t a).toNat ∨ t.scrSize ≤ (s.sread t b).toNat) :
    s.peerAccess t a b dest write = raise (trapScrRange (s.sread t b) (s.sread t a).toNat 0) := by
  simp [State.peerAccess, h, hr]

/-- The request that a peer access sends. -/
def State.peerRequest (s : State) (t : Team) (a b : Field) (write : Option W32) : PeerReq :=
  { uid := t.uid, ctx := t.ctx, cluster := t.ident.teamid / (t.ident.clw * t.ident.clh), rank := (s.sread t a).toNat,
    offset := (s.sread t b).toNat, write := write, since := s.time t.ident.die, task := t.ident.taskAt,
    wave := t.waveUid, back := t.coreId }

/-- The state in which the request stands at the core of the rank that sread(A) names. -/
def State.peerSent (s : State) (t : Team) (a b : Field) (write : Option W32) : State :=
  s.modCore (rankCore t.coreId t.ident.clw t.ident.rank (s.sread t a).toNat) fun k =>
    { k with inbound := k.inbound ++ [s.peerRequest t a b write] }

/-- The team that awaits the reply. -/
def State.awaitingPeer (s : State) (t : Team) (a b : Field) (dest : Option Nat) : Team :=
  { t with pend := some (.peer dest (s.sread t a).toNat (s.sread t b).toNat
      (rankCore t.coreId t.ident.clw t.ident.rank (s.sread t a).toNat) (s.time t.ident.die)) }

theorem peerAccess_sends {a b : Field} {dest : Option Nat} {write : Option W32} (h : (s.sread t b).toNat % 4 = 0)
    (hr : (s.sread t a).toNat < t.ident.clw * t.ident.clh) (ho : (s.sread t b).toNat < t.scrSize) :
    s.peerAccess t a b dest write = .ok ((s.peerSent t a b write).putTeam (s.awaitingPeer t a b dest)) := by
  simp [State.peerAccess, State.peerSent, State.peerRequest, State.awaitingPeer, h, not_le.2 hr, not_le.2 ho]

theorem peerAccesses : PeerAccesses := by
  intro s t d a b r o size target sends
  have hsends {i : Instr} {body : Team → Effect} {dest : Option Nat} {write : Option W32}
      (hi : exec i s = issue i s body) (hb : body t = s.peerAccess t a b dest write) : sends i dest write := by
    refine ⟨fun h => .of_issue hi (hb.trans (peerAccess_misaligned h)),
      fun h hr => .of_issue hi (hb.trans (peerAccess_out_of_range h hr)), fun h hr ho hissues => ?_⟩
    refine Completes.of_putTeam (r := s.peerSent t a b write) (u := s.awaitingPeer t a b dest) hissues rfl rfl
      (hi.trans (issue_ok hissues (hb.trans (peerAccess_sends h hr ho))))
      ⟨?inbound, rfl, rfl, State.canIssue_of_peer rfl⟩
    rw [State.core_countReads, core_putTeam, State.peerSent, core_modCore]
    rfl
  exact ⟨hsends rfl rfl, hsends rfl rfl⟩

/-- Settles O32: the run images, and the accesses of a cluster's peers. -/
theorem imagesAndPeers : Obligations.ImagesAndPeers := ⟨runImages, peerAccesses⟩

end Sys2Proof.Machine
end

section
/-! SUPPORT for O8. Floating point: what an encoding says of its number, and that the one rounding of a number which
the format holds finds its encoding again (R68 to R70, R76, R77). -/

namespace Sys2Proof.Machine

/-! ### Dyadic numbers -/

/-- A dyadic number as the fraction that `scaled` makes of it; one of the two powers is 1. -/
theorem scaled_of_ne_zero {neg : Bool} {m : Nat} {q : Int} (hm : m ≠ 0) :
    scaled neg m q = .fin ((if neg then -1 else 1) * (m * 2 ^ q.toNat : Nat)) (2 ^ (-q).toNat) := by
  rcases le_or_gt 0 q with hq | hq
  · have h0 : (-q).toNat = 0 := by omega
    cases neg <;> simp [scaled, hm, hq, h0]
  · have h0 : q.toNat = 0 := by omega
    cases neg <;> simp [scaled, hm, not_le.2 hq, h0]

/-- The exponent of a dyadic number is that of its significand, moved by the power of two. -/
theorem ilog2_scaled {m : Nat} {q : Int} (hm : m ≠ 0) :
    ilog2 (m * 2 ^ q.toNat) (2 ^ (-q).toNat) = Nat.log2 m + q := by
  have hself : 2 ^ m.log2 ≤ m := Nat.log2_self_le hm
  have hlog : (m * 2 ^ q.toNat).log2 = m.log2 + q.toNat := by
    rw [Nat.log2_eq_iff (Nat.mul_ne_zero hm (by positivity)), Nat.add_right_comm, Nat.pow_add, Nat.pow_add]
    exact ⟨Nat.mul_le_mul_right _ hself, Nat.mul_lt_mul_of_pos_right Nat.lt_log2_self (by positivity)⟩
  simp only [ilog2, hlog, Nat.log2_two_pow]
  rw [show ((m.log2 + q.toNat : Nat) : Int) - ((-q).toNat : Nat) = m.log2 + q by omega]
  split_ifs with hk hlt hlt
  · exfalso
    have : 2 ^ (-q).toNat * 2 ^ (m.log2 + q : Int).toNat = 2 ^ m.log2 * 2 ^ q.toNat := by
      rw [← Nat.pow_add, ← Nat.pow_add]
      congr 1
      omega
    rw [this] at hlt
    exact absurd (Nat.mul_le_mul_right _ hself) (not_le.2 hlt)
  · rfl
  · exfalso
    have : 2 ^ (-q).toNat = 2 ^ m.log2 * 2 ^ q.toNat * 2 ^ (-(m.log2 + q : Int)).toNat := by
      rw [← Nat.pow_add, ← Nat.pow_add]
      congr 1
      omega
    rw [this] at hlt
    exact absurd (Nat.mul_le_mul_right _ (Nat.mul_le_mul_right _ hself)) (not_le.2 hlt)
  · rfl

/-- At its own exponent the significand of a dyadic number is a whole number. -/
theorem significand_scaled (m : Nat) (q : Int) :
    significand (m * 2 ^ q.toNat) (2 ^ (-q).toNat) q = (m, 0, 2 ^ q.natAbs) := by
  rcases le_or_gt 0 q with hq | hq
  · have h0 : (-q).toNat = 0 := by omega
    have ha : q.natAbs = q.toNat := by omega
    simp [significand, hq, h0, ha]
  · have h0 : q.toNat = 0 := by omega
    have ha : q.natAbs = (-q).toNat := by omega
    simp [significand, not_le.2 hq, h0, ha]

/-! ### The fields of an encoding (R68) -/

variable {f : Fmt} {z : Rounding} {neg : Bool} {bits m : Nat} {q : Int}

/-- The sign bit is the encoding's top bit. -/
theorem Fmt.zero_sign (h : bits < 2 * 2 ^ (f.ew + f.fw)) :
    f.zero (bitOf bits (f.ew + f.fw)) = bits / 2 ^ (f.ew + f.fw) * 2 ^ (f.ew + f.fw) := by
  have hsign : bits / 2 ^ (f.ew + f.fw) < 2 := Nat.div_lt_of_lt_mul (by omega)
  rcases Nat.lt_succ_iff_lt_or_eq.1 hsign with h1 | h1
  · simp [zero, bitOf, Nat.lt_one_iff.1 h1]
  · simp [zero, bitOf, h1]

theorem Fmt.sign_eq (h : bits < 2 * 2 ^ (f.ew + f.fw)) :
    bitOf bits (f.ew + f.fw) = decide (2 ^ (f.ew + f.fw) ≤ bits) := by
  have hsign : bits / 2 ^ (f.ew + f.fw) < 2 := Nat.div_lt_of_lt_mul (by omega)
  rw [bitOf, Nat.mod_eq_of_lt hsign, Bool.beq_eq_decide_eq, decide_eq_decide]
  rw [show bits / 2 ^ (f.ew + f.fw) = 1 ↔ 1 ≤ bits / 2 ^ (f.ew + f.fw) by omega, Nat.one_le_div_iff (by positivity)]

/-- An encoding is its sign, its exponent field and its fraction field. -/
theorem Fmt.eq_fields (h : bits < 2 * 2 ^ (f.ew + f.fw)) :
    bits = f.zero (bitOf bits (f.ew + f.fw)) + (bitsOf bits f.fw f.ew * 2 ^ f.fw + bitsOf bits 0 f.fw) := by
  have hlow := Nat.div_add_mod bits (2 ^ f.fw)
  have hhigh := Nat.div_add_mod (bits / 2 ^ f.fw) (2 ^ f.ew)
  rw [Nat.div_div_eq_div_mul, ← Nat.pow_add, Nat.add_comm f.fw] at hhigh
  calc bits = 2 ^ f.fw * (bits / 2 ^ f.fw) + bits % 2 ^ f.fw := hlow.symm
    _ = 2 ^ f.fw * (2 ^ f.ew * (bits / 2 ^ (f.ew + f.fw)) + bits / 2 ^ f.fw % 2 ^ f.ew) + bits % 2 ^ f.fw := by
      rw [hhigh]
    _ = _ := by
      rw [zero_sign h, bitsOf, bitsOf, pow_zero, Nat.div_one, Nat.pow_add]
      ring

/-- No encoding below the greatest exponent field is an infinity. -/
theorem Fmt.ne_infinity {e : Nat} (he : e + 1 < 2 ^ f.ew) (hm : m < 2 ^ f.fw) :
    f.zero neg + (e * 2 ^ f.fw + m) ≠ f.infinity neg := by
  have hle : (e + 1) * 2 ^ f.fw ≤ (2 ^ f.ew - 1) * 2 ^ f.fw := Nat.mul_le_mul_right _ (by omega)
  simp only [zero, infinity]
  rw [Nat.add_mul] at hle
  omega

theorem Fmt.isSubnormal_iff : f.isSubnormal bits = true ↔ bitsOf bits f.fw f.ew = 0 ∧ bitsOf bits 0 f.fw ≠ 0 := by
  simp [isSubnormal]

theorem Fmt.two_bias (hw : 1 ≤ f.ew) : 2 * f.bias + 2 = 2 ^ f.ew := by
  obtain ⟨k, hk⟩ : ∃ k, f.ew = k + 1 := ⟨f.ew - 1, by omega⟩
  have : 0 < 2 ^ k := by positivity
  simp only [bias, hk, Nat.add_sub_cancel, Nat.pow_succ]
  omega

/-! ### Rounding what the format holds (R77) -/

@[simp] theorem roundsAway_exact (odd : Bool) (d : Nat) : roundsAway z neg odd 0 d = false := if_pos rfl

/-- A dyadic number that has its significand at the exponent at which round_to looks for it, and no overflow: no
rounding takes place, and what is left is the encoding, flushed where DNZ asks. -/
theorem roundFmt_scaled (hm : m ≠ 0) (hexp : max (m.log2 + q) (1 - (f.bias : Int)) = q + f.fw)
    (hmax : m.log2 + q ≤ f.bias)
    (hinf : f.zero neg + ((q + f.fw + f.bias - 1).toNat * 2 ^ f.fw + m) ≠ f.infinity neg) :
    roundFmt f z (scaled neg m q) =
      if z.dnz && f.isSubnormal (f.zero neg + ((q + f.fw + f.bias - 1).toNat * 2 ^ f.fw + m)) then f.zero neg
      else f.zero neg + ((q + f.fw + f.bias - 1).toNat * 2 ^ f.fw + m) := by
  have hpos : 0 < m * 2 ^ q.toNat := Nat.mul_pos (by omega) (by positivity)
  have hneg : decide ((if neg then -1 else 1) * ((m * 2 ^ q.toNat : Nat) : Int) < 0) = neg := by
    cases neg
    · simp
    · simp
      omega
  have habs : ((if neg then -1 else 1) * ((m * 2 ^ q.toNat : Nat) : Int)).natAbs = m * 2 ^ q.toNat := by
    rw [Int.natAbs_mul, Int.natAbs_natCast]
    cases neg <;> simp
  have hno : ¬(f.bias : Int) + 1 ≤ m.log2 + q := by omega
  rw [scaled_of_ne_zero hm, roundFmt]
  simp only [roundFinite, hneg, habs, ilog2_scaled hm, if_neg hno, hexp, add_sub_cancel_right, significand_scaled,
    roundsAway_exact, Bool.false_eq_true, if_false, hinf, decide_false, Bool.false_and]

theorem bitsOf_zero (v n : Nat) : bitsOf v 0 n = v % 2 ^ n := by simp [bitsOf]

theorem roundFmt_normal (h : bits < 2 * 2 ^ (f.ew + f.fw)) (hw : 1 ≤ f.ew) (h0 : bitsOf bits f.fw f.ew ≠ 0)
    (h1 : bitsOf bits f.fw f.ew ≠ 2 ^ f.ew - 1) (dnz : Bool) : roundFmt f z (f.decode dnz bits) = bits := by
  have hlt : bitsOf bits f.fw f.ew < 2 ^ f.ew := Nat.mod_lt _ (by positivity)
  have hm : bitsOf bits 0 f.fw < 2 ^ f.fw := Nat.mod_lt _ (by positivity)
  have hbias := f.two_bias hw
  have hsub : f.isSubnormal bits = false := by simp [Fmt.isSubnormal, h0]
  have hlog : (bitsOf bits 0 f.fw + 2 ^ f.fw).log2 = f.fw := by
    rw [Nat.log2_eq_iff (by omega), Nat.pow_succ]
    omega
  have hy : f.zero (bitOf bits (f.ew + f.fw)) +
      ((((bitsOf bits f.fw f.ew : Int) - f.bias - f.fw) + f.fw + f.bias - 1).toNat * 2 ^ f.fw +
        (bitsOf bits 0 f.fw + 2 ^ f.fw)) = bits := by
    have he : (((bitsOf bits f.fw f.ew : Int) - f.bias - f.fw) + f.fw + f.bias - 1).toNat + 1 =
        bitsOf bits f.fw f.ew := by omega
    conv_rhs => rw [Fmt.eq_fields h, ← he, Nat.add_mul]
    omega
  simp only [Fmt.decode, if_neg h1, if_neg h0]
  rw [roundFmt_scaled (by omega) (by rw [hlog]; omega) (by rw [hlog]; omega), hy]
  · simp [hsub]
  · rw [hy]
    conv_lhs => rw [Fmt.eq_fields h]
    exact Fmt.ne_infinity (by omega) hm

theorem roundFmt_subnormal (h : bits < 2 * 2 ^ (f.ew + f.fw)) (hw : 1 ≤ f.ew) (h0 : bitsOf bits f.fw f.ew = 0)
    (h1 : bitsOf bits 0 f.fw ≠ 0) :
    roundFmt f z (f.decode false bits) = if z.dnz then f.zero (bitOf bits (f.ew + f.fw)) else bits := by
  have hm : bitsOf bits 0 f.fw < 2 ^ f.fw := Nat.mod_lt _ (by positivity)
  have hbias := f.two_bias hw
  have hsub : f.isSubnormal bits = true := by simp [Fmt.isSubnormal, h0, h1]
  have hlog : (bitsOf bits 0 f.fw).log2 < f.fw := (Nat.log2_lt h1).2 hm
  have hy : f.zero (bitOf bits (f.ew + f.fw)) + (((1 - (f.bias : Int) - f.fw) + f.fw + f.bias - 1).toNat *
      2 ^ f.fw + bitsOf bits 0 f.fw) = bits := by
    have he : ((1 - (f.bias : Int) - f.fw) + f.fw + f.bias - 1).toNat = bitsOf bits f.fw f.ew := by omega
    rw [he]
    exact (Fmt.eq_fields h).symm
  have hne : 0 ≠ 2 ^ f.ew - 1 := by omega
  simp only [Fmt.decode, h0, if_neg hne, if_true, h1, decide_false, Bool.or_false, Bool.false_eq_true, if_false]
  rw [roundFmt_scaled h1 (by omega) (by omega), hy]
  · simp [hsub]
  · rw [hy]
    conv_lhs => rw [Fmt.eq_fields h, h0]
    exact Fmt.ne_infinity (by omega) hm

/-- Rounding what an encoding that is no NaN says: the encoding, or a zero of its sign for a subnormal that DNZ
flushes, as an operand or as the result. -/
theorem roundFmt_decode (h : bits < 2 * 2 ^ (f.ew + f.fw)) (hw : 1 ≤ f.ew)
    (hnan : bitsOf bits f.fw f.ew ≠ 2 ^ f.ew - 1 ∨ bitsOf bits 0 f.fw = 0) (dnz : Bool) :
    roundFmt f z (f.decode dnz bits) =
      if f.isSubnormal bits && (dnz || z.dnz) then f.zero (bitOf bits (f.ew + f.fw)) else bits := by
  have hbias := f.two_bias hw
  by_cases h1 : bitsOf bits f.fw f.ew = 2 ^ f.ew - 1
  · have hm := hnan.resolve_left (not_not.2 h1)
    have hsub : f.isSubnormal bits = false := by simp [Fmt.isSubnormal, hm]
    have hinf : f.infinity (bitOf bits (f.ew + f.fw)) = bits := by
      conv_rhs => rw [Fmt.eq_fields h, h1, hm]
      rfl
    simp [Fmt.decode, h1, hm, hsub, roundFmt, hinf]
  by_cases h0 : bitsOf bits f.fw f.ew = 0
  · have hne : 0 ≠ 2 ^ f.ew - 1 := by omega
    by_cases hm : bitsOf bits 0 f.fw = 0
    · have hsub : f.isSubnormal bits = false := by simp [Fmt.isSubnormal, hm]
      have hz : f.zero (bitOf bits (f.ew + f.fw)) = bits := by
        conv_rhs => rw [Fmt.eq_fields h, h0, hm]
        simp
      simp [Fmt.decode, h0, hne, hm, hsub, roundFmt, hz]
    · have hsub : f.isSubnormal bits = true := by simp [Fmt.isSubnormal, h0, hm]
      cases dnz
      · simp [roundFmt_subnormal h hw h0 hm, hsub]
      · simp [Fmt.decode, h0, hne, hsub, roundFmt]
  · have hsub : f.isSubnormal bits = false := by simp [Fmt.isSubnormal, h0]
    simp [roundFmt_normal h hw h0 h1, hsub]

/-! ### The formats of Table 3.6 -/

theorem table36_formats : ∀ p ∈ table36, 1 ≤ p.1.ew ∧ p.1.canonicalNan = p.2 := by decide

theorem roundingFloats : RoundingFloats := by
  intro p hp z bits f top exponent fraction h
  obtain ⟨hw, hcanon⟩ := table36_formats p hp
  have hfrac : bitsOf bits 0 f.fw = fraction := bitsOf_zero bits f.fw
  have hexp : bitsOf bits f.fw f.ew = exponent := rfl
  have hbias := f.two_bias hw
  refine ⟨fun h1 h0 dnz => ?nan, fun h0 h1 hz => ?flushed, fun h1 h0 => ?others⟩
  case nan =>
    have hdec : f.decode dnz bits = .nan := by simp [Fmt.decode, hfrac, hexp, h1, h0]
    rw [hdec]
    exact hcanon
  case flushed =>
    have hne : 0 ≠ 2 ^ f.ew - 1 := by omega
    have hsub : f.isSubnormal bits = true := by simp [Fmt.isSubnormal, hexp, hfrac, h0, h1]
    constructor
    · rw [← Fmt.sign_eq h]
      simp [Fmt.decode, hexp, h0, hne]
    · intro dnz
      rw [roundFmt_decode h hw (.inl (by rw [hexp, h0]; exact hne)), ← Fmt.zero_sign h]
      simp [hsub, hz]
  case others =>
    rw [roundFmt_decode h hw (by rwa [hexp, hfrac])]
    refine if_neg ?_
    simp only [Fmt.isSubnormal, hexp, hfrac, Bool.or_self]
    rcases h0 with h0 | h0 | h0 <;> simp [h0]

end Sys2Proof.Machine
end

section
/-! SUPPORT for O8. Integers and P8: a value of the type is its own rounding, and the canonical byte comes first among
the bytes of its value (R71, R73, R74, R77); and the obligation. -/

namespace Sys2Proof.Machine

variable {z : Rounding} {signed : Bool} {w bits : Nat} {x : Int}

/-! ### Integers (R71) -/

/-- No rounding mode moves a whole number. -/
theorem roundInt_one (z : Rounding) (x : Int) : roundInt z x 1 = x := by
  have hfloor : floorDiv x 1 = x := by simp [floorDiv]
  simp only [roundInt, hfloor]
  refine if_neg ?_
  split <;> simp

theorem satTo_of_mem (hlo : intMin signed w ≤ x) (hhi : x ≤ intMax signed w) : satTo signed w x = wrapInt w x := by
  rw [satTo, max_eq_left hlo, min_eq_left hhi]

theorem roundToInt_ofInt (hlo : intMin signed w ≤ x) (hhi : x ≤ intMax signed w) :
    roundToInt signed w z (.ofInt x) = wrapInt w x := by
  by_cases h0 : x = 0
  · simp [XReal.ofInt, XReal.ofRat, h0, roundToInt, wrapInt]
  · simp [XReal.ofInt, XReal.ofRat, h0, roundToInt, roundInt_one, satTo_of_mem hlo hhi]

theorem roundToInt_unsigned (h : bits < 2 ^ w) :
    roundToInt false w z (subVal (.int false w) z.dnz bits) = bits := by
  have hcast : (bits : Int) < 2 ^ w := by exact_mod_cast h
  have hmod : (bits : Int) % 2 ^ w = bits := Int.emod_eq_of_lt (by omega) hcast
  have hlo : intMin false w ≤ bits := Int.natCast_nonneg bits
  have hhi : (bits : Int) ≤ intMax false w := show (bits : Int) ≤ 2 ^ w - 1 by omega
  rw [subVal, hmod, roundToInt_ofInt hlo hhi, wrapInt, hmod, Int.toNat_natCast]

theorem wrapInt_signedOf (h : bits < 2 ^ w) : wrapInt w (signedOf w bits) = bits := by
  have hcast : (bits : Int) < 2 ^ w := by exact_mod_cast h
  have hmod : (bits : Int) % 2 ^ w = bits := Int.emod_eq_of_lt (by omega) hcast
  simp only [wrapInt, signedOf, Nat.mod_eq_of_lt h]
  split_ifs <;> simp [hmod]

theorem signedOf_mem (hw : 0 < w) : intMin true w ≤ signedOf w bits ∧ signedOf w bits ≤ intMax true w := by
  obtain ⟨k, rfl⟩ : ∃ k, w = k + 1 := ⟨w - 1, by omega⟩
  have hlt : bits % 2 ^ (k + 1) < 2 ^ (k + 1) := Nat.mod_lt _ (by positivity)
  have hcast : ((2 ^ k : Nat) : Int) = 2 ^ k := by push_cast; rfl
  simp only [intMin, intMax, signedOf, if_true, Nat.add_sub_cancel, pow_succ] at hlt ⊢
  split_ifs <;> omega

theorem roundToInt_signed (hw : 0 < w) (h : bits < 2 ^ w) :
    roundToInt true w z (subVal (.int true w) z.dnz bits) = bits := by
  obtain ⟨hlo, hhi⟩ := signedOf_mem (bits := bits) hw
  rw [subVal, roundToInt_ofInt hlo hhi, wrapInt_signedOf h]

theorem roundingIntegers : RoundingIntegers := by
  intro p hp z bits h
  have hw : ∀ q ∈ [(true, 32), (false, 32), (true, 16), (false, 16), (true, 8), (false, 8), (true, 6), (true, 4),
      (false, 4)], 0 < q.2 := by decide
  obtain ⟨signed, w⟩ := p
  cases signed
  · exact roundToInt_unsigned h
  · exact roundToInt_signed (hw _ hp) h

/-! ### P8 (R73, R74) -/

/-- The order in which R74 prefers bytes of one value: the larger kb, then the smaller ka. -/
abbrev p8Before (c x : Nat) : Prop := x % 8 < c % 8 ∨ (x % 8 = c % 8 ∧ c / 16 % 8 ≤ x / 16 % 8)

/-- A byte with the sign of each zero term cleared. -/
def p8Plain (x : Nat) : Nat :=
  x - (if x % 8 = 7 ∧ x / 8 % 2 = 1 then 8 else 0) - (if x / 16 % 8 = 7 ∧ x / 128 % 2 = 1 then 128 else 0)

theorem p8Plain_mem : ∀ x < 256, p8Plain x ∈ p8Candidates := by decide +kernel

theorem p8Units_p8Plain : ∀ x < 256, p8Units (p8Plain x) = p8Units x := by decide +kernel

theorem p8Plain_shifts : ∀ x < 256, p8Plain x % 8 = x % 8 ∧ p8Plain x / 16 % 8 = x / 16 % 8 := by decide +kernel

theorem p8Units_mem : ∀ x < 256, -128 ≤ p8Units x ∧ p8Units x ≤ 128 := by decide +kernel

theorem p8Before_trans {a b c : Nat} (h : p8Before a b) (h' : p8Before b c) : p8Before a c := by
  simp only [p8Before] at *
  omega

theorem p8Candidates_pairwise : p8Candidates.Pairwise p8Before := by
  have : IsTrans Nat p8Before := ⟨fun _ _ _ => p8Before_trans⟩
  have hchain : p8Candidates.IsChain p8Before := by decide +kernel
  exact hchain.pairwise

theorem p8Candidates_plain : ∀ c ∈ p8Candidates, c < 256 ∧ (c % 8 = 7 → c / 8 % 2 = 0) := by decide +kernel

theorem p8Canonical_zero : p8Canonical 0 = some 0x77 := by decide +kernel

/-- What a search finds in an ordered list comes before all else that it could have found. -/
theorem related_of_find? {α : Type} {R : α → α → Prop} {p : α → Bool} {l : List α} {c x : α}
    (hl : l.Pairwise R) (hc : l.find? p = some c) (hx : x ∈ l) (hp : p x = true) : x = c ∨ R c x := by
  obtain ⟨-, before, after, rfl, hbefore⟩ := List.find?_eq_some_iff_append.1 hc
  obtain ⟨-, hafter, -⟩ := List.pairwise_append.1 hl
  rcases List.mem_append.1 hx with h | h
  · exact absurd (hbefore x h) (by simp [hp])
  · exact (List.mem_cons.1 h).imp_right ((List.pairwise_cons.1 hafter).1 x)

theorem p8Canonical_isSome {x : Nat} (h : x < 256) : (p8Canonical (p8Units x)).isSome = true :=
  List.find?_isSome.2 ⟨p8Plain x, p8Plain_mem x h, by simp [p8Units_p8Plain x h]⟩

/-- The canonical byte of a value comes first among the bytes of that value (R74). -/
theorem p8Before_of_canonical {u : Int} {c x : Nat} (hc : p8Canonical u = some c) (h : x < 256) (hx : p8Units x = u) :
    p8Before c x := by
  obtain ⟨hkb, hka⟩ := p8Plain_shifts x h
  have hor := related_of_find? p8Candidates_pairwise hc (p8Plain_mem x h) (by simp [p8Units_p8Plain x h, hx])
  rw [p8Before, ← hkb, ← hka]
  rcases hor with heq | hbefore
  · exact .inr ⟨by rw [heq], by rw [heq]⟩
  · exact hbefore

/-- A value that P8 has needs no rounding. -/
theorem roundP8Fin_exact {u : Int} (h : (p8Canonical u).isSome = true) :
    roundP8Fin z u 64 = (p8Canonical u).getD 0x77 := by
  have hfloor : floorDiv (64 * u) 64 = u := by simp [floorDiv]
  have hlo : p8Below 130 u = u := if_pos h
  simp [roundP8Fin, hfloor, hlo, mul_comm u]

theorem roundP8_subVal {x : Nat} (h : x < 256) :
    roundP8 z (subVal .p8 z.dnz x) = (p8Canonical (p8Units x)).getD 0x77 := by
  obtain ⟨hlo, hhi⟩ := p8Units_mem x h
  by_cases h0 : p8Units x = 0
  · simp [subVal, XReal.ofRat, h0, roundP8, p8Canonical_zero]
  · have hmax : ¬(2 * (64 : Nat) : Int) < p8Units x := by omega
    have hmin : ¬p8Units x < -(2 * (64 : Nat) : Int) := by omega
    simp only [subVal, XReal.ofRat, if_neg h0, roundP8, if_neg hmax, if_neg hmin]
    exact roundP8Fin_exact (p8Canonical_isSome h)

theorem roundingP8 : RoundingP8 := by
  intro z byte h
  obtain ⟨c, hc⟩ := Option.isSome_iff_exists.1 (p8Canonical_isSome h)
  have hout : roundP8 z (subVal .p8 z.dnz byte) = c := by rw [roundP8_subVal h, hc, Option.getD_some]
  have hunits : p8Units c = p8Units byte := by simpa using List.find?_some hc
  obtain ⟨hlt, hsign⟩ := p8Candidates_plain c (List.mem_of_find?_eq_some hc)
  rw [hout]
  refine ⟨hlt, hunits, hsign, fun h0 => ?_, fun x hx hux => p8Before_of_canonical hc hx hux⟩
  rw [h0, p8Canonical_zero] at hc
  exact (Option.some.inj hc).symm

/-- Settles O8: floating-point formats, integer types and P8 each. -/
theorem roundingIsExactOnItsFormat : Obligations.RoundingIsExactOnItsFormat :=
  ⟨roundingFloats, roundingIntegers, roundingP8⟩

end Sys2Proof.Machine
end

section
/-! SUPPORT for O1 and O2. What decoding accepts encodes to the word that it came from, one lemma per layout
of Table 4.1 and one per row of Table 4.5 (R5, R79, R86 to R88). -/

namespace Sys2Proof.Laws

variable {w lit : W32} {op : BitVec 9} {i : Instr}

/-! ### Fields of a word and of its opcode -/

/-- Two fields side by side are one field. -/
theorem fieldAt_append {lo m n hi : Nat} (h : hi = lo + n) :
    fieldAt hi m w ++ fieldAt lo n w = fieldAt lo (m + n) w :=
  BitVec.extractLsb'_append_extractLsb'_eq_extractLsb' h

/-- Every bit of a word is one field. -/
theorem words_all {l : Option W32} : some (fieldAt 0 32 w, l) = some (w, l) := by
  rw [fieldAt, BitVec.extractLsb'_eq_self]

/-- The opcode is its row and its column (R86). -/
theorem opcode_eq (op : BitVec 9) :
    op = BitVec.ofNat 9 (32 * (op.extractLsb' 5 4).toNat + (op.extractLsb' 0 5).toNat) := by
  apply BitVec.eq_of_toNat_eq
  simp [BitVec.extractLsb'_toNat, Nat.shiftRight_eq_div_pow]
  omega

theorem row_opOf (w : W32) : (opOf w).extractLsb' 5 4 = w.extractLsb' 28 4 := by
  apply BitVec.eq_of_toNat_eq
  simp [opOf, fieldAt, BitVec.extractLsb'_toNat, Nat.shiftRight_eq_div_pow]
  omega

theorem column_opOf (w : W32) : (opOf w).extractLsb' 0 5 = w.extractLsb' 23 5 := by
  apply BitVec.eq_of_toNat_eq
  simp [opOf, fieldAt, BitVec.extractLsb'_toNat, Nat.shiftRight_eq_div_pow]

/-- Whether a word is of an illegal column is a matter of its opcode (R87). -/
theorem illegalColumn_iff : illegalColumn w = true ↔
    assignedColumns ((opOf w).extractLsb' 5 4).toNat ≤ ((opOf w).extractLsb' 0 5).toNat := by
  rw [row_opOf, column_opOf, illegalColumn, decide_eq_true_iff]

/-! ### Encoding what was decoded -/

/-- The second word of an instruction with the opcode `op` where `lit` follows its first (R79). -/
def literalFor (op : BitVec 9) (lit : W32) : Option W32 := if op == 45#9 || op == 257#9 then some lit else none

/-- What decoding answers for the word `w` with the literal `lit` encodes to them. -/
def Reencodes (w lit : W32) (r : Except Reject Instr) : Prop :=
  ∀ i, r = .ok i → encodeWords i = some (w, literalFor (opOf w) lit)

namespace Reencodes

theorem ok (h : encodeWords i = some (w, literalFor (opOf w) lit)) : Reencodes w lit (.ok i) := by
  rintro _ ⟨⟩
  exact h

theorem ite {c : Bool} {e : Reject} (h : c = true → encodeWords i = some (w, literalFor (opOf w) lit)) :
    Reencodes w lit (if c then .ok i else .error e) := by
  split
  case isTrue hc => exact ok (h hc)
  case isFalse => exact nofun

/-! ### The layouts of Table 4.1 -/

theorem of_DABq {k : BitVec 7 → BitVec 7 → BitVec 7 → BitVec 1 → Instr} (ho : opOf w = op)
    (he : ∀ x0 x1 x2 x3, encodeWords (k x0 x1 x2 x3) = some (encDABq op x0 x1 x2 x3, literalFor op lit)) :
    Reencodes w lit (decDABq w k) :=
  .ite fun h => by
    have h1 := eq_of_beq h
    rw [he, ← ho, encDABq, ← h1]
    simp only [opOf, fieldAt_append]
    exact words_all

theorem of_ABq {k : BitVec 7 → BitVec 7 → BitVec 1 → Instr} (ho : opOf w = op)
    (he : ∀ x0 x1 x2, encodeWords (k x0 x1 x2) = some (encABq op x0 x1 x2, literalFor op lit)) :
    Reencodes w lit (decABq w k) :=
  .ite fun h => by
    obtain ⟨h16, h1⟩ := by simpa using h
    rw [he, ← ho, encABq, ← h16, ← h1]
    simp only [opOf, fieldAt_append]
    exact words_all

theorem of_DAq {k : BitVec 7 → BitVec 7 → BitVec 1 → Instr} (ho : opOf w = op)
    (he : ∀ x0 x1 x2, encodeWords (k x0 x1 x2) = some (encDAq op x0 x1 x2, literalFor op lit)) :
    Reencodes w lit (decDAq w k) :=
  .ite fun h => by
    have h1 := eq_of_beq h
    rw [he, ← ho, encDAq, ← h1]
    simp only [opOf, fieldAt_append]
    exact words_all

theorem of_DAI9 {k : BitVec 7 → BitVec 7 → BitVec 9 → Instr} (ho : opOf w = op)
    (he : ∀ x0 x1 x2, encodeWords (k x0 x1 x2) = some (encDAI9 op x0 x1 x2, literalFor op lit)) :
    Reencodes w lit (decDAI9 w k) :=
  .ok <| by
    rw [he, ← ho, encDAI9]
    simp only [opOf, fieldAt_append]
    exact words_all

theorem of_DAI6 {k : BitVec 7 → BitVec 7 → BitVec 6 → Instr} (ho : opOf w = op)
    (he : ∀ x0 x1 x2, encodeWords (k x0 x1 x2) = some (encDAI6 op x0 x1 x2, literalFor op lit)) :
    Reencodes w lit (decDAI6 w k) :=
  .ite fun h => by
    have h6 := eq_of_beq h
    rw [he, ← ho, encDAI6, ← h6]
    simp only [opOf, fieldAt_append]
    exact words_all

theorem of_AI9 {k : BitVec 7 → BitVec 9 → Instr} (ho : opOf w = op)
    (he : ∀ x0 x1, encodeWords (k x0 x1) = some (encAI9 op x0 x1, literalFor op lit)) :
    Reencodes w lit (decAI9 w k) :=
  .ite fun h => by
    have h16 := eq_of_beq h
    rw [he, ← ho, encAI9, ← h16]
    simp only [opOf, fieldAt_append]
    exact words_all

theorem of_DI16 {k : BitVec 7 → BitVec 16 → Instr} (ho : opOf w = op)
    (he : ∀ x0 x1, encodeWords (k x0 x1) = some (encDI16 op x0 x1, literalFor op lit)) :
    Reencodes w lit (decDI16 w k) :=
  .ok <| by
    rw [he, ← ho, encDI16]
    simp only [opOf, fieldAt_append]
    exact words_all

theorem of_D {k : BitVec 7 → Instr} (ho : opOf w = op)
    (he : ∀ x0, encodeWords (k x0) = some (encD op x0, literalFor op lit)) :
    Reencodes w lit (decD w k) :=
  .ite fun h => by
    have h0 := eq_of_beq h
    rw [he, ← ho, encD, ← h0]
    simp only [opOf, fieldAt_append]
    exact words_all

theorem of_DABQ {k : BitVec 7 → BitVec 7 → BitVec 7 → BitVec 2 → Instr} (ho : opOf w = op)
    (he : ∀ x0 x1 x2 x3, encodeWords (k x0 x1 x2 x3) = some (encDABQ op x0 x1 x2 x3, literalFor op lit)) :
    Reencodes w lit (decDABQ w k) :=
  .ok <| by
    rw [he, ← ho, encDABQ]
    simp only [opOf, fieldAt_append]
    exact words_all

theorem of_DA {k : BitVec 7 → BitVec 7 → Instr} (ho : opOf w = op)
    (he : ∀ x0 x1, encodeWords (k x0 x1) = some (encDA op x0 x1, literalFor op lit)) :
    Reencodes w lit (decDA w k) :=
  .ite fun h => by
    have h0 := eq_of_beq h
    rw [he, ← ho, encDA, ← h0]
    simp only [opOf, fieldAt_append]
    exact words_all

theorem of_O {k : BitVec 19 → Instr} (ho : opOf w = op)
    (he : ∀ x0, encodeWords (k x0) = some (encO op x0, literalFor op lit)) :
    Reencodes w lit (decO w k) :=
  .ite fun h => by
    have h19 := eq_of_beq h
    rw [he, ← ho, encO, ← h19]
    simp only [opOf, fieldAt_append]
    exact words_all

theorem of_CO {k : BitVec 4 → BitVec 19 → Instr} (ho : opOf w = op)
    (he : ∀ x0 x1, encodeWords (k x0 x1) = some (encCO op x0 x1, literalFor op lit)) :
    Reencodes w lit (decCO w k) :=
  .ok <| by
    rw [he, ← ho, encCO]
    simp only [opOf, fieldAt_append]
    exact words_all

theorem of_A {k : BitVec 7 → Instr} (ho : opOf w = op)
    (he : ∀ x0, encodeWords (k x0) = some (encA op x0, literalFor op lit)) :
    Reencodes w lit (decA w k) :=
  .ite fun h => by
    obtain ⟨h16, h0⟩ := by simpa using h
    rw [he, ← ho, encA, ← h16, ← h0]
    simp only [opOf, fieldAt_append]
    exact words_all

theorem of_L {k : BitVec 7 → BitVec 8 → BitVec 2 → Instr} (ho : opOf w = op)
    (he : ∀ x0 x1 x2, encodeWords (k x0 x1 x2) = some (encL op x0 x1 x2, literalFor op lit)) :
    Reencodes w lit (decL w k) :=
  .ite fun h => by
    have h0 := eq_of_beq h
    rw [he, ← ho, encL, ← h0]
    simp only [opOf, fieldAt_append]
    exact words_all

theorem of_N {k : Instr} (ho : opOf w = op)
    (he : encodeWords k = some (encN op, literalFor op lit)) :
    Reencodes w lit (decN w k) :=
  .ite fun h => by
    have h0 := eq_of_beq h
    rw [he, ← ho, encN, ← h0]
    simp only [opOf, fieldAt_append]
    exact words_all

theorem of_AB {k : BitVec 7 → BitVec 7 → Instr} (ho : opOf w = op)
    (he : ∀ x0 x1, encodeWords (k x0 x1) = some (encAB op x0 x1, literalFor op lit)) :
    Reencodes w lit (decAB w k) :=
  .ite fun h => by
    obtain ⟨h16, h0⟩ := by simpa using h
    rw [he, ← ho, encAB, ← h16, ← h0]
    simp only [opOf, fieldAt_append]
    exact words_all

theorem of_I16 {k : BitVec 16 → Instr} (ho : opOf w = op)
    (he : ∀ x0, encodeWords (k x0) = some (encI16 op x0, literalFor op lit)) :
    Reencodes w lit (decI16 w k) :=
  .ite fun h => by
    have h16 := eq_of_beq h
    rw [he, ← ho, encI16, ← h16]
    simp only [opOf, fieldAt_append]
    exact words_all

theorem of_DAB {k : BitVec 7 → BitVec 7 → BitVec 7 → Instr} (ho : opOf w = op)
    (he : ∀ x0 x1 x2, encodeWords (k x0 x1 x2) = some (encDAB op x0 x1 x2, literalFor op lit)) :
    Reencodes w lit (decDAB w k) :=
  .ite fun h => by
    have h0 := eq_of_beq h
    rw [he, ← ho, encDAB, ← h0]
    simp only [opOf, fieldAt_append]
    exact words_all

theorem of_DATq {k : BitVec 7 → BitVec 7 → BitVec 5 → BitVec 1 → Instr} (ho : opOf w = op)
    (he : ∀ x0 x1 x2 x3, encodeWords (k x0 x1 x2 x3) = some (encDATq op x0 x1 x2 x3, literalFor op lit)) :
    Reencodes w lit (decDATq w k) :=
  .ite fun h => by
    obtain ⟨h7, h1⟩ := by simpa using h
    rw [he, ← ho, encDATq, ← h7, ← h1]
    simp only [opOf, fieldAt_append]
    exact words_all

theorem of_DAHq {k : BitVec 7 → BitVec 7 → BitVec 1 → BitVec 1 → Instr} (ho : opOf w = op)
    (he : ∀ x0 x1 x2 x3, encodeWords (k x0 x1 x2 x3) = some (encDAHq op x0 x1 x2 x3, literalFor op lit)) :
    Reencodes w lit (decDAHq w k) :=
  .ite fun h => by
    obtain ⟨h3, h1⟩ := by simpa using h
    rw [he, ← ho, encDAHq, ← h3, ← h1]
    simp only [opOf, fieldAt_append]
    exact words_all

theorem of_DN9 {k : BitVec 7 → BitVec 9 → Instr} (ho : opOf w = op)
    (he : ∀ x0 x1, encodeWords (k x0 x1) = some (encDN9 op x0 x1, literalFor op lit)) :
    Reencodes w lit (decDN9 w k) :=
  .ite fun h => by
    have h9 := eq_of_beq h
    rw [he, ← ho, encDN9, ← h9]
    simp only [opOf, fieldAt_append]
    exact words_all

theorem of_DAQ {k : BitVec 7 → BitVec 7 → BitVec 2 → Instr} (ho : opOf w = op)
    (he : ∀ x0 x1 x2, encodeWords (k x0 x1 x2) = some (encDAQ op x0 x1 x2, literalFor op lit)) :
    Reencodes w lit (decDAQ w k) :=
  .ite fun h => by
    have h2 := eq_of_beq h
    rw [he, ← ho, encDAQ, ← h2]
    simp only [opOf, fieldAt_append]
    exact words_all

theorem of_B {k : BitVec 7 → Instr} (ho : opOf w = op)
    (he : ∀ x0, encodeWords (k x0) = some (encB op x0, literalFor op lit)) :
    Reencodes w lit (decB w k) :=
  .ite fun h => by
    obtain ⟨h9, h0⟩ := by simpa using h
    rw [he, ← ho, encB, ← h9, ← h0]
    simp only [opOf, fieldAt_append]
    exact words_all

/-! ### The rows of Table 4.5 -/

theorem of_row0 : ∀ {col : Nat}, col < 31 → opOf w = BitVec.ofNat 9 (32 * 0 + col) →
    Reencodes w lit (decodeRow0 col w)
  | 0, _, h | 1, _, h | 2, _, h | 3, _, h | 4, _, h | 5, _, h | 6, _, h | 7, _, h | 8, _, h | 9, _, h | 10, _, h
  | 11, _, h | 12, _, h | 13, _, h | 14, _, h | 15, _, h | 16, _, h | 17, _, h | 18, _, h | 19, _, h | 20, _, h
  | 23, _, h | 28, _, h | 29, _, h =>
    of_DABq h fun _ _ _ _ => rfl
  | 21, _, h | 22, _, h => of_ABq h fun _ _ _ => rfl
  | 24, _, h | 25, _, h | 26, _, h | 27, _, h | 30, _, h => of_DAq h fun _ _ _ => rfl
  | n + 31, h, _ => absurd h (by omega)

theorem of_row1 : ∀ {col : Nat}, col < 16 → opOf w = BitVec.ofNat 9 (32 * 1 + col) →
    Reencodes w lit (decodeRow1 col w lit)
  | 13, _, h => of_D (k := fun x0 => .ldlit x0 lit) h fun _ => rfl
  | 0, _, h | 1, _, h | 2, _, h | 3, _, h => of_DAI9 h fun _ _ _ => rfl
  | 4, _, h | 5, _, h | 6, _, h => of_DAI6 h fun _ _ _ => rfl
  | 7, _, h | 8, _, h => of_AI9 h fun _ _ => rfl
  | 9, _, h | 10, _, h | 11, _, h | 12, _, h => of_DI16 h fun _ _ => rfl
  | 14, _, h => of_DABQ h fun _ _ _ _ => rfl
  | 15, _, h => of_DA h fun _ _ => rfl
  | n + 16, h, _ => absurd h (by omega)

theorem of_row2 : ∀ {col : Nat}, col < 16 → opOf w = BitVec.ofNat 9 (32 * 2 + col) →
    Reencodes w lit (decodeRow2 col w)
  | 0, _, h | 1, _, h | 2, _, h | 3, _, h | 4, _, h | 6, _, h | 7, _, h => of_DABq h fun _ _ _ _ => rfl
  | 5, _, h | 8, _, h | 9, _, h | 11, _, h | 12, _, h | 13, _, h | 14, _, h | 15, _, h => of_DAq h fun _ _ _ => rfl
  | 10, _, h => of_ABq h fun _ _ _ => rfl
  | n + 16, h, _ => absurd h (by omega)

theorem of_row3 : ∀ {col : Nat}, col < 17 → opOf w = BitVec.ofNat 9 (32 * 3 + col) →
    Reencodes w lit (decodeRow3 col w)
  | 0, _, h | 4, _, h => of_O h fun _ => rfl
  | 1, _, h | 2, _, h | 3, _, h => of_CO h fun _ _ => rfl
  | 5, _, h => of_DA h fun _ _ => rfl
  | 6, _, h | 7, _, h => of_A h fun _ => rfl
  | 8, _, h | 9, _, h => of_L h fun _ _ _ => rfl
  | 10, _, h => of_D h fun _ => rfl
  | 11, _, h | 14, _, h | 15, _, h => of_N h rfl
  | 12, _, h | 13, _, h => of_AB h fun _ _ => rfl
  | 16, _, h => of_I16 h fun _ => rfl
  | n + 17, h, _ => absurd h (by omega)

theorem of_row4 : ∀ {col : Nat}, col < 18 → opOf w = BitVec.ofNat 9 (32 * 4 + col) →
    Reencodes w lit (decodeRow4 col w)
  | 0, _, h => of_I16 h fun _ => rfl
  | 1, _, h => of_A h fun _ => rfl
  | 2, _, h => of_D h fun _ => rfl
  | 3, _, h | 4, _, h | 10, _, h | 11, _, h | 12, _, h | 13, _, h | 16, _, h | 17, _, h => of_DA h fun _ _ => rfl
  | 5, _, h => of_N h rfl
  | 6, _, h | 7, _, h | 8, _, h | 9, _, h | 14, _, h | 15, _, h => of_DAB h fun _ _ _ => rfl
  | n + 18, h, _ => absurd h (by omega)

theorem of_row5 : ∀ {col : Nat}, col < 30 → opOf w = BitVec.ofNat 9 (32 * 5 + col) →
    Reencodes w lit (decodeRow5 col w)
  | 0, _, h | 1, _, h | 2, _, h | 3, _, h | 4, _, h | 5, _, h | 6, _, h | 9, _, h | 10, _, h | 11, _, h
  | 13, _, h | 14, _, h | 15, _, h | 20, _, h | 22, _, h | 23, _, h | 24, _, h | 25, _, h | 26, _, h | 28, _, h =>
    of_DABq h fun _ _ _ _ => rfl
  | 7, _, h | 8, _, h | 12, _, h | 21, _, h => of_DAq h fun _ _ _ => rfl
  | 16, _, h | 17, _, h | 18, _, h | 19, _, h => of_DAB h fun _ _ _ => rfl
  | 27, _, h => of_DATq h fun _ _ _ _ => rfl
  | 29, _, h => of_DAHq h fun _ _ _ _ => rfl
  | n + 30, h, _ => absurd h (by omega)

theorem of_row6 : ∀ {col : Nat}, col < 17 → opOf w = BitVec.ofNat 9 (32 * 6 + col) →
    Reencodes w lit (decodeRow6 col w)
  | 0, _, h | 1, _, h | 2, _, h | 4, _, h | 5, _, h | 6, _, h | 7, _, h | 8, _, h | 9, _, h | 10, _, h
  | 11, _, h | 12, _, h =>
    of_DAq h fun _ _ _ => rfl
  | 3, _, h | 13, _, h | 14, _, h | 16, _, h => of_DABq h fun _ _ _ _ => rfl
  | 15, _, h => of_DAB h fun _ _ _ => rfl
  | n + 17, h, _ => absurd h (by omega)

theorem of_row7 : ∀ {col : Nat}, col < 15 → opOf w = BitVec.ofNat 9 (32 * 7 + col) →
    Reencodes w lit (decodeRow7 col w)
  | 0, _, h | 5, _, h | 11, _, h | 12, _, h => of_DAq h fun _ _ _ => rfl
  | 1, _, h | 3, _, h | 6, _, h | 7, _, h | 8, _, h | 9, _, h | 10, _, h | 14, _, h => of_DA h fun _ _ => rfl
  | 2, _, h => of_DN9 h fun _ _ => rfl
  | 4, _, h => of_DAB h fun _ _ _ => rfl
  | 13, _, h => of_AB h fun _ _ => rfl
  | n + 15, h, _ => absurd h (by omega)

theorem of_row8 : ∀ {col : Nat}, col < 17 → opOf w = BitVec.ofNat 9 (32 * 8 + col) →
    Reencodes w lit (decodeRow8 col w lit)
  | 1, _, h => of_DAQ (k := fun x0 x1 x2 => .ldx x0 x1 x2 lit) h fun _ _ _ => rfl
  | 0, _, h | 2, _, h | 3, _, h | 4, _, h => of_DABQ h fun _ _ _ _ => rfl
  | 5, _, h | 6, _, h | 7, _, h | 8, _, h | 9, _, h | 10, _, h | 11, _, h | 12, _, h | 13, _, h | 14, _, h =>
    of_DABq h fun _ _ _ _ => rfl
  | 15, _, h => of_B h fun _ => rfl
  | 16, _, h => of_AB h fun _ _ => rfl
  | n + 17, h, _ => absurd h (by omega)

theorem of_row9 : ∀ {col : Nat}, col < 15 → opOf w = BitVec.ofNat 9 (32 * 9 + col) →
    Reencodes w lit (decodeRow9 col w)
  | 0, _, h | 1, _, h | 4, _, h | 8, _, h | 10, _, h => of_DABq h fun _ _ _ _ => rfl
  | 2, _, h | 3, _, h | 5, _, h | 6, _, h | 7, _, h | 9, _, h | 12, _, h | 13, _, h | 14, _, h =>
    of_DAB h fun _ _ _ => rfl
  | 11, _, h => of_DAq h fun _ _ _ => rfl
  | n + 15, h, _ => absurd h (by omega)

theorem of_rowA : ∀ {col : Nat}, col < 12 → opOf w = BitVec.ofNat 9 (32 * 10 + col) →
    Reencodes w lit (decodeRowA col w)
  | 0, _, h | 9, _, h | 10, _, h | 11, _, h => of_DAB h fun _ _ _ => rfl
  | 1, _, h | 8, _, h => of_DA h fun _ _ => rfl
  | 2, _, h | 6, _, h | 7, _, h => of_AB h fun _ _ => rfl
  | 3, _, h | 4, _, h | 5, _, h => of_A h fun _ => rfl
  | n + 12, h, _ => absurd h (by omega)

theorem of_rowB : ∀ {col : Nat}, col < 9 → opOf w = BitVec.ofNat 9 (32 * 11 + col) →
    Reencodes w lit (decodeRowB col w)
  | 0, _, h | 1, _, h | 2, _, h | 3, _, h | 4, _, h | 5, _, h | 6, _, h | 7, _, h | 8, _, h =>
    of_DAB h fun _ _ _ => rfl
  | n + 9, h, _ => absurd h (by omega)

theorem of_rowC : ∀ {col : Nat}, col < 10 → opOf w = BitVec.ofNat 9 (32 * 12 + col) →
    Reencodes w lit (decodeRowC col w)
  | 0, _, h | 3, _, h | 4, _, h => of_DAB h fun _ _ _ => rfl
  | 1, _, h | 2, _, h | 5, _, h | 6, _, h | 7, _, h | 9, _, h => of_DA h fun _ _ => rfl
  | 8, _, h => of_DABq h fun _ _ _ _ => rfl
  | n + 10, h, _ => absurd h (by omega)

theorem of_rowD : ∀ {col : Nat}, col < 8 → opOf w = BitVec.ofNat 9 (32 * 13 + col) →
    Reencodes w lit (decodeRowD col w)
  | 0, _, h | 1, _, h | 5, _, h | 6, _, h | 7, _, h => of_DABq h fun _ _ _ _ => rfl
  | 2, _, h => of_DAq h fun _ _ _ => rfl
  | 3, _, h => of_AB h fun _ _ => rfl
  | 4, _, h => of_B h fun _ => rfl
  | n + 8, h, _ => absurd h (by omega)

theorem of_rowE : ∀ {col : Nat}, col < 6 → opOf w = BitVec.ofNat 9 (32 * 14 + col) →
    Reencodes w lit (decodeRowE col w)
  | 0, _, h | 2, _, h | 3, _, h | 5, _, h => of_DA h fun _ _ => rfl
  | 1, _, h => of_DAB h fun _ _ _ => rfl
  | 4, _, h => of_N h rfl
  | n + 6, h, _ => absurd h (by omega)

theorem of_rowF : ∀ {col : Nat}, col < 8 → opOf w = BitVec.ofNat 9 (32 * 15 + col) →
    Reencodes w lit (decodeRowF col w)
  | 0, _, h | 1, _, h => of_DI16 h fun _ _ => rfl
  | 2, _, h => of_N h rfl
  | 3, _, h => of_AB h fun _ _ => rfl
  | 4, _, h => of_A h fun _ => rfl
  | 5, _, h => of_DAB h fun _ _ _ => rfl
  | 6, _, h | 7, _, h => of_I16 h fun _ => rfl
  | n + 8, h, _ => absurd h (by omega)

/-- No column that a row leaves illegal has a literal. -/
theorem illegal (h : illegalColumn w = true) : Reencodes w lit (.ok (.illegalInstr w)) := by
  refine ok ?_
  rw [illegalColumn_iff] at h
  rw [literalFor, if_neg]
  · rfl
  · intro hx
    rcases (by simpa using hx : opOf w = 45#9 ∨ opOf w = 257#9) with ho | ho <;> rw [ho] at h <;>
      exact absurd h (by decide)

theorem of_raw : Reencodes w lit (decodeRaw w lit) := by
  by_cases hi : illegalColumn w = true
  · rw [decodeRaw_illegal hi]
    exact illegal hi
  rw [illegalColumn_iff, not_le] at hi
  have ho := opcode_eq (opOf w)
  have hrow : ((opOf w).extractLsb' 5 4).toNat < 16 := BitVec.isLt _
  rw [decodeRaw]
  generalize ((opOf w).extractLsb' 5 4).toNat = row at *
  generalize ((opOf w).extractLsb' 0 5).toNat = col at *
  interval_cases row
  · exact of_row0 hi ho
  · exact of_row1 hi ho
  · exact of_row2 hi ho
  · exact of_row3 hi ho
  · exact of_row4 hi ho
  · exact of_row5 hi ho
  · exact of_row6 hi ho
  · exact of_row7 hi ho
  · exact of_row8 hi ho
  · exact of_row9 hi ho
  · exact of_rowA hi ho
  · exact of_rowB hi ho
  · exact of_rowC hi ho
  · exact of_rowD hi ho
  · exact of_rowE hi ho
  · exact of_rowF hi ho

end Reencodes

end Sys2Proof.Laws
end

section
/-! SUPPORT for O1 and O2. The bytes of words, what `decode` and `encode` are on them (R7, R79), and the
obligations. -/

namespace Sys2Proof.Laws

variable {w lit : W32} {i : Instr} {rest bytes : List Byte}

/-- Every instruction has the statement of its family: one lemma per constructor, in their order. -/
theorem RoundTrip.all (i : Instr) : Statement i :=
  Instr.rec (motive := Statement)
    add sub mul mulh mulhn div divn rem remn and or xor andn shl shr sra rotl min max minn maxn cmp cmpn sel clz
    ctz popc brev bfx bfi mov addi andi ori xori shli shri srai cmpi cmpni movi movhi movxi movti ldlit lea gets
    fadd fsub fmul ffma fdiv fsqrt fmin fmax fabs fneg fcmp fcvt ftoi itof fclass frnd br bcc bmz bmnz call callr
    ret jmpr loop loopi lbrk waitc watch trapi mset msetr mget mpush melse mand mor mxor mandn mnot mmov mcnt mffs
    mtos mfrs mlen mall vadd vsub vmul vfma vfms vmin vmax vabs vneg vand vor vxor vnot vshl vshr vsra vcmpeq
    vcmpne vcmplt vcmple vsel vmov vbcast vidx vclamp vmulp vdotp vcvt vpack vunpk vrcp vrsq vsqrt vdiv vexp2
    vlog2 vsin vcos vtanh vfloor vfrac vcompact vexpand vshfl vrotl vextr vins rcoal rcnt rallot rpool rsave rload
    vredadd vredmin vredmax vredand vredor vscan vrng rngseed rngget ld ldx st lda stl atadd atmin atmax atminn
    atmaxn atand ator atxor atxch atcas fence linv vld vlds vst vsts vldb preq sld sst sgath sscat sldt sldc sstc
    clds csts upd upds uflush tdec tinc tspawn cset cadd cget cbar dsmop dsmred cpy cpyg cpyx cpyq cpyt discard
    prefetch cpya cwalk mcfg mzero mma mmag mmas mmad mlda msta mtov malloc xhad xqnt xact xtld xtbind xtopk xtrn
    xsort trace spawn retire defer poolq csrr csrw tlbinv halt monr mark bkpt illegalInstr yield exit nop mpop
    epend eret recordIntervalClose queueDoorbell completionDoorbell registerWrite ctxinstall ctxreset ctxremove
    csrread csrwrite errring peerto attest cert fwload monread setthr replay slicecfgWrite slicecfgApply
    stitchWrite stitchApply soruscfgWrite sceneWrite poolrsvWrite migrationStart migrationCopy migrationFinish
    powerOn d3hotEntry coreClockGate corePowerGate coreWake taskReady depcntUpdate queueConsume queueIdleRecheck
    placementAttempt teamExited successorDecrement preemptForCandidate teamPreempted donationStart donationEnd
    stealRequest stealClaim stealReply derateSample thermalTrip teamWake clockLoop gddr7Equalisation waveAgeLoop
    prefetchThresholdLoop monitorSample homeRead loadReply homeStore storeAck homeAtomic writeLeaseGrant
    leaseRecall writeLeaseExpiry pairInject homeAcceptPair binApply dsmElementOp cbarArrival hostRead hostWrite
    fabricWriteArrival shootdown multicastDeliver copyStart copyComplete matrixOpStart matrixStep matrixComplete
    transformStart transformComplete noiseWord poolGrant rayEntersBin traversalBinAge shaderBinAge traversalStep
    treeletLineArrival traversalResult doneDecrement poolPressure inboundPeerAccess peerReply peerTimeout
    reservationTimeout meshLinkFail timeCheck clockCheck pairLinkRestore pairLinkRestoreTimeout ptpSync
    scaleoutPortDown replayDivergence instructionFetchFault deviceReset d3hotExit serdesAdaptation
    sharedCacheWriteBack cxlLinkTraining i

/-! ### Bytes of a word (R7) -/

theorem wordOfBytes_bytes (w : W32) :
    wordOfBytes (w.extractLsb' 0 8) (w.extractLsb' 8 8) (w.extractLsb' 16 8) (w.extractLsb' 24 8) = w := by
  change fieldAt 24 8 w ++ fieldAt 16 8 w ++ fieldAt 8 8 w ++ fieldAt 0 8 w = w
  simp only [fieldAt_append]
  exact BitVec.extractLsb'_eq_self

theorem bytesOfWord_wordOfBytes (b0 b1 b2 b3 : Byte) : bytesOfWord (wordOfBytes b0 b1 b2 b3) = [b0, b1, b2, b3] := by
  have h0 : (wordOfBytes b0 b1 b2 b3).extractLsb' 0 8 = b0 := last_field
  have h8 : (wordOfBytes b0 b1 b2 b3).extractLsb' 8 8 = b1 := skip_field (by decide) last_field
  have h16 : (wordOfBytes b0 b1 b2 b3).extractLsb' 16 8 = b2 :=
    skip_field (by decide) (skip_field (by decide) last_field)
  have h24 : (wordOfBytes b0 b1 b2 b3).extractLsb' 24 8 = b3 :=
    skip_field (by decide) (skip_field (by decide) (skip_field (by decide) first_field))
  rw [bytesOfWord, h0, h8, h16, h24]

/-! ### One word or two (R79) -/

theorem literalFor_opOf (w lit : W32) : literalFor (opOf w) lit = if isXFormat w then some lit else none := rfl

/-- The bytes of a word and of the literal that may follow it. -/
def bytesOfWords (w : W32) (lit : Option W32) : List Byte := bytesOfWord w ++ (lit.map bytesOfWord).getD []

theorem encode_of_words {l : Option W32} (h : encodeWords i = some (w, l)) : encode i = bytesOfWords w l := by
  cases l <;> simp [encode, h, bytesOfWords]

/-- What is read from the bytes of the words that the opcode calls for. -/
theorem decode_bytesOfWords (h : isXFormat w = false → lit = 0#32) :
    decode (bytesOfWords w (literalFor (opOf w) lit) ++ rest) = (decodeWord w lit).map (·, rest) := by
  rw [literalFor_opOf]
  cases hx : isXFormat w
  · simp [decode, bytesOfWords, bytesOfWord, wordOfBytes_bytes, hx, h hx]
  · simp [decode, bytesOfWords, bytesOfWord, wordOfBytes_bytes, hx]

/-- Bytes that decode are those of a word, of its literal where it has one, and the rest. -/
theorem decode_eq_ok (h : decode bytes = .ok (i, rest)) : ∃ w lit,
    decodeWord w lit = .ok i ∧ bytes = bytesOfWords w (literalFor (opOf w) lit) ++ rest := by
  have hmap {w lit : W32} {l : List Byte} (h : (decodeWord w lit).map (·, l) = .ok (i, rest)) :
      decodeWord w lit = .ok i ∧ l = rest := by
    cases hd : decodeWord w lit <;> simp_all [Except.map]
  unfold decode at h
  split at h
  case h_2 => cases h
  case h_1 b0 b1 b2 b3 l =>
    refine ⟨wordOfBytes b0 b1 b2 b3, ?_⟩
    simp only [literalFor_opOf]
    by_cases hx : isXFormat (wordOfBytes b0 b1 b2 b3) = true
    · simp only [if_pos hx] at h
      split at h
      case h_2 => cases h
      case h_1 c0 c1 c2 c3 l' =>
        obtain ⟨hd, rfl⟩ := hmap h
        exact ⟨wordOfBytes c0 c1 c2 c3, hd, by simp [bytesOfWords, hx, bytesOfWord_wordOfBytes]⟩
    · simp only [if_neg hx] at h
      obtain ⟨hd, rfl⟩ := hmap h
      exact ⟨0#32, hd, by simp [bytesOfWords, hx, bytesOfWord_wordOfBytes]⟩

/-- A word decodes to the well-formed instruction that its fields give (Table 4.6). -/
theorem decodeWord_eq_ok : decodeWord w lit = .ok i ↔ decodeRaw w lit = .ok i ∧ i.wellFormed = true := by
  refine ⟨fun h => ?_, fun ⟨hr, hw⟩ => decodeWord_of_raw hr hw⟩
  unfold decodeWord at h
  split at h
  · cases h
  case h_2 j hj =>
    split at h
    · obtain rfl := by simpa using h
      exact ⟨hj, by simpa [Instr.wellFormed]⟩
    · cases h

/-- Decoding what the encoder writes finds its literal where the opcode calls for one. -/
theorem literal_of_words {l : Option W32} (h : encodeWords i = some (w, l)) (hw : i.wellFormed = true) :
    l = literalFor (opOf w) (l.getD 0#32) := by
  have hr := Reencodes.of_raw i (decodeWord_eq_ok.1 (RoundTrip.all i w l h hw)).1
  rw [h] at hr
  exact (Prod.mk.inj (Option.some.inj hr)).2

/-- Settles O1: every form's words decode to it, and `decode` reads as many words as `encode` writes. -/
theorem decodeOfEncode : Obligations.DecodeOfEncode := by
  unfold Obligations.DecodeOfEncode
  intro i rest hw hs
  obtain ⟨⟨w, l⟩, hl⟩ := Option.isSome_iff_exists.1 hs
  have hlit := literal_of_words hl hw
  have hx : isXFormat w = false → l.getD 0#32 = 0#32 := by
    intro hx
    rw [hlit, literalFor_opOf, hx]
    rfl
  rw [encode_of_words hl, hlit, decode_bytesOfWords hx, RoundTrip.all i w l hl hw]
  rfl

/-- Settles O2: every row's words are those of the instruction that decoding answers. -/
theorem encodeOfDecode : Obligations.EncodeOfDecode := by
  unfold Obligations.EncodeOfDecode
  intro i bytes rest h
  obtain ⟨w, lit, hd, rfl⟩ := decode_eq_ok h
  obtain ⟨hr, hw⟩ := decodeWord_eq_ok.1 hd
  exact ⟨hw, by rw [encode_of_words (Reencodes.of_raw i hr)]⟩

end Sys2Proof.Laws
end

section
/-! SUPPORT for O4. What a word of an illegal column decodes to and does (R87); and the obligation. -/

namespace Sys2Proof.Machine

open Sys2Proof.Laws

variable {s : State} {t : Team} {w lit : W32}

/-- The columns that Table 4.5 leaves illegal, in numbers. -/
theorem illegalColumn_of_le
    (h : [31, 16, 16, 17, 18, 30, 17, 15, 17, 15, 12, 9, 10, 8, 6, 8].getD (w.toNat / 2 ^ 28) 0 ≤
      w.toNat / 2 ^ 23 % 32) : illegalColumn w = true := by
  have hrow : (w.extractLsb' 28 4).toNat = w.toNat / 2 ^ 28 := by
    rw [BitVec.extractLsb'_toNat, Nat.shiftRight_eq_div_pow]
    omega
  have hcol : (w.extractLsb' 23 5).toNat = w.toNat / 2 ^ 23 % 32 := by
    rw [BitVec.extractLsb'_toNat, Nat.shiftRight_eq_div_pow]
  have hcolumns : ∀ row < 16, assignedColumns row =
      [31, 16, 16, 17, 18, 30, 17, 15, 17, 15, 12, 9, 10, 8, 6, 8].getD row 0 := by decide
  rw [illegalColumn, hrow, hcol, hcolumns _ (by omega)]
  exact decide_eq_true h

/-- A word of an illegal column stands for no other instruction, and passes the checks as ILLEGAL_INSTR. -/
theorem decodeWord_illegal (h : illegalColumn w = true) : decodeWord w lit = .ok (.illegalInstr w) := by
  refine decodeWord_of_raw (decodeRaw_illegal h) ?_
  have hc : (Instr.illegalInstr w).codeReserved = false := congrArg not h
  have ho : (Instr.illegalInstr w).operands = [] := rfl
  simp [Instr.wellFormed, Instr.illegalCause, hc, ho]

/-- A step in a team's place is taken where the team may issue. -/
theorem issueBare_of_mayIssue {name : String} {i : Instr} {f : Team → Option State} (h : MayIssue s t i) :
    issueBare name i s f = event name (f t) := by
  simp [issueBare, h.cur, h.can, h.free]

/-- Settles O4: such a word decodes to ILLEGAL_INSTR, whose trap names check 1. -/
theorem illegalColumns : Obligations.IllegalColumns := by
  unfold Obligations.IllegalColumns
  intro firstIllegal w lit h
  have hd {lit : W32} := decodeWord_illegal (lit := lit) (illegalColumn_of_le h)
  have hcause (p : Bool) : illegalWordCause p w = some 1 := by rw [illegalWordCause, hd]
  refine ⟨hd, fun s t hm => ?_⟩
  have he : exec (.illegalInstr w) s = _ := issueBare_of_mayIssue hm
  rw [he, hcause]
  rfl

end Sys2Proof.Machine
end

section
/-! SUPPORT for O6. Table 5.4: the values of the immediates, the check of two-word instructions at the end of a body
(R117), and the obligation. -/

namespace Sys2Proof.Machine

variable {s : State} {t : Team}

/-! ### Flags (R57, R102) -/

/-- The four flags stand in CC from EQ in bit 0 to UN in bit 3. -/
theorem ccOf_eq_flags (eq lt ltn un : Bool) : ccOf eq lt ltn un = flags eq lt ltn un := by
  revert eq lt ltn un
  decide

theorem signedOf_toNat (x : Word) : signedOf 64 x.toNat = x.toInt := by
  rw [signedOf, Nat.mod_eq_of_lt x.isLt, BitVec.toInt_eq_toNat_cond]
  rfl

theorem ccSigned_toNat (x y : Word) :
    ccSigned 64 x.toNat y.toNat = flags (x == y) (decide (x.toInt < y.toInt)) false false := by
  rw [ccSigned, ccOf_eq_flags, signedOf_toNat, signedOf_toNat, beq_eq_decide]
  simp [BitVec.toNat_inj]

theorem ccUnsigned_toNat (x y : Word) :
    ccUnsigned x.toNat y.toNat = flags (x == y) false (decide (x.toNat < y.toNat)) false := by
  rw [ccUnsigned, ccOf_eq_flags, beq_eq_decide]
  simp [BitVec.toNat_inj]

theorem immediateCompares : ImmediateCompares := by
  intro a k s t x y
  refine ⟨fun h => ?signed, fun h => ?unsigned⟩
  case signed =>
    rw [← ccSigned_toNat]
    exact issueTeam_of_issues h _ (advance_uid _)
  case unsigned =>
    rw [← ccUnsigned_toNat]
    exact issueTeam_of_issues h _ (advance_uid _)

/-! ### Values (R106) -/

theorem toNat_append_eq {m n : Nat} (x : BitVec m) (y : BitVec n) : (x ++ y).toNat = x.toNat * 2 ^ n + y.toNat := by
  rw [BitVec.toNat_append, ← Nat.shiftLeft_add_eq_or_of_lt y.isLt, Nat.shiftLeft_eq]

theorem insert16_16 (v : Word) (i : BitVec 16) :
    insert16 v 16 i = v.extractLsb' 32 32 ++ i ++ v.extractLsb' 0 16 := by
  apply BitVec.eq_of_toNat_eq
  simp only [insert16, setBitsOf, BitVec.toNat_ofNat, toNat_append_eq, BitVec.extractLsb'_toNat,
    Nat.shiftRight_eq_div_pow]
  omega

theorem insert16_32 (v : Word) (i : BitVec 16) :
    insert16 v 32 i = v.extractLsb' 48 16 ++ i ++ v.extractLsb' 0 32 := by
  apply BitVec.eq_of_toNat_eq
  simp only [insert16, setBitsOf, BitVec.toNat_ofNat, toNat_append_eq, BitVec.extractLsb'_toNat,
    Nat.shiftRight_eq_div_pow]
  omega

theorem insert16_48 (v : Word) (i : BitVec 16) : insert16 v 48 i = i ++ v.extractLsb' 0 48 := by
  apply BitVec.eq_of_toNat_eq
  simp only [insert16, setBitsOf, BitVec.toNat_ofNat, toNat_append_eq, BitVec.extractLsb'_toNat,
    Nat.shiftRight_eq_div_pow]
  omega

theorem shiftLeft_eq_mul_pow (x : Word) (k : Nat) : x <<< k = x * 2#64 ^ k := by
  apply BitVec.eq_of_toNat_eq
  simp [Nat.shiftLeft_eq, BitVec.toNat_pow]

/-! ### Two words at the end of a body (R117) -/

theorem Team.xCheck_ok (h : ∀ n ∈ t.active, (t.loop n).stop ≠ t.pc + 4#64) : t.xCheck = .ok () :=
  if_neg (by simpa using h)

theorem Team.xCheck_raise (h : ∃ n ∈ t.active, (t.loop n).stop = t.pc + 4#64) :
    t.xCheck = raise { code := 14, detail := 4 } :=
  if_pos (by simpa using h)

/-! ### The rows of Table 5.4 -/

/-- An immediate form leaves its value in s[D]. -/
theorem immForm_next {i : Instr} {d : Field} {f : Team → Word} (h : Issues s t i) :
    immForm i d f s = .next (s.after i (t.setD d (f t)).advance) :=
  issueTeam_of_issues h _ (by simp)

theorem exec_table54 : ∀ p ∈ table54, ∀ (d a : Field) (k : BitVec 9) (s : State),
    exec (p.1 d a k) s = immForm (p.1 d a k) d (fun t => p.2 (s.sread t a) k) s := by
  simp only [table54, List.forall_mem_cons]
  refine ⟨?addi, ?andi, ?ori, ?xori, List.forall_mem_nil _⟩
  all_goals exact fun _ _ _ _ => rfl

theorem exec_table54Shift : ∀ p ∈ table54Shift, ∀ (d a : Field) (k : BitVec 6) (s : State),
    exec (p.1 d a k) s = immForm (p.1 d a k) d (fun t => p.2 (s.sread t a) k.toNat) s := by
  simp only [table54Shift, List.forall_mem_cons]
  refine ⟨?shli, ?shri, ?srai, List.forall_mem_nil _⟩
  all_goals exact fun _ _ _ _ => rfl

theorem exec_table54Wide : ∀ p ∈ table54Wide, ∀ (d : Field) (k : BitVec 16) (s : State),
    exec (p.1 d k) s = immForm (p.1 d k) d (fun t => p.2 (t.sreg d) k) s := by
  simp only [table54Wide, List.forall_mem_cons, ← insert16_16, ← insert16_32, ← insert16_48]
  refine ⟨?movi, ?movhi, ?movxi, ?movti, List.forall_mem_nil _⟩
  all_goals exact fun _ _ _ => rfl

theorem exec_lea (d a b : Field) (z : BitVec 2) (s : State) : exec (.lea d a b z) s =
    immForm (.lea d a b z) d (fun t => s.sread t a + s.sread t b * 2#64 ^ z.toNat) s := by
  simp only [← shiftLeft_eq_mul_pow]
  rfl

theorem scalarImmediates : ScalarImmediates := by
  refine ⟨fun p hp d a k s t h => ?sum, fun p hp d a k s t h => ?shift, fun p hp d k s t h => ?wide,
    fun d a b z s t h => ?lea, fun d k s t h => immForm_next h, fun d lit s t h hx => ?literal,
    fun d lit s t hx => ?body⟩
  case sum => exact (exec_table54 p hp d a k s).trans (immForm_next h)
  case shift => exact (exec_table54Shift p hp d a k s).trans (immForm_next h)
  case wide => exact (exec_table54Wide p hp d k s).trans (immForm_next h)
  case lea => exact (exec_lea d a b z s).trans (immForm_next h)
  case literal =>
    have hb : exec (.ldlit d lit) s = _ := issue_ok h (by rw [Team.xCheck_ok hx]; rfl)
    rw [hb, State.after, advanceX_uid, setD_uid]
  case body => exact .of_issue rfl (by rw [Team.xCheck_raise hx]; rfl)

/-- Settles O6: the compares write their flags, and every other row its value. -/
theorem scalarImmediatesComplete : Obligations.ScalarImmediatesComplete := ⟨immediateCompares, scalarImmediates⟩

end Sys2Proof.Machine
end

section
/-! SUPPORT for O9. How loops end: at the end of a body, and by a taken branch out of it (R115, R116). -/

namespace Sys2Proof.Machine

variable {t u : Team}

/-! ### One loop counter -/

theorem Team.loop_setLoop {n k : Nat} (l : LoopCounter) (h : k < 3) :
    (t.setLoop n l).loop k = if k = n then l else t.loop k := by
  by_cases hn : n < 3
  · by_cases hk : k = n
    · simp [setLoop, loop, hk, hn]
    · simp [setLoop, loop, hk, hn, h, Ne.symm hk]
  · simp [setLoop, hn, show k ≠ n by omega]

theorem Team.setLoop_forget (n : Nat) (l : LoopCounter) (a : List Nat) (v : Vector LoopCounter 3) :
    { t.setLoop n l with active := a, loops := v } = { t with active := a, loops := v } := by
  unfold setLoop
  split <;> rfl

/-! ### The end of a body (R115) -/

/-- Whether an active loop that holds the instruction ends at the next PC. -/
def Team.endsAt (t : Team) (pc npc : Word) (n : Nat) : Bool := t.inLoop n pc && npc == (t.loop n).stop

/-- The counter of a loop after the events of R115: `gone` are the loops in their last iteration, and the first of
`rest` goes back to its S. -/
def Team.countAfter (t : Team) (gone rest : List Nat) (k : Nat) : W32 :=
  if k ∈ gone then 0#32 else if rest.head? = some k then (t.loop k).count - 1#32 else (t.loop k).count

/-- The PC after the events of R115. -/
def Team.pcAfter (t : Team) (npc : Word) : List Nat → Word
  | [] => npc
  | n :: _ => (t.loop n).start

/-- The team `u` is `t` after the events of R115. -/
structure LoopEvents (t u : Team) (gone rest : List Nat) : Prop where
  others : { u with active := t.active, loops := t.loops } = t
  active : u.active = t.active.filter (fun n => !gone.contains n)
  loops : ∀ k < 3, u.loop k = { t.loop k with count := t.countAfter gone rest k }

theorem LoopEvents.none (t : Team) : LoopEvents t t [] [] where
  others := rfl
  active := by simp
  loops _ _ := by simp [Team.countAfter]

/-- A loop that is not in its last iteration goes back to its S. -/
theorem LoopEvents.back (t : Team) (n : Nat) (rest : List Nat) :
    LoopEvents t (t.setLoop n { t.loop n with count := (t.loop n).count - 1#32 }) [] (n :: rest) where
  others := Team.setLoop_forget ..
  active := by simp
  loops k hk := by
    rw [Team.loop_setLoop _ hk]
    by_cases h : k = n
    · simp [Team.countAfter, h]
    · simp [Team.countAfter, h, Ne.symm h]

/-- The team in which a loop in its last iteration has ended. -/
def Team.endLoop (t : Team) (n : Nat) : Team :=
  { t.setLoop n { t.loop n with count := 0#32 } with active := t.active.filter (fun k => k != n) }

theorem Team.loop_endLoop {n k : Nat} (h : k < 3) :
    (t.endLoop n).loop k = { t.loop k with count := if k = n then 0#32 else (t.loop k).count } := by
  have hl : (t.endLoop n).loop k = (t.setLoop n { t.loop n with count := 0#32 }).loop k := rfl
  rw [hl, loop_setLoop _ h]
  by_cases hk : k = n <;> simp [hk]

/-- A loop in its last iteration ends before the events of the loops around it. -/
theorem LoopEvents.last {n : Nat} {gone rest : List Nat} (h : LoopEvents (t.endLoop n) u gone rest)
    (hg : n ∉ gone) (hr : n ∉ rest) : LoopEvents t u (n :: gone) rest where
  others := by
    have := congrArg (fun x : Team => { x with active := t.active, loops := t.loops }) h.others
    exact this.trans (Team.setLoop_forget ..)
  active := by
    rw [h.active]
    simp only [Team.endLoop, List.filter_filter, List.contains_cons]
    refine List.filter_congr fun k _ => ?_
    cases hk : k == n <;> simp [bne, hk]
  loops k hk := by
    rw [h.loops k hk, Team.loop_endLoop hk, Team.countAfter, Team.countAfter, Team.loop_endLoop hk]
    by_cases hn : k = n
    · have hh : rest.head? ≠ some n := fun hh => hr (List.mem_of_mem_head? hh)
      simp [hn, hg, hh]
    · simp [hn]

theorem Team.loopEnds_events {pc npc : Word} {l gone rest : List Nat} (hd : l.Nodup) (hl : ∀ n ∈ l, n < 3)
    (hf : l.filter (t.endsAt pc npc) = gone ++ rest) (hg : ∀ n ∈ gone, (t.loop n).count = 1#32)
    (hr : ∀ n, rest.head? = some n → 1#32 < (t.loop n).count) :
    LoopEvents t (t.loopEnds pc l npc).1 gone rest ∧ (t.loopEnds pc l npc).2 = t.pcAfter npc rest := by
  induction l generalizing t gone with
  | nil =>
    obtain ⟨rfl, rfl⟩ : gone = [] ∧ rest = [] := by simpa using hf.symm
    exact ⟨.none t, rfl⟩
  | cons n l ih =>
    obtain ⟨hn, hd⟩ := List.nodup_cons.1 hd
    have hl' : ∀ k ∈ l, k < 3 := fun k hk => hl k (by simp [hk])
    by_cases he : t.endsAt pc npc n = true
    · have hunfold : t.loopEnds pc (n :: l) npc = if (t.loop n).count - 1#32 = 0#32 then
          Team.loopEnds { t.setLoop n { t.loop n with count := (t.loop n).count - 1#32 } with
            active := (t.setLoop n { t.loop n with count := (t.loop n).count - 1#32 }).active.filter
              (fun k => k != n) } pc l npc
          else (t.setLoop n { t.loop n with count := (t.loop n).count - 1#32 }, (t.loop n).start) := if_pos he
      rw [List.filter_cons_of_pos he] at hf
      cases gone with
      | nil =>
        obtain rfl : n :: l.filter (t.endsAt pc npc) = rest := hf
        have hc : (t.loop n).count - 1#32 ≠ 0#32 := by
          have := hr n rfl
          bv_omega
        rw [hunfold, if_neg hc]
        exact ⟨.back t n _, rfl⟩
      | cons g gone =>
        obtain ⟨rfl, htail⟩ : n = g ∧ l.filter (t.endsAt pc npc) = gone ++ rest := by simpa using hf
        have h1 := hg n (by simp)
        have hmem : ∀ k ∈ gone ++ rest, k ∈ l := fun k hk => (List.mem_filter.1 (htail ▸ hk)).1
        have hloop : ∀ k ∈ l, (t.endLoop n).loop k = t.loop k := by
          intro k hk
          have hne : k ≠ n := fun h => hn (h ▸ hk)
          rw [loop_endLoop (hl' k hk)]
          simp [hne]
        have hstep : t.loopEnds pc (n :: l) npc = (t.endLoop n).loopEnds pc l npc := by
          rw [hunfold, h1]
          simp [endLoop]
        have hf' : l.filter ((t.endLoop n).endsAt pc npc) = gone ++ rest := by
          rw [← htail]
          refine List.filter_congr fun k hk => ?_
          simp [endsAt, inLoop, hloop k hk]
        obtain ⟨hev, hpc⟩ := ih hd hl' hf'
          (fun k hk => by rw [hloop k (hmem k (by simp [hk]))]; exact hg k (by simp [hk]))
          (fun k hk => by rw [hloop k (hmem k (by simp [List.mem_of_mem_head? hk]))]; exact hr k hk)
        rw [hstep]
        refine ⟨hev.last (fun h => hn (hmem n (by simp [h]))) (fun h => hn (hmem n (by simp [h]))), hpc.trans ?_⟩
        cases rest with
        | nil => rfl
        | cons k rest => exact congrArg LoopCounter.start (hloop k (hmem k (by simp)))
    · have hstep : t.loopEnds pc (n :: l) npc = t.loopEnds pc l npc := if_neg he
      rw [List.filter_cons_of_neg he] at hf
      rw [hstep]
      exact ih hd hl' hf hg hr

/-- Every move of the program counter has the events of R115 (R353 in a handler). -/
theorem Team.goesTo_goTo (t : Team) (npc : Word) : GoesTo t (t.goTo npc) npc := by
  refine ⟨fun h => if_pos h, fun gone rest h hd hl hf hg hr => ?_⟩
  have hgo : t.goTo npc = { (t.loopEnds t.pc t.active npc).1 with pc := (t.loopEnds t.pc t.active npc).2 } := by
    rw [goTo, h]
    rfl
  obtain ⟨hev, hpc⟩ := loopEnds_events hd hl hf hg hr
  rw [hgo]
  refine ⟨congrArg (fun x : Team => { x with pc := t.pc }) hev.others, hpc.trans ?_, hev.active, hev.loops⟩
  cases rest <;> rfl

/-! ### A branch out of a loop (R116) -/

/-- The team in which the counters of some loops are 0. -/
def Team.clearCounters (t : Team) (l : List Nat) : Team :=
  l.foldl (fun (t : Team) k => t.setLoop k { t.loop k with count := 0#32 }) t

theorem Team.clearCounters_others (l : List Nat) (a : List Nat) (v : Vector LoopCounter 3) :
    { t.clearCounters l with active := a, loops := v } = { t with active := a, loops := v } := by
  induction l generalizing t with
  | nil => rfl
  | cons n l ih => exact ih.trans (setLoop_forget ..)

theorem Team.loop_clearCounters {k : Nat} (l : List Nat) (hk : k < 3) :
    (t.clearCounters l).loop k = { t.loop k with count := if k ∈ l then 0#32 else (t.loop k).count } := by
  induction l generalizing t with
  | nil => rfl
  | cons n l ih =>
    refine ih.trans ?_
    rw [loop_setLoop _ hk]
    by_cases h : k = n <;> simp [h]

/-- What a branch out of loop `n` ends, where `inner` are the loops nested in it. -/
theorem Team.endLoops_of_active {inner outer : List Nat} {n : Nat} (h : t.active = inner ++ n :: outer)
    (hn : n ∉ inner) : t.endLoops n = { t.clearCounters (inner ++ [n]) with active := outer } := by
  have hne : ∀ k ∈ inner, (k != n) = true := fun k hk => by
    have : k ≠ n := fun he => hn (he ▸ hk)
    simpa
  have htake : t.active.takeWhile (fun k => k != n) = inner := by
    rw [h, List.takeWhile_append_of_pos hne, List.takeWhile_cons_of_neg (by simp), List.append_nil]
  have hdrop : (t.active.dropWhile (fun k => k != n)).drop 1 = outer := by
    rw [h, List.dropWhile_append_of_pos hne, List.dropWhile_cons_of_neg (by simp)]
    rfl
  rw [endLoops, htake, hdrop]
  rfl

theorem Team.endLoops_others {inner outer : List Nat} {n : Nat} (h : t.active = inner ++ n :: outer)
    (hn : n ∉ inner) : { t.endLoops n with active := t.active, loops := t.loops } = t := by
  rw [endLoops_of_active h hn]
  exact clearCounters_others ..

theorem Team.loop_endLoops {inner outer : List Nat} {n k : Nat} (h : t.active = inner ++ n :: outer)
    (hn : n ∉ inner) (hk : k < 3) : (t.endLoops n).loop k =
      { t.loop k with count := if k ∈ n :: inner then 0#32 else (t.loop k).count } := by
  have hl : (t.endLoops n).loop k = (t.clearCounters (inner ++ [n])).loop k := by
    rw [endLoops_of_active h hn]
    rfl
  rw [hl, loop_clearCounters _ hk]
  simp [or_comm]

/-- Whether a branch to `target` leaves an active loop, as the model asks it. -/
def Team.exits (t : Team) (target : Word) (n : Nat) : Bool :=
  t.inLoop n t.pc && !(t.inLoop n target || target == (t.loop n).stop)

theorem Team.leftLoop_eq (target : Word) : t.leftLoop t.pc target = (t.active.filter (t.exits target)).getLast? := rfl

theorem Team.exits_iff {target : Word} {n : Nat} (h : n ∈ t.active) :
    t.exits target n = true ↔ Leaves t target n := by
  simp only [exits, inLoop, Leaves, h, true_and, Bool.and_eq_true, decide_eq_true_eq, Bool.not_eq_true',
    Bool.or_eq_false_iff, Bool.and_eq_false_iff, decide_eq_false_iff_not, beq_eq_false_iff_ne, BitVec.le_def,
    BitVec.lt_def, ne_eq, ← BitVec.toNat_inj]
  omega

/-- A branch that leaves no loop moves the PC alone. -/
theorem Team.branch_of_stays {target : Word} (h : ∀ n, ¬Leaves t target n) : t.branch target = t.goTo target := by
  have hl : t.leftLoop t.pc target = none := by
    rw [leftLoop_eq, List.getLast?_eq_none_iff, List.filter_eq_nil_iff]
    exact fun n hn hp => h n ((exits_iff hn).1 hp)
  rw [branch, hl, goTo]
  split <;> rfl

/-- A branch that leaves loops ends the outermost of them and those nested in it first. -/
theorem Team.branch_of_leaves {target : Word} {inner outer : List Nat} {n : Nat} (hh : t.inHandler = false)
    (ha : t.active = inner ++ n :: outer) (hn : Leaves t target n) (ho : ∀ k ∈ outer, ¬Leaves t target k) :
    t.branch target = (t.endLoops n).goTo target := by
  have hl : t.leftLoop t.pc target = some n := by
    have hout : outer.filter (t.exits target) = [] :=
      List.filter_eq_nil_iff.2 fun k hk hp => ho k hk ((exits_iff (by simp [ha, hk])).1 hp)
    rw [leftLoop_eq, ha, List.filter_append, List.filter_cons_of_pos ((exits_iff (by simp [ha])).2 hn), hout,
      List.getLast?_append]
    rfl
  rw [branch, hh, hl]
  rfl

theorem programCounterMoves : ProgramCounterMoves := by
  intro t
  refine ⟨t.goesTo_goTo _, t.goesTo_goTo _, fun target => ⟨fun h => if_pos h, fun h => ?stays,
    fun inner n outer hh ha hn _ hl ho => ?leaves⟩⟩
  case stays =>
    rw [Team.branch_of_stays h]
    exact t.goesTo_goTo target
  case leaves =>
    intro e
    refine ⟨Team.endLoops_others ha hn, ?_, fun k hk => Team.loop_endLoops ha hn hk, ?_⟩
    · exact congrArg Team.active (Team.endLoops_of_active ha hn)
    · rw [Team.branch_of_leaves hh ha hl ho]
      exact e.goesTo_goTo target

end Sys2Proof.Machine
end

section
/-! SUPPORT for O9. What each branch, call and jump does, and the obligation (R81, R113). -/

namespace Sys2Proof.Machine

variable {s : State} {t : Team} {i : Instr}

/-- A target is a multiple of 4 where its two low bits are zero. -/
theorem alignedTarget_ok {a : Word} (h : a.toNat % 4 = 0) : alignedTarget a = .ok () :=
  if_pos (by simpa [wordBits, bitsOf] using h)

theorem alignedTarget_raise {a : Word} (h : a.toNat % 4 ≠ 0) :
    alignedTarget a = raise { code := 15, taddr := a } :=
  if_neg (by simpa [wordBits, bitsOf] using h)

/-- An instruction that leaves its team as `u`. -/
theorem exec_after {u : Team} {body : Team → Effect} (hi : exec i s = issue i s body)
    (hb : body t = .ok (s.putTeam u)) (hu : u.uid = t.uid) (h : Issues s t i) :
    exec i s = .next (s.after i u) := by
  rw [hi, issue_ok h hb, State.after, hu]

theorem branchForm_next {o : BitVec 19} {taken : Team → Bool} (h : Issues s t i) :
    branchForm i o taken s = .next (s.after i (if taken t then t.branch (t.target o) else t.advance)) :=
  issueTeam_of_issues h _ (by split <;> simp)

theorem Team.callTo_uid (d : Nat) (a : Word) : (t.callTo d a).uid = t.uid := by
  simp [callTo]

theorem branchesAndCalls : BranchesAndCalls := by
  intro s t dest leaves
  refine ⟨fun o => ⟨branchForm_next, fun h => issueTeam_of_issues h _ (Team.callTo_uid _ _), fun c => branchForm_next,
    fun m => ⟨fun h => ?bmz, fun h => ?bmnz⟩⟩, fun d a ha => ⟨?callr, ?ret, ?jmpr⟩⟩
  case bmz =>
    refine (branchForm_next h).trans ?_
    by_cases hm : t.mask m.toNat = 0#1024 <;> simp [maskAny, hm, dest, Team.target, sext64]
  case bmnz =>
    refine (branchForm_next h).trans ?_
    by_cases hm : t.mask m.toNat = 0#1024 <;> simp [maskAny, hm, dest, Team.target, sext64]
  case callr => exact exec_after rfl (by rw [alignedTarget_ok ha]; rfl) (Team.callTo_uid _ _)
  case ret => exact exec_after rfl (by rw [alignedTarget_ok ha]; rfl) (by simp)
  case jmpr => exact exec_after rfl (by rw [alignedTarget_ok ha]; rfl) (by simp)

theorem misalignedTargets : MisalignedTargets := by
  intro s t d a ha
  have traps {i : Instr} {body : Team → Effect} (hi : exec i s = issue i s body)
      (hb : body t = raise { code := 15, taddr := s.sread t a }) (h : Issues s t i) :
      exec i s = .next (s.takeTrap t { code := 15, taddr := s.sread t a }) := hi.trans (issue_raise h hb)
  simp only [List.forall_mem_cons]
  refine ⟨?callr, ?ret, ?jmpr, List.forall_mem_nil _⟩
  all_goals exact traps rfl (by rw [alignedTarget_raise ha]; rfl)

/-- Settles O9: each form leaves the team that the branch or the call makes, and every such team has the PC and the
loops that R115 and R116 give. -/
theorem branchTargets : Obligations.BranchTargets := ⟨branchesAndCalls, misalignedTargets, programCounterMoves⟩

end Sys2Proof.Machine
end

section
/-! SUPPORT for O25 and O47. Every encoded instruction but the rejected word runs through the one frame of issue. -/

namespace Sys2Proof.Machine

/-- An encoded instruction is issued with a body of its own; a rejected word has a step of its own (R42, R87). -/
theorem exec_encoded {i : Instr} (h : (encodeWords i).isSome = true) (s : State) :
    (∃ w, i = .illegalInstr w) ∨ ∃ body, exec i s = issue i s body := by
  cases i with
  | illegalInstr w => exact .inl ⟨w, rfl⟩
  | recordIntervalClose | queueDoorbell | completionDoorbell | registerWrite | ctxinstall | ctxreset | ctxremove
  | csrread | csrwrite | errring | peerto | attest | cert | fwload | monread | setthr | replay | slicecfgWrite
  | slicecfgApply | stitchWrite | stitchApply | soruscfgWrite | sceneWrite | poolrsvWrite | migrationStart
  | migrationCopy | migrationFinish | powerOn | d3hotEntry | coreClockGate | corePowerGate | coreWake | taskReady
  | depcntUpdate | queueConsume | queueIdleRecheck | placementAttempt | teamExited | successorDecrement
  | preemptForCandidate | teamPreempted | donationStart | donationEnd | stealRequest | stealClaim | stealReply
  | derateSample | thermalTrip | teamWake | clockLoop | gddr7Equalisation | waveAgeLoop | prefetchThresholdLoop
  | monitorSample | homeRead | loadReply | homeStore | storeAck | homeAtomic | writeLeaseGrant | leaseRecall
  | writeLeaseExpiry | pairInject | homeAcceptPair | binApply | dsmElementOp | cbarArrival | hostRead | hostWrite
  | fabricWriteArrival | shootdown | multicastDeliver | copyStart | copyComplete | matrixOpStart | matrixStep
  | matrixComplete | transformStart | transformComplete | noiseWord | poolGrant | rayEntersBin | traversalBinAge
  | shaderBinAge | traversalStep | treeletLineArrival | traversalResult | doneDecrement | poolPressure
  | inboundPeerAccess | peerReply | peerTimeout | reservationTimeout | meshLinkFail | timeCheck | clockCheck
  | pairLinkRestore | pairLinkRestoreTimeout | ptpSync | scaleoutPortDown | replayDivergence | instructionFetchFault
  | deviceReset | d3hotExit | serdesAdaptation | sharedCacheWriteBack | cxlLinkTraining => cases h
  | _ => exact .inr ⟨_, rfl⟩

end Sys2Proof.Machine
end

section
/-! SUPPORT for O47. The checks of Table 4.6 in their order, the registers that masks name, and the obligation. -/

namespace Sys2Proof.Machine

variable {s : State} {t : Team} {i : Instr} {r : Trap}

/-! ### The order of the checks (R88, R373, R375) -/

/-- The checks of an instruction's fields are 3, 4 and 5. -/
theorem illegalCause_mem {c : Nat} (h : i.illegalCause = some c) : c = 3 ∨ c = 4 ∨ c = 5 := by
  rw [Instr.illegalCause] at h
  split_ifs at h <;> simp_all

/-- Every word mask and every implied number stays within the 96 registers. -/
def State.ImpliedFit (s : State) (t : Team) (i : Instr) : Prop := ∀ n ∈ s.rayVectors t i, n ≤ 95

theorem State.failedCheck_of_fit (h : s.ImpliedFit t i) : s.failedCheck t i = i.illegalCause := by
  rw [failedCheck, if_neg]
  simpa using show ∀ n ∈ s.rayVectors t i, n ≤ 95 from h

/-- A register above v95 fails check 4, behind a reserved code alone (R304). -/
theorem State.failedCheck_of_not_fit (h : ¬s.ImpliedFit t i) :
    s.failedCheck t i = some (if i.illegalCause = some 3 then 3 else 4) := by
  rw [failedCheck, if_pos (by simpa [ImpliedFit] using h)]
  cases hc : i.illegalCause with
  | none => rfl
  | some c => rcases illegalCause_mem hc with rfl | rfl | rfl <;> rfl

theorem State.decodeChecks_unprivileged (hp : ¬(i.privileged = true → s.privileged t = true)) :
    s.decodeChecks t i = raise (trapIllegal 2 i.firstWord) := by
  rw [decodeChecks, if_pos]
  simpa using hp

theorem State.decodeChecks_failed {c : Nat} (hp : i.privileged = true → s.privileged t = true)
    (hc : s.failedCheck t i = some c) : s.decodeChecks t i = raise (trapIllegal c i.firstWord) := by
  rw [decodeChecks, if_neg (by simpa using hp), hc]

theorem State.decodeChecks_allot {n : Nat} (hp : i.privileged = true → s.privileged t = true)
    (hc : s.failedCheck t i = none) (hn : (s.namedVectors t i).find? (fun v => decide (t.allot ≤ v)) = some n) :
    s.decodeChecks t i = raise (trapRegAllot n t.allot) := by
  rw [decodeChecks, if_neg (by simpa using hp), hc]
  simp only [hn]

theorem State.decodeChecks_ok (hp : i.privileged = true → s.privileged t = true) (hc : s.failedCheck t i = none)
    (hn : ∀ n ∈ s.namedVectors t i, n < t.allot) : s.decodeChecks t i = .ok () := by
  have hfind : (s.namedVectors t i).find? (fun v => decide (t.allot ≤ v)) = none := by simpa using hn
  rw [decodeChecks, if_neg (by simpa using hp), hc]
  simp only [hfind]

/-- An instruction that a check stops has its trap and no other effect. -/
theorem exec_of_failed_check (he : (encodeWords i).isSome = true) (hi : ∀ w, i ≠ .illegalInstr w)
    (h : MayIssue s t i) (hd : s.decodeChecks t i = raise r) : exec i s = .next (s.takeTrap t r) := by
  obtain ⟨w, hw⟩ | ⟨body, hb⟩ := exec_encoded he s
  · exact absurd hw (hi w)
  · simp only [hb, issue, h.cur, State.runIssue, h.can, h.free, hd, Team.settles_none h.settled]
    rfl

theorem checksInOrder : ChecksInOrder := by
  intro s t i he hi h priv traps
  have stops {r : Trap} (hd : s.decodeChecks t i = raise r) : traps r := exec_of_failed_check he hi h hd
  refine ⟨fun hp => stops (State.decodeChecks_unprivileged hp), fun hp c hc him => ⟨illegalCause_mem hc, ?field⟩,
    fun hp him => ?implied, fun hp hw him n hn => ?allotment⟩
  case field => exact stops (State.decodeChecks_failed hp ((State.failedCheck_of_fit him).trans hc))
  case implied => exact stops (State.decodeChecks_failed hp (State.failedCheck_of_not_fit him))
  case allotment =>
    have hc : i.illegalCause = none := by simpa [Instr.wellFormed] using hw
    exact stops (State.decodeChecks_allot hp ((State.failedCheck_of_fit him).trans hc) hn)

/-! ### The registers that masks name (R303 to R305) -/

theorem State.mem_wordMask {f : Field} {n : Nat} :
    n ∈ s.wordMask t f ↔ n < 32 ∧ (s.sread t f).getLsbD n = true := by
  rw [wordMask, List.mem_filter, List.mem_range]
  refine and_congr_right fun hn => ?_
  have hbit : bitOf (wordBits (s.sread t f) 0 32) n = ((s.sread t f).toNat % 2 ^ 32).testBit n := by
    simp [bitOf, wordBits, bitsOf, Nat.testBit_eq_decide_div_mod_eq, Bool.beq_eq_decide_eq]
  rw [hbit, Nat.testBit_mod_two_pow, decide_eq_true hn, Bool.true_and, BitVec.getLsbD]

theorem impliedVectors : ImpliedVectors := by
  intro s t d a b named
  refine ⟨fun n => State.mem_wordMask, fun n => State.mem_wordMask, fun n => ?spawn, fun n => ?retire⟩
  case spawn => simp [State.rayVectors, State.mem_wordMask, named, @eq_comm _ n]
  case retire => by_cases hd : d = 96#7 <;> simp [State.rayVectors, hd]

/-- Settles O47: each check comes where those before it pass, and a ray instruction names what its masks say. -/
theorem decodingChecks : Obligations.DecodingChecks := ⟨checksInOrder, impliedVectors⟩

end Sys2Proof.Machine
end

section
/-! SUPPORT for O48. The order of a shared cache does not touch the memory behind it; what a fetch of one word
answers; and the obligation. -/

namespace Sys2Proof.Machine

variable {s s1 : State} {t : Team} {m : Mapped} {va : Word}

/-! ### The shared cache holds no bytes of its own (R176, R188) -/

@[simp] theorem Die.mem_writeBack (k : Die) (line : Nat) : (k.writeBack line).mem = k.mem := by
  unfold writeBack
  split <;> rfl

@[simp] theorem Die.mem_evict (k : Die) (line : Nat) : (k.evict line).mem = k.mem := k.mem_writeBack line

@[simp] theorem Die.mem_touch (k : Die) (line c : Nat) : (k.touch line c).mem = k.mem := by
  unfold touch
  split
  · rfl
  · split
    · rfl
    · exact k.mem_evict _
    · rfl

/-- A line's bytes at its home once a request has reached it: those that its pending pairs leave (R177, R231). -/
theorem State.peek_reachHome {p : Phys} (h : p.space = .gddr) (who line n : Nat) :
    (s.reachHome who p.unit line).peek p n = ((s.recallLine who p.unit line).applyLine p.unit line).peek p n := by
  simp [State.peek, State.space, h, reachHome, touchLine, noteRequest]

/-! ### One word (R79, R190, R374) -/

theorem State.fetchWord_held (hm : s.translateResident t.walker va .fetch [0] = .ok (s1, m))
    (h : (s1.die m.phys.unit).migrates (lineOf m.phys.addr) = true) : s.fetchWord t va = .error .hold := by
  simp only [fetchWord, hm, bind, Except.bind]
  exact if_pos h

theorem State.fetchWord_ok (hm : s.translateResident t.walker va .fetch [0] = .ok (s1, m))
    (h : (s1.die m.phys.unit).migrates (lineOf m.phys.addr) = false) (hp : s1.poisoned m.phys = false) :
    s.fetchWord t va = .ok (s1.reachHome t.coreId m.phys.unit (lineOf m.phys.addr),
      BitVec.ofNat 32 ((s1.reachHome t.coreId m.phys.unit (lineOf m.phys.addr)).peek m.phys 4)) := by
  simp only [fetchWord, hm, bind, Except.bind, h, hp, Bool.false_eq_true, if_false]
  rfl

theorem State.fetchWord_error {e : Stop} (hm : s.translateResident t.walker va .fetch [0] = .error e) :
    s.fetchWord t va = .error e := by
  simp only [fetchWord, hm, bind, Except.bind]

/-! ### An instruction's words -/

theorem State.fetch_error {e : Stop} (h : (s.asClass t.ctx).fetchWord t t.pc = .error e) : s.fetch t = .error e := by
  simp only [fetch, h, bind, Except.bind]

theorem State.fetch_one {w : W32} (h : (s.asClass t.ctx).fetchWord t t.pc = .ok (s1, w))
    (hx : isXFormat w = false) : s.fetch t = .ok (s1, w, 0#32) := by
  simp only [fetch, h, bind, Except.bind, hx, Bool.false_eq_true, if_false]
  rfl

theorem State.fetch_two {s2 : State} {w lit : W32} (h : (s.asClass t.ctx).fetchWord t t.pc = .ok (s1, w))
    (hx : isXFormat w = true) (hl : s1.fetchWord t (t.pc + 4#64) = .ok (s2, lit)) :
    s.fetch t = .ok (s2, w, lit) := by
  simp only [fetch, h, bind, Except.bind, hx, if_true, hl]
  rfl

/-- A fetch that fails has its stop as the effect of the step that takes the instruction's place. -/
theorem exec_instructionFetchFault {e : Stop} (h : MayIssue s t .instructionFetchFault) (hf : s.fetch t = .error e) :
    exec .instructionFetchFault s = .next (s.takeStop t e) := by
  have he : exec .instructionFetchFault s = _ := issueBare_of_mayIssue h
  rw [he, hf]
  rfl

/-- Settles O48: the words are read at their homes, or the first step that fails answers. -/
theorem fetchReadsMemory : Obligations.FetchReadsMemory := by
  unfold Obligations.FetchReadsMemory
  intro s t s0
  refine ⟨?words, fun r hr => State.fetch_error (State.fetchWord_error hr), fun e => exec_instructionFetchFault⟩
  case words =>
    intro s1 m hm line s2 w
    refine ⟨fun hh => State.fetch_error (State.fetchWord_held hm hh), fun hh hp => ?_⟩
    have hw : (s.asClass t.ctx).fetchWord t t.pc = .ok (s2, w) := State.fetchWord_ok hm hh hp
    exact ⟨fun hg => State.peek_reachHome hg t.coreId line 4, State.fetch_one hw,
      fun s3 m' hx hm' hh' hp' => State.fetch_two hw hx (State.fetchWord_ok hm' hh' hp')⟩

end Sys2Proof.Machine
end

section
/-! SUPPORT for O25. The three-operand rows of Table 5.3: what each writes, modulo 2^w (R103 to R105). -/

namespace Sys2Proof.Machine

variable {w a b d k : Nat}

/-! ### Numbers by their bits -/

theorem bitsWhere_succ (w : Nat) (f : Nat → Bool) :
    bitsWhere (w + 1) f = bitsWhere w f + if f w then 2 ^ w else 0 := by
  simp [bitsWhere, List.range_succ]

theorem bitsWhere_lt (w : Nat) (f : Nat → Bool) : bitsWhere w f < 2 ^ w := by
  induction w with
  | zero => simp [bitsWhere]
  | succ w ih =>
    rw [bitsWhere_succ, Nat.pow_succ]
    split <;> omega

theorem testBit_bitsWhere (w : Nat) (f : Nat → Bool) (k : Nat) :
    (bitsWhere w f).testBit k = (decide (k < w) && f k) := by
  induction w with
  | zero => simp [bitsWhere]
  | succ w ih =>
    have hbit : (bitsWhere (w + 1) f).testBit k = if k < w then (bitsWhere w f).testBit k else
        (if f w then 1 else 0).testBit (k - w) := by
      rw [← Nat.testBit_two_pow_mul_add _ (bitsWhere_lt w f), bitsWhere_succ]
      split <;> simp [Nat.add_comm]
    rw [hbit, ih]
    rcases Nat.lt_trichotomy k w with h | rfl | h
    · simp [h, Nat.lt_succ_of_lt h]
    · cases f k <;> simp
    · obtain ⟨j, hj⟩ : ∃ j, k - w = j + 1 := ⟨k - w - 1, by omega⟩
      have : ¬k < w + 1 := by omega
      cases f w <;> simp [hj, this, Nat.not_lt_of_lt h, Nat.testBit_succ]

/-- A number of w bits is given by them. -/
theorem eq_bitsWhere {x : Nat} {f : Nat → Bool} (hx : x < 2 ^ w) (h : ∀ k < w, x.testBit k = f k) :
    x = bitsWhere w f := by
  refine Nat.eq_of_testBit_eq fun k => ?_
  rw [testBit_bitsWhere]
  by_cases hk : k < w
  · simp [hk, h k hk]
  · simp [hk, Nat.testBit_lt_two_pow (hx.trans_le (Nat.pow_le_pow_right two_pos (not_lt.1 hk)))]

theorem testBit_setBitsOf (v lo n x k : Nat) :
    (setBitsOf v lo n x).testBit k = if lo ≤ k ∧ k < lo + n then x.testBit (k - lo) else v.testBit k := by
  have hlow : v % 2 ^ lo < 2 ^ lo := Nat.mod_lt _ (by positivity)
  have hmid : x % 2 ^ n < 2 ^ n := Nat.mod_lt _ (by positivity)
  have hsplit : setBitsOf v lo n x = 2 ^ lo * (2 ^ n * (v / 2 ^ (lo + n)) + x % 2 ^ n) + v % 2 ^ lo := by
    rw [setBitsOf, Nat.pow_add]
    ring
  rw [hsplit, Nat.testBit_two_pow_mul_add _ hlow, Nat.testBit_two_pow_mul_add _ hmid]
  by_cases h1 : k < lo
  · simp [h1, Nat.not_le.2 h1, Nat.testBit_mod_two_pow]
  · by_cases h2 : k < lo + n
    · have : k - lo < n := by omega
      simp [h1, h2, this, not_lt.1 h1, Nat.testBit_mod_two_pow]
    · have : ¬k - lo < n := by omega
      have hk : k - lo - n + (lo + n) = k := by omega
      simp [h1, h2, this, Nat.testBit_div_two_pow, hk]

/-! ### Results modulo 2^w (R103) -/

theorem wrapInt_natCast (w n : Nat) : wrapInt w n = n % 2 ^ w := by
  have : ((n : Int) % 2 ^ w) = ((n % 2 ^ w : Nat) : Int) := by push_cast; rfl
  rw [wrapInt, this, Int.toNat_natCast]

theorem wrapInt_of_lt {n : Nat} (h : n < 2 ^ w) : wrapInt w n = n := by
  rw [wrapInt_natCast, Nat.mod_eq_of_lt h]

theorem wrapInt_allOnes (w : Nat) : wrapInt w (2 ^ w - 1) = 2 ^ w - 1 := by
  have h1 : 1 ≤ 2 ^ w := Nat.one_le_two_pow
  have : (2 ^ w - 1 : Int) = ((2 ^ w - 1 : Nat) : Int) := by push_cast [h1]; rfl
  rw [this, wrapInt_of_lt (by omega)]

theorem wrapInt_sub (h : b < 2 ^ w) : wrapInt w ((a : Int) - b) = (a + 2 ^ w - b) % 2 ^ w := by
  have hc : ((a + 2 ^ w - b : Nat) : Int) = (a : Int) - b + 2 ^ w := by
    have : b ≤ a + 2 ^ w := by omega
    push_cast [this]
    ring
  rw [← wrapInt_natCast, hc, wrapInt, wrapInt, Int.add_emod_right]

theorem signedOf_eq_sx (hw : 0 < w) (h : a < 2 ^ w) : signedOf w a = sx w a := by
  obtain ⟨k, rfl⟩ : ∃ k, w = k + 1 := ⟨w - 1, by omega⟩
  have hp : 2 ^ (k + 1) = 2 * 2 ^ k := Nat.pow_succ'
  simp only [signedOf, sx, Nat.mod_eq_of_lt h, Nat.add_sub_cancel]
  split_ifs <;> omega

/-! ### The operands of a row -/

/-- The operands of R103 are numbers of w bits. -/
structure IntOperands.Fits (o : IntOperands) : Prop where
  pos : 0 < o.w
  small : o.w ≤ 64
  a : o.a < 2 ^ o.w
  b : o.b < 2 ^ o.w
  d : o.d < 2 ^ o.w

/-- What an instruction computes is what Table 5.3 gives, modulo 2^w. -/
def IntOperands.Gives (r : IntOperands → Int) (f : Nat → Nat → Nat → Nat → Nat) : Prop :=
  ∀ o : IntOperands, o.Fits → wrapInt o.w (r o) = f o.w o.a o.b o.d

theorem widthOf_pos (q : BitVec 1) : 0 < widthOf q := by
  unfold widthOf
  split <;> decide

theorem widthOf_le (q : BitVec 1) : widthOf q ≤ 64 := by
  unfold widthOf
  split <;> decide

theorem intOperands_fits (s : State) (t : Team) (x a b : Field) (q : BitVec 1) : (s.intOperands t x a b q).Fits where
  pos := widthOf_pos q
  small := widthOf_le q
  a := Nat.mod_lt _ (by positivity)
  b := Nat.mod_lt _ (by positivity)
  d := Nat.mod_lt _ (by positivity)

namespace IntOperands

variable {o : IntOperands}

theorem Fits.sa (h : o.Fits) : o.sa = sx o.w o.a := signedOf_eq_sx h.pos h.a

theorem Fits.sb (h : o.Fits) : o.sb = sx o.w o.b := signedOf_eq_sx h.pos h.b

/-! ### The rows of Table 5.3 -/

theorem gives_add : Gives (fun o => (o.a : Int) + o.b) fun w a b _ => (a + b) % 2 ^ w :=
  fun o _ => by exact_mod_cast wrapInt_natCast o.w (o.a + o.b)

theorem gives_sub : Gives (fun o => (o.a : Int) - o.b) fun w a b _ => (a + 2 ^ w - b) % 2 ^ w :=
  fun _ h => wrapInt_sub h.b

theorem gives_mul : Gives (fun o => (o.a : Int) * o.b) fun w a b _ => a * b % 2 ^ w :=
  fun o _ => by exact_mod_cast wrapInt_natCast o.w (o.a * o.b)

theorem gives_mulh : Gives (fun o => o.sa * o.sb / 2 ^ o.w) fun w a b _ => modW w (sx w a * sx w b / 2 ^ w) :=
  fun o h => by simp only [h.sa, h.sb]; rfl

theorem gives_mulhn : Gives (fun o => ((o.a * o.b / 2 ^ o.w : Nat) : Int)) fun w a b _ => a * b / 2 ^ w :=
  fun _ h => wrapInt_of_lt (Nat.div_lt_of_lt_mul (Nat.mul_lt_mul_of_lt_of_lt h.a h.b))

theorem gives_div : Gives (fun o => o.div) fun w a b _ =>
    if b = 0 then 2 ^ w - 1 else modW w ((sx w a).tdiv (sx w b)) := by
  intro o h
  simp only [div, h.sa, h.sb]
  split
  · exact wrapInt_allOnes o.w
  · rfl

theorem gives_divn : Gives (fun o => o.divn) fun w a b _ => if b = 0 then 2 ^ w - 1 else a / b := by
  intro o h
  simp only [divn]
  split
  · exact wrapInt_allOnes o.w
  · exact_mod_cast wrapInt_of_lt ((Nat.div_le_self o.a o.b).trans_lt h.a)

theorem gives_rem : Gives (fun o => o.rem) fun w a b _ => if b = 0 then a else modW w ((sx w a).tmod (sx w b)) := by
  intro o h
  simp only [rem, h.sa, h.sb]
  split
  · exact wrapInt_of_lt h.a
  · rw [Int.tmod_def]
    rfl

theorem gives_remn : Gives (fun o => o.remn) fun _ a b _ => a % b := by
  intro o h
  simp only [remn]
  split
  case isTrue h0 => rw [h0, Nat.mod_zero, wrapInt_of_lt h.a]
  case isFalse =>
    have : (o.a : Int) - o.b * (o.a / o.b : Nat) = ((o.a % o.b : Nat) : Int) := by
      push_cast
      exact (Int.emod_def _ _).symm
    rw [this, wrapInt_of_lt ((Nat.mod_le o.a o.b).trans_lt h.a)]

theorem gives_and : Gives (fun o => ((o.a &&& o.b : Nat) : Int)) fun _ a b _ => a &&& b :=
  fun _ h => wrapInt_of_lt (Nat.and_lt_two_pow _ h.b)

theorem gives_or : Gives (fun o => ((o.a ||| o.b : Nat) : Int)) fun _ a b _ => a ||| b :=
  fun _ h => wrapInt_of_lt (Nat.or_lt_two_pow h.a h.b)

theorem gives_xor : Gives (fun o => ((o.a ^^^ o.b : Nat) : Int)) fun _ a b _ => a ^^^ b :=
  fun _ h => wrapInt_of_lt (Nat.xor_lt_two_pow h.a h.b)

theorem gives_andn : Gives (fun o => ((o.a &&& (2 ^ o.w - 1 - o.b) : Nat) : Int)) fun w a b _ =>
    bitsWhere w (fun k => a.testBit k && !b.testBit k) := by
  intro o h
  have hlt : o.a &&& (2 ^ o.w - 1 - o.b) < 2 ^ o.w := Nat.and_le_left.trans_lt h.a
  refine (wrapInt_of_lt hlt).trans (eq_bitsWhere hlt fun k hk => ?_)
  rw [Nat.testBit_and, Nat.sub_sub, Nat.add_comm 1, Nat.testBit_two_pow_sub_succ h.b]
  simp [hk]

theorem gives_shl : Gives (fun o => (o.a : Int) * 2 ^ o.amount) fun w a b _ => a * 2 ^ (b % w) % 2 ^ w :=
  fun o _ => by exact_mod_cast wrapInt_natCast o.w (o.a * 2 ^ o.amount)

theorem gives_shr : Gives (fun o => ((o.a / 2 ^ o.amount : Nat) : Int)) fun w a b _ => a / 2 ^ (b % w) :=
  fun _ h => wrapInt_of_lt ((Nat.div_le_self _ _).trans_lt h.a)

theorem gives_sra : Gives (fun o => o.sa / 2 ^ o.amount) fun w a b _ => modW w (sx w a / 2 ^ (b % w)) :=
  fun o h => by simp only [h.sa]; rfl

theorem gives_rotl : Gives (fun o => ((rotl o.w o.a o.amount : Nat) : Int)) fun w a b _ =>
    bitsWhere w (fun k => a.testBit ((k + w - b % w) % w)) := by
  intro o h
  have hk : o.amount < o.w := Nat.mod_lt _ h.pos
  have hpow : 2 ^ o.w = 2 ^ (o.w - o.amount) * 2 ^ o.amount := by rw [← Nat.pow_add]; congr 1; omega
  have hhigh : o.a / 2 ^ (o.w - o.amount) < 2 ^ o.amount := Nat.div_lt_of_lt_mul (hpow ▸ h.a)
  have hsplit : rotl o.w o.a o.amount =
      2 ^ o.amount * (o.a % 2 ^ (o.w - o.amount)) + o.a / 2 ^ (o.w - o.amount) := by
    rw [rotl, hpow, Nat.mul_mod_mul_right, Nat.mul_comm]
  have hlow : o.a % 2 ^ (o.w - o.amount) < 2 ^ (o.w - o.amount) := Nat.mod_lt _ (by positivity)
  have hlt : rotl o.w o.a o.amount < 2 ^ o.w := by
    rw [hsplit, hpow]
    exact Nat.mul_add_lt_mul_of_lt_of_lt hlow hhigh
  refine (wrapInt_of_lt hlt).trans (eq_bitsWhere hlt fun k hkw => ?_)
  rw [hsplit, Nat.testBit_two_pow_mul_add _ hhigh]
  change _ = o.a.testBit ((k + o.w - o.amount) % o.w)
  split
  case isTrue hlow => rw [Nat.testBit_div_two_pow, Nat.mod_eq_of_lt (by omega)]; congr 1; omega
  case isFalse hge =>
    have hm : (k + o.w - o.amount) % o.w = k - o.amount := by
      rw [show k + o.w - o.amount = k - o.amount + o.w by omega, Nat.add_mod_right, Nat.mod_eq_of_lt (by omega)]
    have : k - o.amount < o.w - o.amount := by omega
    simp [hm, Nat.testBit_mod_two_pow, this]

theorem gives_min : Gives (fun o => min o.sa o.sb) fun w a b _ => if sx w a ≤ sx w b then a else b := by
  intro o h
  simp only [min_def, ← h.sa, ← h.sb]
  split
  · exact wrapInt_signedOf h.a
  · exact wrapInt_signedOf h.b

theorem gives_max : Gives (fun o => max o.sa o.sb) fun w a b _ => if sx w a ≤ sx w b then b else a := by
  intro o h
  simp only [max_def, ← h.sa, ← h.sb]
  split
  · exact wrapInt_signedOf h.b
  · exact wrapInt_signedOf h.a

theorem gives_minn : Gives (fun o => ((min o.a o.b : Nat) : Int)) fun _ a b _ => if a ≤ b then a else b :=
  fun o h => (wrapInt_of_lt ((min_le_left _ _).trans_lt h.a)).trans (min_def o.a o.b)

theorem gives_maxn : Gives (fun o => ((max o.a o.b : Nat) : Int)) fun _ a b _ => if a ≤ b then b else a :=
  fun o h => (wrapInt_of_lt (max_lt h.a h.b)).trans (max_def o.a o.b)

theorem gives_sel : Gives (fun o => if o.d = 0 then o.b else o.a) fun _ a b d => if d ≠ 0 then a else b := by
  intro o h
  by_cases h0 : o.d = 0
  · simpa [h0] using wrapInt_of_lt h.b
  · simpa [h0] using wrapInt_of_lt h.a

theorem gives_bfx : Gives (fun o => o.bfx) fun _ a b _ => a / 2 ^ (b % 64) % 2 ^ (b / 256 % 64 + 1) := by
  intro o h
  have hlt : o.a / 2 ^ o.pos % 2 ^ o.flen < 2 ^ o.w :=
    (Nat.mod_le _ _).trans_lt ((Nat.div_le_self _ _).trans_lt h.a)
  have hp : o.pos = o.b % 64 := by simp [pos, bitsOf]
  refine (wrapInt_of_lt hlt).trans ?_
  rw [hp]
  rfl

theorem gives_bfi : Gives (fun o => o.bfi) fun w a b d => bitsWhere w fun k =>
    if b % 64 ≤ k && k < b % 64 + (b / 256 % 64 + 1) then a.testBit (k - b % 64) else d.testBit k := by
  intro o h
  have hp : o.b % 64 = o.pos := by simp [pos, bitsOf]
  have hn : o.b / 256 % 64 + 1 = o.flen := rfl
  simp only [hp, hn]
  rw [bfi]
  split
  case isTrue hw =>
    rw [wrapInt_of_lt h.d]
    refine eq_bitsWhere h.d fun k hk => ?_
    rw [if_neg]
    simp
    omega
  case isFalse hw =>
    have hlt : setBitsOf o.d o.pos (min (o.pos + o.flen) o.w - o.pos) o.a < 2 ^ o.w := by
      refine Nat.lt_pow_two_of_testBit _ fun k hk => ?_
      rw [testBit_setBitsOf, if_neg (by omega),
        Nat.testBit_lt_two_pow (h.d.trans_le (Nat.pow_le_pow_right two_pos hk))]
    refine (wrapInt_of_lt hlt).trans (eq_bitsWhere hlt fun k hk => ?_)
    have : (o.pos ≤ k ∧ k < o.pos + (min (o.pos + o.flen) o.w - o.pos)) ↔ o.pos ≤ k ∧ k < o.pos + o.flen := by
      omega
    simp [testBit_setBitsOf, this]

end IntOperands

/-- A row of Table 5.3 whose result is `f`, from the width, a, b and the old d. -/
def resultForm (i : Instr) (x a b : Field) (q : BitVec 1) (f : Nat → Nat → Nat → Nat → Nat) (s : State) :
    Host.Outcome State Fault Refusal :=
  issueTeam i s fun t => (t.setD x (BitVec.ofNat 64 (f (widthOf q) ((s.sread t a).toNat % 2 ^ widthOf q)
    ((s.sread t b).toNat % 2 ^ widthOf q) ((t.sreg x).toNat % 2 ^ widthOf q)))).advance

/-- A row that computes what Table 5.3 gives leaves it in s[D]. -/
theorem exec_of_gives {i : Instr} {s : State} {x a b : Field} {q : BitVec 1} {r : IntOperands → Int}
    {f : Nat → Nat → Nat → Nat → Nat} (h : IntOperands.Gives r f) (hi : exec i s = intForm i x a b q r s) :
    exec i s = resultForm i x a b q f s := by
  refine hi.trans (congrArg (issueTeam i s) (funext fun t => ?_))
  rw [intWord]
  exact congrArg (fun v => (t.setD x (BitVec.ofNat 64 v)).advance) (h _ (intOperands_fits s t x a b q))

/-- Every three-operand row of Table 5.3 writes what the table gives. -/
theorem exec_table53 : ∀ p ∈ table53, ∀ (x a b : Field) (q : BitVec 1) (s : State),
    exec (p.1 x a b q) s = resultForm (p.1 x a b q) x a b q p.2 s := by
  simp only [table53, List.forall_mem_cons]
  open IntOperands in
  exact ⟨fun _ _ _ _ _ => exec_of_gives gives_add rfl, fun _ _ _ _ _ => exec_of_gives gives_sub rfl,
    fun _ _ _ _ _ => exec_of_gives gives_mul rfl, fun _ _ _ _ _ => exec_of_gives gives_mulh rfl,
    fun _ _ _ _ _ => exec_of_gives gives_mulhn rfl, fun _ _ _ _ _ => exec_of_gives gives_div rfl,
    fun _ _ _ _ _ => exec_of_gives gives_divn rfl, fun _ _ _ _ _ => exec_of_gives gives_rem rfl,
    fun _ _ _ _ _ => exec_of_gives gives_remn rfl, fun _ _ _ _ _ => exec_of_gives gives_and rfl,
    fun _ _ _ _ _ => exec_of_gives gives_or rfl, fun _ _ _ _ _ => exec_of_gives gives_xor rfl,
    fun _ _ _ _ _ => exec_of_gives gives_andn rfl, fun _ _ _ _ _ => exec_of_gives gives_shl rfl,
    fun _ _ _ _ _ => exec_of_gives gives_shr rfl, fun _ _ _ _ _ => exec_of_gives gives_sra rfl,
    fun _ _ _ _ _ => exec_of_gives gives_rotl rfl, fun _ _ _ _ _ => exec_of_gives gives_min rfl,
    fun _ _ _ _ _ => exec_of_gives gives_max rfl, fun _ _ _ _ _ => exec_of_gives gives_minn rfl,
    fun _ _ _ _ _ => exec_of_gives gives_maxn rfl, fun _ _ _ _ _ => exec_of_gives gives_sel rfl,
    fun _ _ _ _ _ => exec_of_gives gives_bfx rfl, fun _ _ _ _ _ => exec_of_gives gives_bfi rfl,
    List.forall_mem_nil _⟩

end Sys2Proof.Machine
end

section
/-! SUPPORT for O25. What a scalar load does in each of its cases (R177, R193, R195, R326). -/

namespace Sys2Proof.Machine

variable {s s1 s2 : State} {t : Team} {d : Field} {va : Word} {n v : Nat} {acquire : Bool} {next : Team → Team}
  {m : Mapped}

theorem needAligned_raise (h : va.toNat % n ≠ 0) : needAligned va n = raise { code := 5, taddr := va } := if_neg h

theorem State.scalarLoad_misaligned (h : va.toNat % n ≠ 0) :
    s.scalarLoad t d va n acquire next = raise { code := 5, taddr := va } := by
  simp only [scalarLoad, needAligned_raise h, bind, Except.bind, raise]

theorem State.scalarLoad_unmapped {e : Stop} (h : va.toNat % n = 0)
    (hm : s.translateResident t.walker va .read [0, 1, 3] = .error e) :
    s.scalarLoad t d va n acquire next = .error e := by
  simp only [scalarLoad, needAligned_ok h, scalarSpaces, hm, bind, Except.bind]

theorem State.ownPairs_ok {p : Phys} (h : s.pairsTo t p = false) : s.ownPairs t p = .ok () := by
  simp [ownPairs, h]

/-- A load that its home or a lease serves at once. -/
theorem State.scalarLoad_served (h : Reaches s t va n .read [0, 1, 3] s1 m)
    (hq : s1.loadQueues t m.phys m.nc = false) (hv : s1.teamLoad t m n = .ok (s2, v)) :
    s.scalarLoad t d va n acquire next =
      .ok (s2.modTeam t.uid fun u => next (u.setD d (BitVec.ofNat 64 v))) := by
  simp only [scalarLoad, needAligned_ok h.aligned, scalarSpaces, h.mapped, ownPairs_ok h.settled, hq, hv, bind,
    Except.bind]
  rfl

/-- A load that waits for its home stops or goes there, as its reservations are taken or free. -/
theorem State.scalarLoad_queued (h : Reaches s t va n .read [0, 1, 3] s1 m)
    (hq : s1.loadQueues t m.phys m.nc = true) :
    s.scalarLoad t d va n acquire next = (s1.needCredit t m.phys).map fun _ =>
      (s1.queueReq t m (.load d.toNat n)).modTeam t.uid fun u =>
        { next u with pend := some (.load d.toNat n m.phys acquire) } := by
  simp only [scalarLoad, needAligned_ok h.aligned, scalarSpaces, h.mapped, ownPairs_ok h.settled, hq, bind,
    Except.bind]
  cases s1.needCredit t m.phys <;> rfl

theorem State.needCredit_ok {p : Phys} (h : s.hasCredit t.coreId p = true) (ht : t.pend = none) :
    s.needCredit t p = .ok () := by
  simp [needCredit, h, ht]

theorem State.needCredit_hold {p : Phys} (h : s.hasCredit t.coreId p = false ∨ t.pend ≠ none) :
    s.needCredit t p = .error .hold := by
  rcases h with h | h <;> simp [needCredit, h]

theorem Held.of_issue {i : Instr} {body : Team → Effect} (hi : exec i s = issue i s body)
    (hb : body t = .error .hold) : Held s t i :=
  fun h => hi.trans (issue_stop h hb)

theorem loadsIssue : LoadsIssue := by
  intro s t d a b z lit n load
  have loads {i : Instr} {va : Word} {acquire : Bool} {next : Team → Team} {body : Team → Effect}
      (hi : exec i s = issue i s body) (hb : body t = s.scalarLoad t d va n acquire next) :
      load i va acquire next := by
    refine ⟨⟨fun h => .of_issue hi (hb.trans (State.scalarLoad_misaligned h)),
      fun r h hm => .of_issue hi (hb.trans (State.scalarLoad_unmapped h hm))⟩, fun s1 m h => ⟨?served, ?queued⟩⟩
    case served => exact fun hq s2 v hv => .of_issue hi (hb.trans (State.scalarLoad_served h hq hv))
    case queued =>
      intro hq
      refine ⟨fun hc hissues => ?_, fun hc => .of_issue hi ?_⟩
      · refine Does.of_issue hi (hb.trans ?_) hissues
        rw [State.scalarLoad_queued h hq, State.needCredit_ok hc hissues.settled]
        rfl
      · rw [hb, State.scalarLoad_queued h hq, State.needCredit_hold (.inl hc)]
        rfl
  exact ⟨loads rfl rfl, loads rfl rfl, fun hx => loads rfl (by rw [Team.xCheck_ok hx]; rfl),
    fun hx => .of_issue rfl (by rw [Team.xCheck_raise hx]; rfl)⟩

end Sys2Proof.Machine
end

section
/-! SUPPORT for O25. What a team does while the reply to its load is on its way (R182, R184), and the obligation. -/

namespace Sys2Proof.Machine

variable {s s1 : State} {t : Team} {i : Instr} {d : Nat} {body : Team → Effect}

/-! ### Interlocks (R42, R182) -/

/-- What holds an instruction is its team's load, or what would hold it without one. -/
theorem State.interlocked_eq (s : State) (t : Team) (i : Instr) :
    s.interlocked t i = (t.loadHolds i || s.interlocked { t with pend := none } i) := by
  have hnamed : s.namedVectors { t with pend := none } i = s.namedVectors t i := rfl
  have hrays : s.entersRays { t with pend := none } = s.entersRays t := rfl
  have hxfs : s.teamXfs { t with pend := none } = s.teamXfs t := rfl
  have hmats : s.teamMats { t with pend := none } = s.teamMats t := rfl
  have hload : ({ t with pend := none } : Team).loadHolds i = false := rfl
  simp only [interlocked, hnamed, hrays, hxfs, hmats, hload, Bool.or_false, Bool.or_assoc, Bool.or_left_comm]

/-- An instruction that waits or is held leaves the state as it is, with the mark of it. -/
theorem exec_held (he : (encodeWords i).isSome = true) (hc : s.team? s.cur = some t)
    (h : s.canIssue t = false ∨ s.interlocked t i = true) : exec i s = .next { s with stalled := true } := by
  have hstop : (!s.canIssue t || s.interlocked t i) = true := by rcases h with h | h <;> simp [h]
  obtain ⟨w, rfl⟩ | ⟨body, hb⟩ := exec_encoded he s
  · have hw : exec (.illegalInstr w) s = issueBare _ _ _ _ := rfl
    rw [hw, issueBare, hc]
    exact if_pos hstop
  · rw [hb, issue, hc]
    simp only [State.runIssue, hstop, if_true]
    rfl

/-! ### Issue past a load (R182) -/

namespace IssuesPast

theorem pend (h : IssuesPast s t i d) : t.pend ≠ none := by
  intro h0
  have := h.loading
  simp [Team.loading, h0] at this

theorem checks (h : IssuesPast s t i d) : s.decodeChecks t i = .ok () := by
  have hc : i.illegalCause = none := by simpa [Instr.wellFormed] using h.formed
  exact State.decodeChecks_ok h.priv ((State.failedCheck_of_fit h.implied).trans hc) h.allot

/-- An instruction that its team's load does not hold does what its body says; where that stops, it waits for the
load. -/
theorem issue_eq (h : IssuesPast s t i d) (hl : t.loadHolds i = false) : issue i s body =
    .next (match body t with
      | .ok r => r.countReads t.uid i.timeReads
      | .error _ => { s with stalled := true }) := by
  have hfree : s.interlocked t i = false := by rw [State.interlocked_eq, hl, h.free]; rfl
  have hpend : t.pend.isSome = true := Option.isSome_iff_ne_none.2 h.pend
  simp only [issue, h.cur, State.runIssue, h.can, hfree, h.checks]
  cases hb : body t with
  | error e => simp [bind, Except.bind, Team.settles, hpend, State.takeStop]
  | ok r =>
    simp only [bind, Except.bind]
    rcases h.quiet with hq | hq
    · simp only [hq, State.noteTimeReads, State.logReads, State.countReads]
      cases s.logsTime t <;> simp [bind, Except.bind, pure, Except.pure]
    · simp [State.noteTimeReads, hq]

theorem completes {r : State} (h : IssuesPast s t i d) (hl : t.loadHolds i = false) (hi : exec i s = issue i s body)
    (hb : body t = .ok r) : exec i s = .next (r.countReads t.uid i.timeReads) := by
  rw [hi, h.issue_eq hl, hb]

/-- Whether its load holds it or its body stops, the instruction waits. -/
theorem waits {e : Stop} (h : IssuesPast s t i d) (hi : exec i s = issue i s body) (hb : body t = .error e)
    (he : (encodeWords i).isSome = true) : exec i s = .next { s with stalled := true } := by
  cases hl : t.loadHolds i
  · rw [hi, h.issue_eq hl, hb]
  · exact exec_held he h.cur (.inr (by rw [State.interlocked_eq, hl]; rfl))

theorem not_loadHolds (h : IssuesPast s t i d) (hd : d ∉ i.scalarNumbers) (hw : i.waitsForLoad = false) :
    t.loadHolds i = false := by
  simp [Team.loadHolds, h.loading, hd, hw]

end IssuesPast

/-! ### Stores (R177, R193, R211, R232) -/

theorem State.scalarStore_served {m : Mapped} {va v : Word} {n : Nat}
    (h : ReachesStore s t va n .write [0, 1, 3] s1 m) (hq : s1.mustQueue t m.phys = false) :
    s.scalarStore t va n v (.ok ()) =
      .ok ((s1.teamStore t va m.phys (leBytes n v.toNat)).modTeam t.uid Team.advance) := by
  simp only [scalarStore, needAligned_ok h.aligned, scalarSpaces, h.mapped, ownPairs_ok h.settled, h.regions, hq,
    bind, Except.bind]
  rfl

/-! ### The instructions -/

/-- The integer rows do not give their team up. -/
theorem table53_waitsForLoad : ∀ p ∈ table53, ∀ (x a b : Field) (q : BitVec 1),
    (p.1 x a b q).waitsForLoad = false := by
  simp [table53, Instr.waitsForLoad]

/-- An instruction that names the load's register or gives its team up is held. -/
theorem Team.loadHolds_of_loading (h : t.loading = some d) (hi : d ∈ i.scalarNumbers ∨ i.waitsForLoad = true) :
    t.loadHolds i = true := by
  rcases hi with hi | hi <;> simp [loadHolds, h, hi]

/-- A load that acquires holds its team (R184). -/
theorem State.canIssue_of_acquire {n : Nat} {p : Phys} (h : t.pend = some (.load d n p true)) :
    s.canIssue t = false := by
  simp [canIssue, waitsTurn, Team.goesOn, Team.loading, h]

theorem loadsAreOvertaken : LoadsAreOvertaken := by
  intro s t d x a b held
  refine ⟨fun p hp q h hd => ?integer, fun z s1 m h hd hr hq => ?store, fun z s1 m h hr hq => ?load, fun k h => ?trap,
    fun i he hc => ⟨fun hl hi => ?named, fun ⟨n, p, hp⟩ => ?acquire⟩⟩
  case integer =>
    refine (h.completes (h.not_loadHolds hd (table53_waitsForLoad p hp x a b q)) (exec_table53 p hp x a b q s)
      rfl).trans ?_
    rw [State.after, advance_uid, setD_uid]
  case store => exact h.completes (h.not_loadHolds hd rfl) rfl (State.scalarStore_served hr hq)
  case load =>
    refine h.waits (e := .hold) rfl ?_ rfl
    refine (State.scalarLoad_queued hr hq).trans ?_
    rw [State.needCredit_hold (.inr h.pend)]
    rfl
  case trap => exact h.waits rfl rfl rfl
  case named =>
    have hw : d ∈ i.scalarNumbers ∨ i.waitsForLoad = true := by
      refine hi.imp_right fun hi => ?_
      simp only [List.mem_cons, List.not_mem_nil, or_false] at hi
      rcases hi with rfl | rfl | rfl | rfl <;> rfl
    exact exec_held he hc (.inr (by rw [State.interlocked_eq, Team.loadHolds_of_loading hl hw]; rfl))
  case acquire => exact exec_held he hc (.inl (State.canIssue_of_acquire hp))

/-- Settles O25: the three loads in each of their cases, and what overtakes them. -/
theorem scalarLoads : Obligations.ScalarLoads := ⟨loadsIssue, loadsAreOvertaken⟩

end Sys2Proof.Machine
end

section
/-! SUPPORT for O5. The rows of Table 5.3 with one source, the compares, and the obligation (R102, R103). -/

namespace Sys2Proof.Machine

variable {w : Nat}

/-! ### Numbers by their bits -/

theorem bitsWhere_congr {f g : Nat → Bool} (h : ∀ k < w, f k = g k) : bitsWhere w f = bitsWhere w g :=
  eq_bitsWhere (bitsWhere_lt w f) fun k hk => by simp [testBit_bitsWhere, hk, h k hk]

theorem mod_two_eq_toNat_testBit (v : Nat) : v % 2 = (v.testBit 0).toNat := by
  rw [Nat.toNat_testBit, Nat.pow_zero, Nat.div_one]

/-- The lowest set bit is the first index at which the number has a bit. -/
theorem lowestSet_eq_find? (n v : Nat) : lowestSet n v = (List.range n).find? fun k => v.testBit k := by
  induction n generalizing v with
  | zero => rfl
  | succ n ih =>
    rw [lowestSet, ih, List.range_succ_eq_map, List.find?_cons, List.find?_map, mod_two_eq_toNat_testBit]
    cases v.testBit 0 <;> simp [Nat.testBit_succ]

/-- The number of set bits is the number of indices at which the number has a bit. -/
theorem popcount_eq_length_filter (n v : Nat) :
    popcount n v = ((List.range n).filter fun k => v.testBit k).length := by
  induction n generalizing v with
  | zero => rfl
  | succ n ih =>
    rw [popcount, ih, List.range_succ_eq_map, List.filter_cons, List.filter_map, mod_two_eq_toNat_testBit]
    cases v.testBit 0 <;> simp [Function.comp_def, Nat.testBit_succ, Nat.add_comm]

theorem reverseBits_eq_bitsWhere (n v : Nat) :
    reverseBits n v = bitsWhere n fun k => v.testBit (n - 1 - k) := by
  induction n generalizing v with
  | zero => rfl
  | succ n ih =>
    have hlow : bitsWhere n (fun k => (v / 2).testBit (n - 1 - k)) = bitsWhere n fun k => v.testBit (n - k) :=
      bitsWhere_congr fun k hk => by rw [← Nat.testBit_succ]; congr 1; omega
    rw [reverseBits, ih, hlow, bitsWhere_succ, mod_two_eq_toNat_testBit, Nat.add_comm]
    simp only [Nat.add_sub_cancel, Nat.sub_self]
    cases v.testBit 0 <;> simp

theorem popcount_le (n v : Nat) : popcount n v ≤ n := by
  rw [popcount_eq_length_filter]
  simpa using List.length_filter_le (fun k => v.testBit k) (List.range n)

theorem lowestSet_getD_le (n v : Nat) : (lowestSet n v).getD n ≤ n := by
  rw [lowestSet_eq_find?]
  cases h : (List.range n).find? fun k => v.testBit k with
  | none => exact le_rfl
  | some k => exact (List.mem_range.1 (List.mem_of_find?_eq_some h)).le

/-! ### The rows with one source (R103) -/

namespace IntOperands

/-- A count of bits is a number of w bits. -/
theorem wrapInt_of_le {n : Nat} (h : n ≤ w) : wrapInt w n = n := wrapInt_of_lt (h.trans_lt Nat.lt_two_pow_self)

theorem gives_clz : Gives (fun o => ((o.w - bitLength o.a : Nat) : Int)) fun w a _ _ =>
    if a = 0 then w else w - 1 - Nat.log2 a := by
  intro o _
  refine (wrapInt_of_le (Nat.sub_le ..)).trans ?_
  simp only [bitLength]
  split <;> omega

theorem gives_ctz : Gives (fun o => (((lowestSet o.w o.a).getD o.w : Nat) : Int)) fun w a _ _ =>
    ((List.range w).find? fun k => a.testBit k).getD w := by
  intro o _
  rw [wrapInt_of_le (lowestSet_getD_le ..), lowestSet_eq_find?]

theorem gives_popc : Gives (fun o => ((popcount o.w o.a : Nat) : Int)) fun w a _ _ =>
    ((List.range w).filter fun k => a.testBit k).length := by
  intro o _
  rw [wrapInt_of_le (popcount_le ..), popcount_eq_length_filter]

theorem gives_brev : Gives (fun o => ((reverseBits o.w o.a : Nat) : Int)) fun w a _ _ =>
    bitsWhere w fun k => a.testBit (w - 1 - k) := by
  intro o _
  simp only [reverseBits_eq_bitsWhere]
  exact wrapInt_of_lt (bitsWhere_lt ..)

theorem gives_mov : Gives (fun o => (o.a : Int)) fun _ a _ _ => a := fun _ h => wrapInt_of_lt h.a

end IntOperands

/-- Every row of Table 5.3 with one source writes what the table gives. -/
theorem exec_table53One : ∀ p ∈ table53One, ∀ (x a : Field) (q : BitVec 1) (s : State),
    exec (p.1 x a q) s = resultForm (p.1 x a q) x a a q (fun w v _ _ => p.2 w v) s := by
  simp only [table53One, List.forall_mem_cons]
  open IntOperands in
  exact ⟨fun _ _ _ _ => exec_of_gives gives_clz rfl, fun _ _ _ _ => exec_of_gives gives_ctz rfl,
    fun _ _ _ _ => exec_of_gives gives_popc rfl, fun _ _ _ _ => exec_of_gives gives_brev rfl,
    fun _ _ _ _ => exec_of_gives gives_mov rfl, List.forall_mem_nil _⟩

theorem resultForm_next {s : State} {t : Team} {i : Instr} {x a b : Field} {q : BitVec 1}
    {f : Nat → Nat → Nat → Nat → Nat} (h : Issues s t i) :
    resultForm i x a b q f s = .next (s.after i (t.setD x (BitVec.ofNat 64 (f (widthOf q)
      ((s.sread t a).toNat % 2 ^ widthOf q) ((s.sread t b).toNat % 2 ^ widthOf q)
      ((t.sreg x).toNat % 2 ^ widthOf q)))).advance) :=
  issueTeam_of_issues h _ (by simp)

theorem integerResults : IntegerResults :=
  ⟨fun p hp x a b q s _ h => (exec_table53 p hp x a b q s).trans (resultForm_next h),
    fun p hp x a q s _ h => (exec_table53One p hp x a q s).trans (resultForm_next h)⟩

/-! ### The compares (R57, R102) -/

theorem ccSigned_eq_flags {x y : Nat} (hw : 0 < w) (hx : x < 2 ^ w) (hy : y < 2 ^ w) :
    ccSigned w x y = flags (x == y) (decide (sx w x < sx w y)) false false := by
  rw [ccSigned, ccOf_eq_flags, signedOf_eq_sx hw hx, signedOf_eq_sx hw hy, beq_eq_decide]

theorem ccUnsigned_eq_flags (x y : Nat) : ccUnsigned x y = flags (x == y) false (decide (x < y)) false := by
  rw [ccUnsigned, ccOf_eq_flags, beq_eq_decide]

theorem integerCompares : IntegerCompares := by
  intro a b q s t w x y
  refine ⟨fun h => ?signed, fun h => ?unsigned⟩
  case signed =>
    rw [← ccSigned_eq_flags (widthOf_pos q) (Nat.mod_lt _ (by positivity)) (Nat.mod_lt _ (by positivity))]
    exact issueTeam_of_issues h _ (advance_uid _)
  case unsigned =>
    rw [← ccUnsigned_eq_flags]
    exact issueTeam_of_issues h _ (advance_uid _)

/-- Settles O5: every row that writes s[D] computes what Table 5.3 gives, and the compares write their flags. -/
theorem scalarIntegerResults : Obligations.ScalarIntegerResults := ⟨integerResults, integerCompares⟩

end Sys2Proof.Machine
end

section
/-! SUPPORT for O7. What each form of row 0x2 leaves, and the obligation (R108 to R112). -/

namespace Sys2Proof.Machine

variable {s : State} {t : Team} {i : Instr} {d : Field} {q : BitVec 1}

theorem floatForm_next {x : Team → XReal} (h : Issues s t i) : floatForm i d q x s = .next (s.after i
    (t.setD d (BitVec.ofNat 64 (roundFmt (fmtOf q) t.roundingNoDraw (x t)))).advance) :=
  issueTeam_of_issues h _ (by simp)

theorem bitsForm_next {v : Team → Nat} (h : Issues s t i) :
    bitsForm i d v s = .next (s.after i (t.setD d (BitVec.ofNat 64 (v t))).advance) :=
  issueTeam_of_issues h _ (by simp)

/-- Every arithmetic row rounds the exact result that the table gives. -/
theorem exec_table62 : ∀ p ∈ table62, ∀ (d a b : Field) (q : BitVec 1) (s : State),
    exec (p.1 d a b q) s = floatForm (p.1 d a b q) d q
      (fun t => p.2 t (s.freal t (fmtOf q) a) (s.freal t (fmtOf q) b) (t.freal (fmtOf q) d)) s := by
  simp only [table62, List.forall_mem_cons]
  refine ⟨?fadd, ?fsub, ?fmul, ?ffma, ?fdiv, List.forall_mem_nil _⟩
  all_goals exact fun _ _ _ _ _ => rfl

theorem scalarFloatResults : ScalarFloatResults := by
  refine ⟨fun p hp d a b q s t h => ?arithmetic, fun d a q s t h => floatForm_next h, fun d a q s t h => ?integer⟩
  case arithmetic => exact (exec_table62 p hp d a b q s).trans (floatForm_next h)
  case integer =>
    rw [← signedOf_toNat]
    exact floatForm_next h

theorem scalarFloatOthers : ScalarFloatOthers := by
  intro d a b q s t f bits val z leaves
  exact ⟨bitsForm_next, bitsForm_next, bitsForm_next, bitsForm_next, bitsForm_next, bitsForm_next, bitsForm_next,
    bitsForm_next, fun h => issueTeam_of_issues h _ (advance_uid _)⟩

/-- Settles O7: the arithmetic rows round an exact result, the others write the bits of their operands' values. -/
theorem scalarFloat : Obligations.ScalarFloat := ⟨scalarFloatResults, scalarFloatOthers⟩

end Sys2Proof.Machine
end

section
/-! SUPPORT for O10. What LOOP and LOOPI check and leave, and the obligation (R114, R116, R117). -/

namespace Sys2Proof.Machine

variable {s : State} {t : Team} {i : Instr}

/-! ### The checks of LOOP and LOOPI (R117) -/

/-- Whether a body of `len` words after the PC reaches beyond the body of an active loop around it. -/
def Team.ReachesBeyond (t : Team) (len : Nat) : Prop :=
  ∃ k ∈ t.active, t.inLoop k t.pc = true ∧
    (t.loop k).stop.toNat < (t.pc + 4#64 + BitVec.ofNat 64 (4 * len)).toNat

theorem Team.any_reachesBeyond (len : Nat) : (t.active.any fun k => t.inLoop k t.pc &&
    decide ((t.loop k).stop.toNat < (t.pc + 4#64 + BitVec.ofNat 64 (4 * len)).toNat)) = true ↔
    t.ReachesBeyond len := by
  simp [ReachesBeyond]

theorem Team.loopChecks_active {n len : Nat} (h : n ∈ t.active) : t.loopChecks n len = raise (trapLoop 1) :=
  if_pos (by simpa using h)

theorem Team.loopChecks_beyond {n len : Nat} (h : n ∉ t.active) (hb : t.ReachesBeyond len) :
    t.loopChecks n len = raise (trapLoop 2) :=
  (if_neg (by simpa using h)).trans (if_pos ((any_reachesBeyond len).2 hb))

theorem Team.loopChecks_ok {n len : Nat} (h : n ∉ t.active) (hb : ¬t.ReachesBeyond len) :
    t.loopChecks n len = .ok () :=
  (if_neg (by simpa using h)).trans (if_neg fun hp => hb ((any_reachesBeyond len).1 hp))

/-! ### The team that enters a body (R114) -/

@[simp] theorem Team.startLoop_uid (n : Nat) (count : W32) (len : Nat) : (t.startLoop n count len).uid = t.uid := by
  simp only [startLoop]
  split <;> simp

theorem Team.startLoop_zero (n len : Nat) :
    t.startLoop n 0#32 len = t.goTo (t.pc + 4#64 + BitVec.ofNat 64 (4 * len)) := by
  rw [startLoop, if_pos rfl]

/-- The team inside a new body of loop `n`. -/
theorem Team.startLoop_of_ne {n len : Nat} {count : W32} (h : count ≠ 0#32) :
    t.startLoop n count len =
      { t.setLoop n ⟨count, t.pc + 4#64, t.pc + 4#64 + BitVec.ofNat 64 (4 * len)⟩ with
        active := n :: t.active, pc := t.pc + 4#64 } := by
  rw [startLoop, if_neg h, setLoop]
  split <;> rfl

/-! ### The forms -/

theorem loopForm_next {count : Team → W32} {l : BitVec 8} {n : BitVec 2} (h : Issues s t i)
    (hn : n.toNat ∉ t.active) (hb : ¬t.ReachesBeyond l.toNat) :
    loopForm i count l n s = .next (s.after i (t.startLoop n.toNat (count t) l.toNat)) := by
  refine (issue_ok h (by rw [Team.loopChecks_ok hn hb]; rfl)).trans ?_
  rw [State.after, Team.startLoop_uid]

/-- Settles O10: the checks of the two loop forms fail as R117 says or the team that they leave enters or skips the
body, and LBRK ends its loop. -/
theorem hardwareLoops : Obligations.HardwareLoops := by
  unfold Obligations.HardwareLoops
  intro s t stop enters beyond
  have entered (n : BitVec 2) (l : BitVec 8) (count : W32) : enters n l count (t.startLoop n.toNat count l.toNat) := by
    by_cases hc : count = 0#32
    · subst hc
      exact (if_pos rfl).mpr (Team.startLoop_zero ..)
    · refine (if_neg hc).mpr ?_
      rw [Team.startLoop_of_ne hc]
      exact ⟨congrArg (fun u : Team => { u with pc := t.pc }) (Team.setLoop_forget ..), rfl, rfl,
        fun k hk => Team.loop_setLoop _ hk⟩
  refine ⟨fun a l n => ⟨fun hn hb => ⟨fun h => ⟨_, loopForm_next h hn hb, entered ..⟩,
    fun h => ⟨_, loopForm_next h hn hb, entered ..⟩⟩, ?faults⟩, fun d => ⟨fun hd h => ?ends, fun hd => ?inactive⟩⟩
  case faults =>
    simp only [List.forall_mem_cons]
    refine ⟨?loop, ?loopi, List.forall_mem_nil _⟩
    all_goals exact ⟨fun hn h => issue_raise h (by rw [Team.loopChecks_active hn]; rfl),
      fun hn hb h => issue_raise h (by rw [Team.loopChecks_beyond hn hb]; rfl)⟩
  case ends => exact exec_after rfl (if_neg (by simpa using hd)) (by simp) h
  case inactive => exact fun h => issue_raise h (if_pos (by simpa using hd))

end Sys2Proof.Machine
end

section
/-! SUPPORT for O11. What the calls leave of the loops, and the obligation (R115, R116). -/

namespace Sys2Proof.Machine

variable {s : State} {t : Team} {i : Instr}

/-- A call leaves every loop as it is (R116). -/
theorem completes_callTo {n : Nat} {a : Word} (h : Issues s t i) (he : exec i s = .next (s.after i (t.callTo n a))) :
    Completes s i fun _ u => u.loops = t.loops ∧ u.active = t.active := by
  rw [State.after, Team.callTo_uid] at he
  exact .of_putTeam h rfl (Team.callTo_uid n a) he ⟨by simp [Team.callTo], by simp [Team.callTo]⟩

/-- Settles O11: the loop-end events of a move, the loops that a branch leaves, and the calls, which end none. -/
theorem loopsEnd : Obligations.LoopsEnd := by
  unfold Obligations.LoopsEnd
  refine ⟨Team.goesTo_goTo, fun t target h _ => Team.branch_of_stays h,
    fun t target inner outer n hh ha _ hl ho => Team.branch_of_leaves hh ha hl ho,
    fun t inner outer n ha hn _ => ⟨congrArg Team.active (Team.endLoops_of_active ha hn),
      Team.endLoops_others ha hn, fun k hk => Team.loop_endLoops ha hn hk⟩, fun s t o d a ha => ?calls⟩
  obtain ⟨offset, register⟩ := branchesAndCalls s t
  simp only [List.forall_mem_cons]
  exact ⟨fun h => completes_callTo h ((offset o).2.1 h), fun h => completes_callTo h ((register d a ha).1 h),
    List.forall_mem_nil _⟩

end Sys2Proof.Machine
end

section
/-! SUPPORT for O14. The values that MODE may take, and the obligation (R123). -/

namespace Sys2Proof.Machine

/-- MODE's RND and ETYPE in range (Table 3.5). -/
theorem modeReserved_iff (m : BitVec 16) :
    modeReserved m = true ↔ 5 < m.toNat / 2 ^ 9 % 8 ∨ 12 < m.toNat / 2 ^ 4 % 32 := by
  simp [modeReserved, BitVec.extractLsb'_toNat, Nat.shiftRight_eq_div_pow, Nat.succ_le_iff]

theorem modeValue_iff (v : Word) :
    modeValue v = true ↔ v.toNat < 2 ^ 16 ∧ v.toNat / 2 ^ 9 % 8 ≤ 5 ∧ v.toNat / 2 ^ 4 % 32 ≤ 12 := by
  have hlow : (v.extractLsb' 0 16).toNat = v.toNat % 2 ^ 16 := by simp
  have hm := modeReserved_iff (v.extractLsb' 0 16)
  rw [hlow] at hm
  rw [modeValue, Bool.and_eq_true, Bool.not_eq_true', ← Bool.not_eq_true, hm]
  simp only [wordBits, bitsOf, beq_iff_eq]
  have := v.isLt
  omega

/-- Settles O14: MODE takes the immediate or the register where the value is one of Table 3.5. -/
theorem modeAccess : Obligations.ModeAccess := by
  unfold Obligations.ModeAccess
  intro s t
  refine ⟨fun k h => ?mset, fun k h hk => ?reserved, fun d h => ?mget, fun a h => ?msetr⟩
  case mset => exact issueTeam_of_issues h _ (by simp)
  case reserved =>
    have hc : (Instr.mset k).illegalCause = some 3 := if_pos ((modeReserved_iff k).2 hk)
    exact exec_of_failed_check rfl (by simp) h (State.decodeChecks_failed (by simp [Instr.privileged])
      ((State.failedCheck_of_fit (by simp [State.ImpliedFit, State.rayVectors])).trans hc))
  case mget => exact issueTeam_of_issues h _ (by simp)
  case msetr =>
    intro v fine
    refine ⟨fun hv => exec_after rfl ((if_pos ((modeValue_iff v).2 hv)).trans ?_) (by simp) h,
      fun hv => issue_raise h (if_neg fun hp => hv ((modeValue_iff v).1 hp))⟩
    rw [← BitVec.setWidth_eq_extractLsb' (by decide)]

end Sys2Proof.Machine
end

section
/-! SUPPORT for O50. What an instruction may change of its team, said once for every operation on a team (R103, R113,
R125, R133). -/

namespace Sys2Proof.Machine

variable {i : Instr} {t u v : Team}

/-! ### Moves of the program counter (R115, R116) -/

/-- The team `u` is `t` but for its PC and its loops, and where no loop is active but for its PC alone. -/
structure MovesTo (t u : Team) : Prop where
  others : u = { t with pc := u.pc, loops := u.loops, active := u.active }
  loops : t.active = [] → u.loops = t.loops ∧ u.active = []

theorem MovesTo.trans (h : MovesTo t v) (k : MovesTo v u) : MovesTo t u where
  others := k.others.trans <|
    congrArg (fun x : Team => { x with pc := u.pc, loops := u.loops, active := u.active }) h.others
  loops ha := by
    obtain ⟨hl, hv⟩ := h.loops ha
    exact ⟨(k.loops hv).1.trans hl, (k.loops hv).2⟩

theorem Team.loopEnds_others (pc : Word) (l : List Nat) (npc : Word) : (t.loopEnds pc l npc).1 =
    { t with loops := (t.loopEnds pc l npc).1.loops, active := (t.loopEnds pc l npc).1.active } := by
  induction l generalizing t with
  | nil => rfl
  | cons n l ih =>
    simp only [loopEnds]
    split_ifs
    · exact ih.trans (setLoop_forget ..)
    · exact setLoop_forget n _ (t.setLoop n _).active (t.setLoop n _).loops
    · exact ih

theorem Team.movesTo_goTo (t : Team) (npc : Word) : MovesTo t (t.goTo npc) := by
  rw [goTo]
  split
  case isTrue => exact ⟨rfl, fun h => ⟨rfl, h⟩⟩
  case isFalse =>
    exact ⟨congrArg (fun x : Team => { x with pc := (t.loopEnds t.pc t.active npc).2 }) (loopEnds_others ..),
      fun h => by simp [h, loopEnds]⟩

theorem Team.movesTo_endLoops {n : Nat} (h : n ∈ t.active) : MovesTo t (t.endLoops n) where
  others := by
    obtain ⟨inner, outer, ha, hn⟩ := List.eq_append_cons_of_mem h
    exact congrArg (fun x : Team => { x with
      pc := (t.endLoops n).pc, loops := (t.endLoops n).loops, active := (t.endLoops n).active }) (endLoops_others ha hn)
  loops ha := absurd h (by simp [ha])

theorem Team.movesTo_branch (t : Team) (target : Word) : MovesTo t (t.branch target) := by
  rw [branch]
  split
  case isTrue => exact ⟨rfl, fun h => ⟨rfl, h⟩⟩
  case isFalse =>
    split
    case h_1 n hn =>
      have hn : n ∈ t.active := (List.mem_filter.1 (List.mem_of_getLast? hn)).1
      exact (movesTo_endLoops hn).trans (movesTo_goTo ..)
    case h_2 => exact t.movesTo_goTo target

/-! ### The frame of a team -/

/-- LOOP and LOOPI. -/
def entersLoop (i : Instr) : Prop := ∃ a l n, i = .loop a l n ∨ i = .loopi a l n

theorem not_entersLoop (h : ∀ a l n, i ≠ .loop a l n ∧ i ≠ .loopi a l n) : ¬entersLoop i := by
  rintro ⟨a, l, n, hi | hi⟩
  · exact (h a l n).1 hi
  · exact (h a l n).2 hi

/-- The team `u` is `t` after an instruction that changes of its team only what it names: its scalar, vector and
mask destinations, and what its own kind of instruction writes. -/
structure TeamFrame (i : Instr) (t u : Team) : Prop where
  uid : u.uid = t.uid
  scalars : ∀ n < 64, n ∉ scalarsWritten i → u.getS n = t.getS n
  vectors : ∀ n, n ∉ vectorsWritten i → (∀ d k, i ≠ .rallot d k) → u.vregs[n]? = t.vregs[n]?
  masks : ∀ n, n ∉ masksWritten i t → u.mask n = t.mask n
  cc : setsFlags i = false → u.cc = t.cc
  mode : setsMode i = false → u.mode = t.mode
  stack : (∀ d a, i ≠ .mpush d a) → i ≠ .mpop → u.stack = t.stack
  generator : (∀ a b, i ≠ .rngseed a b) → u.key = t.key ∧ u.ctr = t.ctr
  budget : (∀ d a, i ≠ .rpool d a) → u.budget = t.budget
  loops : ¬entersLoop i → t.active = [] → u.loops = t.loops ∧ u.active = []
  wait : (∀ a b, i ≠ .waitc a b) → u.wait = t.wait
  tiles : u.tiles = t.tiles
  trap : u.trap = t.trap
  inHandler : u.inHandler = t.inHandler
  binding : u.binding = t.binding
  rays : u.rays = t.rays
  gwct : u.gwct = t.gwct
  nlog : u.nlog = t.nlog
  nlend : u.nlend = t.nlend
  ident : u.ident = t.ident

namespace TeamFrame

theorem refl (i : Instr) (t : Team) : TeamFrame i t t := by
  constructor <;> simp

theorem moves (h : TeamFrame i t v) (hm : MovesTo v u) : TeamFrame i t u := by
  rw [hm.others]
  exact { h with
    loops := fun hi ha => by
      obtain ⟨hl, hv⟩ := h.loops hi ha
      exact ⟨(hm.loops hv).1.trans hl, (hm.loops hv).2⟩ }

theorem advance (h : TeamFrame i t u) : TeamFrame i t u.advance := h.moves (u.movesTo_goTo _)

theorem setS {n : Nat} {x : Word} (h : TeamFrame i t u) (hn : n ∈ scalarsWritten i) :
    TeamFrame i t (u.setS n x) := by
  rw [Team.setS]
  split
  case isTrue hlt =>
    refine { h with scalars := fun k hk hw => (?_ : _ = u.getS k).trans (h.scalars k hk hw) }
    have hne : n ≠ k := fun he => hw (he ▸ hn)
    simp [Team.getS, hk, hne]
  case isFalse => exact h

theorem setD {d : Field} {x : Word} (h : TeamFrame i t u) (hd : d.toNat ∈ scalarsWritten i) :
    TeamFrame i t (u.setD d x) := h.setS hd

theorem setMask {n : Nat} {m : Mask} (h : TeamFrame i t u) (hn : n ∈ masksWritten i t) :
    TeamFrame i t (u.setMask n m) := by
  have hm (k : Nat) (hk : k ∉ masksWritten i t) : (u.setMask n m).mask k = u.mask k :=
    Team.mask_setMask_other (.inr fun he => hk (he ▸ hn))
  revert hm
  rw [Team.setMask]
  split_ifs
  · exact fun _ => h
  · exact fun hm => { h with masks := fun k hk => (hm k hk).trans (h.masks k hk) }
  · exact fun _ => h

theorem setVs {n : Nat} {x : VReg} (h : TeamFrame i t u) (hn : n ∈ vectorsWritten i) :
    TeamFrame i t (u.setVs [(n, x)]) :=
  { h with
    vectors := fun k hk hr => by
      have hne : n ≠ k := fun he => hk (he ▸ hn)
      rw [← h.vectors k hk hr]
      exact List.getElem?_set_ne hne }

theorem setLoop {n : Nat} {l : LoopCounter} {a : List Nat} {pc : Word} (h : TeamFrame i t u) (hi : entersLoop i) :
    TeamFrame i t { u.setLoop n l with active := a, pc := pc } := by
  rw [Team.setLoop]
  split <;> exact { h with loops := fun hn => absurd hi hn }

theorem withCc {c : BitVec 4} (h : TeamFrame i t u) (hi : setsFlags i = true) : TeamFrame i t { u with cc := c } :=
  { h with cc := fun hf => absurd hi (by simp [hf]) }

theorem withMode {m : BitVec 16} (h : TeamFrame i t u) (hi : setsMode i = true) : TeamFrame i t { u with mode := m } :=
  { h with mode := fun hf => absurd hi (by simp [hf]) }

end TeamFrame

end Sys2Proof.Machine
end

section
/-! SUPPORT for O50. What an instruction may change beside its team, and the frame of each form of body: it raises a
trap or leaves its team changed as the form says. -/

namespace Sys2Proof.Machine

variable {i : Instr} {s r : State} {t u : Team} {e : Effect} {body : Team → Effect}

/-! ### The frame of the state -/

/-- The state `r` is `s` but for the count of free values, and for RPOOL that a placement attempt is due. -/
structure StateFrame (i : Instr) (s r : State) : Prop where
  teams : r.teams = s.teams
  others : { r with free := s.free, die0 := s.die0, die1 := s.die1 } = s
  dies : ∀ d, { r.die d with placeDue := (s.die d).placeDue } = s.die d
  same : (∀ d a, i ≠ .rpool d a) → r.die0 = s.die0 ∧ r.die1 = s.die1

namespace StateFrame

theorem refl (i : Instr) (s : State) : StateFrame i s s := ⟨rfl, rfl, fun _ => rfl, fun _ => ⟨rfl, rfl⟩⟩

theorem withFree (i : Instr) (s : State) (n : Nat) : StateFrame i s { s with free := n } :=
  ⟨rfl, rfl, fun _ => rfl, fun _ => ⟨rfl, rfl⟩⟩

theorem withPlaceDue {n : Nat} {f : Die → Bool} (hi : ∃ d a, i = .rpool d a) :
    StateFrame i s (s.modDie n fun k => { k with placeDue := f k }) where
  teams := by simp
  others := by
    simp only [State.modDie, State.setDie]
    split <;> rfl
  dies d := by
    simp only [State.modDie, State.setDie, State.die]
    split_ifs <;> rfl
  same hn := by
    obtain ⟨d, a, rfl⟩ := hi
    exact absurd rfl (hn d a)

/-- No byte of memory changes. -/
theorem peek (h : StateFrame i s r) (p : Phys) (n : Nat) : r.peek p n = s.peek p n := by
  have hhost : r.host = s.host := (congrArg State.host h.others :)
  have hfabric : r.fabric = s.fabric := (congrArg State.fabric h.others :)
  have hmem : (r.die p.unit).mem = (s.die p.unit).mem := (congrArg Die.mem (h.dies p.unit) :)
  have hdsm : (r.die p.unit).dsm = (s.die p.unit).dsm := (congrArg Die.dsm (h.dies p.unit) :)
  simp only [State.peek, State.space, hhost, hfabric, hmem, hdsm]

end StateFrame

/-! ### The frame of an effect -/

/-- An effect of an instruction for the team `t`: a trap, or the team alone as far as the instruction names its
parts. -/
inductive EffectFrame (i : Instr) (s : State) (t : Team) : Effect → Prop
  | traps (x : Trap) : EffectFrame i s t (raise x)
  | leaves {r : State} {u : Team} : StateFrame i s r → TeamFrame i t u → EffectFrame i s t (.ok (r.putTeam u))

/-- A check lets an instruction go on, or raises a trap. -/
inductive TrapCheck : Except Stop Unit → Prop
  | passes : TrapCheck (.ok ())
  | raises (x : Trap) : TrapCheck (raise x)

theorem TrapCheck.ite {p : Prop} [Decidable p] {x : Trap} : TrapCheck (if p then .ok () else raise x) := by
  split
  · exact .passes
  · exact .raises x

theorem trapCheck_needEtype (ok : List Nat) : TrapCheck (t.needEtype ok) := .ite

theorem trapCheck_alignedTarget (a : Word) : TrapCheck (alignedTarget a) := .ite

theorem Team.trapCheck_xCheck : TrapCheck t.xCheck := by
  rw [xCheck]
  split
  · exact .raises _
  · exact .passes

theorem Team.trapCheck_loopChecks (n len : Nat) : TrapCheck (t.loopChecks n len) := by
  rw [loopChecks]
  split
  · exact .raises _
  · split
    · exact .raises _
    · exact .passes

namespace EffectFrame

theorem team (h : TeamFrame i t u) : EffectFrame i s t (.ok (s.putTeam u)) := .leaves (.refl i s) h

theorem check {x : Except Stop Unit} (hx : TrapCheck x) (h : EffectFrame i s t e) :
    EffectFrame i s t (x.bind fun _ => e) := by
  cases hx with
  | passes => exact h
  | raises x => exact .traps x

theorem ite {p : Prop} [Decidable p] {e' : Effect} (h : EffectFrame i s t e) (h' : EffectFrame i s t e') :
    EffectFrame i s t (if p then e else e') := by
  split
  · exact h
  · exact h'

theorem vecWrite {n : Nat} {x : VReg} (hr : StateFrame i s r) (hn : n ∈ vectorsWritten i) :
    EffectFrame i s t (r.vecWrite t [(n, x)]) := by
  rw [State.vecWrite, State.writeVs]
  split
  · exact .traps _
  · exact .leaves hr ((TeamFrame.refl i t).setVs hn).advance

end EffectFrame

/-- Outside RSR no instruction draws (R131, R160). -/
theorem Rounds.draws_eq_false (z : Rounds) (h : t.rnd ≠ 5) : z.draws t = false := by
  simp [Rounds.draws, h]

theorem EffectFrame.vecDraw {n : Nat} {x : Word → VReg} (z : Rounds) (h : t.rnd ≠ 5) (hr : StateFrame i s r)
    (hn : n ∈ vectorsWritten i) : EffectFrame i s t (r.vecDraw t (z.draws t) fun k => [(n, x k)]) := by
  rw [z.draws_eq_false h]
  exact .vecWrite hr hn

/-! ### The frame of a form -/

/-- An outcome is that of an issued instruction whose effect keeps its frame. -/
def FormFrame (i : Instr) (s : State) (t : Team) (o : Host.Outcome State Fault Refusal) : Prop :=
  ∃ body, o = issue i s body ∧ EffectFrame i s t (body t)

namespace FormFrame

theorem issue (h : EffectFrame i s t (body t)) : FormFrame i s t (issue i s body) := ⟨body, rfl, h⟩

theorem issueTeam {f : Team → Team} (h : TeamFrame i t (f t)) : FormFrame i s t (issueTeam i s f) :=
  issue (body := fun t => .ok (s.putTeam (f t))) (.team h)

theorem setD {d : Field} {v : Team → Word} (hd : d.toNat ∈ scalarsWritten i) :
    FormFrame i s t (Machine.issueTeam i s fun t => (t.setD d (v t)).advance) :=
  issueTeam ((TeamFrame.refl i t).setD hd).advance

theorem maskForm {d : Field} {m : Team → Mask} (hd : d.toNat ∈ masksWritten i t) :
    FormFrame i s t (maskForm i d m s) :=
  issueTeam ((TeamFrame.refl i t).setMask hd).advance

theorem withCc {c : Team → BitVec 4} (hi : setsFlags i = true) :
    FormFrame i s t (Machine.issueTeam i s fun t => Team.advance { t with cc := c t }) :=
  issueTeam ((TeamFrame.refl i t).withCc hi).advance

theorem branchForm {o : BitVec 19} {taken : Team → Bool} : FormFrame i s t (branchForm i o taken s) := by
  refine issueTeam ?_
  split
  · exact (TeamFrame.refl i t).moves (t.movesTo_branch _)
  · exact (TeamFrame.refl i t).advance

theorem jumpForm {a : Field} : FormFrame i s t (jumpForm i a s) :=
  issue (.check (trapCheck_alignedTarget _) (.team ((TeamFrame.refl i t).moves (t.movesTo_branch _))))

theorem loopForm {count : Team → W32} {l : BitVec 8} {n : BitVec 2} (hi : entersLoop i) :
    FormFrame i s t (loopForm i count l n s) := by
  refine issue (.check (Team.trapCheck_loopChecks ..) (.team ?_))
  by_cases hc : count t = 0#32
  · rw [hc, Team.startLoop_zero]
    exact (TeamFrame.refl i t).moves (t.movesTo_goTo _)
  · rw [Team.startLoop_of_ne hc]
    exact (TeamFrame.refl i t).setLoop hi

theorem vecWrite {d : Field} {x : Team → VReg} (hd : d.toNat ∈ vectorsWritten i) :
    FormFrame i s t (Machine.issue i s fun t => s.vecWrite t [(d.toNat, x t)]) :=
  issue (.vecWrite (.refl i s) hd)


theorem vecForm {f : VecForm} {d : Field} {c : BitVec 1} {srcs : Team → List VReg} {lane : Team → Word → Nat → W32}
    (h : t.rnd ≠ 5) (hd : d.toNat ∈ vectorsWritten i) : FormFrame i s t (f.run i d c srcs lane s) :=
  issue (.check (trapCheck_needEtype _) (.vecDraw _ h (.refl i s) hd))

theorem mathForm {fn : MathFn} {z : Rounds} {d a : Field} {c : BitVec 1} (h : t.rnd ≠ 5)
    (hd : d.toNat ∈ vectorsWritten i) : FormFrame i s t (mathForm i fn z d a c s) :=
  issue (.check (trapCheck_needEtype _) (.vecDraw z h (.withFree i s _) hd))

theorem compareForm {d a b : Field} {p : Team → W32 → W32 → Bool} (hd : d.toNat ∈ masksWritten i t) :
    FormFrame i s t (compareForm i d a b p s) :=
  issue (.check (trapCheck_needEtype _) (.team ((TeamFrame.refl i t).setMask hd).advance))

theorem reduceForm {d a : Field} {f : Team → List W32 → W32} (hd : d.toNat ∈ scalarsWritten i) :
    FormFrame i s t (reduceForm i d a f s) :=
  issue (.check (trapCheck_needEtype _) (.team ((TeamFrame.refl i t).setD hd).advance))

end FormFrame

end Sys2Proof.Machine
end

section
/-! SUPPORT for O50. The register instructions whose body is their own, every register instruction, and the
obligation. -/

namespace Sys2Proof.Machine

variable {i : Instr} {s : State} {t u : Team}

namespace FormFrame

/-! ### Control flow and MODE (R113 to R125) -/

theorem call (o : BitVec 19) : FormFrame (.call o) s t (exec (.call o) s) :=
  issueTeam (((TeamFrame.refl _ t).setS (.head _)).moves ⟨rfl, fun h => ⟨rfl, h⟩⟩)

theorem callr (d a : Field) : FormFrame (.callr d a) s t (exec (.callr d a) s) :=
  issue (.check (trapCheck_alignedTarget _) (.team
    (((TeamFrame.refl _ t).setS (.head _)).moves ⟨rfl, fun h => ⟨rfl, h⟩⟩)))

theorem ldlit (d : Field) (l : W32) : FormFrame (.ldlit d l) s t (exec (.ldlit d l) s) :=
  issue (.check Team.trapCheck_xCheck (.team (((TeamFrame.refl _ t).setD (.head _)).moves (Team.movesTo_goTo ..))))

theorem lbrk (d : Field) : FormFrame (.lbrk d) s t (exec (.lbrk d) s) := by
  refine issue ?_
  split
  case isTrue => exact .traps _
  case isFalse h =>
    have hd : d.toNat ∈ t.active := by simpa using h
    exact .team ((TeamFrame.refl _ t).moves ((Team.movesTo_endLoops hd).trans (Team.movesTo_goTo ..)))

theorem yield : FormFrame .yield s t (exec .yield s) := issueTeam { (TeamFrame.refl _ t).advance with }

theorem waitc (a b : Field) : FormFrame (.waitc a b) s t (exec (.waitc a b) s) := by
  refine issue (.team ?_)
  split
  · exact (TeamFrame.refl _ t).advance
  · exact { (TeamFrame.refl _ t).advance with wait := fun h => absurd rfl (h a b) }

theorem mset (k : BitVec 16) : FormFrame (.mset k) s t (exec (.mset k) s) :=
  issueTeam ((TeamFrame.refl _ t).advance.withMode rfl)

theorem msetr (a : Field) : FormFrame (.msetr a) s t (exec (.msetr a) s) :=
  issue (.ite (.team ((TeamFrame.refl _ t).advance.withMode rfl)) (.traps _))

theorem mpush (d a : Field) : FormFrame (.mpush d a) s t (exec (.mpush d a) s) := by
  have hstack (l : List StackEntry) : TeamFrame (.mpush d a) t { t with stack := l } :=
    { TeamFrame.refl _ t with stack := fun h => absurd rfl (h d a) }
  exact issue (.ite (.traps _) (.team (((hstack _).setMask (.head _)).advance.withMode rfl)))

theorem melse (d a : Field) : FormFrame (.melse d a) s t (exec (.melse d a) s) := by
  refine issue ?_
  split
  · exact .traps _
  · exact .team (((TeamFrame.refl _ t).setMask (.head _)).advance.withMode rfl)

theorem mpop : FormFrame .mpop s t (exec .mpop s) := by
  refine issue ?_
  split
  case h_1 => exact .traps _
  case h_2 e rest hs =>
    have hstack : TeamFrame .mpop t { t with stack := rest } :=
      { TeamFrame.refl _ t with stack := fun _ h => absurd rfl h }
    have hguard : bitsOf e.mode.toNat 0 4 ∈ masksWritten .mpop t := by simp [masksWritten, hs, bitsOf]
    exact .team ((hstack.withMode (m := e.mode) rfl).setMask hguard).advance

/-! ### Vector registers, budgets and the generator (R149 to R162) -/

theorem vrotl (d a b : Field) (c : BitVec 1) : FormFrame (.vrotl d a b c) s t (exec (.vrotl d a b c) s) :=
  issue (.ite (.team (TeamFrame.refl _ t).advance) (.vecWrite (.refl _ s) (.head _)))

theorem vins (d a b : Field) (c : BitVec 1) : FormFrame (.vins d a b c) s t (exec (.vins d a b c) s) :=
  issue (.ite (.team (TeamFrame.refl _ t).advance) (.vecWrite (.refl _ s) (.head _)))

theorem vscan (d a : Field) (c : BitVec 1) (h : t.rnd ≠ 5) : FormFrame (.vscan d a c) s t (exec (.vscan d a c) s) :=
  issue (.check (trapCheck_needEtype _) (.vecDraw .floats h (.refl _ s) (.head _)))

theorem vredadd (d a : Field) (h : t.rnd ≠ 5) : FormFrame (.vredadd d a) s t (exec (.vredadd d a) s) := by
  refine issue (.check (trapCheck_needEtype _) ?_)
  rw [Rounds.floats.draws_eq_false h]
  exact .team ((TeamFrame.refl _ t).setD (.head _)).advance

theorem rallot (d : Field) (n : BitVec 9) : FormFrame (.rallot d n) s t (exec (.rallot d n) s) := by
  have hregs (l : List VReg) : TeamFrame (.rallot d n) t { t with vregs := l } :=
    { TeamFrame.refl _ t with vectors := fun _ _ h => absurd rfl (h d n) }
  exact issue (.ite (.traps _) (.team ((hregs _).setD (.head _)).advance))

theorem rpool (d a : Field) : FormFrame (.rpool d a) s t (exec (.rpool d a) s) := by
  have hbudget (n : Nat) : TeamFrame (.rpool d a) t { t with budget := n } :=
    { TeamFrame.refl _ t with budget := fun h => absurd rfl (h d a) }
  exact issue (.leaves (.withPlaceDue ⟨d, a, rfl⟩) ((hbudget _).setD (.head _)).advance)

theorem rngseed (a b : Field) : FormFrame (.rngseed a b) s t (exec (.rngseed a b) s) := by
  have hseed (k c : Word) : TeamFrame (.rngseed a b) t { t with key := k, ctr := c } :=
    { TeamFrame.refl _ t with generator := fun h => absurd rfl (h a b) }
  exact issueTeam (hseed _ _).advance

end FormFrame

/-! ### Every register instruction -/

theorem formFrame_of_inRegisters (hi : inRegisters i = true) (h : t.rnd ≠ 5) : FormFrame i s t (exec i s) := by
  unfold exec
  cases i with
  | add | sub | mul | mulh | mulhn | div | divn | rem | remn | and | or | xor | andn | shl | shr | sra | rotl
  | min | max | minn | maxn | sel | clz | ctz | popc | brev | bfx | bfi | mov | addi | andi | ori | xori | shli
  | shri | srai | movi | movhi | movxi | movti | lea | gets | fadd | fsub | fmul | ffma | fdiv | fsqrt | fmin
  | fmax | fabs | fneg | fcvt | ftoi | itof | fclass | frnd | mget | mcnt | mffs | mtos | mall | vextr | rcnt
  | rngget => exact .setD (.head _)
  | cmp | cmpn | cmpi | cmpni | fcmp => exact .withCc rfl
  | br | bcc | bmz | bmnz => exact .branchForm
  | ret | jmpr => exact .jumpForm
  | loop a l n => exact .loopForm ⟨a, l, n, .inl rfl⟩
  | loopi a l n => exact .loopForm ⟨a, l, n, .inr rfl⟩
  | nop => exact .issueTeam (TeamFrame.refl _ t).advance
  | trapi => exact .issue (.traps _)
  | mand | mor | mxor | mandn | mnot | mmov | mfrs | mlen => exact .maskForm (.head _)
  | vcmpeq | vcmpne | vcmplt | vcmple => exact .compareForm (.head _)
  | vadd | vsub | vmul | vfma | vfms | vmin | vmax | vabs | vneg | vand | vor | vxor | vnot | vshl | vshr | vsra
  | vmov | vclamp | vmulp | vdotp | vcvt | vpack | vunpk | vdiv => exact .vecForm h (.head _)
  | vrcp | vrsq | vsqrt | vexp2 | vlog2 | vsin | vcos | vtanh | vfloor | vfrac => exact .mathForm h (.head _)
  | vsel | vbcast | vidx | vcompact | vexpand | vshfl | rcoal => exact .vecWrite (.head _)
  | vredmin | vredmax | vredand | vredor => exact .reduceForm (.head _)
  | call o => exact .call o
  | callr d a => exact .callr d a
  | ldlit d l => exact .ldlit d l
  | lbrk d => exact .lbrk d
  | yield => exact .yield
  | waitc a b => exact .waitc a b
  | mset k => exact .mset k
  | msetr a => exact .msetr a
  | mpush d a => exact .mpush d a
  | melse d a => exact .melse d a
  | mpop => exact .mpop
  | vrotl d a b c => exact .vrotl d a b c
  | vins d a b c => exact .vins d a b c
  | vscan d a c => exact .vscan d a c h
  | vredadd d a => exact .vredadd d a h
  | rallot d n => exact .rallot d n
  | rpool d a => exact .rpool d a
  | rngseed a b => exact .rngseed a b
  | _ => cases hi

/-! ### What a next state holds -/

/-- Counting reads of TIME for a team that is put back changes the teams alone. -/
theorem State.countReads_putTeam_others (r : State) (u : Team) (n k : Nat) :
    (r.putTeam u).countReads n k = { r with teams := ((r.putTeam u).countReads n k).teams } := by
  unfold countReads
  split <;> rfl

theorem mem_mapWhere_of_false {α : Type} {p : α → Bool} {f : α → α} {l : List α} {x : α} (hp : p x = false)
    (hf : ∀ y, p y = true → p (f y) = true) : x ∈ mapWhere p f l ↔ x ∈ l := by
  rw [mapWhere_eq_map, List.mem_map]
  constructor
  · rintro ⟨y, hy, rfl⟩
    by_cases h : p y = true
    · simp [h, hf y h] at hp
    · simpa [h] using hy
  · exact fun hx => ⟨x, hx, by simp [hp]⟩

/-- The other teams stay as they are. -/
theorem State.mem_teams_of_ne {r : State} {x : Team} {k : Nat} (h : x.uid ≠ u.uid) :
    x ∈ ((r.putTeam u).countReads u.uid k).teams ↔ x ∈ r.teams := by
  have hput : x ∈ (r.putTeam u).teams ↔ x ∈ r.teams := mem_mapWhere_of_false (by simpa using h) (by simp)
  rw [countReads]
  split
  · exact hput
  · exact (mem_mapWhere_of_false (by simpa using h) (by simp)).trans hput

/-- Settles O50: every register instruction has a body that raises a trap or keeps the frame. -/
theorem frameOfRegisterInstructions : Obligations.FrameOfRegisterInstructions := by
  unfold Obligations.FrameOfRegisterInstructions
  intro s s' t i h hi hrnd hexec
  obtain ⟨body, hbody, hframe⟩ := formFrame_of_inRegisters (s := s) hi hrnd
  rw [hbody] at hexec
  generalize he : body t = e at hframe
  cases hframe with
  | traps x =>
    rw [issue_raise h he] at hexec
    exact .inl ⟨x, (Host.Outcome.next.inj hexec).symm⟩
  | @leaves r u hs hu =>
    rw [issue_ok h he, ← hu.uid] at hexec
    have hs' : s' = (r.putTeam u).countReads u.uid i.timeReads := (Host.Outcome.next.inj hexec).symm
    have hothers : s' = { r with teams := s'.teams } := hs' ▸ State.countReads_putTeam_others ..
    have hteam : (r.putTeam u).team? u.uid = some u :=
      team_putTeam r (by rw [State.team?, hs.teams, hu.uid, h.uid]; exact h.cur)
    have hcount : TeamFrame i t { u with timeReads := u.timeReads + i.timeReads } := { hu with }
    refine .inr ⟨?others, fun d => ?die, fun hn => ?dies, fun p n => ?memory, fun x hx => ?teams, _,
      hu.uid ▸ hs' ▸ State.team_countReads i.timeReads hteam, hcount.scalars, hcount.vectors, hcount.masks, hcount.cc,
      hcount.mode, hcount.stack, hcount.generator, hcount.budget, fun hl => hcount.loops (not_entersLoop hl), hcount.wait,
      hcount.tiles, hcount.trap, hcount.inHandler, hcount.binding, hcount.rays, hcount.gwct, hcount.nlog,
      hcount.nlend, hcount.ident⟩
    case others => rw [hothers, ← hs.teams]; exact hs.others
    case die => rw [hothers]; exact hs.dies d
    case dies => rw [hothers]; exact hs.same hn
    case memory => rw [hothers]; exact hs.peek p n
    case teams => rw [hs', State.mem_teams_of_ne (by rwa [hu.uid]), hs.teams]

end Sys2Proof.Machine
end

section
/-! SUPPORT for O18, O19 and O22. An instruction that checks its element type first (R128). -/

namespace Sys2Proof.Machine

variable {s : State} {t : Team} {i : Instr} {ok : List Nat} {body : Team → Effect} {rest : Effect}

/-- A body that begins with the check of the element type. -/
theorem NeedsEtype.of_issue (hi : exec i s = issue i s body) (hb : body t = t.needEtype ok >>= fun _ => rest) :
    NeedsEtype s t i ok := by
  intro h hne
  rw [hi]
  exact issue_raise h (by rw [hb, Team.needEtype_of_not_mem hne]; rfl)

theorem Team.needEtype_bind (h : t.etype ∈ ok) : (t.needEtype ok >>= fun _ => rest) = rest := by
  rw [Team.needEtype_of_mem h]
  rfl

end Sys2Proof.Machine
end

section
/-! SUPPORT for O18. The special functions: what their one form writes, with and without a draw (R63, R131, R145). -/

namespace Sys2Proof.Machine

/-- What a special function writes to vD from a key: the runs of its values, coalesced where C asks. -/
def mathRuns (s : State) (t : Team) (fn : MathFn) (z : Rounds) (d a : Field) (c : BitVec 1) (k : Word) : VReg :=
  ((t.rawForm d (maxLen [t.vread d, t.vread a]) (z.draws t)).runs [t.vread a] fun n => t.subs fun ty j => match ty with
    | .flt f => fn.eval f (t.rounding k n j) (s.free + 8 * n + j) (t.val ty ((t.vread a).lane n) j)
    | _ => 0).asked c

/-- The state once the free values of a special function are taken. -/
def State.freeTaken (s : State) : State := { s with free := s.free + mathFree }

variable {s : State} {t : Team} {i : Instr} {d a : Field} {c : BitVec 1} {fn : MathFn} {z : Rounds}

/-- Every row of Table 6.5 runs as the form of its function. -/
theorem exec_table65 : ∀ p ∈ table65, ∀ (d a : Field) (c : BitVec 1) (s : State),
    exec (p.1 d a c) s = mathForm (p.1 d a c) p.2.1 p.2.2 d a c s := by
  simp only [table65, List.forall_mem_cons]
  refine ⟨?vrcp, ?vrsq, ?vsqrt, ?vexp2, ?vlog2, ?vsin, ?vcos, ?vtanh, ?vfloor, ?vfrac, List.forall_mem_nil _⟩
  all_goals exact fun _ _ _ _ => rfl

/-- What a special function does after the check of its element type. -/
theorem mathForm_eq : mathForm i fn z d a c s = issue i s fun t => t.needEtype etypesF >>= fun _ =>
    s.freeTaken.vecDraw t (z.draws t) fun k => [(d.toNat, mathRuns s t fn z d a c k)] := rfl

theorem mathForm_writes (h : Issues s t i) (hm : t.etype ∈ etypesF) (hd : z.draws t = false)
    (ho : s.occupancyAfter t [(d.toNat, mathRuns s t fn z d a c t.key)] ≤ 256 * t.budget) :
    mathForm i fn z d a c s = .next (s.freeTaken.after i
      ({ t with vregs := t.vregs.set d.toNat (mathRuns s t fn z d a c t.key) }).advance) := by
  have hw := State.writeVs_one_ok (s := s.freeTaken) ho
  rw [State.after, advance_uid, mathForm_eq]
  refine issue_ok (t := t) h ((Team.needEtype_bind hm).trans ?_)
  rw [State.vecDraw, hd, Bool.not_false, if_pos rfl, State.vecWrite, hw]
  rfl

theorem mathForm_overflows (h : Issues s t i) (hm : t.etype ∈ etypesF) (hd : z.draws t = false)
    (ho : 256 * t.budget < s.occupancyAfter t [(d.toNat, mathRuns s t fn z d a c t.key)]) :
    mathForm i fn z d a c s = .next (s.takeTrap t
      (trapRunOverflow (s.occupancyAfter t [(d.toNat, mathRuns s t fn z d a c t.key)]) (256 * t.budget))) := by
  have hw := State.writeVs_one_overflow (s := s.freeTaken) ho
  rw [mathForm_eq]
  refine issue_raise h ((Team.needEtype_bind hm).trans ?_)
  rw [State.vecDraw, hd, Bool.not_false, if_pos rfl, State.vecWrite, hw]
  rfl

theorem mathForm_draws {s' : State} {w : Draw} (h : Issues s t i) (hm : t.etype ∈ etypesF) (hd : z.draws t = true)
    (hw : s.freeTaken.beginDraw t = .ok (s', w))
    (ho : s.occupancyAfter t [(d.toNat, mathRuns s t fn z d a c w.key)] ≤ 256 * t.budget) :
    mathForm i fn z d a c s = .next ((s'.endDraw
      { t with vregs := t.vregs.set d.toNat (mathRuns s t fn z d a c w.key) } w).countReads t.uid i.timeReads) := by
  rw [mathForm_eq]
  refine issue_ok h ((Team.needEtype_bind hm).trans ?_)
  rw [hd]
  exact State.vecDraw_ok hw (State.writeVs_one_ok ho)

theorem mathForm_draw_overflows {s' : State} {w : Draw} (h : Issues s t i) (hm : t.etype ∈ etypesF)
    (hd : z.draws t = true) (hw : s.freeTaken.beginDraw t = .ok (s', w))
    (ho : 256 * t.budget < s.occupancyAfter t [(d.toNat, mathRuns s t fn z d a c w.key)]) :
    let r := trapRunOverflow (s.occupancyAfter t [(d.toNat, mathRuns s t fn z d a c w.key)]) (256 * t.budget)
    mathForm i fn z d a c s =
      .next (s.takeStop t (if w.rsrc = 1 ∨ w.rsrc = 2 then .trapNoise r else .trap r)) := by
  rw [mathForm_eq]
  refine issue_stop h ((Team.needEtype_bind hm).trans ?_)
  rw [hd]
  exact State.vecDraw_raise hw (State.writeVs_one_overflow ho)

theorem maxLen_pair (x y : VReg) : maxLen [x, y] = max x.len y.len := by simp [maxLen]

/-- Settles O18: every row runs as the form of its function, which writes the runs of its values or overflows. -/
theorem vectorSpecialFunctions : Obligations.VectorSpecialFunctions := by
  unfold Obligations.VectorSpecialFunctions
  intro p hp d a c s t
  simp only [← maxLen_pair, exec_table65 p hp d a c s]
  exact ⟨.of_issue (exec_table65 p hp d a c s) rfl, fun h hm hd => ⟨mathForm_writes h hm hd, mathForm_overflows h hm hd⟩,
    fun s' w h hm hd hw => ⟨mathForm_draws h hm hd hw, mathForm_draw_overflows h hm hd hw⟩⟩

end Sys2Proof.Machine
end

section
/-! SUPPORT for O19, O20 and O22. Masks and lists of lanes, lane by lane. -/

namespace Sys2Proof.Machine

variable {t : Team} {l n : Nat}

@[simp] theorem getLsbD_lane1024 (f : Nat → Bool) (n : Nat) :
    (lane1024 f).getLsbD n = (decide (n < 1024) && f n) := by
  rw [lane1024, BitVec.getLsbD_ofNat, testBit_bitsWhere]
  simp

theorem Team.mem_guarded : n ∈ t.guarded l ↔ n < l ∧ n < t.ident.elanes ∧ t.guard.getLsbD n = true := by
  simp [Team.guarded, laneOn, and_assoc]

theorem getLsbD_setLanes (m : Mask) (lanes : List Nat) (p : Nat → Bool) (h : n < 1024) :
    (setLanes m lanes p).getLsbD n = if n ∈ lanes then p n else m.getLsbD n := by
  induction lanes generalizing m with
  | nil => rfl
  | cons i rest ih =>
    rw [setLanes, List.foldl_cons, ← setLanes, ih]
    by_cases hn : n = i
    · subst hn
      cases p n <;> simp [h]
    · have hbit : (1#1024 <<< i).getLsbD n = false := by
        rw [BitVec.getLsbD_shiftLeft, BitVec.getLsbD_one]
        simp
        omega
      have hkeep : (if p i then m ||| 1#1024 <<< i else m &&& ~~~(1#1024 <<< i)).getLsbD n = m.getLsbD n := by
        split
        · rw [BitVec.getLsbD_or, hbit, Bool.or_false]
        · simp only [BitVec.getLsbD_and, BitVec.getLsbD_not, hbit, h, decide_true, Bool.not_false, Bool.and_true]
      simp [hkeep, hn]

end Sys2Proof.Machine
end

section
/-! SUPPORT for O19. The compares of row 0x6 (R138). -/

namespace Sys2Proof.Machine

variable {s : State} {t : Team} {i : Instr} {d a b : Field} {p : Team → W32 → W32 → Bool}

/-- The mask that a compare leaves: its relation in each guarded lane below the longer source. -/
def Team.comparedMask (t : Team) (d a b : Field) (p : W32 → W32 → Bool) : Mask :=
  lane1024 fun n => if n < max (t.vread a).len (t.vread b).len && n < t.ident.elanes && t.guard.getLsbD n
    then p ((t.vread a).lane n) ((t.vread b).lane n) else (t.mask d.toNat).getLsbD n

theorem setLanes_eq_comparedMask (q : W32 → W32 → Bool) :
    setLanes (t.mask d.toNat) (t.guarded (max (t.vread a).len (t.vread b).len))
      (fun n => q ((t.vread a).lane n) ((t.vread b).lane n)) = t.comparedMask d a b q := by
  refine BitVec.eq_of_getLsbD_eq fun n hn => ?_
  rw [getLsbD_setLanes _ _ _ hn, Team.comparedMask, getLsbD_lane1024]
  simp [Team.mem_guarded, hn, and_assoc]

/-- A compare checks its element type and leaves its mask. -/
theorem compare_leaves (hi : exec i s = compareForm i d a b p s) : NeedsEtype s t i etypesNum ∧
    (Issues s t i → t.etype ∈ etypesNum →
      exec i s = .next (s.after i (t.setMask d.toNat (t.comparedMask d a b (p t))).advance)) := by
  refine ⟨.of_issue hi rfl, fun h hm => ?_⟩
  rw [hi, State.after, advance_uid, setMask_uid, ← setLanes_eq_comparedMask]
  exact issue_ok h (Team.needEtype_bind hm)

/-- Settles O19: each compare decides its lanes by a relation of sub-elements as values. -/
theorem vectorCompares : Obligations.VectorCompares := by
  unfold Obligations.VectorCompares
  intro s t d a b
  refine ⟨?eq, ?ne, ?lt, ?le⟩
  case eq => exact compare_leaves (p := fun t x y => t.allSubs eqSub x y) rfl
  case ne => exact compare_leaves (p := fun t x y => !t.allSubs eqSub x y) rfl
  case lt => exact compare_leaves (p := fun t x y => t.allSubs ltSub x y) rfl
  case le => exact compare_leaves (p := fun t x y => t.allSubs (fun z ty p q => ltSub z ty p q || eqSub z ty p q) x y) rfl

end Sys2Proof.Machine
end

section
/-! SUPPORT for O20 and O22. The lanes of runs: what runs with cuts hold, and what lanes a register's own boundaries
and coalescing keep equal (R60, R77, R130). -/

namespace Sys2Proof.Machine

/-! ### Registers -/

@[simp] theorem VReg.len_nil : VReg.len [] = 0 := rfl
@[simp] theorem VReg.len_cons (r : Run) (v : VReg) : VReg.len (r :: v) = r.cnt + v.len := by simp [VReg.len]
@[simp] theorem VReg.lane_nil (n : Nat) : VReg.lane [] n = 0#32 := rfl
theorem VReg.lane_cons (r : Run) (v : VReg) (n : Nat) :
    VReg.lane (r :: v) n = if n < r.cnt then r.val else VReg.lane v (n - r.cnt) := rfl

/-- Beyond a register's length its lanes read zero (R77). -/
theorem VReg.lane_of_len_le {v : VReg} {n : Nat} (h : v.len ≤ n) : v.lane n = 0#32 := by
  induction v generalizing n with
  | nil => rfl
  | cons r v ih =>
    rw [len_cons] at h
    rw [lane_cons, if_neg (by omega)]
    exact ih (by omega)

theorem VReg.lane_pred_of_startsFrom {v : VReg} {s n : Nat} (hb : s + n ∉ (startsFrom s v).drop 1) (h0 : 0 < n)
    (hl : n ≠ v.len) : v.lane n = v.lane (n - 1) := by
  induction v generalizing s n with
  | nil => rfl
  | cons r v ih =>
    rw [len_cons] at hl
    rcases Nat.lt_trichotomy n r.cnt with hn | rfl | hn
    · rw [lane_cons, lane_cons, if_pos hn, if_pos (by omega)]
    · cases v with
      | nil => simp at hl
      | cons q v => simp [startsFrom] at hb
    · have hrest : s + r.cnt + (n - r.cnt) ∉ (startsFrom (s + r.cnt) v).drop 1 := by
        rw [Nat.add_assoc, Nat.add_sub_cancel' hn.le]
        exact fun hm => hb (List.mem_of_mem_drop hm)
      rw [lane_cons, lane_cons, if_neg (by omega), if_neg (by omega), ih hrest (by omega) (by omega)]
      congr 1
      omega

/-- Between two lanes of a register that no boundary parts and neither its end the value stays. -/
theorem VReg.lane_pred {v : VReg} {n : Nat} (hb : n ∉ v.bounds) (h0 : 0 < n) (hl : n ≠ v.len) :
    v.lane n = v.lane (n - 1) :=
  lane_pred_of_startsFrom (s := 0) (by rwa [Nat.zero_add]) h0 hl

theorem lane_pred_of_sourceCuts {xs : List VReg} {x : VReg} {n : Nat} (hc : (sourceCuts xs).contains n = false)
    (hx : x ∈ xs) (h0 : 0 < n) : x.lane n = x.lane (n - 1) := by
  have hn : n ∉ sourceCuts xs := by simpa using hc
  have hx' : ∀ m ∈ x.len :: x.bounds, n ≠ m := fun m hm he => hn (he ▸ List.mem_flatMap.2 ⟨x, hx, hm⟩)
  exact VReg.lane_pred (fun hb => hx' n (List.mem_cons_of_mem _ hb) rfl) h0 (hx' _ List.mem_cons_self)

/-! ### Coalescing (R77) -/

theorem VReg.coalesce_cons_nil {r : Run} {v : VReg} (h : v.coalesce = []) : VReg.coalesce (r :: v) = [r] := by
  simp [coalesce, h]

theorem VReg.coalesce_cons_cons {r q : Run} {v more : VReg} (h : v.coalesce = q :: more) : VReg.coalesce (r :: v) =
    if q.val = r.val then { val := r.val, cnt := r.cnt + q.cnt } :: more else r :: q :: more := by
  simp [coalesce, h]

@[simp] theorem VReg.len_coalesce (v : VReg) : v.coalesce.len = v.len := by
  induction v with
  | nil => rfl
  | cons r v ih =>
    rw [len_cons, ← ih]
    cases hc : VReg.coalesce v with
    | nil => simp [coalesce_cons_nil hc]
    | cons q more =>
      rw [coalesce_cons_cons hc]
      split <;> simp [Nat.add_assoc]

@[simp] theorem VReg.lane_coalesce (v : VReg) (n : Nat) : v.coalesce.lane n = v.lane n := by
  induction v generalizing n with
  | nil => rfl
  | cons r v ih =>
    rw [lane_cons, ← ih]
    cases hc : VReg.coalesce v with
    | nil => rw [coalesce_cons_nil hc, lane_cons]
    | cons q more =>
      rw [coalesce_cons_cons hc]
      split
      next hv =>
        simp only [lane_cons, hv]
        by_cases h1 : n < r.cnt
        · rw [if_pos (by omega), if_pos h1]
        · by_cases h2 : n < r.cnt + q.cnt
          · rw [if_pos h2, if_neg h1, if_pos (by omega)]
          · rw [if_neg h2, if_neg h1, if_neg (by omega), Nat.sub_sub]
      next => rw [lane_cons]

@[simp] theorem VReg.len_asked (v : VReg) (c : BitVec 1) : (v.asked c).len = v.len := by
  unfold asked
  split <;> simp

@[simp] theorem VReg.lane_asked (v : VReg) (c : BitVec 1) (n : Nat) : (v.asked c).lane n = v.lane n := by
  unfold asked
  split <;> simp

/-! ### Runs with cuts (R130) -/

section
variable {cut : Nat → Bool} {val : Nat → W32}

theorem runsFrom_succ_nil {n i : Nat} (h : runsFrom cut val n (i + 1) = []) :
    runsFrom cut val (n + 1) i = [{ val := val i, cnt := 1 }] := by simp [runsFrom, h]

theorem runsFrom_succ_cons {n i : Nat} {r : Run} {rest : VReg} (h : runsFrom cut val n (i + 1) = r :: rest) :
    runsFrom cut val (n + 1) i = if cut (i + 1) then { val := val i, cnt := 1 } :: r :: rest
      else { val := val i, cnt := r.cnt + 1 } :: rest := by simp [runsFrom, h]

@[simp] theorem len_runsFrom (n i : Nat) : (runsFrom cut val n i).len = n := by
  induction n generalizing i with
  | zero => rfl
  | succ n ih =>
    have hlen := ih (i + 1)
    cases hr : runsFrom cut val n (i + 1) with
    | nil =>
      rw [hr, VReg.len_nil] at hlen
      rw [runsFrom_succ_nil hr, ← hlen]
      rfl
    | cons r rest =>
      rw [hr, VReg.len_cons] at hlen
      rw [runsFrom_succ_cons hr]
      split <;> simp <;> omega

/-- Runs hold a value in each lane where it changes at their cuts alone. -/
theorem lane_runsFrom {n i k : Nat} (h : ∀ j, i < j → j < i + n → cut j = false → val j = val (j - 1)) (hk : k < n) :
    (runsFrom cut val n i).lane k = val (i + k) := by
  induction n generalizing i k with
  | zero => omega
  | succ n ih =>
    have hlane : ∀ k < n, (runsFrom cut val n (i + 1)).lane k = val (i + 1 + k) :=
      fun k hk => ih (fun j h1 h2 hc => h j (by omega) (by omega) hc) hk
    have hlen := len_runsFrom (cut := cut) (val := val) n (i + 1)
    cases hr : runsFrom cut val n (i + 1) with
    | nil =>
      have hn : n = 0 := by simpa [hr] using hlen.symm
      obtain rfl : k = 0 := by omega
      rw [runsFrom_succ_nil hr]
      rfl
    | cons r rest =>
      rw [hr] at hlane hlen
      rw [VReg.len_cons] at hlen
      rw [runsFrom_succ_cons hr]
      cases k with
      | zero => split <;> rfl
      | succ k =>
        have hk' : k < n := by omega
        rw [show i + (k + 1) = i + 1 + k by omega, ← hlane k hk']
        split
        next => rw [VReg.lane_cons, if_neg (by simp), Nat.add_sub_cancel]
        next hc =>
          rw [VReg.lane_cons, VReg.lane_cons, Nat.add_sub_add_right]
          by_cases hr1 : k < r.cnt
          · have h0 := hlane 0 (by omega)
            rw [VReg.lane_cons, if_pos (by omega)] at h0
            rw [if_pos (Nat.succ_lt_succ hr1), if_pos hr1, h0]
            exact (h (i + 1) (by omega) (by omega) (by simpa using hc)).symm
          · rw [if_neg (mt Nat.lt_of_succ_lt_succ hr1), if_neg hr1]
end

@[simp] theorem RawForm.len_runsWith (r : RawForm) (source : Nat → Bool) (lane : Nat → W32) :
    (r.runsWith source lane).len = r.len := len_runsFrom _ _

/-- The runs of a form hold its value in the guarded lanes and the old one in the others, where the value changes
only at a cut of the form. -/
theorem RawForm.lane_runsWith {r : RawForm} {source : Nat → Bool} {lane : Nat → W32} {n : Nat}
    (h : ∀ j, 0 < j → j < r.len → source j = false → r.g j = true → r.g (j - 1) = true → r.split = false →
      lane j = lane (j - 1)) (hn : n < r.len) :
    (r.runsWith source lane).lane n = if r.g n then lane n else r.old.lane n := by
  have hval := lane_runsFrom (cut := fun i => source i || r.ownCut i)
    (val := fun i => if r.g i then lane i else r.old.lane i) (i := 0) (n := r.len) (k := n) ?_ hn
  · rw [Nat.zero_add] at hval
    exact hval
  · intro j h0 hj hc
    simp only [Bool.or_eq_false_iff, RawForm.ownCut, bne_eq_false_iff_eq] at hc
    obtain ⟨hsource, ⟨hg, hold⟩, hsplit⟩ := hc
    cases hgj : r.g j with
    | true =>
      rw [hgj] at hg hsplit
      simp only [← hg, if_true]
      exact h j h0 (by omega) hsource hgj hg.symm (by simpa using hsplit)
    | false =>
      rw [hgj] at hg hold
      simp only [← hg, Bool.false_eq_true, if_false]
      simp at hold
      exact VReg.lane_pred hold.2 h0 hold.1

end Sys2Proof.Machine
end

section
/-! SUPPORT for O20. Lists of lanes, and the runs of a lane movement (R147). -/

namespace Sys2Proof.Machine

variable {t : Team} {l n : Nat}

/-! ### Lists of lanes -/

@[simp] theorem getLsbD_lanesMask (lanes : List Nat) (n : Nat) :
    (lanesMask lanes).getLsbD n = (decide (n < 1024) && decide (n ∈ lanes)) := by
  have hfold : ∀ m : Mask, (lanes.foldl (fun m i => m ||| (1#1024 <<< i)) m).getLsbD n =
      (m.getLsbD n || decide (n < 1024) && decide (n ∈ lanes)) := by
    induction lanes with
    | nil => simp
    | cons i rest ih =>
      intro m
      have hbit : (1#1024 <<< i).getLsbD n = (decide (n < 1024) && decide (n = i)) := by
        rw [BitVec.getLsbD_shiftLeft, BitVec.getLsbD_one]
        by_cases hn : n < 1024
        · have hsub : (!decide (n < i) && decide (n - i = 0)) = decide (n = i) := by
            rw [Bool.eq_iff_iff]
            simp
            omega
          simp [hn, hsub]
        · simp [hn]
      rw [List.foldl_cons, ih, BitVec.getLsbD_or, hbit, Bool.or_assoc, ← Bool.and_or_distrib_left]
      simp
  simpa [lanesMask] using hfold 0#1024

theorem Team.lt_1024_of_guard (h : t.guard.getLsbD n = true) : n < 1024 := by
  by_contra hn
  rw [BitVec.getLsbD_of_ge _ _ (not_lt.1 hn)] at h
  exact Bool.false_ne_true h

theorem Team.lt_1024_of_mem_guarded (h : n ∈ t.guarded l) : n < 1024 :=
  lt_1024_of_guard (Team.mem_guarded.1 h).2.2

/-- The guarded lanes below a bound, as the statements write them. -/
theorem Team.guarded_eq_filter (t : Team) (l : Nat) :
    t.guarded l = (List.range l).filter fun n => decide (n < t.ident.elanes) && t.guard.getLsbD n := by
  induction l with
  | zero => simp [guarded]
  | succ l ih =>
    rw [List.range_succ, List.filter_append, ← ih, guarded, guarded]
    by_cases hl : l < t.ident.elanes
    · rw [show min (l + 1) t.ident.elanes = l + 1 by omega, show min l t.ident.elanes = l by omega, List.range_succ,
        List.filter_append]
      simp only [laneOn, List.filter_cons, hl, decide_true, Bool.true_and]
      rfl
    · rw [show min (l + 1) t.ident.elanes = t.ident.elanes by omega,
        show min l t.ident.elanes = t.ident.elanes by omega]
      simp [hl]

theorem Team.pairwise_guarded (t : Team) (l : Nat) : (t.guarded l).Pairwise (· < ·) :=
  List.pairwise_lt_range.filter _

theorem Team.length_guarded_le (t : Team) (l : Nat) : (t.guarded l).length ≤ 1024 := by
  have hsub : t.guarded l ⊆ List.range 1024 := fun n hn => List.mem_range.2 (lt_1024_of_mem_guarded hn)
  simpa using (List.subperm_of_subset ((t.pairwise_guarded l).imp Nat.ne_of_lt) hsub).length_le

/-- The greatest end of some ascending lanes is that of their last. -/
theorem foldl_max_eq_getLast {ls : List Nat} (h : ls.Pairwise (· < ·)) (b : Nat) :
    ls.foldl (fun l n => max l (n + 1)) b = match ls.getLast? with
      | none => b
      | some g => max b (g + 1) := by
  induction ls using List.reverseRecOn with
  | nil => rfl
  | append_singleton init g ih =>
    obtain ⟨hinit, -, hlast⟩ := List.pairwise_append.1 h
    rw [List.foldl_append, List.getLast?_append, ih hinit]
    cases hi : init.getLast? with
    | none => rfl
    | some k =>
      have : k < g := hlast k (List.mem_of_getLast? hi) g (by simp)
      simp
      omega

/-! ### Runs of a movement (R147) -/

variable {old x : VReg} {lanes : List Nat} {len : Nat} {sigma : Nat → Nat}

@[simp] theorem len_moveRuns : (moveRuns old lanes len sigma x).len = len := RawForm.len_runsWith _ _ _

theorem lane_eq_of_moveCut {written : Nat → Bool} {i : Nat} (hc : moveCut written sigma x i = false)
    (h1 : written i = true) (h0 : written (i - 1) = true) : x.lane (sigma i) = x.lane (sigma (i - 1)) := by
  simp [moveCut, h0, h1] at hc
  by_cases hout : x.len ≤ sigma (i - 1) ∧ x.len ≤ sigma i
  · rw [VReg.lane_of_len_le hout.1, VReg.lane_of_len_le hout.2]
  · by_cases hs : sigma i = sigma (i - 1)
    · rw [hs]
    · obtain ⟨⟨hstep, hlen⟩, hb⟩ := hc (by omega) hs
      rw [VReg.lane_pred hb (by omega) (Nat.ne_of_lt hlen), hstep, Nat.add_sub_cancel]

/-- A movement writes its lanes with the lanes of vA that σ names, and keeps the others. -/
theorem lane_moveRuns (h1024 : ∀ i ∈ lanes, i < 1024) (hn : n < len) :
    (moveRuns old lanes len sigma x).lane n = if n ∈ lanes then x.lane (sigma n) else old.lane n := by
  have hg : ∀ (r : RawForm) (i : Nat), r.guard = lanesMask lanes → r.elanes = 1024 → r.g i = decide (i ∈ lanes) := by
    intro r i hr he
    by_cases hi : i ∈ lanes <;> simp [RawForm.g, laneOn, hr, he, hi, h1024 i]
  rw [moveRuns, RawForm.lane_runsWith (fun j _ _ hc hj hj' _ => lane_eq_of_moveCut hc hj hj') hn, hg _ n rfl rfl]
  simp

end Sys2Proof.Machine
end

section
/-! SUPPORT for O20. What each form of selection, generation and movement writes, and the obligation (R139, R140,
R147 to R150). -/

namespace Sys2Proof.Machine

variable {s : State} {t : Team} {i : Instr} {d a b : Field} {c : BitVec 1}

/-- An instruction that writes the runs `w`, coalesced where C asks, writes their lanes. -/
theorem exists_writesV {w : VReg} {len : Nat} {lane : Nat → W32} (hw : WritesV s t i d (w.asked c)) (hlen : w.len = len)
    (hl : ∀ n < len, w.lane n = lane n) : ∃ v : VReg, WritesV s t i d v ∧ v.len = len ∧ ∀ n < len, v.lane n = lane n :=
  ⟨_, hw, by simpa using hlen, fun n hn => by simpa using hl n hn⟩

/-! ### Selection and generation (R139, R140) -/

/-- The runs that VSEL writes. -/
def Team.selected (t : Team) (d a b : Field) : VReg :=
  let r := { t.rawForm d (maxLen [t.vread d, t.vread a, t.vread b]) false with old := [] }
  runsFrom (fun n => (sourceCuts [t.vread a, t.vread b]).contains n || r.g n != r.g (n - 1))
    (fun n => if r.g n then (t.vread a).lane n else (t.vread b).lane n) r.len 0

theorem Team.len_selected : (t.selected d a b).len = max (t.vread d).len (max (t.vread a).len (t.vread b).len) := by
  rw [selected, len_runsFrom]
  simp [Team.rawForm, maxLen, max_assoc]

theorem Team.lane_selected {n : Nat} (hn : n < (t.selected d a b).len) : (t.selected d a b).lane n =
    if decide (n < t.ident.elanes) && t.guard.getLsbD n then (t.vread a).lane n else (t.vread b).lane n := by
  rw [selected, len_runsFrom] at hn
  rw [selected, lane_runsFrom ?_ hn, Nat.zero_add]
  · rfl
  · intro j h0 _ hc
    obtain ⟨hcuts, hg⟩ := Bool.or_eq_false_iff.1 hc
    rw [bne_eq_false_iff_eq] at hg
    rw [hg, lane_pred_of_sourceCuts hcuts (List.mem_cons_self) h0,
      lane_pred_of_sourceCuts hcuts (List.mem_cons_of_mem _ List.mem_cons_self) h0]

theorem vectorGeneration : VectorGeneration := by
  intro s t d a b c
  refine ⟨⟨t.selected d a b, .of_vecWrite rfl rfl, Team.len_selected, fun n hn => Team.lane_selected hn⟩,
    .of_vecWrite rfl rfl, .of_vecWrite rfl rfl⟩

/-! ### Movement (R147 to R150) -/

theorem vcompact_writes :
    let lanes := t.guarded (t.vread a).len
    ∃ v : VReg, WritesV s t (.vcompact d a c) d v ∧ v.len = lanes.length ∧
      ∀ n < lanes.length, v.lane n = (t.vread a).lane (lanes.getD n 0) := by
  intro lanes
  refine exists_writesV (.of_vecWrite rfl rfl) len_moveRuns fun n hn => ?_
  rw [lane_moveRuns (fun i hi => (List.mem_range.1 hi).trans_le (t.length_guarded_le _)) hn,
    if_pos (List.mem_range.2 hn)]
  rfl

theorem vexpand_writes :
    let ls := (t.guarded t.ident.elanes).take (t.vread a).len
    let len := ls.foldl (fun l n => max l (n + 1)) (t.vread d).len
    ∃ v : VReg, WritesV s t (.vexpand d a c) d v ∧ v.len = len ∧
      ∀ n < len, v.lane n = if n ∈ ls then (t.vread a).lane (ls.idxOf n) else (t.vread d).lane n := by
  intro ls len
  have hlen : len = _ := foldl_max_eq_getLast ((t.pairwise_guarded _).sublist (List.take_sublist _ _)) (t.vread d).len
  refine exists_writesV (.of_vecWrite rfl rfl) (len_moveRuns.trans hlen.symm) fun n hn => ?_
  rw [hlen] at hn
  exact lane_moveRuns (fun i hi => Team.lt_1024_of_mem_guarded (List.mem_of_mem_take hi)) hn

theorem vshfl_writes :
    let len := max (t.vread b).len (t.vread d).len
    ∃ v : VReg, WritesV s t (.vshfl d a b c) d v ∧ v.len = len ∧
      ∀ n < len, v.lane n = if decide (n < t.ident.elanes) && t.guard.getLsbD n
        then (t.vread a).lane ((t.vread b).lane n).toNat else (t.vread d).lane n := by
  intro len
  refine exists_writesV (.of_vecWrite rfl rfl) len_moveRuns fun n hn => ?_
  rw [lane_moveRuns (fun i => Team.lt_1024_of_mem_guarded) hn]
  simp [Team.mem_guarded, show n < max (t.vread b).len (t.vread d).len from hn]

theorem vrotl_writes (h0 : 0 < (t.vread a).len) :
    let x := t.vread a
    let len := max x.len (t.vread d).len
    ∃ v : VReg, WritesV s t (.vrotl d a b c) d v ∧ v.len = len ∧
      ∀ n < len, v.lane n = if n < x.len && (decide (n < t.ident.elanes) && t.guard.getLsbD n)
        then x.lane ((n + (s.sread t b).toNat) % x.len) else (t.vread d).lane n := by
  intro x len
  refine exists_writesV (.of_vecWrite rfl (if_neg (Nat.ne_of_gt h0))) len_moveRuns fun n hn => ?_
  rw [lane_moveRuns (fun i => Team.lt_1024_of_mem_guarded) hn, Nat.add_mod_mod]
  simp [Team.mem_guarded, x]

theorem vins_writes (hp : (s.sread t b).toNat < min t.ident.elanes 1024) :
    let p := (s.sread t b).toNat
    let len := max (t.vread d).len (p + 1)
    ∃ v : VReg, WritesV s t (.vins d a b c) d v ∧ v.len = len ∧
      ∀ n < len, v.lane n = if n = p then (s.sread t a).setWidth 32 else (t.vread d).lane n := by
  intro p len
  refine exists_writesV (.of_vecWrite rfl (if_neg (not_le.2 hp))) (RawForm.len_runsWith _ _ _) fun n hn => ?_
  rw [RawForm.lane_runsWith (fun _ _ _ _ _ _ _ => rfl) hn]
  have hlt : p < 1024 := by omega
  by_cases hnp : n = p
  · simp [RawForm.g, laneOn, hnp, hlt, p]
  · simp [RawForm.g, laneOn, hnp, show n ≠ (s.sread t b).toNat from hnp]

theorem laneMovement : LaneMovement := by
  intro s t d a b c
  simp only [← Team.guarded_eq_filter]
  refine ⟨vcompact_writes, vexpand_writes, vshfl_writes, vrotl_writes, fun h0 h => ?rotateNone, fun h => ?extract,
    vins_writes, fun hp h => ?insertBeyond⟩
  case rotateNone => exact exec_after rfl (if_pos h0) (advance_uid _) h
  case extract => exact issueTeam_of_issues h _ (by simp)
  case insertBeyond => exact exec_after rfl (if_pos hp) (advance_uid _) h

/-- Settles O20: the forms of selection and generation, and those of movement. -/
theorem lanesGeneratedAndMoved : Obligations.LanesGeneratedAndMoved := ⟨vectorGeneration, laneMovement⟩

end Sys2Proof.Machine
end

section
/-! SUPPORT for O21. The instructions on runs and budgets (R151 to R154, R316). -/

namespace Sys2Proof.Machine

variable {s : State} {t : Team} {d a : Field}

/-- The team that RALLOT leaves: `n` registers, the new ones of zeros, and the old allotment in s[D]. -/
def Team.allotted (t : Team) (d : Field) (n : BitVec 9) : Team :=
  { t with vregs := t.vregs.take n.toNat ++ List.replicate (n.toNat - t.allot) (zeroVReg t.ident.elanes) }.setD d
    (BitVec.ofNat 64 t.allot)

theorem rallot_completes {n : BitVec 9} (h : Issues s t (.rallot d n))
    (hn : n.toNat ≤ t.allot ∨ s.occupancy t + (n.toNat - t.allot) ≤ 256 * t.budget) :
    exec (.rallot d n) s = .next (s.after (.rallot d n) (t.allotted d n).advance) := by
  refine exec_after rfl (if_neg ?_) (by simp [Team.allotted]) h
  simp
  omega

theorem rallot_overflows {n : BitVec 9} (h : Issues s t (.rallot d n)) (hn : t.allot < n.toNat)
    (ho : 256 * t.budget < s.occupancy t + (n.toNat - t.allot)) :
    exec (.rallot d n) s = .next (s.takeTrap t
      (trapRunOverflow (s.occupancy t + (n.toNat - t.allot)) (256 * t.budget))) :=
  issue_raise h (if_pos (by simp [hn, ho]))

/-- The budget that RPOOL gives: what is asked for, between what the team occupies and 64 granules, where it takes
no more than is free (R154). -/
def State.budgetGiven (s : State) (t : Team) (a : Field) : Nat :=
  let want := min (max (s.sread t a).toNat (max ((s.occupancy t + 255) / 256) 1)) 64
  let free := s.freeGranules t.coreId t.ident.sched - s.heldGranules t.coreId t.ident.sched
  if want ≤ t.budget ∨ want - t.budget ≤ free then want else t.budget

/-- The state in which granules that RPOOL returns have made a placement attempt due (R316). -/
def State.granulesReturned (s : State) (t : Team) (got : Nat) : State :=
  s.modDie t.ident.die fun k => { k with placeDue := k.placeDue || decide (got < t.budget) }

theorem exec_rpool (s : State) (d a : Field) : exec (.rpool d a) s = issue (.rpool d a) s fun t =>
    .ok ((s.granulesReturned t (s.budgetGiven t a)).putTeam
      ({ t with budget := s.budgetGiven t a }.setD d (BitVec.ofNat 64 (s.budgetGiven t a))).advance) := by
  have hgiven : ∀ t : Team, s.budgetGiven t a =
      let want := min (max (max (s.sread t a).toNat (ceilDiv (s.occupancy t) 256)) 1) 64
      let free := s.freeGranules t.coreId t.ident.sched - s.heldGranules t.coreId t.ident.sched
      if want ≤ t.budget then want else if want - t.budget ≤ free then want else t.budget := by
    intro t
    rw [State.budgetGiven, ite_or, ceilDiv, max_assoc]
    rfl
  simp only [hgiven]
  rfl

theorem rpool_completes (h : Issues s t (.rpool d a)) : exec (.rpool d a) s =
    .next ((s.granulesReturned t (s.budgetGiven t a)).after (.rpool d a)
      ({ t with budget := s.budgetGiven t a }.setD d (BitVec.ofNat 64 (s.budgetGiven t a))).advance) := by
  rw [exec_rpool, issue_ok h rfl, State.after, advance_uid, setD_uid]

/-- Settles O21: RCOAL and RCNT by their forms, RALLOT with room and without, RPOOL with the budget that it gives. -/
theorem runsAndBudgets : Obligations.RunsAndBudgets := by
  unfold Obligations.RunsAndBudgets
  intro s t d a
  exact ⟨fun c => .of_vecWrite rfl rfl, fun h => issueTeam_of_issues h _ (by simp),
    fun n h => ⟨rallot_completes h, rallot_overflows h⟩, rpool_completes⟩

end Sys2Proof.Machine
end

section
/-! SUPPORT for O22. Sums of lanes: a last zero counts once, and the rounding of a type that does not draw is the same
for every lane (R69, R156, R157). -/

namespace Sys2Proof.Machine

/-! ### Sums (R69, R156) -/

theorem XReal.add_zero_idem (rdn : Bool) (x : XReal) :
    add rdn (add rdn x (.zero false)) (.zero false) = add rdn x (.zero false) := by
  cases x with
  | nan => rfl
  | inf neg => rfl
  | zero neg => cases neg <;> cases rdn <;> rfl
  | fin n d => rfl

theorem sumValues_append (rdn : Bool) (x : XReal) (xs ys : List XReal) :
    sumValues rdn (x :: (xs ++ ys)) = ys.foldl (XReal.add rdn) (sumValues rdn (x :: xs)) := by
  simp [sumValues]

/-- A second zero at the end of a sum leaves it as it is. -/
theorem sumValues_zero_zero (rdn : Bool) (xs : List XReal) :
    sumValues rdn (xs ++ [.zero false] ++ [.zero false]) = sumValues rdn (xs ++ [.zero false]) := by
  cases xs with
  | nil => cases rdn <;> rfl
  | cons x xs =>
    simp only [List.append_assoc, List.cons_append, List.nil_append, sumValues_append, List.foldl_cons, List.foldl_nil,
      XReal.add_zero_idem]

/-- The zero word has +0 in every sub-element of a type but P8 (R10, R78). -/
theorem subVal_zero {etype : Nat} (h : (elemType etype).1 ≠ .p8) (dnz : Bool) (j : Nat) :
    subVal (elemType etype).1 dnz (subBits (elemType etype).1 0#32 j) = .zero false := by
  have hbits : ∀ ty : SubTy, subBits ty 0#32 j = 0 := fun ty => by simp [subBits, bitsOf]
  rw [hbits]
  unfold elemType at h ⊢
  split <;> simp_all <;> cases dnz <;> rfl

/-- The sum of words that end in two zeros is that of those that end in one. -/
theorem reduceAdd_zero_zero {etype : Nat} (h : (elemType etype).1 ≠ .p8) (dnz : Bool) (z : Nat → Rounding) (ws : List W32) :
    reduceAdd etype dnz z (ws ++ [0#32] ++ [0#32]) = reduceAdd etype dnz z (ws ++ [0#32]) := by
  simp only [reduceAdd, List.map_append, List.map_cons, List.map_nil, subVal_zero h, sumValues_zero_zero]

/-! ### Roundings (R76, R131) -/

/-- Whether a sub-element type is one of the integers. -/
def SubTy.isInt : SubTy → Bool
  | .int _ _ => true
  | _ => false

theorem elemType_of_le {e : Nat} (h : 12 ≤ e) : elemType e = (.p8, 4) := by
  obtain ⟨k, rfl⟩ := Nat.exists_eq_add_of_le' h
  rfl

theorem isInt_of_lt : ∀ e < 12, Rounds.floats.under e = false → (elemType e).1.isInt = true := by decide

/-- Of the types that are not P8, a form that rounds floats only leaves out the integers. -/
theorem isInt_of_not_under {e : Nat} (h : (elemType e).1 ≠ .p8) (hu : Rounds.floats.under e = false) :
    (elemType e).1.isInt = true :=
  isInt_of_lt e (not_le.1 fun he => h (by rw [elemType_of_le he])) hu

/-- A result in an integer type takes nothing of its rounding but SAT (R71). -/
theorem subResult_of_isInt {ty : SubTy} {z z' : Rounding} (h : ty.isInt = true) (hz : z.sat = z'.sat) (x : XReal) :
    subResult ty z x = subResult ty z' x := by
  cases ty with
  | int signed w => simp [subResult, hz]
  | flt f => exact absurd h Bool.false_ne_true
  | p8 => exact absurd h Bool.false_ne_true

/-- Where VSCAN does not draw, every lane of a type but P8 rounds alike. -/
theorem reduceAdd_rounding {t : Team} {k : Word} (hd : Rounds.floats.draws t = false)
    (hp : (elemType t.etype).1 ≠ .p8) (i i' : Nat) (ws : List W32) :
    reduceAdd t.etype t.dnz (fun j => t.rounding k i j) ws = reduceAdd t.etype t.dnz (fun j => t.rounding k i' j) ws := by
  by_cases hr : t.rnd = 5
  · have hint : (elemType t.etype).1.isInt = true := isInt_of_not_under hp (by simpa [Rounds.draws, hr] using hd)
    have hsub := fun j x => subResult_of_isInt (z := t.rounding k i j) (z' := t.rounding k i' j) hint rfl x
    simp only [reduceAdd, hsub]
    rfl
  · simp [Team.rounding, hr]

end Sys2Proof.Machine
end

section
/-! SUPPORT for O22. The reductions over the guarded lanes (R156, R159). -/

namespace Sys2Proof.Machine

variable {s : State} {t : Team} {i : Instr} {d a : Field} {f : Team → List W32 → W32}

/-- The guarded lanes of a register, as words. -/
def Team.words (t : Team) (a : Field) : List W32 :=
  ((List.range (min (t.vread a).len t.ident.elanes)).filter fun n => t.guard.getLsbD n).map (t.vread a).lane

theorem Team.contributions_eq_words : (t.contributions (t.vread a)).map Prod.fst = t.words a := by
  rw [contributions, List.map_map]
  rfl

/-- A reduction checks its element type and leaves its value in s[D]. -/
theorem reduce_leaves (hi : exec i s = reduceForm i d a f s) : NeedsEtype s t i etypesNum ∧
    (Issues s t i → t.etype ∈ etypesNum →
      exec i s = .next (s.after i (t.setD d ((f t (t.words a)).setWidth 64)).advance)) := by
  refine ⟨.of_issue hi rfl, fun h hm => ?_⟩
  refine exec_after hi ((Team.needEtype_bind hm).trans ?_) (by simp) h
  rw [Team.contributions_eq_words]
  rfl

/-- The sum that VREDADD writes under a key. -/
def Team.sumOf (t : Team) (a : Field) (k : Word) : W32 :=
  reduceAdd t.etype t.dnz (fun j => t.rounding k 0 j) (t.words a)

/-- VREDADD after the check of its element type. -/
theorem exec_vredadd (s : State) (d a : Field) : exec (.vredadd d a) s = issue (.vredadd d a) s fun t =>
    t.needEtype etypesNum >>= fun _ =>
      if Rounds.floats.draws t then do
        let (r, w) ← s.beginDraw t
        pure (r.endDraw (t.setD d ((t.sumOf a w.key).setWidth 64)) w)
      else pure (s.putTeam (t.setD d ((t.sumOf a t.key).setWidth 64)).advance) := by
  simp only [Team.sumOf, ← Team.contributions_eq_words]
  rfl

theorem vredadd_completes (h : Issues s t (.vredadd d a)) (hm : t.etype ∈ etypesNum)
    (hd : Rounds.floats.draws t = false) :
    exec (.vredadd d a) s = .next (s.after (.vredadd d a) (t.setD d ((t.sumOf a t.key).setWidth 64)).advance) :=
  exec_after (exec_vredadd s d a) ((Team.needEtype_bind hm).trans (by rw [hd]; rfl)) (by simp) h

theorem vredadd_draws {s' : State} {w : Draw} (h : Issues s t (.vredadd d a)) (hm : t.etype ∈ etypesNum)
    (hd : Rounds.floats.draws t = true) (hw : s.beginDraw t = .ok (s', w)) : exec (.vredadd d a) s =
      .next ((s'.endDraw (t.setD d ((t.sumOf a w.key).setWidth 64)) w).countReads t.uid (Instr.vredadd d a).timeReads) := by
  rw [exec_vredadd]
  exact issue_ok h ((Team.needEtype_bind hm).trans (by rw [if_pos hd, hw]; rfl))

theorem reductions : Reductions := by
  intro s t d a
  refine ⟨?min, ?max, ?and, ?or, .of_issue rfl rfl, vredadd_completes, fun s' w => vredadd_draws⟩
  case min => exact reduce_leaves (f := fun t ws => reduceExtreme true t.etype t.dnz ws) rfl
  case max => exact reduce_leaves (f := fun t ws => reduceExtreme false t.etype t.dnz ws) rfl
  case and => exact reduce_leaves (f := fun t ws => t.clip6 (ws.foldl (· &&& ·) 0xFFFFFFFF#32)) rfl
  case or => exact reduce_leaves (f := fun t ws => t.clip6 (ws.foldl (· ||| ·) 0#32)) rfl

end Sys2Proof.Machine
end

section
/-! SUPPORT for O22. The running sums of VSCAN, the generator, and the obligation (R157 to R162). -/

namespace Sys2Proof.Machine

variable {s : State} {t : Team} {d a : Field} {c : BitVec 1} {k : Word}

/-- The lanes below n + 1 that are guarded, for n among the guarded lanes below a bound. -/
theorem Team.filter_le_guarded {l n : Nat} (h : n < l) : (t.guarded l).filter (fun m => decide (m ≤ n)) =
    (List.range (n + 1)).filter fun m => decide (m < t.ident.elanes) && t.guard.getLsbD m := by
  obtain ⟨k, rfl⟩ := Nat.exists_eq_add_of_lt h
  have hhigh : ((List.range k).map (n + 1 + ·)).filter (fun m => decide (m ≤ n) &&
      (decide (m < t.ident.elanes) && t.guard.getLsbD m)) = [] := by
    rw [List.filter_eq_nil_iff]
    simp
    omega
  rw [Team.guarded_eq_filter, List.filter_filter, show n + k + 1 = n + 1 + k by omega, List.range_add,
    List.filter_append, hhigh, List.append_nil]
  exact List.filter_congr fun m hm => by simp [Nat.lt_succ_iff.1 (List.mem_range.1 hm)]

/-- The running sum of the guarded lanes of vA up to lane n (R157). -/
def Team.runningSum (t : Team) (a : Field) (k : Word) (n : Nat) : W32 :=
  reduceAdd t.etype t.dnz (fun j => t.rounding k n j)
    (((List.range (n + 1)).filter fun m => decide (m < t.ident.elanes) && t.guard.getLsbD m).map (t.vread a).lane)

/-- Between two guarded lanes of zeros, where VSCAN does not cut, the running sum stays. -/
theorem Team.runningSum_pred {n : Nat} (hd : Rounds.floats.draws t = false)
    (hp : (elemType t.etype).1 ≠ .p8) (h0 : 0 < n)
    (hg : ∀ m ∈ [n - 1, n], (decide (m < t.ident.elanes) && t.guard.getLsbD m) = true ∧ (t.vread a).lane m = 0#32) :
    t.runningSum a k n = t.runningSum a k (n - 1) := by
  obtain ⟨m, rfl⟩ : ∃ m, n = m + 1 := ⟨n - 1, by omega⟩
  simp only [Nat.add_sub_cancel, List.forall_mem_cons] at hg
  obtain ⟨⟨hgm, hlm⟩, ⟨hgn, hln⟩, -⟩ := hg
  rw [Nat.add_sub_cancel, runningSum, runningSum, reduceAdd_rounding hd hp (m + 1) m]
  simp only [List.range_succ (n := m + 1), List.range_succ (n := m), List.filter_append, List.map_append, List.filter_cons, hgm, hgn, if_true, List.filter_nil,
    List.map_cons, List.map_nil, hlm, hln, reduceAdd_zero_zero hp]

/-- The runs that VSCAN writes from a key, before they are coalesced. -/
def Team.scanned (t : Team) (d a : Field) (k : Word) : VReg :=
  let x := t.vread a
  let lanes := t.guarded x.len
  let r : RawForm := { guard := lanesMask lanes, elanes := 1024, old := t.vread d,
                       len := max x.len (t.vread d).len, split := Rounds.floats.draws t }
  r.runsWith (fun i => (sourceCuts [x]).contains i || scanCut t.etype r.g x i) fun i =>
    reduceAdd t.etype t.dnz (fun j => t.rounding k i j) ((lanes.filter fun n => decide (n ≤ i)).map x.lane)

theorem Team.len_scanned : (t.scanned d a k).len = max (t.vread a).len (t.vread d).len := RawForm.len_runsWith _ _ _

theorem Team.lane_scanned {n : Nat} (hn : n < (t.scanned d a k).len) :
    (t.scanned d a k).lane n =
      if n < (t.vread a).len ∧ (decide (n < t.ident.elanes) && t.guard.getLsbD n) = true then t.runningSum a k n
      else (t.vread d).lane n := by
  rw [len_scanned] at hn
  have hsum : ∀ m ∈ t.guarded (t.vread a).len, reduceAdd t.etype t.dnz (fun j => t.rounding k m j)
      (((t.guarded (t.vread a).len).filter fun n => decide (n ≤ m)).map (t.vread a).lane) = t.runningSum a k m :=
    fun m hm => by rw [filter_le_guarded (mem_guarded.1 hm).1, runningSum]
  have hg : ∀ (r : RawForm) (i : Nat), r.guard = lanesMask (t.guarded (t.vread a).len) → r.elanes = 1024 →
      r.g i = decide (i ∈ t.guarded (t.vread a).len) := by
    intro r i hr he
    by_cases hi : i ∈ t.guarded (t.vread a).len <;> simp [RawForm.g, laneOn, hr, he, hi]
    exact lt_1024_of_mem_guarded hi
  rw [scanned, RawForm.lane_runsWith ?_ hn, hg _ n rfl rfl]
  · by_cases hi : n ∈ t.guarded (t.vread a).len
    · rw [if_pos (by simpa using hi), hsum n hi, if_pos (by simpa using mem_guarded.1 hi)]
    · rw [if_neg (by simpa using hi), if_neg (by simpa [mem_guarded] using hi)]
  · intro j h0 hj hc hgj hgj' hd
    have hmem : j ∈ t.guarded (t.vread a).len := of_decide_eq_true ((hg _ j rfl rfl).symm.trans hgj)
    have hmem' : j - 1 ∈ t.guarded (t.vread a).len := of_decide_eq_true ((hg _ _ rfl rfl).symm.trans hgj')
    have hkept := (Bool.or_eq_false_iff.1 hc).2
    simp only [scanCut, hgj, hgj', Bool.true_and, Bool.and_true, Bool.not_eq_false', Bool.and_eq_true, bne_iff_ne,
      beq_iff_eq] at hkept
    obtain ⟨⟨⟨hp, hlane⟩, hlane'⟩, -⟩ := hkept
    rw [hsum j hmem, hsum (j - 1) hmem']
    refine runningSum_pred hd hp h0 (List.forall_mem_cons.2 ⟨⟨?_, hlane'⟩, List.forall_mem_singleton.2 ⟨?_, hlane⟩⟩)
    · simpa using (mem_guarded.1 hmem').2
    · simpa using (mem_guarded.1 hmem).2

/-- VSCAN after the check of its element type. -/
theorem exec_vscan (s : State) : exec (.vscan d a c) s = issue (.vscan d a c) s fun t =>
    t.needEtype etypesNum >>= fun _ =>
      s.vecDraw t (Rounds.floats.draws t) fun k => [(d.toNat, (t.scanned d a k).asked c)] := rfl

theorem vscan_writes (hm : t.etype ∈ etypesNum) (hd : Rounds.floats.draws t = false) :
    WritesV s t (.vscan d a c) d ((t.scanned d a t.key).asked c) :=
  .of_vecWrite (exec_vscan s) ((Team.needEtype_bind hm).trans (by rw [hd]; rfl))

theorem vscan_draws (hm : t.etype ∈ etypesNum) (hd : Rounds.floats.draws t = true) :
    DrawsV s t (.vscan d a c) d fun k => (t.scanned d a k).asked c :=
  .of_vecDraw (exec_vscan s) ((Team.needEtype_bind hm).trans (by rw [hd]))

theorem scansAndDraws : ScansAndDraws := by
  intro s t d a b c
  refine ⟨⟨t.scanned d a, vscan_writes, vscan_draws, fun k => ⟨Team.len_scanned, fun n => Team.lane_scanned⟩⟩, .of_issue (exec_vscan s) rfl, ?rng, fun h => ?seed, fun h => ?get⟩
  case rng => exact .of_vecDraw rfl (by rw [← maxLen_pair]; rfl)
  case seed => exact issueTeam_of_issues h _ (by simp)
  case get => exact issueTeam_of_issues h _ (by simp)

/-- Settles O22: the reductions, the running sums and the generator. -/
theorem reductionsScansDraws : Obligations.ReductionsScansDraws := ⟨reductions, scansAndDraws⟩

end Sys2Proof.Machine
end

section
/-! SUPPORT for O24. Where no bin holds pairs, a store of one line writes its bytes and nothing else of that memory
(R177, R231, R232). -/

namespace Sys2Proof.Machine

variable {s : State} {d x : Nat}

/-! ### Memories without bins -/

/-- No die holds a bin of pairs. -/
def State.NoBins (s : State) : Prop := ∀ d, (s.die d).bins = []

theorem State.noBins_of_dies (h0 : s.die0.bins = []) (h1 : s.die1.bins = []) : s.NoBins := fun d => by
  unfold die
  split
  · exact h1
  · exact h0

/-- A change of one die, at that die and at the other. -/
theorem State.die_modDie_eq (s : State) (d x : Nat) (f : Die → Die) :
    (s.modDie d f).die x = if (x = 1) = (d = 1) then f (s.die x) else s.die x := by
  by_cases hd : d = 1 <;> by_cases hx : x = 1 <;> simp [modDie, setDie, die, hd, hx]

@[simp] theorem Die.bins_writeBack (k : Die) (line : Nat) : (k.writeBack line).bins = k.bins := by
  unfold writeBack
  split <;> rfl

@[simp] theorem Die.bins_touch (k : Die) (line c : Nat) : (k.touch line c).bins = k.bins := by
  unfold touch
  split
  · rfl
  · split
    · rfl
    · exact k.bins_writeBack _
    · rfl

namespace State.NoBins

theorem modDie {f : Die → Die} (h : s.NoBins) (hf : ∀ k : Die, (f k).bins = k.bins) : (s.modDie d f).NoBins := by
  intro x
  rw [State.die_modDie_eq]
  split
  · rw [hf, h]
  · exact h x

theorem applyLine {line : Nat} (h : s.NoBins) : s.applyLine d line = s := by
  simp [State.applyLine, h d]

theorem reachHome {who line : Nat} (h : s.NoBins) : (s.reachHome who d line).NoBins := by
  have hr : (s.recallLine who d line).NoBins := h.modDie fun _ => rfl
  have hn : ((s.recallLine who d line).noteRequest d line who).NoBins := hr.modDie fun _ => rfl
  rw [State.reachHome, hr.applyLine]
  exact hn.modDie fun k => k.bins_touch _ _

theorem tableRead {who a : Nat} (h : s.NoBins) : Ends (fun r => r.1.NoBins) (s.tableRead who d a) := by
  unfold State.tableRead
  exact .ite .error (.ite .error (.ok h.reachHome))

theorem readRegions {who n a : Nat} (h : s.NoBins) : Ends (fun r => r.1.NoBins) (s.readRegions who d n a) := by
  induction n generalizing s a with
  | zero => exact .ok h
  | succ n ih =>
    refine .bind h.tableRead fun _ h0 => .bind h0.tableRead fun _ h1 => ?_
    refine .bind h1.tableRead fun _ h2 => .bind h2.tableRead fun _ h3 => ?_
    exact .bind (ih h3) fun _ hs => .pure hs

theorem regionsOf {c ctx : Nat} (h : s.NoBins) : Ends (fun r => r.1.NoBins) (s.regionsOf c ctx) := by
  unfold State.regionsOf
  split
  · exact .ok h
  · split
    · exact .ok h
    · exact .bind h.readRegions fun _ hs => .pure hs

theorem learnFx {c ctx : Nat} {va : Word} {p : Phys} (h : s.NoBins) : (s.learnFx c ctx va p).NoBins := by
  unfold State.learnFx
  split
  · exact h
  · dsimp only
    split
    · exact h
    next r es he =>
      have hr : r.NoBins := h.regionsOf (r, es) he
      split
      · exact hr.modDie fun _ => rfl
      · split
        · exact hr.modDie fun _ => rfl
        · exact hr.modDie fun _ => rfl

end State.NoBins

/-! ### A store at its home (R177) -/

@[simp] theorem Die.fxLines_writeBack (k : Die) (line : Nat) : (k.writeBack line).fxLines = k.fxLines := by
  unfold writeBack
  split <;> rfl

@[simp] theorem Die.fxLines_touch (k : Die) (line c : Nat) : (k.touch line c).fxLines = k.fxLines := by
  unfold touch
  split
  · rfl
  · split
    · rfl
    · exact k.fxLines_writeBack _
    · rfl

@[simp] theorem Die.mem_markDirty (k : Die) (line : Nat) : (k.markDirty line).mem = k.mem := by
  unfold markDirty
  split <;> rfl

/-- Where its line has no bin and no FXADD region, a write at the home changes its bytes alone. -/
theorem State.mem_lineWrite {a : Nat} {bytes : List Byte} (h : s.NoBins)
    (hf : (s.die d).fxLines.find? (fun q => q.1 == lineOf a) = none) :
    ((s.lineWrite d a bytes).die d).mem = (s.die d).mem.setBytes a bytes := by
  have hfire : ∀ r : State, (r.fireLine .gddr d (lineOf a)).die d = r.die d := fun _ => rfl
  simp [lineWrite, h.applyLine, touchLine, markDirty, hf, hfire]

theorem State.mem_reachHome {who line : Nat} (h : s.NoBins) :
    ((s.reachHome who d line).die d).mem = (s.die d).mem ∧ ((s.reachHome who d line).die d).fxLines = (s.die d).fxLines := by
  have hr : (s.recallLine who d line).NoBins := h.modDie fun _ => rfl
  rw [reachHome, hr.applyLine]
  simp [touchLine, noteRequest, recallLine]

theorem State.mem_homeStore {who a : Nat} {bytes : List Byte} (h : s.NoBins)
    (hf : (s.die d).fxLines.find? (fun q => q.1 == lineOf a) = none) :
    ((s.homeStore who d a bytes).1.die d).mem = (s.die d).mem.setBytes a bytes := by
  obtain ⟨hmem, hfx⟩ := State.mem_reachHome (s := s) (d := d) (who := who) (line := lineOf a) h
  rw [← hmem]
  exact State.mem_lineWrite h.reachHome (by rwa [hfx])

@[simp] theorem State.die_taskGwct (s : State) (task : Phys) (wave : Bool) (ctx g : Nat) :
    (s.taskGwct task wave ctx g).die d = s.die d := by
  cases wave <;> simp only [taskGwct] <;> split <;> rfl

@[simp] theorem State.die_joinGwct (s : State) (uid g : Nat) : (s.joinGwct uid g).die d = s.die d := by
  unfold joinGwct
  split
  · simp
  · split <;> simp

@[simp] theorem State.die_refreshL1 (s : State) (c e a n : Nat) : (s.refreshL1 c e a n).die d = s.die d := rfl

/-- A team's store of bytes of one line leaves them in the memory of its home. -/
theorem State.mem_teamStore {t : Team} {va : Word} {p : Phys} {bytes : List Byte} (h : s.NoBins) (hp : p.space = .gddr)
    (hf : ((s.learnFx t.coreId t.ctx va p).die p.unit).fxLines.find? (fun q => q.1 == lineOf p.addr) = none) :
    ((s.teamStore t va p bytes).die p.unit).mem =
      ((s.learnFx t.coreId t.ctx va p).die p.unit).mem.setBytes p.addr bytes := by
  have hl : (s.learnFx t.coreId t.ctx va p).NoBins := h.learnFx
  unfold teamStore
  simp only [hp, die_joinGwct, die_refreshL1]
  cases (s.learnFx t.coreId t.ctx va p).ownLease? t.coreId p.unit (lineOf p.addr) with
  | none => exact State.mem_homeStore hl hf
  | some w => exact State.mem_lineWrite hl hf

/-- Eight bytes that a team stores stand at their place afterwards. -/
theorem State.peek_teamStore {t : Team} {va k : Word} {p : Phys} (h : s.NoBins) (hw : s.Canon) (hp : p.space = .gddr)
    (hf : ((s.learnFx t.coreId t.ctx va p).die p.unit).fxLines.find? (fun q => q.1 == lineOf p.addr) = none) :
    (s.teamStore t va p (leBytes 8 k.toNat)).peek p 8 = k.toNat := by
  have hwf := (hw.learnFx (c := t.coreId) (ctx := t.ctx) (va := va) (p := p)).die p.unit |>.mem
  have hspace : ∀ r : State, r.space p.space p.unit = (r.die p.unit).mem := fun r => by rw [hp]; rfl
  have hread := Memory.read_write_self p.addr 8 k.toNat hwf
  rw [peek, hspace, mem_teamStore h hp hf]
  rw [Memory.write] at hread
  rw [hread]
  exact Nat.mod_eq_of_lt k.isLt

end Sys2Proof.Machine
end

section
/-! SUPPORT for O24. What a drawing instruction takes for each source of its key, what it leaves, and the obligation
(R158 to R161, R364, R382, R424). -/

namespace Sys2Proof.Machine

variable {s s1 s2 : State} {t : Team} {m : Mapped} {z : Word} {rest : List Word}

theorem State.rsrcFor_eq (s : State) (t : Team) : s.rsrcFor t =
    if t.rsrc = 2 ∧ (∃ c, s.ctx? t.ctx = some c ∧ c.replay.isSome = true) then 3 else t.rsrc := by
  unfold rsrcFor replaying
  cases s.ctx? t.ctx with
  | none => simp
  | some c => simp [and_comm]

/-! ### The source of the key (R161, R382) -/

theorem beginDraw_key (h : s.rsrcFor t = 0) : s.beginDraw t = .ok (s, { key := t.key, rsrc := 0, slot := none }) := by
  simp [State.beginDraw, h]

theorem beginDraw_failed (h : s.rsrcFor t = 1 ∨ s.rsrcFor t = 2) (hf : (s.core t.coreId).noiseFailed = true) :
    s.beginDraw t = .error (.check 9 0 0) := by
  rcases h with h | h <;> simp [State.beginDraw, h, hf]

theorem beginDraw_held (h : s.rsrcFor t = 1 ∨ s.rsrcFor t = 2) (hf : (s.core t.coreId).noiseFailed = false)
    (hn : (s.core t.coreId).noise = []) : s.beginDraw t = .error .hold := by
  rcases h with h | h <;> simp [State.beginDraw, h, hf, hn]

theorem beginDraw_noise (h : s.rsrcFor t = 1) (hf : (s.core t.coreId).noiseFailed = false)
    (hn : (s.core t.coreId).noise = z :: rest) : s.beginDraw t =
      .ok (s.modCore t.coreId (fun k => { k with noise := rest }), { key := z, rsrc := 1, slot := none }) := by
  simp [State.beginDraw, h, hf, hn]
  rfl

/-! ### The noise log (R364) -/

/-- The trap of a noise log without room for a word. -/
def trapNoiseLog (t : Team) : Trap := { code := 21, taddr := t.nlog, tinfo := t.nlend }

section
variable (h : s.rsrcFor t = 3)
include h

theorem beginDraw_logged_unmapped {e : Stop} (hm : s.translateResident t.walker t.nlog .read [0, 1, 3] = .error e) :
    s.beginDraw t = .error e := by
  simp [State.beginDraw, h, scalarSpaces, hm, bind, Except.bind]

variable (hm : s.translateResident t.walker t.nlog .read [0, 1, 3] = .ok (s1, m)) (hp : s1.pairsTo t m.phys = false)
  (hb : s1.loadBlocked t m.phys m.nc = false)
include hm hp hb

theorem beginDraw_logged_full (hf : t.nlend.toNat < t.nlog.toNat + 8) : s.beginDraw t = raise (trapNoiseLog t) := by
  simp [State.beginDraw, h, scalarSpaces, hm, State.ownPairs_ok hp, hb, hf, bind, Except.bind, raise, trapNoiseLog]

theorem beginDraw_logged {v : Nat} (hf : ¬t.nlend.toNat < t.nlog.toNat + 8) (hl : s1.teamLoad t m 8 = .ok (s2, v)) :
    s.beginDraw t = .ok (s2, { key := BitVec.ofNat 64 v, rsrc := 3, slot := none }) := by
  simp [State.beginDraw, h, scalarSpaces, hm, State.ownPairs_ok hp, hb, hf, hl, bind, Except.bind, pure, Except.pure]

end

section
variable (h : s.rsrcFor t = 2) (hs : (s.core t.coreId).noiseFailed = false) (hn : (s.core t.coreId).noise = z :: rest)
include h hs hn

theorem beginDraw_logging_unmapped {e : Stop} (hm : s.translateResident t.walker t.nlog .write [0, 1, 3] = .error e) :
    s.beginDraw t = .error e := by
  simp [State.beginDraw, h, hs, hn, scalarSpaces, hm, bind, Except.bind]

variable (hm : s.translateResident t.walker t.nlog .write [0, 1, 3] = .ok (s1, m)) (hp : s1.pairsTo t m.phys = false)
  (hb : s1.blocked t m.phys = false) (hr : s1.needRegions t.coreId t.ctx m.phys = .ok ())
include hm hp hb hr

theorem beginDraw_logging_full (hf : t.nlend.toNat < t.nlog.toNat + 8) : s.beginDraw t = raise (trapNoiseLog t) := by
  simp [State.beginDraw, h, hs, hn, scalarSpaces, hm, State.ownPairs_ok hp, hb, hr, hf, bind, Except.bind, raise,
    trapNoiseLog]

theorem beginDraw_logging (hf : ¬t.nlend.toNat < t.nlog.toNat + 8) :
    s.beginDraw t = .ok (s1.modCore t.coreId (fun k => { k with noise := rest }),
      { key := z, rsrc := 2, slot := some m.phys }) := by
  simp [State.beginDraw, h, hs, hn, scalarSpaces, hm, State.ownPairs_ok hp, hb, hr, hf, bind, Except.bind, pure,
    Except.pure]

end

theorem noiseLog : NoiseLog := by
  refine ⟨State.rsrcFor_eq, fun s t z rest => ⟨fun h => ?logged, fun h hs hn => ?logging⟩⟩
  case logged =>
    exact ⟨fun r => beginDraw_logged_unmapped h, fun s1 m hm hp hb =>
      ⟨beginDraw_logged_full h hm hp hb, fun s2 v => beginDraw_logged h hm hp hb⟩⟩
  case logging =>
    exact ⟨fun r => beginDraw_logging_unmapped h hs hn, fun s1 m hm hp hb hr =>
      ⟨beginDraw_logging_full h hs hn hm hp hb hr, beginDraw_logging h hs hn hm hp hb hr⟩⟩

/-! ### What a draw leaves (R160, R364) -/

theorem drawsEnd : DrawsEnd := by
  intro s t k
  refine ⟨fun r hr => ?unlogged, rfl, fun p => ⟨rfl, fun hp _ hw h0 h1 hf => ?logged⟩⟩
  case unlogged =>
    rw [State.endDraw]
    simp only [if_neg (not_le.2 hr)]
  case logged =>
    have hput : (s.putTeam ({ t with ctr := t.ctr + 1#64, nlog := t.nlog + 8#64 } : Team).advance).NoBins :=
      State.noBins_of_dies h0 h1
    exact State.peek_teamStore hput (State.Canon.putTeam hw) hp hf

/-- Settles O24: what each source of the key gives or asks, the noise log, and what a draw leaves. -/
theorem drawSources : Obligations.DrawSources := by
  unfold Obligations.DrawSources
  refine ⟨fun s t => ⟨beginDraw_key, fun h => ⟨beginDraw_failed h, beginDraw_held h⟩, fun h hf z rest => ?_⟩, noiseLog,
    drawsEnd⟩
  exact beginDraw_noise h hf

end Sys2Proof.Machine
end

section
/-! SUPPORT for O60. A halt goes by a context's number, and asks only the first context of that number whether it is
halted already (R358). The statement ranges over every state, those with two contexts of one number included, which
an install never makes (R340). -/

namespace Sys2Proof.Machine

variable {s : State}

/-- A context that is halted already stays as it is, and so does everything else. -/
theorem haltCtx_of_halted {id : Nat} {r : Report} (h : (s.ctx? id).any Ctx.halted = true) : s.haltCtx id r = s :=
  if_pos h

/-- The check of a core whose teams' contexts are all halted already changes nothing. -/
theorem checkCore_of_halted {core struct code : Nat}
    (h : ∀ t ∈ s.teams, t.coreId = core → (s.ctx? t.ctx).any Ctx.halted = true) : s.checkCore core struct code = s := by
  refine List.foldlRecOn (motive := fun r => r = s) _ _ rfl fun r hr id hid => ?_
  obtain ⟨t, ht, hteam⟩ := List.any_eq_true.1 (List.mem_filter.1 hid).2
  simp only [Bool.and_eq_true, beq_iff_eq] at hteam
  obtain ⟨⟨rfl, hcore⟩, -⟩ := hteam
  rw [hr]
  exact haltCtx_of_halted (h t ht hcore)

/-- A trip then leaves every context as it was. -/
theorem ctxs_of_thermalTrip {r : State} (hr : exec .thermalTrip s = .next r)
    (h : ∀ t ∈ s.teams, t.coreId = s.arg.core → (s.ctx? t.ctx).any Ctx.halted = true) : r.ctxs = s.ctxs := by
  have htrip : s.thermalTrip s.arg.core = some r := (event_next (name := "THERMAL_TRIP")).1 hr
  simp only [State.thermalTrip, checkCore_of_halted h, Option.ite_none_left_eq_some, Option.some.injEq] at htrip
  rw [← htrip.2]
  rfl

/-- A launched team of context 1 on core 0, which is at 115 °C, with two contexts of that number: a halted one, then
one that runs. -/
def namesakes : State :=
  { State.reset.launch.modCore 0 fun k => { k with temp := 115 } with
    ctxs := [{ launchCtx with halted := true }, launchCtx]
    arg := EventArg.none }

/-- The one team of `namesakes` stands on core 0, in context 1. -/
theorem namesakes_teams :
    namesakes.teams.map (fun t => (t.ctx, t.coreId, t.onCore)) = [(1, 0, true)] := by
  decide +kernel

/-- Core 0 of `namesakes` has not tripped and is at T3 + 10. -/
theorem namesakes_hot : (namesakes.core 0).tripped = false ∧
    (wordBits (namesakes.die 0).regs.derate 16 8 : Int) + 10 ≤ (namesakes.core 0).temp := by
  decide +kernel

/-- The number of the team's context finds the halted one of the two. -/
theorem namesakes_halted : ∀ t ∈ namesakes.teams, t.coreId = namesakes.arg.core → (namesakes.ctx? t.ctx).any Ctx.halted = true := by
  decide +kernel

/-- Refutes O60: in `namesakes` the trip of core 0 finds its team's context halted already, by the first of the two
contexts of number 1, so the second one runs on, while the clause on THERMAL_TRIP says that every context of the
team's number is halted afterwards. The clause lacks the premise that contexts have different numbers; those on
MESH_LINK_FAIL, TIME_CHECK, PAIR_LINK_RESTORE_TIMEOUT and RESERVATION_TIMEOUT speak in the same way. -/
theorem not_systemStepsComplete : ¬ Obligations.SystemStepsComplete := by
  unfold Obligations.SystemStepsComplete
  rintro ⟨hpower, -⟩
  obtain ⟨-, hcore, -⟩ := hpower namesakes
  obtain ⟨-, -, -, htrip⟩ := hcore (by decide +kernel)
  obtain ⟨r, hr, -, -, hhalted⟩ := htrip namesakes_hot.1 namesakes_hot.2
  have hctxs : r.ctxs = namesakes.ctxs := ctxs_of_thermalTrip hr namesakes_halted
  obtain ⟨t, ht, hteam⟩ := List.mem_map.1 (namesakes_teams ▸ List.mem_singleton_self (1, 0, true))
  obtain ⟨hctx, hat, hon⟩ : t.ctx = 1 ∧ t.coreId = 0 ∧ t.onCore = true := by simpa using hteam
  have hmem : launchCtx ∈ r.ctxs := hctxs ▸ List.mem_cons_of_mem _ (List.mem_singleton_self launchCtx)
  exact absurd (hhalted t ht hat hon launchCtx hmem hctx.symm) (by decide)

end Sys2Proof.Machine
end

section
/-! SUPPORT for O34. What the operations on task records and on completion counters do once their fences hold, and the
obligation (R183, R213, R215). -/

namespace Sys2Proof.Machine

variable {s s1 : State} {t : Team} {m : Mapped}

/-! ### Fences (R183) -/

theorem State.needFence_ok {k : Nat} (h : s.fenceHolds t k = true) : s.needFence t k = .ok () := if_pos h

theorem State.needFence_hold {k : Nat} (h : s.fenceHolds t k = false) : s.needFence t k = .error .hold := by
  simp [needFence, h]

/-! ### Task records (R213) -/

/-- What the three operations share: the checks of the record's address, the fence, and the operation sent. -/
theorem taskForm_says {i : Instr} {kind : DepKind} {a : Field} (hi : exec i s = taskForm i kind a s) :
    let va := s.sread t a
    (va.toNat % 64 ≠ 0 → Traps s t i { code := 5, taddr := va }) ∧
    (∀ r, va.toNat % 64 = 0 → s.translateResident t.walker va .both [0, 1] = .error (.trap r) → Traps s t i r) ∧
    ∀ s1 m, va.toNat % 64 = 0 → s.translateResident t.walker va .both [0, 1] = .ok (s1, m) →
      (s1.fenceHolds t 3 = false → Held s t i) ∧
      (s1.fenceHolds t 3 = true →
        let op : DepOp := { kind := kind, loc := m.phys, va := va, ctx := t.ctx, core := t.coreId,
                            checked := true, host := false }
        Does s t i (({ s1 with depQ := s1.depQ ++ [op] } : State).putTeam t.advance)) := by
  refine ⟨fun h => .of_issue hi ?misaligned, fun r h hm => .of_issue hi ?unmapped,
    fun s1 m h hm => ⟨fun hf => .of_issue hi ?held, fun hf => .of_issue hi ?sent⟩⟩
  case misaligned => simp only [needAligned_raise h, bind, Except.bind, raise]
  case unmapped => simp only [needAligned_ok h, hm, bind, Except.bind, raise]
  case held => simp only [needAligned_ok h, hm, State.needFence_hold hf, bind, Except.bind]
  case sent =>
    simp only [needAligned_ok h, hm, State.needFence_ok hf, bind, Except.bind]
    rfl

theorem taskOperations : TaskOperations := by
  intro s t a
  simp only [List.forall_mem_cons]
  exact ⟨taskForm_says rfl, taskForm_says rfl, taskForm_says rfl, List.forall_mem_nil _⟩

/-! ### Completion counters (R215) -/

@[simp] theorem State.core_fireWaits (p : Team → WaitKind → Bool) (c : Nat) : (s.fireWaits p).core c = s.core c := rfl

@[simp] theorem State.die_fireWaits (p : Team → WaitKind → Bool) (d : Nat) : (s.fireWaits p).die d = s.die d := rfl

@[simp] theorem State.counter_setCounter (c k : Nat) (v : W32) : (s.setCounter c k v).counter c k = v := by
  simp [setCounter, fireCounter, counter]

/-- A change of teams that keeps their numbers, seen at one number. -/
theorem State.team_of_mapWhere {r : State} {q : Team → Bool} {f : Team → Team} {n : Nat}
    (hr : r.teams = mapWhere q f s.teams) (hf : ∀ u, (f u).uid = u.uid) (h : s.team? n = some t) :
    r.team? n = some (if q t then f t else t) := by
  have huid : ((fun u : Team => u.uid == n) ∘ fun u => if q u then f u else u) = fun u => u.uid == n := by
    funext u
    by_cases hq : q u <;> simp [hq, hf]
  unfold State.team? at h ⊢
  rw [hr, mapWhere_eq_map, List.find?_map, huid, h]
  rfl

/-- A team with its wait and what ends its donation as a test of the waits leaves them (R44, R55). -/
def Team.tested (t : Team) (w : Option Wait) (ended : Bool) : Team := { t with wait := w, donationOver := ended }

theorem State.team_fireWaits {p : Team → WaitKind → Bool} {n : Nat} (h : s.team? n = some t) :
    ∃ w o, (s.fireWaits p).team? n = some (t.tested w o) := by
  have hteam := State.team_of_mapWhere (r := s.fireWaits p) rfl (fun _ => rfl) h
  split at hteam
  · exact ⟨_, _, hteam⟩
  · exact ⟨t.wait, t.donationOver, hteam⟩

/-- An instruction completes with the team that its body leaves, its reads of TIME counted. -/
theorem Completes.of_team {i : Instr} {r : State} {u : Team} {P : State → Team → Prop} (h : Issues s t i)
    (he : exec i s = .next (r.countReads t.uid i.timeReads)) (hu : r.team? t.uid = some u)
    (hP : P (r.countReads t.uid i.timeReads) { u with timeReads := u.timeReads + i.timeReads }) :
    Completes s i P := by
  have huid : u.uid = t.uid := team_uid hu
  refine ⟨_, _, he, ?_, hP⟩
  rw [← h.uid, ← huid]
  exact State.team_countReads i.timeReads (huid ▸ hu)

/-- An instruction that writes a counter once its fence holds completes with the counter's new value. -/
theorem setCounter_completes {i : Instr} {k : Nat} {v : W32} (h : Issues s t i)
    (he : exec i s = .next (((s.setCounter t.coreId k v).modTeam t.uid Team.advance).countReads t.uid i.timeReads)) :
    Completes s i fun r u => r.counter t.coreId k = v ∧ u.pc = t.advance.pc ∧ r.die0 = s.die0 := by
  have hcur : s.team? t.uid = some t := h.uid ▸ h.cur
  obtain ⟨w, o, hset⟩ : ∃ w o, (s.setCounter t.coreId k v).team? t.uid = some (t.tested w o) :=
    State.team_fireWaits (s := s.modCore _ _) hcur
  refine .of_team h he (team_modTeam _ advance_uid hset)
    ⟨?_, Team.advance_pc_congr (u := t.tested w o) rfl rfl rfl rfl, ?_⟩
  · rw [State.counter, State.core_countReads, core_modTeam]
    exact State.counter_setCounter t.coreId k v
  · rw [countReads_die0]
    rfl

theorem completionCounters : CompletionCounters := by
  intro s t d a b k v
  refine ⟨fun hf => ⟨.of_issue rfl ?_, .of_issue rfl ?_⟩, fun hf => ⟨fun h => ?set, fun h => ?add⟩, fun h => ?get⟩
  · simp only [State.needFence_hold hf, bind, Except.bind]
  · simp only [State.needFence_hold hf, bind, Except.bind]
  case set =>
    refine setCounter_completes h (issue_ok h ?_)
    simp only [State.needFence_ok hf, bind, Except.bind]
    rfl
  case add =>
    refine setCounter_completes h (issue_ok h ?_)
    simp only [State.needFence_ok hf, bind, Except.bind]
    rfl
  case get =>
    refine (issueTeam_of_issues h _ (by simp)).trans ?_
    rw [State.after, advance_uid, setD_uid]
    rfl

/-- Settles O34: the operations on task records, and the completion counters. -/
theorem countersComplete : Obligations.CountersComplete := ⟨taskOperations, completionCounters⟩

end Sys2Proof.Machine
end

section
/-! SUPPORT for O29. What a vector load writes once its elements are mapped, ready and read, and the obligation (R63,
R171, R200, R201). -/

namespace Sys2Proof.Machine

variable {s s1 s2 : State} {t : Team} {i : Instr} {d a b : Field} {c : BitVec 1} {es : List Element}
  {ws : List (Nat × W32)} {v : VReg} {addr : Nat → Word}

theorem needStride_ok {w : Word} (h : w.toNat % 4 = 0) : needStride w = .ok () := if_pos h

theorem needStride_raise {w : Word} (h : w.toNat % 4 ≠ 0) : needStride w = raise { code := 5, taddr := w } := if_neg h

/-- What a load of `v` into vD says: the register and mB are written where the run slots suffice, else the trap. -/
def LoadsV (s : State) (t : Team) (i : Instr) (d b : Field) (s2 : State) (v : VReg) (es : List Element) : Prop :=
  let occ := s2.occupancyAfter t [(d.toNat, v)]
  (occ ≤ 256 * t.budget →
    Does s t i (s2.putTeam (({ t with vregs := t.vregs.set d.toNat v }).clearAbsent b es).advance)) ∧
  (256 * t.budget < occ → Traps s t i { code := 3, tinfo := BitVec.ofNat 64 (2 ^ 32 * occ + 256 * t.budget) })

/-- A body that ends with the write of one register and of its residency in mB loads the register. -/
theorem LoadsV.of_body {body : Team → Effect} (hi : exec i s = issue i s body)
    (hb : body t = (s2.writeVs t [(d.toNat, v)]).map fun u => s2.putTeam (u.clearAbsent b es).advance) :
    LoadsV s t i d b s2 v es := by
  refine ⟨fun hle => .of_issue hi ?_, fun hlt => .of_issue hi ?_⟩
  · rw [hb, State.writeVs_one_ok hle]
    rfl
  · rw [hb, State.writeVs_one_overflow hlt]
    rfl

/-- VLD and VLDS once their elements are mapped, ready and read. -/
theorem State.vectorLoad_eq (hmap : s.mapLanes t .read addr (t.guarded t.ident.elanes) = .ok (s1, es))
    (hready : s1.needElements t (es.filter fun e => e.at_.resident) = .ok ())
    (hload : s1.loadElements t (es.filter fun e => e.at_.resident) = .ok (s2, ws)) :
    s.vectorLoad t d b c addr =
      (s2.writeVs t [(d.toNat, (t.loadedRuns d t.guard [] fun n => lookup 0#32 n ws).asked c)]).map
        fun u => s2.putTeam (u.clearAbsent b es).advance := by
  simp only [vectorLoad, hmap, hready, hload, bind, Except.bind]
  cases s2.writeVs t _ <;> rfl

/-- VLDB once its one element, if it has a guarded lane, is mapped, ready and read. -/
theorem vldb_loads (hmap : s.mapLanes t .read (fun _ => s.sread t a) ((t.guarded t.ident.elanes).take 1) =
      .ok (s1, es))
    (hready : s1.needElements t (es.filter fun e => e.at_.resident) = .ok ())
    (hload : s1.loadElements t (es.filter fun e => e.at_.resident) = .ok (s2, ws)) :
    LoadsV s t (.vldb d a b c) d b s2
      ((t.loadedRuns d t.guard [] fun _ => (ws.map Prod.snd).headD 0#32).asked c)
      (es.flatMap fun e => (t.guarded t.ident.elanes).map fun n => { e with lane := n }) := by
  refine .of_body rfl ?_
  simp only [hmap, hready, hload, bind, Except.bind]
  cases s2.writeVs t _ <;> rfl

/-- Settles O29: each form maps, reads and writes as `LoadsV` says, and a stride that is no multiple of 4 traps. -/
theorem vectorLoads : Obligations.VectorLoads := by
  unfold Obligations.VectorLoads
  intro s t d a b c writes asked loads
  have hloads {i : Instr} {addr : Nat → Word} {body : Team → Effect} (hi : exec i s = issue i s body)
      (hb : body t = s.vectorLoad t d b c addr) : loads i addr :=
    fun s1 es s2 ws hmap hready hload => LoadsV.of_body hi (hb.trans (State.vectorLoad_eq hmap hready hload))
  refine ⟨hloads rfl rfl, ⟨fun hs => hloads rfl ?aligned, fun hs => .of_issue rfl ?misaligned⟩,
    fun s1 es s2 ws => vldb_loads⟩
  case aligned => simp only [needStride_ok hs, bind, Except.bind]
  case misaligned => simp only [needStride_raise hs, bind, Except.bind, raise]

end Sys2Proof.Machine
end

section
/-! SUPPORT for O30. What a vector store writes once its elements are mapped and ready, what a page request leaves in
its ring, and the obligation (R171, R201, R203). -/

namespace Sys2Proof.Machine

variable {s s1 : State} {t : Team} {d a b : Field} {es : List Element} {addr : Nat → Word} {c : Ctx}

/-- VST and VSTS once their elements are mapped, ready and their regions known. -/
theorem State.vectorStore_eq (hmap : s.mapLanes t .write addr (t.guarded (t.vread d).len) = .ok (s1, es))
    (hready : s1.needElements t (es.filter fun e => e.at_.resident) = .ok ())
    (hreg : ∀ e ∈ es.filter fun e => e.at_.resident, s1.needRegions t.coreId t.ctx e.at_.phys = .ok ()) :
    s.vectorStore t d b addr =
      .ok ((s1.storeElements t (t.vread d) (es.filter fun e => e.at_.resident)).modTeam t.uid
        fun u => (u.clearAbsent b es).advance) := by
  simp only [vectorStore, hmap, hready, checkAll_ok hreg, bind, Except.bind]
  rfl

/-! ### Page requests (R203) -/

theorem Memory.read_writeWords_before {m : Memory} {a x n : Nat} {l : List Nat} (h : x + n ≤ a) :
    (m.writeWords a l).read x n = m.read x n := by
  induction l generalizing m a with
  | nil => rfl
  | cons v rest ih => rw [writeWords, ih (by omega), read_write_other _ _ _ (.inl h)]

/-- The first of consecutive words reads back. -/
theorem Memory.read_writeWords_first {m : Memory} {a v : Nat} {l : List Nat} (hm : m.wf = true) :
    (m.writeWords a (v :: l)).read a 8 = v % 256 ^ 8 := by
  rw [writeWords, read_writeWords_before (Nat.le_refl _), read_write_self _ _ _ hm]

/-- The host's memory once a page request stands in a ring and the ring's tail counts it. -/
def Ctx.requested (c : Ctx) (m : Memory) (words : List Nat) : Memory :=
  let base := c.prbase.toNat
  let tail := m.read (base + 4) 4
  (m.writeWords (base + 64 + 32 * (tail % 2 ^ c.prlog2n)) words).write (base + 4) 4 (tail + 1)

theorem Ctx.read_tail_requested {m : Memory} {words : List Nat} (hm : m.wf = true) :
    (c.requested m words).read (c.prbase.toNat + 4) 4 = (m.read (c.prbase.toNat + 4) 4 + 1) % 2 ^ 32 :=
  Memory.read_write_self _ _ _ (Memory.wf_writeWords _ _ hm)

theorem Ctx.read_page_requested {m : Memory} {v : Nat} {words : List Nat} (hm : m.wf = true) (hv : v < 2 ^ 64) :
    (c.requested m (v :: words)).read
      (c.prbase.toNat + 64 + 32 * (m.read (c.prbase.toNat + 4) 4 % 2 ^ c.prlog2n)) 8 = v := by
  rw [requested, Memory.read_write_other _ _ _ (.inr (by omega)), Memory.read_writeWords_first hm]
  exact Nat.mod_eq_of_lt hv

/-- The words of the request that PREQ makes. -/
def State.pageRequested (s : State) (t : Team) (d a b : Field) : List Nat :=
  pageRequest t (s.sread t a).toNat (s.sread t b).toNat (s.sread t d).toNat (s.time t.ident.die)

/-- The state with PREQ's request in the ring of its context, and vector 1 raised. -/
def State.withRequest (s : State) (t : Team) (c : Ctx) (d a b : Field) : State :=
  ({ s with host := { s.host with mem := c.requested s.host.mem (s.pageRequested t d a b) } } : State).raiseMsix 1

theorem State.mem_withRequest :
    (s.withRequest t c d a b).host.mem = c.requested s.host.mem (s.pageRequested t d a b) := by
  simp only [withRequest, raiseMsix]

theorem exec_preq (hc : s.ctx? t.ctx = some c) (h : Issues s t (.preq d a b)) (hn : (s.sread t b).toNat ≠ 0)
    (hfull : ¬(s.host.mem.read (c.prbase.toNat + 4) 4 + 2 ^ 32 - s.host.mem.read c.prbase.toNat 4) % 2 ^ 32 =
      2 ^ c.prlog2n) :
    exec (.preq d a b) s = .next (((s.withRequest t c d a b).putTeam t.advance).countReads t.uid
      (Instr.preq d a b).timeReads) := by
  refine issue_ok h ?_
  simp only [hc, hn, hfull, if_false]
  rfl

/-- Settles O30: the vector stores, and PREQ with a count of 0, at a full ring and at one with room. -/
theorem vectorStoresAndPageRequests : Obligations.VectorStoresAndPageRequests := by
  unfold Obligations.VectorStoresAndPageRequests
  intro s t d a b stores
  have hstores {i : Instr} {addr : Nat → Word} {body : Team → Effect} (hi : exec i s = issue i s body)
      (hb : body t = s.vectorStore t d b addr) : stores i addr :=
    fun s1 es hmap hready hreg => Does.of_issue hi (hb.trans (State.vectorStore_eq hmap hready hreg))
  refine ⟨hstores rfl rfl, ⟨fun hs => hstores rfl ?aligned, fun hs => .of_issue rfl ?misaligned⟩, ?preq⟩
  case aligned => simp only [needStride_ok hs, bind, Except.bind]
  case misaligned => simp only [needStride_raise hs, bind, Except.bind, raise]
  intro c hc base size head tail n full
  refine ⟨fun hn => .of_issue rfl ?none, fun hn hfull => .of_issue rfl ?full,
      fun hn hroom hm h => ?room⟩
  case none => simp only [hc]; exact if_pos hn
  case full => simp only [hc]; exact (if_neg hn).trans (if_pos hfull)
  case room =>
    have hpage : (s.sread t a).toNat / 65536 * 65536 < 2 ^ 64 := by
      have := (s.sread t a).isLt
      omega
    refine Completes.of_putTeam (r := s.withRequest t c d a b) h rfl (advance_uid t) (exec_preq hc h hn hroom)
      ⟨?_, rfl, ?_, ?_⟩
    · rw [countReads_host]
      rfl
    · rw [countReads_host, putTeam_host, State.mem_withRequest]
      exact Ctx.read_tail_requested hm
    · rw [countReads_host, putTeam_host, State.mem_withRequest]
      exact Ctx.read_page_requested hm hpage

end Sys2Proof.Machine
end

section
/-! SUPPORT for O27. What a scalar store does in each of its cases (R177, R184, R193, R195, R326). -/

namespace Sys2Proof.Machine

variable {s s1 : State} {t : Team} {va v : Word} {n : Nat} {m : Mapped} {ready : Except Stop Unit}

theorem State.scalarStore_misaligned (h : va.toNat % n ≠ 0) :
    s.scalarStore t va n v ready = raise { code := 5, taddr := va } := by
  simp only [scalarStore, needAligned_raise h, bind, Except.bind, raise]

theorem State.scalarStore_unmapped {e : Stop} (h : va.toNat % n = 0)
    (hm : s.translateResident t.walker va .write [0, 1, 3] = .error e) :
    s.scalarStore t va n v ready = .error e := by
  simp only [scalarStore, needAligned_ok h, scalarSpaces, hm, bind, Except.bind]

/-- A store that is not ready stops where its address translates. -/
theorem State.scalarStore_waits {e : Stop} (h : Reaches s t va n .write [0, 1, 3] s1 m) :
    s.scalarStore t va n v (.error e) = .error e := by
  simp only [scalarStore, needAligned_ok h.aligned, scalarSpaces, h.mapped, bind, Except.bind]

theorem State.needStoreCredit_ok {p : Phys} (h : s.hasCredit t.coreId p = true) : s.needStoreCredit t p = .ok () :=
  if_pos h

theorem State.needStoreCredit_hold {p : Phys} (h : s.hasCredit t.coreId p = false) :
    s.needStoreCredit t p = .error .hold := by
  simp [needStoreCredit, h]

/-- A store that waits for its home stops or goes there, as its reservations are taken or free. -/
theorem State.scalarStore_queued (h : ReachesStore s t va n .write [0, 1, 3] s1 m)
    (hq : s1.mustQueue t m.phys = true) :
    s.scalarStore t va n v (.ok ()) = (s1.needStoreCredit t m.phys).map fun _ =>
      ((s1.learnFx t.coreId t.ctx va m.phys).queueReq t m (.store (leBytes n v.toNat))).modTeam t.uid fun u =>
        Team.advance { u with outstanding := u.outstanding + 1 } := by
  simp only [scalarStore, needAligned_ok h.aligned, scalarSpaces, h.mapped, ownPairs_ok h.settled, h.regions, hq,
    bind, Except.bind]
  cases s1.needStoreCredit t m.phys <;> rfl

theorem scalarStores : ScalarStores := by
  intro s t d a b z n store
  have refuses {i : Instr} {va v : Word} {ready : Except Stop Unit} {body : Team → Effect}
      (hi : exec i s = issue i s body) (hb : body t = s.scalarStore t va n v ready) :
      RefusesAccess s t i va n .write [0, 1, 3] :=
    ⟨fun h => .of_issue hi (hb.trans (State.scalarStore_misaligned h)),
      fun r h hm => .of_issue hi (hb.trans (State.scalarStore_unmapped h hm))⟩
  have stores {i : Instr} {va : Word} {body : Team → Effect}
      (hi : exec i s = issue i s body) (hb : body t = s.scalarStore t va n (s.sread t d) (.ok ())) : store i va := by
    refine fun s1 m h => ⟨fun hq => ?served, fun hq => ⟨fun hc => ?sent, fun hc => ?held⟩⟩
    case served => exact .of_issue hi (hb.trans (State.scalarStore_served h hq))
    case sent =>
      refine .of_issue hi (hb.trans ?_)
      rw [State.scalarStore_queued h hq, State.needStoreCredit_ok hc]
      rfl
    case held =>
      refine .of_issue hi (hb.trans ?_)
      rw [State.scalarStore_queued h hq, State.needStoreCredit_hold hc]
      rfl
  refine ⟨⟨refuses rfl rfl, stores rfl rfl⟩, refuses rfl rfl, fun hf => stores rfl ?fence, fun hf s1 m h => ?waits⟩
  case fence =>
    simp only [State.needFence_ok hf]
    rfl
  case waits =>
    refine .of_issue rfl ?_
    simp only [State.needFence_hold hf]
    exact State.scalarStore_waits h

end Sys2Proof.Machine
end

section
/-! SUPPORT for O27. Where no die holds a bin, a translation changes no byte of memory (R168 to R171, R231). -/

namespace Sys2Proof.Machine

variable {s r : State}

/-- No die of `r` holds a bin, and the memories of `r` are those of `s`. -/
structure State.SameMemory (s r : State) : Prop where
  noBins : r.NoBins
  mem : ∀ d, (r.die d).mem = (s.die d).mem
  dsm : ∀ d, (r.die d).dsm = (s.die d).dsm
  host : r.host.mem = s.host.mem
  fabric : r.fabric = s.fabric

@[simp] theorem Die.dsm_writeBack (k : Die) (line : Nat) : (k.writeBack line).dsm = k.dsm := by
  unfold writeBack
  split <;> rfl

@[simp] theorem Die.dsm_touch (k : Die) (line c : Nat) : (k.touch line c).dsm = k.dsm := by
  unfold touch
  split
  · rfl
  · split
    · rfl
    · exact k.dsm_writeBack _
    · rfl

namespace State.SameMemory

theorem refl (h : s.NoBins) : s.SameMemory s := ⟨h, fun _ => rfl, fun _ => rfl, rfl, rfl⟩

theorem peek (h : s.SameMemory r) (p : Phys) (n : Nat) : r.peek p n = s.peek p n := by
  have hspace : r.space p.space p.unit = s.space p.space p.unit := by
    cases p.space with
    | gddr => exact h.mem _
    | dsm => exact h.dsm _
    | host => exact h.host
    | fabric => simp only [State.space, h.fabric]
  rw [State.peek, State.peek, hspace]

theorem modDie {d : Nat} {f : Die → Die} (h : s.SameMemory r) (hb : ∀ k : Die, (f k).bins = k.bins)
    (hm : ∀ k : Die, (f k).mem = k.mem) (hd : ∀ k : Die, (f k).dsm = k.dsm) : s.SameMemory (r.modDie d f) where
  noBins := h.noBins.modDie hb
  mem x := by
    rw [State.die_modDie_eq]
    split
    · rw [hm, h.mem]
    · exact h.mem x
  dsm x := by
    rw [State.die_modDie_eq]
    split
    · rw [hd, h.dsm]
    · exact h.dsm x
  host := by rw [modDie_host, h.host]
  fabric := by rw [modDie_fabric, h.fabric]

theorem modCore {c : Nat} {f : Core → Core} (h : s.SameMemory r) : s.SameMemory (r.modCore c f) :=
  ⟨h.noBins, h.mem, h.dsm, h.host, h.fabric⟩

theorem reachHome {who d line : Nat} (h : s.SameMemory r) : s.SameMemory (r.reachHome who d line) := by
  have hrecall : s.SameMemory (r.recallLine who d line) := h.modDie (fun _ => rfl) (fun _ => rfl) fun _ => rfl
  have hnote : s.SameMemory ((r.recallLine who d line).noteRequest d line who) :=
    hrecall.modDie (fun _ => rfl) (fun _ => rfl) fun _ => rfl
  rw [State.reachHome, hrecall.noBins.applyLine]
  exact hnote.modDie (fun k => k.bins_touch _ _) (fun k => k.mem_touch _ _) fun k => k.dsm_touch _ _

theorem tableRead {who d a : Nat} (h : s.SameMemory r) :
    Ends (fun x => s.SameMemory x.1) (r.tableRead who d a) := by
  unfold State.tableRead
  exact .ite .error (.ite .error (.ok h.reachHome))

theorem walkFrom {w : Walker} {va : Word} {levels : List (Nat × Nat)} {a : Nat} (h : s.SameMemory r) :
    Ends (fun x => s.SameMemory x.1) (r.walkFrom w va levels a) := by
  induction levels generalizing r a with
  | nil => exact .bind h.tableRead fun _ hx => .pure hx
  | cons l rest ih => exact .bind h.tableRead fun _ hx => .ite .raise (.ite .raise (ih hx))

theorem leafOf {w : Walker} {va : Word} (h : s.SameMemory r) :
    Ends (fun x => s.SameMemory x.1) (r.leafOf w va) := by
  unfold State.leafOf
  dsimp only
  split
  · exact .ok h
  · exact .ite .raise (.bind h.walkFrom fun _ hx => .pure hx)

theorem fillTlb {w : Walker} {va leaf : Word} {a : Nat} (h : s.SameMemory r) :
    s.SameMemory (r.fillTlb w va leaf a) := by
  unfold State.fillTlb
  split
  · exact h.modCore
  · exact h

theorem translate {w : Walker} {va : Word} {kind : Access} {locs : List Nat} (h : s.SameMemory r) :
    Ends (fun x => s.SameMemory x.1) (r.translate w va kind locs) := by
  refine .ite .raise (.bind h.leafOf fun x hx => ?_)
  refine .ite .raise (.ite .raise (.ite .raise (.ite (.pure hx) ?_)))
  split
  · exact .raise
  · refine .pure ?_
    dsimp only
    split
    · exact hx
    · exact hx.fillTlb

theorem translateResident {w : Walker} {va : Word} {kind : Access} {locs : List Nat} (h : s.SameMemory r) :
    Ends (fun x => s.SameMemory x.1) (r.translateResident w va kind locs) :=
  .bind h.translate fun _ hx => .ite (.pure hx) .raise

theorem pageAt {t : Team} {va : Word} (h : s.SameMemory r) :
    Ends (fun x => s.SameMemory x.1) (r.pageAt t va) := by
  unfold State.pageAt
  split
  · exact h.translateResident
  · exact h.translateResident

theorem dropLines {c : Nat} {p : Nat → Nat → Bool} (h : s.SameMemory r) : s.SameMemory (r.dropLines c p) := by
  have hends {d : Nat} {x : State} (hx : s.SameMemory x) : s.SameMemory (x.modDie d fun k => { k with
      wleases := k.wleases.filter fun w => !(w.core == c && p d w.line) }) :=
    hx.modDie (fun _ => rfl) (fun _ => rfl) fun _ => rfl
  exact hends (hends (modCore h.modCore))

theorem endLeases {c n : Nat} {p : Phys} (h : s.SameMemory r) : s.SameMemory (r.endLeases c p n) := by
  unfold State.endLeases
  split
  · exact h
  · exact h.dropLines

/-- What goes over the pages of a range keeps memory where each page's step does (R199, R212). -/
theorem eachPage {t : Team} {a n : Nat} {f : State → Phys → Nat → State} {pages : List Nat}
    (hf : ∀ x p k, s.SameMemory x → s.SameMemory (f x p k)) (h : s.SameMemory r) :
    Ends s.SameMemory (r.eachPage t a n f pages) := by
  induction pages generalizing r with
  | nil => exact .ok h
  | cons page rest ih =>
    unfold State.eachPage
    dsimp only
    split
    · exact .bind (.pure h) fun _ hx => ih hx
    · split
      next x m hm => exact .bind (.pure (hf _ _ _ (h.pageAt _ hm))) fun _ hx => ih hx
      · exact .bind (.pure h) fun _ hx => ih hx
      · exact .error

end State.SameMemory

end Sys2Proof.Machine
end

section
/-! SUPPORT for O27. What LINV ends, and the obligation (R183, R185, R198, R199). -/

namespace Sys2Proof.Machine

variable {s : State} {t : Team} {c : Nat} {p : Nat → Nat → Bool}

/-! ### Leases (R185) -/

theorem State.l1_dropLines : ((s.dropLines c p).core c).l1 = (s.core c).l1.filter fun l => !p l.die l.line := by
  simp [dropLines, overtake]

theorem State.wleases_dropLines (d : Nat) : ((s.dropLines c p).die d).wleases =
    (s.die d).wleases.filter fun w => !(w.core == c && p (if d = 1 then 1 else 0) w.line) := by
  by_cases h : d = 1 <;> simp [dropLines, die_modDie_eq, h, overtake]

theorem State.replies_dropLines : ((s.dropLines c p).core c).replies = mapWhere
    (fun r => r.loc.space == .gddr && p r.loc.unit (lineOf r.loc.addr)) (fun r => { r with fills := false })
    (s.core c).replies := by
  simp [dropLines, overtake]

/-- A reply on its way for a line whose lease ends fills the L1 no more. -/
theorem State.fills_dropLines {q : LoadReply} (hq : q ∈ ((s.dropLines c p).core c).replies)
    (hg : q.loc.space = .gddr) (hp : p q.loc.unit (lineOf q.loc.addr) = true) : q.fills = false := by
  rw [replies_dropLines, mapWhere_eq_map, List.mem_map] at hq
  obtain ⟨r, -, hr⟩ := hq
  split at hr
  case isTrue => rw [← hr]
  case isFalse hn =>
    subst hr
    simp [hg, hp] at hn

theorem State.peek_dropLines (a : Phys) (n : Nat) : (s.dropLines c p).peek a n = s.peek a n := by
  have hmem (d : Nat) : ((s.dropLines c p).die d).mem = (s.die d).mem ∧
      ((s.dropLines c p).die d).dsm = (s.die d).dsm := by
    by_cases h : d = 1 <;> simp [dropLines, die_modDie_eq, h, overtake]
  obtain ⟨sp, u, x⟩ := a
  cases sp with
  | gddr => simp only [peek, space, (hmem u).1]
  | dsm => simp only [peek, space, (hmem u).2]
  | host => simp [peek, space, dropLines, overtake]
  | fabric => simp [peek, space, dropLines, overtake]

theorem leasesEnd : LeasesEnd := by
  intro s core p n hp r meets
  have hr : r = s.dropLines core fun d l => d == p.unit && decide (p.addr < l + 128) && decide (l < p.addr + n) := by
    simp [r, State.endLeases, hp]
  have hmeets (d l : Nat) :
      (d == p.unit && decide (p.addr < l + 128) && decide (l < p.addr + n)) = true ↔ meets d l := by
    simp [meets, and_assoc]
  rw [hr]
  refine ⟨fun l => ?_, fun d hd w => ?_, fun q hq hg hm => State.fills_dropLines hq hg ((hmeets _ _).2 hm)⟩
  · rw [State.l1_dropLines, List.mem_filter, ← hmeets, Bool.not_eq_true', Bool.not_eq_true]
  · have hdie : (if d = 1 then 1 else 0) = d := by
      split <;> omega
    rw [State.wleases_dropLines, hdie, List.mem_filter, ← hmeets, Bool.not_eq_true', ← Bool.not_eq_true,
      Bool.and_eq_true, beq_iff_eq]

/-! ### FENCE and LINV (R198, R199) -/

/-- LINV of more than 2 MiB ends every lease of its core. -/
theorem linv_all {a b : Field} (h : Issues s t (.linv a b)) (hb : 2097152 < (s.sread t b).toNat) :
    exec (.linv a b) s = .next (((s.dropLines t.coreId fun _ _ => true).modTeam t.uid Team.advance).countReads t.uid
      (Instr.linv a b).timeReads) := by
  have h0 : (s.sread t b).toNat ≠ 0 := by omega
  refine issue_ok h ?_
  simp only [h0, hb, if_true, if_false]
  rfl

theorem State.team_dropLines (n : Nat) : (s.dropLines c p).team? n = s.team? n := by
  simp [team?, dropLines, overtake]

@[simp] theorem State.die_countReads (d n k : Nat) : (s.countReads n k).die d = s.die d := by
  simp [die]

theorem State.peek_countReads (n k : Nat) (a : Phys) (j : Nat) : (s.countReads n k).peek a j = s.peek a j := by
  simp [peek, space]

theorem fenceAndLinv : FenceAndLinv := by
  intro s t k a b
  refine ⟨fun hf => .of_issue rfl ?fence, fun hf => .of_issue rfl ?held, fun hn => .of_issue rfl ?nothing,
    fun hn h => ?all, fun r hle hpos => ?some⟩
  case fence =>
    simp only [State.needFence_ok hf]
    rfl
  case held =>
    simp only [State.needFence_hold hf, bind, Except.bind]
  case nothing =>
    simp only [hn, if_true]
    rfl
  case all =>
    have hteam : (s.dropLines t.coreId fun _ _ => true).team? t.uid = some t := by
      rw [State.team_dropLines, h.uid]
      exact h.cur
    refine Completes.of_team h (linv_all h hn) (team_modTeam _ advance_uid hteam) ⟨rfl, ?_, ?_, ?_, ?_⟩
    · rw [State.core_countReads, core_modTeam, State.l1_dropLines]
      simp
    · intro d w hw
      rw [State.die_countReads, die_modTeam, State.wleases_dropLines] at hw
      simpa using (List.mem_filter.1 hw).2
    · intro q hq hg
      rw [State.core_countReads, core_modTeam] at hq
      exact State.fills_dropLines hq hg rfl
    · intro q n
      rw [State.peek_countReads]
      exact State.peek_dropLines q n
  case some =>
    intro pages hr
    have h0 : (s.sread t b).toNat ≠ 0 := by omega
    have hpages : rangeFrom ((s.sread t a).toNat / 65536) 34 = pages := List.range'_eq_map_range
    refine ⟨.of_issue rfl ?_, fun hb0 hb1 p n => ?_⟩
    · simp only [h0, not_lt.2 hle, if_false, hpages, hr]
      rfl
    · exact (State.SameMemory.eachPage (fun _ _ _ hx => hx.endLeases)
        (.refl (State.noBins_of_dies hb0 hb1)) r hr).peek p n

/-- Settles O27: the scalar stores, FENCE and LINV, and what ends with a core's leases. -/
theorem storesAndFences : Obligations.StoresAndFences := ⟨scalarStores, fenceAndLinv, leasesEnd⟩

end Sys2Proof.Machine
end

section
/-! SUPPORT for O28. What a load reads at the home of its line, and under a lease (R177, R178, R195, R231). -/

namespace Sys2Proof.Machine

variable {s : State} {t : Team} {m : Mapped} {c d line n : Nat} {p : Phys}

/-! ### Slices of a memory -/

theorem Memory.byte_slice {m : Memory} {a n x : Nat} (ha : a ≤ x) (hx : x < a + n) :
    (m.slice a n).byte x = m.byte x := by
  induction m with
  | nil => rfl
  | cons c rest ih =>
    obtain ⟨k, v⟩ := c
    have ih' : Memory.byte (rest.filter fun c => decide (a ≤ c.1) && decide (c.1 < a + n)) x = Memory.byte rest x := ih
    by_cases hk : k = x
    · subst hk
      simp [slice, byte, ha, hx]
    · by_cases hin : a ≤ k ∧ k < a + n
      · simp [slice, byte, hk, hin, ih']
      · have hout : (decide (a ≤ k) && decide (k < a + n)) = false := by simpa using hin
        simp only [slice, List.filter_cons, hout, Bool.false_eq_true, if_false, byte, hk]
        exact ih'

theorem Memory.read_slice {m : Memory} {a n x k : Nat} (ha : a ≤ x) (hx : x + k ≤ a + n) :
    (m.slice a n).read x k = m.read x k :=
  congrArg leNat (bytes_eq fun y hy hk => byte_slice (by omega) (by omega))

/-- A read within one line finds in the line's slice what it finds in the memory. -/
theorem Memory.read_slice_line {m : Memory} {x k : Nat} (h : x % 128 + k ≤ 128) :
    (m.slice (lineOf x) 128).read x k = m.read x k :=
  read_slice (by unfold lineOf; omega) (by unfold lineOf; omega)

/-! ### Loads (R177) -/

@[simp] theorem Die.mem_raiseExp (k : Die) (line e : Nat) : (k.raiseExp line e).mem = k.mem := by
  unfold raiseExp
  split <;> rfl

@[simp] theorem State.die_overtake (q : Nat → Nat → Bool) (x : Nat) : (s.overtake c q).die x = s.die x := rfl

@[simp] theorem State.die_fillL1 (new : L1Line) (x : Nat) : (s.fillL1 c new).die x = s.die x := by
  simp only [fillL1]
  split <;> rfl

theorem State.mem_homeRead (lease : Bool) :
    ((s.homeRead c d line lease).die d).mem = ((s.reachHome c d line).die d).mem := by
  unfold homeRead
  cases lease <;> simp

theorem State.peek_gddr (h : p.space = .gddr) : s.peek p n = (s.die p.unit).mem.read p.addr n := by
  simp [peek, space, h]

theorem State.peek_homeRead (h : p.space = .gddr) (lease : Bool) :
    (s.homeRead c p.unit line lease).peek p n =
      ((s.recallLine c p.unit line).applyLine p.unit line).peek p n := by
  rw [← peek_reachHome h, peek_gddr h, peek_gddr h, mem_homeRead]

theorem State.teamLoad_gddr (h : m.phys.space = .gddr) (hp : s.poisoned m.phys = false) :
    s.teamLoad t m n = .ok ((s.loadLine t.coreId m.phys.unit (lineOf m.phys.addr) m.nc).1,
      (s.loadLine t.coreId m.phys.unit (lineOf m.phys.addr) m.nc).2.read m.phys.addr n) := by
  simp [teamLoad, hp, h]

theorem State.teamLoad_dsm (h : m.phys.space = .dsm) (hp : s.poisoned m.phys = false) :
    s.teamLoad t m n = .ok (s.noteRequest m.phys.unit (homeKey m.phys) t.coreId, s.peek m.phys n) := by
  simp [teamLoad, hp, h]

theorem State.loadLine_leased {l : L1Line} (hl : s.leased? c d line = some l) :
    s.loadLine c d line false = (s, l.data) := by
  simp [loadLine, hl]

/-- What a load that no lease of the L1 serves answers is its line at the home, in the state that it leaves. -/
theorem State.loadLine_data {nc : Bool} (h : nc = true ∨ s.leased? c d line = none) :
    (s.loadLine c d line nc).2 = (((s.loadLine c d line nc).1.die d).mem).slice line 128 := by
  cases nc with
  | true => rfl
  | false =>
    have hl : s.leased? c d line = none := by simpa using h
    cases ho : s.ownLease? c d line <;> simp [loadLine, hl, ho]

/-- Where no lease at all serves a load, it finds at the home what the line's pending pairs leave. -/
theorem State.peek_loadLine {nc : Bool} (h : p.space = .gddr) (hl : nc = true ∨ s.leased? c p.unit line = none)
    (ho : nc = true ∨ s.ownLease? c p.unit line = none) :
    (s.loadLine c p.unit line nc).1.peek p n =
      ((s.recallLine c p.unit line).applyLine p.unit line).peek p n := by
  cases nc with
  | true => exact peek_homeRead h false
  | false =>
    have hl : s.leased? c p.unit line = none := by simpa using hl
    have ho : s.ownLease? c p.unit line = none := by simpa using ho
    rw [← peek_homeRead h true, peek_gddr h, peek_gddr h]
    simp [loadLine, hl, ho]

theorem State.peek_noteRequest (d line c : Nat) (q : Phys) (k : Nat) :
    (s.noteRequest d line c).peek q k = s.peek q k := by
  have hspace : (s.noteRequest d line c).space q.space q.unit = s.space q.space q.unit := by
    cases q.space <;> simp only [space, noteRequest, die_modDie_eq, modDie_host, modDie_fabric] <;> split <;> rfl
  rw [peek, peek, hspace]

theorem loadsReadTheirHome : LoadsReadTheirHome := by
  intro s t m n hp hn line
  refine ⟨fun hg => ⟨fun hl => ?home, fun l hnc hl => ?lease⟩, fun hd => ?dsm⟩
  case home =>
    refine ⟨_, ?_, fun ho => State.peek_loadLine hg hl ho⟩
    rw [State.teamLoad_gddr hg hp, State.loadLine_data hl, Memory.read_slice_line hn, State.peek_gddr hg]
  case lease => rw [State.teamLoad_gddr hg hp, hnc, State.loadLine_leased hl]
  case dsm => exact ⟨_, State.teamLoad_dsm hd hp, State.peek_noteRequest _ _ _⟩

end Sys2Proof.Machine
end

section
/-! SUPPORT for O28. What a store leaves at its home (R22, R177, R178, R231). -/

namespace Sys2Proof.Machine

variable {s : State} {d a x : Nat} {bytes : List Byte}

/-! ### A line of GDDR7 (R177) -/

@[simp] theorem State.die_fireLine (sp : PhysSpace) (u line x : Nat) : (s.fireLine sp u line).die x = s.die x := rfl

@[simp] theorem Die.dsm_markDirty (k : Die) (line : Nat) : (k.markDirty line).dsm = k.dsm := by
  unfold markDirty
  split <;> rfl

/-- A write at the home to a line in no FXADD region: its bytes over what the line's pending pairs leave. -/
theorem State.lineWrite_plain (hf : ((s.applyLine d (lineOf a)).die d).fxLines.find? (fun q => q.1 == lineOf a) = none) :
    ((s.lineWrite d a bytes).die d).mem = ((s.applyLine d (lineOf a)).die d).mem.setBytes a bytes ∧
      ((s.lineWrite d a bytes).die d).dsm = ((s.applyLine d (lineOf a)).die d).dsm := by
  simp [lineWrite, touchLine, markDirty, hf]

/-! ### DSM (R178) -/

theorem State.die_dsmStore : ((s.dsmStore d a bytes).1.die d) =
    { s.die d with dsm := if (s.die d).dsmSize < a + bytes.length then (s.die d).dsm
                          else (s.die d).dsm.setBytes a bytes } := by
  simp [dsmStore]

theorem storesReachTheirHome : StoresReachTheirHome := by
  intro s core d a bytes
  refine ⟨⟨rfl, fun hw hf => ?line⟩, fun hlt => ?beyond, fun hw hle => ?dsm⟩
  case line =>
    obtain ⟨hmem, hdsm⟩ := State.lineWrite_plain (bytes := bytes) hf
    have hwf := (State.Canon.die (s := _) hw d).mem
    exact ⟨fun k hk => (congrArg (Memory.byte · _) hmem).trans (Memory.byte_setBytes_at hwf hk),
      fun x hx => (congrArg (Memory.byte · _) hmem).trans (Memory.byte_setBytes_other hx), hdsm⟩
  case beyond => rw [State.die_dsmStore, if_pos hlt]
  case dsm =>
    have hwf := (State.Canon.die (s := s) hw d).dsm
    dsimp only
    rw [State.die_dsmStore, if_neg (not_lt.2 hle)]
    exact ⟨fun k hk => Memory.byte_setBytes_at hwf hk, fun x hx => Memory.byte_setBytes_other hx, rfl⟩

end Sys2Proof.Machine
end

section
/-! SUPPORT for O28. What an access of the shared cache fills and what leaves it, and that no line's EXP falls (R176,
R188); and the obligation. -/

namespace Sys2Proof.Machine

variable {k : Die} {line c x : Nat}

/-! ### The line that leaves (R188) -/

theorem Die.find_of_not_caches (h : k.caches line = false) : k.cache.find? (fun l => l.line == line) = none := by
  simpa [caches] using h

theorem Die.touch_hit {l : CacheLine} (h : k.cache.find? (fun l => l.line == line) = some l) :
    k.touch line c = { k with cache := l :: k.cache.filter fun l => l.line != line } := by
  simp only [touch, h]

theorem Die.caches_touch_hit {l : CacheLine} (h : k.cache.find? (fun l => l.line == line) = some l) :
    (k.touch line c).caches x = k.caches x := by
  have hline : l.line = line := by simpa using List.find?_some h
  have hmem : l ∈ k.cache := List.mem_of_find?_eq_some h
  rw [touch_hit h, Bool.eq_iff_iff]
  simp only [caches, List.any_cons, List.any_filter, Bool.or_eq_true, List.any_eq_true, Bool.and_eq_true]
  constructor
  · rintro (hx | ⟨y, hy, -, hx⟩)
    · exact ⟨l, hmem, hx⟩
    · exact ⟨y, hy, hx⟩
  · rintro ⟨y, hy, hx⟩
    by_cases hyl : y.line = line
    · exact .inl (by rwa [hline, ← hyl])
    · exact .inr ⟨y, hy, by simpa using hyl, hx⟩

theorem Die.touch_miss (h : k.caches line = false) : k.touch line c =
    match k.fillOf (k.cache.filter fun l => cacheSet l.line == cacheSet line) c with
    | .place => k.place line c
    | .evict v => (k.evict v).place line c
    | .bypass => k := by
  simp only [touch, find_of_not_caches h] <;> rfl

theorem Die.cache_evict_place (v : Nat) : ((k.evict v).place line c).cache =
    { line := line, cls := c } :: k.cache.filter fun l => l.line != v := by
  have hback : (k.writeBack v).cache = k.cache := by
    unfold writeBack
    split <;> rfl
  simp only [place, evict, hback]

/-- A miss that takes the least recently used line of some replaces it, and does nothing where there is none. -/
theorem Die.touch_lru {p : CacheLine → Bool} (h : k.caches line = false)
    (hf : k.fillOf (k.cache.filter fun l => cacheSet l.line == cacheSet line) c =
      lruVictim (k.cache.filter fun l => cacheSet l.line == cacheSet line) p) :
    match ((k.cache.filter fun l => cacheSet l.line == cacheSet line).filter p).getLast? with
    | some v => (k.touch line c).cache = { line := line, cls := c } :: k.cache.filter fun l => l.line != v.line
    | none => k.touch line c = k := by
  rw [touch_miss h, hf, lruVictim]
  cases ((k.cache.filter fun l => cacheSet l.line == cacheSet line).filter p).getLast? with
  | some v => exact Die.cache_evict_place v.line
  | none => rfl

/-! ### EXP (R176) -/

theorem Die.lineExp_cached (h : k.caches line = true) : k.lineExp line = lookup 0 line k.exp := if_pos h

theorem Die.lineExp_missing (h : k.caches line = false) :
    k.lineExp line = max (lookup 0 line k.exp) (lookup 0 (cacheSet line) k.evictExp) := by
  simp [lineExp, h]

theorem Die.lineExp_le : k.lineExp line ≤ max (lookup 0 line k.exp) (lookup 0 (cacheSet line) k.evictExp) := by
  unfold lineExp
  dsimp only
  split <;> omega

/-- A line that enters takes over the maximum of its set. -/
theorem Die.exp_place_self : lookup 0 line (k.place line c).exp =
    max (lookup 0 line k.exp) (lookup 0 (cacheSet line) k.evictExp) := by
  simp only [place]
  split
  case isTrue h => omega
  case isFalse => simp

theorem Die.exp_place_other (h : x ≠ line) : lookup 0 x (k.place line c).exp = lookup 0 x k.exp := by
  simp only [place]
  split
  · rfl
  · exact lookup_insertAt_other _ _ _ h

theorem Die.lineExp_place : k.lineExp x ≤ (k.place line c).lineExp x := by
  by_cases hx : x = line
  · subst hx
    rw [lineExp_cached (k := k.place x c) (by simp [caches, place]), exp_place_self]
    exact lineExp_le
  · have hin : (k.place line c).caches x = k.caches x := by simp [caches, place, Ne.symm hx]
    rw [lineExp, lineExp, hin, exp_place_other hx]
    rfl

/-- The maximum of a set takes in the EXP of a line that leaves it. -/
theorem Die.evictExp_evict (v : Nat) : max (lookup 0 (cacheSet v) k.evictExp) (lookup 0 v k.exp) ≤
    lookup 0 (cacheSet v) (k.evict v).evictExp := by
  have hback : (k.writeBack v).evictExp = k.evictExp := by
    unfold writeBack
    split <;> rfl
  simp only [evict, hback]
  split
  case isTrue h => omega
  case isFalse => simp

theorem Die.evictExp_evict_mono (v s : Nat) : lookup 0 s k.evictExp ≤ lookup 0 s (k.evict v).evictExp := by
  by_cases hs : s = cacheSet v
  · subst hs
    have := Die.evictExp_evict (k := k) v
    omega
  · have hback : (k.writeBack v).evictExp = k.evictExp := by
      unfold writeBack
      split <;> rfl
    simp only [evict, hback]
    split
    · rfl
    · rw [lookup_insertAt_other _ _ _ hs]

theorem Die.lineExp_evict (v : Nat) : k.lineExp x ≤ (k.evict v).lineExp x := by
  have hcache : (k.evict v).cache = k.cache.filter fun l => l.line != v := by
    simp only [evict, writeBack]
    split <;> rfl
  have hexp : (k.evict v).exp = removeAt v k.exp := by
    simp only [evict, writeBack]
    split <;> rfl
  by_cases hx : x = v
  · subst hx
    have hout : (k.evict x).caches x = false := by simp [caches, hcache]
    have hset := Die.evictExp_evict (k := k) x
    have hle := Die.lineExp_le (k := k) (line := x)
    rw [lineExp_missing hout]
    omega
  · have hin : (k.evict v).caches x = k.caches x := by
      rw [caches, caches, hcache, List.any_filter]
      congr 1
      funext l
      by_cases hl : l.line = x <;> simp [hl, hx]
    have hmono := Die.evictExp_evict_mono (k := k) v (cacheSet x)
    simp only [lineExp, hin, hexp, lookup_removeAt_other _ _ hx]
    split <;> omega

theorem Die.lineExp_touch : k.lineExp x ≤ (k.touch line c).lineExp x := by
  cases hl : k.cache.find? fun l => l.line == line with
  | some l =>
    rw [lineExp, lineExp, Die.caches_touch_hit hl, Die.touch_hit hl]
  | none =>
    rw [touch_miss (by simpa [caches] using hl)]
    split
    · exact lineExp_place
    · exact (lineExp_evict _).trans lineExp_place
    · exact le_rfl

theorem cacheFills : CacheFills := by
  intro d line k set mine most above r fills
  refine ⟨fun l hl => congrArg Die.cache (Die.touch_hit hl),
    fun h => ⟨fun hm => Die.touch_lru h (if_pos hm), fun hm hs => ?place, fun hm hs => Die.touch_lru h ?full⟩,
    Die.mem_touch _ _ _, fun x => Die.lineExp_touch⟩
  case place =>
    have hf : d.fillOf set k = .place := (if_neg (not_le.2 hm)).trans (if_pos hs)
    have hr : r = d.place line k := by
      simp only [r, Die.touch_miss h]
      rw [hf]
    rw [hr]
    rfl
  case full => exact (if_neg (not_le.2 hm)).trans (if_neg (not_lt.2 hs))

/-- Settles O28: what loads read and stores leave at their homes, and what a fill does in its set. -/
theorem homesHoldTheBytes : Obligations.HomesHoldTheBytes := ⟨loadsReadTheirHome, storesReachTheirHome, cacheFills⟩

end Sys2Proof.Machine
end

section
/-! SUPPORT for O58. What the end of an operation leaves of its team, and what the steps of the transform pipe do
(R253, R258, R380). -/

namespace Sys2Proof.Machine

variable {s : State} {t : Team}

/-! ### A team that may have become ready (R42) -/

theorem State.released_cases (before : State) (n : Nat) :
    s.released before n = s ∨ s.released before n = s.markReady n := by
  unfold released
  cases s.team? n with
  | none => exact .inl rfl
  | some t =>
    dsimp only
    split
    · exact .inr rfl
    · exact .inl rfl

@[simp] theorem State.core_released (before : State) (n c : Nat) : (s.released before n).core c = s.core c := by
  rcases s.released_cases before n with h | h <;> rw [h]
  rfl

@[simp] theorem State.die_released (before : State) (n d : Nat) : (s.released before n).die d = s.die d := by
  rcases s.released_cases before n with h | h <;> rw [h]
  rfl

theorem State.team_released {before : State} {n : Nat} (h : s.team? n = some t) :
    ∃ since, (s.released before n).team? n = some { t with readySince := since } := by
  rcases s.released_cases before n with hr | hr <;> rw [hr]
  · exact ⟨t.readySince, h⟩
  · exact ⟨_, team_modTeam s (fun _ => rfl) h⟩

/-! ### Words as bytes -/

/-- Where a memory holds words one after the other, each reads back. -/
theorem Memory.read_words {m : Memory} {a : Nat} {l : List W32}
    (h : m.bytes a (4 * l.length) = l.flatMap fun w => leBytes 4 w.toNat) {k : Nat} (hk : k < l.length) :
    m.read (a + 4 * k) 4 = l[k].toNat := by
  induction l generalizing a k with
  | nil => simp at hk
  | cons w rest ih =>
    obtain ⟨hw, hrest⟩ := bytes_of_append (l := leBytes 4 w.toNat) (k := 4 * rest.length)
      (by rw [length_leBytes, Nat.add_comm]; exact h)
    rw [length_leBytes] at hw hrest
    cases k with
    | zero => exact (congrArg leNat hw).trans ((leNat_leBytes 4 _).trans (Nat.mod_eq_of_lt w.isLt))
    | succ k =>
      rw [show a + 4 * (k + 1) = a + 4 + 4 * k by omega, ih hrest (by simpa using hk)]
      rfl

theorem Memory.length_words (l : List W32) : (l.flatMap fun w => leBytes 4 w.toNat).length = 4 * l.length := by
  simp [List.length_flatMap, Nat.mul_comm]

theorem Memory.read_setBytes_words {m : Memory} {a : Nat} {l : List W32} (hm : m.wf = true) {k : Nat}
    (hk : k < l.length) :
    (m.setBytes a (l.flatMap fun w => leBytes 4 w.toNat)).read (a + 4 * k) 4 = l[k].toNat := by
  have h := bytes_setBytes_self (a := a) (l := l.flatMap fun w => leBytes 4 w.toNat) hm
  rw [length_words] at h
  exact read_words h hk

/-! ### The steps of the pipe -/

variable {c : Nat} {o : XfOp} {before rest : List XfOp}

/-- The operand buffer that step 0 fills. -/
def State.xfBuffer (s : State) (t : Team) (o : XfOp) : List W32 :=
  let v := { t with mode := o.mode }.vread (BitVec.ofNat 7 o.src)
  match o.kind with
  | .xtbind => []
  | .xtld => (List.range 130).map fun k => BitVec.ofNat 32 (s.scrRead t (o.offset + 4 * k) 4)
  | _ => (List.range v.len).map v.lane

theorem Team.len_vread_of_mode (t : Team) (m : BitVec 16) (r : Field) :
    ({ t with mode := m }.vread r).len = (t.vread r).len := by
  unfold vread
  split
  case h_3 => dsimp only; split <;> rfl
  all_goals rfl

theorem State.xfStart_bad (h : s.xfHead c = some (before, o, rest)) (ht : s.team? o.uid = some t)
    (hs : o.started = false) (hf : s.forkHolds o.uid = true)
    (hb : o.kind = .xtld ∧ (s.core c).badAt (t.ident.scrBase + o.offset) 520 = true) :
    s.xfStart c = some (s.machineCheck t.ctx 5 0 (c / 64) (c % 64) false (t.ident.scrBase + o.offset)) := by
  simp [xfStart, h, ht, hs, hf, hb]

theorem State.xfStart_sound (h : s.xfHead c = some (before, o, rest)) (ht : s.team? o.uid = some t)
    (hs : o.started = false) (hf : s.forkHolds o.uid = true)
    (hb : ¬(o.kind = .xtld ∧ (s.core c).badAt (t.ident.scrBase + o.offset) 520 = true)) :
    s.xfStart c = some ((s.modCore c fun k =>
      { k with xfs := before ++ { o with started := true, buffer := s.xfBuffer t o } :: rest }).released s o.uid) := by
  have hgo : ¬(o.started || !s.forkHolds o.uid) = true := by simp [hs, hf]
  have hsound : ¬(decide (o.kind = .xtld) && (s.core c).badAt (t.ident.scrBase + o.offset) 520) = true := by
    simpa using hb
  unfold xfStart
  rw [h]
  dsimp only
  rw [ht]
  exact (if_neg hgo).trans (if_neg hsound)

theorem State.xfComplete_xtld (h : s.xfHead c = some (before, o, rest)) (ht : s.team? o.uid = some t)
    (hs : o.started = true) (hk : o.kind = .xtld) :
    s.xfComplete c = some (((s.modCore c fun k => { k with xfs := before ++ rest }).modCore c fun k =>
      k.setBank o.bank (Memory.setBytes [] 0 (o.buffer.flatMap fun w => leBytes 4 w.toNat))).released s o.uid) := by
  simp [xfComplete, h, ht, hs, hk]

theorem State.xfComplete_xtbind (h : s.xfHead c = some (before, o, rest)) (ht : s.team? o.uid = some t)
    (hs : o.started = true) (hk : o.kind = .xtbind) :
    s.xfComplete c = some ((((s.modCore c fun k => { k with xfs := before ++ rest }).putTeam
      { t with binding := if o.bank = 2 then none else some o.bank }).fireBanks c).released s o.uid) := by
  simp [xfComplete, h, ht, hs, hk]

theorem State.xfComplete_write (h : s.xfHead c = some (before, o, rest)) (ht : s.team? o.uid = some t)
    (hs : o.started = true) (hk : o.kind ≠ .xtld) (hk' : o.kind ≠ .xtbind) :
    s.xfComplete c =
      some (((s.modCore c fun k => { k with xfs := before ++ rest }).xfWrite t o).released s o.uid) := by
  unfold xfComplete
  cases hkind : o.kind <;> simp_all

theorem State.length_xfBuffer (h : o.kind ≠ .xtld) (h' : o.kind ≠ .xtbind) :
    (s.xfBuffer t o).length = (t.vread (BitVec.ofNat 7 o.src)).len := by
  have hlen : (s.xfBuffer t o).length = ({ t with mode := o.mode }.vread (BitVec.ofNat 7 o.src)).len := by
    unfold xfBuffer
    cases hk : o.kind <;> simp_all
  rw [hlen, Team.len_vread_of_mode]

theorem Core.bank_setBank (k : Core) {b : Nat} (m : Memory) : (k.setBank b m).bank b = m := by
  unfold setBank bank
  split <;> simp

theorem Core.xfs_setBank (k : Core) (b : Nat) (m : Memory) : (k.setBank b m).xfs = k.xfs := by
  unfold setBank
  split <;> rfl

/-- The third part of O58: the transform pipe. -/
theorem transformsRun : TransformsRun := by
  intro s o before rest t c hhead ht bad
  refine ⟨fun hs hf hb => ?_, fun hs hf hb => ?_, fun hs => ⟨fun hk _ hlen => ?_, fun hk => ?_, fun hk hk' => ?_⟩⟩
  · exact event_next.2 (State.xfStart_bad hhead ht hs hf hb)
  · refine ⟨_, event_next.2 (State.xfStart_sound hhead ht hs hf hb), s.xfBuffer t o, by simp [c], fun hk => ?_,
      State.length_xfBuffer⟩
    simp [State.xfBuffer, hk]
  · refine ⟨_, event_next.2 (State.xfComplete_xtld hhead ht hs hk), by simp [c, Core.xfs_setBank], fun k hlt => ?_⟩
    rw [State.core_released, core_modCore, Core.bank_setBank]
    simpa using Memory.read_setBytes_words (m := []) (a := 0) rfl hlt
  · refine ⟨_, event_next.2 (State.xfComplete_xtbind hhead ht hs hk), by simp [c, State.fireBanks], ?_⟩
    have huid := team_uid ht
    let bound := { t with binding := if o.bank = 2 then none else some o.bank }
    have hput : ((s.modCore c fun k => { k with xfs := before ++ rest }).putTeam bound).team? o.uid = some bound :=
      huid ▸ team_putTeam _ (u := bound) (t := t) (huid.symm ▸ ht)
    obtain ⟨w, ended, hfired⟩ := State.team_fireWaits hput
    obtain ⟨since, hteam⟩ := State.team_released hfired
    exact ⟨_, hteam, rfl⟩
  · exact event_next.2 (State.xfComplete_write hhead ht hs hk hk')

end Sys2Proof.Machine
end

section
/-! SUPPORT for O55 and O58. What serving a line at its home leaves as it was: beside the memory behind the homes,
their leases, bins and records, every part of a die, and every core (R177, R231, R359). -/

namespace Sys2Proof.Machine

/-! ### Dies -/

/-- A die with what an access at a home may change put aside. -/
def Die.aside (k : Die) : Die :=
  { k with mem := [], dram := [], dirty := [], cache := [], evictExp := [], poison := [], dramPoison := [], exp := [],
           wleases := [], recent := [], bins := [], fxLines := [], intervals := [], mesh := [] }

/-- What an access at a home leaves of a die: it may at most put the device's own writes into the mesh, behind what
waits there (R190). -/
structure Die.Kept (k k' : Die) : Prop where
  aside : k'.aside = k.aside
  mesh : ∃ held, k'.mesh = k.mesh ++ held

namespace Die.Kept

variable {k k' k'' : Die}

theorem refl (k : Die) : k.Kept k := ⟨rfl, [], (List.append_nil _).symm⟩

/-- A change to the parts that are put aside, but for the mesh. -/
theorem of_eq (h : k'.aside = k.aside) (hm : k'.mesh = k.mesh) : k.Kept k' := ⟨h, [], by rw [hm, List.append_nil]⟩

theorem trans (h : k.Kept k') (h' : k'.Kept k'') : k.Kept k'' := by
  obtain ⟨held, hm⟩ := h.mesh
  obtain ⟨held', hm'⟩ := h'.mesh
  exact ⟨h'.aside.trans h.aside, held ++ held', by rw [hm', hm, List.append_assoc]⟩

theorem change (h : k.Kept k') (ha : k''.aside = k'.aside) (hm : k''.mesh = k'.mesh) : k.Kept k'' :=
  h.trans (.of_eq ha hm)

/-- A part that is not put aside stays. -/
theorem part {α : Type} (h : k.Kept k') (f : Die → α) (hf : ∀ k : Die, f k.aside = f k) : f k' = f k := by
  rw [← hf k', h.aside, hf]

theorem regs (h : k.Kept k') : k'.regs = k.regs := h.part Die.regs fun _ => rfl
theorem time (h : k.Kept k') : k'.time = k.time := h.part Die.time fun _ => rfl
theorem dsm (h : k.Kept k') : k'.dsm = k.dsm := h.part Die.dsm fun _ => rfl
theorem migration (h : k.Kept k') : k'.migration = k.migration := h.part Die.migration fun _ => rfl
theorem multicasts (h : k.Kept k') : k'.multicasts = k.multicasts := h.part Die.multicasts fun _ => rfl
theorem shoot (h : k.Kept k') : k'.shoot = k.shoot := h.part Die.shoot fun _ => rfl
theorem acks (h : k.Kept k') : k'.acks = k.acks := h.part Die.acks fun _ => rfl
theorem dsmQ (h : k.Kept k') : k'.dsmQ = k.dsmQ := h.part Die.dsmQ fun _ => rfl

theorem setMem (m : Memory) (h : k.Kept k') : k.Kept { k' with mem := m } :=
  h.change (by simp only [Die.aside]) rfl

theorem setBins (l : List Bin) (h : k.Kept k') : k.Kept { k' with bins := l } :=
  h.change (by simp only [Die.aside]) rfl

theorem raiseExp (line e : Nat) (h : k.Kept k') : k.Kept (k'.raiseExp line e) := by
  unfold Die.raiseExp
  split
  · exact h.change (by simp only [Die.aside]) rfl
  · exact h.change (by simp only [Die.aside]) rfl

theorem writeBack (line : Nat) (h : k.Kept k') : k.Kept (k'.writeBack line) := by
  unfold Die.writeBack
  split
  · exact h.change (by simp only [Die.aside]) rfl
  · exact h

theorem evict (line : Nat) (h : k.Kept k') : k.Kept (k'.evict line) := by
  unfold Die.evict
  exact (h.writeBack line).change (by simp only [Die.aside]) rfl

theorem place (line c : Nat) (h : k.Kept k') : k.Kept (k'.place line c) := by
  unfold Die.place
  exact h.change (by simp only [Die.aside]) rfl

theorem touch (line c : Nat) (h : k.Kept k') : k.Kept (k'.touch line c) := by
  unfold Die.touch
  split
  · exact h.change (by simp only [Die.aside]) rfl
  · split
    · exact h.place _ _
    · exact (h.evict _).place _ _
    · exact h

theorem markDirty (line : Nat) (h : k.Kept k') : k.Kept (k'.markDirty line) := by
  unfold Die.markDirty
  split
  · exact h.change (by simp only [Die.aside]) rfl
  · exact h.change (by simp only [Die.aside]) rfl

end Die.Kept

/-! ### The state -/

/-- A state with its dies, teams and contexts and the host's side put aside. -/
def State.aside (s : State) : State :=
  { s with teams := [], die0 := .atReset, die1 := .atReset, ctxs := [], host := .atReset }

/-- What an access at a home leaves of the state: of the dies as `Die.Kept` says; of the teams all but which of their
waits have fired and what that ends (R44, R55); everything beside the contexts and the host's side. -/
structure State.HomeFrame (s r : State) : Prop where
  aside : r.aside = s.aside
  die : ∀ d, (s.die d).Kept (r.die d)
  teams : r.teams.map (Team.tested · none false) = s.teams.map (Team.tested · none false)

namespace State.HomeFrame

variable {s r r' : State}

theorem refl (s : State) : s.HomeFrame s := ⟨rfl, fun _ => .refl _, rfl⟩

theorem trans (h : s.HomeFrame r) (h' : r.HomeFrame r') : s.HomeFrame r' :=
  ⟨h'.aside.trans h.aside, fun d => (h.die d).trans (h'.die d), h'.teams.trans h.teams⟩

/-- A part that is not put aside stays. -/
theorem part {α : Type} (h : s.HomeFrame r) (f : State → α) (hf : ∀ s : State, f s.aside = f s) : f r = f s := by
  rw [← hf r, h.aside, hf]

theorem cores (h : s.HomeFrame r) : r.cores = s.cores := h.part State.cores fun _ => rfl

theorem core (h : s.HomeFrame r) (c : Nat) : r.core c = s.core c := h.part (State.core · c) fun _ => rfl

theorem counter (h : s.HomeFrame r) (c k : Nat) : r.counter c k = s.counter c k :=
  h.part (State.counter · c k) fun _ => rfl

theorem baseCycles (h : s.HomeFrame r) : r.baseCycles = s.baseCycles := h.part State.baseCycles fun _ => rfl

theorem product (h : s.HomeFrame r) : r.product = s.product := h.part State.product fun _ => rfl

theorem tasks (h : s.HomeFrame r) : r.tasks = s.tasks := h.part State.tasks fun _ => rfl

theorem leftovers (h : s.HomeFrame r) : r.leftovers = s.leftovers := h.part State.leftovers fun _ => rfl

theorem team_tested (s : State) (n : Nat) :
    (s.team? n).map (Team.tested · none false) =
      (s.teams.map (Team.tested · none false)).find? fun t => t.uid == n := by
  rw [List.find?_map]
  rfl

/-- A team is found under its number, with its wait tested. -/
theorem team {t : Team} {n : Nat} (h : s.HomeFrame r) (ht : s.team? n = some t) :
    ∃ w o, r.team? n = some (t.tested w o) := by
  have heq := team_tested r n
  rw [h.teams, ← team_tested, ht] at heq
  obtain ⟨u, hu, hut⟩ := Option.map_eq_some_iff.1 heq
  have huniq : u = t.tested u.wait u.donationOver :=
    calc u = (u.tested none false).tested u.wait u.donationOver := rfl
      _ = t.tested u.wait u.donationOver := by rw [hut]; rfl
  exact ⟨u.wait, u.donationOver, hu.trans (congrArg some huniq)⟩

theorem modDie {f : Die → Die} {d : Nat} (h : s.HomeFrame r) (hf : ∀ k : Die, k.Kept (f k)) :
    s.HomeFrame (r.modDie d f) := by
  refine h.trans ⟨?_, fun x => ?_, ?_⟩
  · by_cases hd : d = 1 <;> simp [State.modDie, State.setDie, State.aside, hd]
  · rw [State.die_modDie_eq]
    split
    · exact hf _
    · exact .refl _
  · by_cases hd : d = 1 <;> simp [State.modDie, State.setDie, hd]

theorem ite {a b : State} {p : Prop} [Decidable p] (ha : s.HomeFrame a) (hb : s.HomeFrame b) :
    s.HomeFrame (if p then a else b) := by
  split
  · exact ha
  · exact hb

theorem foldl {α : Type} {f : State → α → State} {l : List α} (h : s.HomeFrame r)
    (hf : ∀ r x, s.HomeFrame r → s.HomeFrame (f r x)) : s.HomeFrame (l.foldl f r) := by
  induction l generalizing r with
  | nil => exact h
  | cons x rest ih => exact ih (hf r x h)

/-! ### The lines of a die and the records of errors -/

/-- A change to the parts of a die that are put aside. -/
theorem modAside {f : Die → Die} {d : Nat} (h : s.HomeFrame r) (hf : ∀ k : Die, (f k).aside = k.aside)
    (hm : ∀ k : Die, (f k).mesh = k.mesh) : s.HomeFrame (r.modDie d f) :=
  h.modDie fun k => .of_eq (hf k) (hm k)

theorem touchLine (d line : Nat) (h : s.HomeFrame r) : s.HomeFrame (r.touchLine d line) :=
  h.modDie fun k => (Die.Kept.refl k).touch _ _

theorem recallLine (who d line : Nat) (h : s.HomeFrame r) : s.HomeFrame (r.recallLine who d line) :=
  h.modAside (fun _ => by simp only [Die.aside]) fun _ => rfl

theorem noteRequest (d line c : Nat) (h : s.HomeFrame r) : s.HomeFrame (r.noteRequest d line c) :=
  h.modAside (fun _ => by simp only [Die.aside]) fun _ => rfl

theorem markDirty (d line : Nat) (h : s.HomeFrame r) : s.HomeFrame (r.markDirty d line) :=
  h.modDie fun k => (Die.Kept.refl k).markDirty _

theorem setMem {f : Die → Memory} {d : Nat} (h : s.HomeFrame r) : s.HomeFrame (r.modDie d fun k => { k with mem := f k }) :=
  h.modAside (fun _ => by simp only [Die.aside]) fun _ => rfl

theorem setIntervals {f : Die → List Interval} {d : Nat} (h : s.HomeFrame r) :
    s.HomeFrame (r.modDie d fun k => { k with intervals := f k }) :=
  h.modAside (fun _ => by simp only [Die.aside]) fun _ => rfl

theorem deviceStore (d a : Nat) (bytes : List Byte) (h : s.HomeFrame r) : s.HomeFrame (r.deviceStore d a bytes) := by
  unfold State.deviceStore
  exact ((h.recallLine _ _ _).touchLine _ _).modDie fun k =>
    ((Die.Kept.refl k).setMem _).markDirty _

theorem deviceWrite (d a n v : Nat) (h : s.HomeFrame r) : s.HomeFrame (r.deviceWrite d a n v) := by
  unfold State.deviceWrite
  split
  · exact h.modDie fun k => ⟨by simp only [Die.aside], _, rfl⟩
  · exact h.deviceStore _ _ _

theorem deviceWriteWords (d a : Nat) (ws : List Word) (h : s.HomeFrame r) :
    s.HomeFrame (r.deviceWriteWords d a ws) := by
  induction ws generalizing r a with
  | nil => exact h
  | cons w rest ih => exact ih _ (h.deviceWrite _ _ _ _)

/-- A change of the contexts and of the host's side alone. -/
theorem besideDies {c : List Ctx} {i : HostIf} (h : s.HomeFrame r) : s.HomeFrame { r with ctxs := c, host := i } :=
  ⟨h.aside, h.die, h.teams⟩

theorem appendWords (ws : List Word) (h : s.HomeFrame r) : s.HomeFrame (r.appendWords ws) := by
  unfold State.appendWords
  dsimp only
  split
  · exact h.besideDies
  · split
    · exact h.deviceWrite _ _ _ _
    · exact ((h.deviceWriteWords _ _ _).deviceWrite _ _ _ _).besideDies

theorem report (e : Report) (h : s.HomeFrame r) : s.HomeFrame (r.report e) := h.appendWords _

theorem closeInterval (d : Nat) (i : Interval) (h : s.HomeFrame r) : s.HomeFrame (r.closeInterval d i) :=
  .ite h.setIntervals (h.setIntervals.appendWords _)

theorem openInterval (e : Report) (counted : Bool) (h : s.HomeFrame r) : s.HomeFrame (r.openInterval e counted) :=
  (h.report e).setIntervals

theorem reportLimited (e : Report) (counted : Bool) (h : s.HomeFrame r) :
    s.HomeFrame (r.reportLimited e counted) := by
  unfold State.reportLimited
  dsimp only
  split
  · exact h.openInterval _ _
  · exact .ite ((h.closeInterval _ _).openInterval _ _) h.setIntervals

theorem haltCtx (n : Nat) (e : Report) (h : s.HomeFrame r) : s.HomeFrame (r.haltCtx n e) :=
  .ite h ((besideDies h (c := _) (i := r.host)).report e)

theorem machineCheck (id struct code die unit : Nat) (sl : Bool) (addr : Nat) (h : s.HomeFrame r) :
    s.HomeFrame (r.machineCheck id struct code die unit sl addr) := h.haltCtx _ _

theorem fireWaits (p : Team → WaitKind → Bool) (h : s.HomeFrame r) : s.HomeFrame (r.fireWaits p) := by
  refine ⟨h.aside, h.die, ?_⟩
  rw [← h.teams, State.fireWaits, mapWhere_eq_map, List.map_map]
  refine List.map_congr_left fun t _ => ?_
  simp only [Function.comp_apply]
  split <;> rfl

theorem fireLine (sp : PhysSpace) (u line : Nat) (h : s.HomeFrame r) : s.HomeFrame (r.fireLine sp u line) :=
  h.fireWaits _

/-! ### Bins, reads and stores at a home -/

theorem shadowReport (d ctx code addr info : Nat) (h : s.HomeFrame r) :
    s.HomeFrame (r.shadowReport d ctx code addr info) := h.reportLimited _ _

theorem homeChange (d line cls : Nat) (f : Memory → Memory) (h : s.HomeFrame r) :
    s.HomeFrame (r.homeChange d line cls f) :=
  h.modDie fun k => (((Die.Kept.refl k).touch line cls).setMem _).markDirty line

theorem applyFx (d : Nat) (b : Bin) (w : BinWord) (h : s.HomeFrame r) : s.HomeFrame (r.applyFx d b w) := by
  have hw := fun cls (f : Memory → Memory) (g : Die → Memory) (line : Nat) =>
    (h.homeChange d line cls f).setMem (f := g) (d := d)
  unfold State.applyFx
  dsimp only
  refine .ite (h.machineCheck _ _ _ _ _ _ _) (.ite (.shadowReport _ _ _ _ _ ?_) ?_) <;>
    exact .ite ((hw _ _ _ _).shadowReport _ _ _ _ _) (hw _ _ _ _)

theorem applyWord (d : Nat) (b : Bin) (w : BinWord) (h : s.HomeFrame r) : s.HomeFrame (r.applyWord d b w) :=
  .ite (h.applyFx _ _ _) h.setMem

theorem applyBin (d : Nat) (b : Bin) (h : s.HomeFrame r) : s.HomeFrame (r.applyBin d b) := by
  unfold State.applyBin
  refine fireLine _ _ _ (markDirty _ _ (foldl (modDie h fun k => ?_) fun _ w hr => hr.applyWord _ _ w))
  exact ((Die.Kept.refl k).setBins _).touch _ _

theorem applyLine (d line : Nat) (h : s.HomeFrame r) : s.HomeFrame (r.applyLine d line) := by
  unfold State.applyLine
  split
  · exact h.applyBin _ _
  · exact h

theorem reachHome (who d line : Nat) (h : s.HomeFrame r) : s.HomeFrame (r.reachHome who d line) :=
  (((h.recallLine who d line).applyLine d line).noteRequest d line who).touchLine d line

theorem homeRead (c d line : Nat) (lease : Bool) (h : s.HomeFrame r) : s.HomeFrame (r.homeRead c d line lease) :=
  .ite ((h.reachHome c d line).modDie fun k => (Die.Kept.refl k).raiseExp _ _) (h.reachHome c d line)

theorem establish (d ctx fxf shadow pa : Nat) (h : s.HomeFrame r) : s.HomeFrame (r.establish d ctx fxf shadow pa) :=
  .ite (((h.homeChange _ _ _ _).setMem).shadowReport _ _ _ _ _) (h.homeChange _ _ _ _).setMem

theorem lineWrite (d a : Nat) (bytes : List Byte) (h : s.HomeFrame r) : s.HomeFrame (r.lineWrite d a bytes) := by
  have hw : s.HomeFrame (((r.applyLine d (lineOf a)).touchLine d (lineOf a)).modDie d fun k =>
      { k with mem := k.mem.setBytes a bytes }) := ((h.applyLine _ _).touchLine _ _).setMem
  unfold State.lineWrite
  dsimp only
  split
  · exact ((hw.foldl fun _ _ hr => hr.establish _ _ _ _ _).markDirty _ _).fireLine _ _ _
  · exact (hw.markDirty _ _).fireLine _ _ _

theorem homeStore (c d a : Nat) (bytes : List Byte) (h : s.HomeFrame r) :
    s.HomeFrame (r.homeStore c d a bytes).1 := (h.reachHome _ _ _).lineWrite _ _ _

end State.HomeFrame

end Sys2Proof.Machine
end

section
/-! SUPPORT for O58. What the steps of the matrix engine leave (R269, R278, R279, R411). -/

namespace Sys2Proof.Machine

variable {s : State} {t : Team} {c : Nat}

/-! ### A completion's decrement of its counter (R215, R408) -/

theorem State.decCounter_cases (c k source ctx : Nat) :
    (s.counter c k = 0#32 ∧ s.HomeFrame (s.decCounter c k source ctx)) ∨
      (s.counter c k ≠ 0#32 ∧ s.decCounter c k source ctx = s.setCounter c k (s.counter c k - 1#32)) := by
  unfold decCounter
  dsimp only
  split
  · exact .inl ⟨‹_›, (HomeFrame.refl s).report _⟩
  · exact .inr ⟨‹_›, rfl⟩

/-- A decrement leaves every part of the core but its counters. -/
theorem State.core_decCounter {α : Type} (f : Core → α) (hf : ∀ (k : Core) (l : List (Nat × W32)), f { k with counters := l } = f k)
    (c k source ctx : Nat) : f ((s.decCounter c k source ctx).core c) = f (s.core c) := by
  rcases s.decCounter_cases c k source ctx with ⟨-, h⟩ | ⟨-, h⟩
  · rw [h.core]
  · rw [h, setCounter, fireCounter, core_fireWaits, core_modCore, hf]

theorem State.counter_decCounter (c k source ctx : Nat) :
    (s.decCounter c k source ctx).counter c k = if s.counter c k = 0#32 then 0#32 else s.counter c k - 1#32 := by
  rcases s.decCounter_cases c k source ctx with ⟨h0, h⟩ | ⟨h0, h⟩
  · rw [h.counter, if_pos h0, h0]
  · rw [h, counter_setCounter, if_neg h0]

theorem State.team_decCounter {n : Nat} (c k source ctx : Nat) (h : s.team? n = some t) :
    ∃ w o, (s.decCounter c k source ctx).team? n = some (t.tested w o) := by
  rcases s.decCounter_cases c k source ctx with ⟨-, hd⟩ | ⟨-, hd⟩
  · exact hd.team h
  · rw [hd, setCounter]
    exact team_fireWaits h

/-! ### The steps of the engine -/

variable {o : MatOp} {before rest : List MatOp} {n : Nat}

theorem State.matStart_eq (h : s.matHead c = some (before, o, rest, n)) (hs : o.started = false) (hn : o.step < n)
    (hf : s.forkHolds o.uid = true) :
    s.matStart c = some (s.modCore c fun k => { k with mats := before ++ { o with started := true } :: rest }) := by
  simp [matStart, h, hs, hf, Nat.not_le.2 hn]

/-- The core after step `o.step` of the operation at the head. -/
def Core.afterStep (k : Core) (m : Memory) (before rest : List MatOp) (o : MatOp) : Core :=
  { k with scratch := m, mats := before ++ { o with step := o.step + 1 } :: rest }

theorem State.matStep_bad {p : Nat × Nat} (h : s.matHead c = some (before, o, rest, n)) (ht : s.team? o.uid = some t)
    (hs : o.started = true) (hn : o.step < n)
    (hb : (o.stepReads (s.core c).scratch o.step).find? (fun p => (s.core c).badAt (o.scrBase + p.1) p.2) = some p) :
    s.matStep c = some (s.machineCheck t.ctx 5 0 (c / 64) (c % 64) false (o.scrBase + p.1)) := by
  simp [matStep, h, ht, hs, hb, Nat.not_le.2 hn]

theorem State.matStep_sound (h : s.matHead c = some (before, o, rest, n)) (ht : s.team? o.uid = some t)
    (hs : o.started = true) (hn : o.step < n)
    (hb : (o.stepReads (s.core c).scratch o.step).find? (fun p => (s.core c).badAt (o.scrBase + p.1) p.2) = none) :
    s.matStep c =
      let y := o.doStep (s.core c).scratch (t.tile o.tile) o.step
      let k := (s.core c).afterStep y.1 before rest o
      some (if o.kind = .msta then
          s.setCore c (k.mend (o.scrBase + o.d.aAt .msta [] (o.rows.getD o.step 0) 0) (o.d.n * o.d.esz))
        else (s.setCore c k).putTeam (t.setTile o.tile y.2)) := by
  have hgo : ¬(!o.started || decide (n ≤ o.step)) = true := by simp [hs, hn]
  simp only [matStep, h, ht, if_neg hgo, hb]
  by_cases hk : o.kind = .msta
  · rw [if_pos hk, if_pos hk]
    rfl
  · rw [if_neg hk, if_neg hk]
    rfl

/-- The state in which an operation that ends leaves the queue, MMAS with its step count (R273). -/
def State.matEnded (s : State) (c : Nat) (o : MatOp) (before rest : List MatOp) : State :=
  let r := s.modCore c fun k => { k with mats := before ++ rest }
  (if o.kind = .mmas then r.modTeam o.uid fun t => t.setS o.dest (BitVec.ofNat 64 o.step) else r).released s o.uid

theorem State.matComplete_none (h : s.matHead c = some (before, o, rest, n))
    (hn : o.step < n ∨ (o.started = false ∧ s.forkHolds o.uid = false)) : s.matComplete c = none := by
  simp only [matComplete, h]
  rw [if_pos (by simpa using hn)]

/-- The state with the counter of an operation that has ended decremented, while its team is there (R215). -/
def State.matPaid (s : State) (c : Nat) (o : MatOp) : State :=
  match o.ctr, s.team? o.uid with
  | some k, some t => s.decCounter c k 1 t.ctx
  | _, _ => s

theorem State.matComplete_eq (h : s.matHead c = some (before, o, rest, n)) (hn : n ≤ o.step)
    (hs : o.started = true ∨ s.forkHolds o.uid = true) :
    s.matComplete c = some ((s.matEnded c o before rest).matPaid c o) := by
  have hgo : ¬(decide (o.step < n) || (!o.started && !s.forkHolds o.uid)) = true := by
    rcases hs with hs | hs <;> simp [hs, Nat.not_lt.2 hn]
  have hpaid : ∀ r : State, (match o.ctr, r.team? o.uid with
      | some k, some t => some (r.decCounter c k 1 t.ctx)
      | _, _ => some r) = some (r.matPaid c o) := by
    intro r
    unfold matPaid
    cases o.ctr <;> cases r.team? o.uid <;> rfl
  unfold matComplete
  rw [h]
  exact (if_neg hgo).trans (hpaid _)

theorem State.core_matEnded : (s.matEnded c o before rest).core c = { s.core c with mats := before ++ rest } := by
  unfold matEnded
  split <;> simp

theorem State.counter_matEnded (k : Nat) : (s.matEnded c o before rest).counter c k = s.counter c k := by
  unfold counter
  rw [core_matEnded]

theorem State.team_matEnded (ht : s.team? o.uid = some t) :
    ∃ u, (s.matEnded c o before rest).team? o.uid = some u ∧
      (o.kind = .mmas → o.dest < 64 → u.getS o.dest = BitVec.ofNat 64 o.step) := by
  have hr : (s.modCore c fun k => { k with mats := before ++ rest }).team? o.uid = some t := ht
  unfold matEnded
  dsimp only
  generalize (s.modCore c fun k => { k with mats := before ++ rest }) = r at hr ⊢
  split
  · obtain ⟨since, hu⟩ := team_released (before := s)
      (team_modTeam r (f := fun t => t.setS o.dest (BitVec.ofNat 64 o.step)) (fun u => setS_uid u _ _) hr)
    exact ⟨_, hu, fun _ hd => by simp [Team.getS, Team.setS, hd]⟩
  · obtain ⟨since, hu⟩ := team_released (before := s) hr
    exact ⟨_, hu, fun hk => absurd hk ‹_›⟩

theorem State.core_matPaid {α : Type} (f : Core → α)
    (hf : ∀ (k : Core) (l : List (Nat × W32)), f { k with counters := l } = f k) (c : Nat) (o : MatOp) :
    f ((s.matPaid c o).core c) = f (s.core c) := by
  unfold matPaid
  split
  · exact core_decCounter f hf _ _ _ _
  · rfl

theorem State.counter_matPaid {k : Nat} (ht : s.team? o.uid = some t) (hk : o.ctr = some k) (c : Nat) :
    (s.matPaid c o).counter c k = if s.counter c k = 0#32 then 0#32 else s.counter c k - 1#32 := by
  unfold matPaid
  rw [hk, ht]
  exact counter_decCounter _ _ _ _

theorem State.team_matPaid (ht : s.team? o.uid = some t) (c : Nat) :
    ∃ w e, (s.matPaid c o).team? o.uid = some (t.tested w e) := by
  unfold matPaid
  split
  · exact team_decCounter _ _ _ _ ht
  · exact ⟨t.wait, t.donationOver, ht⟩

/-- An operation's end: out of the queue, MMAS with its step count, and its counter one lower (R215, R273, R279). -/
theorem State.matEnd_leaves :
    let r := (s.matEnded c o before rest).matPaid c o
    (r.core c).mats = before ++ rest ∧
      (∀ n, o.ctr = some n → (s.team? o.uid).isSome → s.counter c n ≠ 0#32 → r.counter c n = s.counter c n - 1#32) ∧
      (o.kind = .mmas → ∀ t, s.team? o.uid = some t → o.dest < 64 →
        ∃ u, r.team? o.uid = some u ∧ u.getS o.dest = BitVec.ofNat 64 o.step) := by
  intro r
  simp only [r]
  refine ⟨?_, fun n hn ht h0 => ?_, fun hkind t ht hd => ?_⟩
  · rw [core_matPaid Core.mats (fun _ _ => rfl), core_matEnded]
  · obtain ⟨t, ht⟩ := Option.isSome_iff_exists.1 ht
    obtain ⟨u, hu, -⟩ := team_matEnded (c := c) (before := before) (rest := rest) ht
    rw [counter_matPaid hu hn, counter_matEnded, if_neg h0]
  · obtain ⟨u, hu, hreg⟩ := team_matEnded (c := c) (before := before) (rest := rest) ht
    obtain ⟨w, e, hpaid⟩ := team_matPaid hu c
    exact ⟨_, hpaid, hreg hkind hd⟩

end Sys2Proof.Machine
end

section
/-! SUPPORT for O58. The words of a tile, and what a fold over its elements writes (R263, R264). -/

namespace Sys2Proof.Machine

/-! ### The words of a tile -/

variable {α : Type}

theorem lookup_of_not_mem {d : α} {i : Nat} {l : List (Nat × α)} (h : i ∉ l.map Prod.fst) : lookup d i l = d := by
  induction l with
  | nil => rfl
  | cons p rest ih =>
    simp only [List.map_cons, List.mem_cons, not_or] at h
    rw [lookup, if_neg (Ne.symm h.1), ih h.2]

theorem lookup_removeAt_self {d : α} {i : Nat} {l : List (Nat × α)} (h : (l.map Prod.fst).Nodup) :
    lookup d i (removeAt i l) = d := by
  induction l with
  | nil => rfl
  | cons p rest ih =>
    obtain ⟨hp, hrest⟩ := List.nodup_cons.1 (List.map_cons ▸ h)
    by_cases hi : p.1 = i
    · rw [removeAt, if_pos hi]
      exact lookup_of_not_mem (hi ▸ hp)
    · rw [removeAt, if_neg hi, lookup, if_neg hi, ih hrest]

theorem removeAt_sublist (i : Nat) (l : List (Nat × α)) : (removeAt i l).Sublist l := by
  induction l with
  | nil => exact .refl _
  | cons p rest ih =>
    rw [removeAt]
    split
    · exact List.sublist_cons_self _ _
    · exact ih.cons_cons _

theorem mem_keys_insertAt {i k : Nat} {v : α} {l : List (Nat × α)} (h : k ∈ (insertAt i v l).map Prod.fst) :
    k = i ∨ k ∈ l.map Prod.fst := by
  induction l with
  | nil => exact .inl (by simpa [insertAt] using h)
  | cons p rest ih =>
    by_cases hi : p.1 = i
    · simp only [insertAt, if_pos hi] at h
      simpa [hi] using h
    · simp only [insertAt, if_neg hi, List.map_cons, List.mem_cons] at h ⊢
      rcases h with h | h
      · exact .inr (.inl h)
      · exact (ih h).imp_right .inr

theorem nodup_keys_insertAt {i : Nat} {v : α} {l : List (Nat × α)} (h : (l.map Prod.fst).Nodup) :
    ((insertAt i v l).map Prod.fst).Nodup := by
  induction l with
  | nil => simp [insertAt]
  | cons p rest ih =>
    obtain ⟨hp, hrest⟩ := List.nodup_cons.1 (List.map_cons ▸ h)
    by_cases hi : p.1 = i
    · rw [insertAt, if_pos hi]
      exact List.nodup_cons.2 ⟨hi ▸ hp, hrest⟩
    · rw [insertAt, if_neg hi, List.map_cons]
      exact List.nodup_cons.2 ⟨fun hmem => (mem_keys_insertAt hmem).elim hi hp, ih hrest⟩

/-- A tile that lists no word twice. -/
def Tile.Keyed (x : Tile) : Prop := (x.map Prod.fst).Nodup

variable {x : Tile}

theorem Tile.Keyed.setWord (h : x.Keyed) (i : Nat) (w : W32) : (x.setWord i w).Keyed := by
  unfold Tile.setWord
  split
  · exact h.sublist ((removeAt_sublist i x).map _)
  · exact nodup_keys_insertAt h

theorem Tile.word_setWord (h : x.Keyed) (i j : Nat) (w : W32) :
    (x.setWord i w).word j = if j = i then w else x.word j := by
  unfold setWord word
  split_ifs with hw hj hj
  · rw [hj, hw, lookup_removeAt_self h]
  · exact lookup_removeAt_other _ _ hj
  · rw [hj, lookup_insertAt_self]
  · exact lookup_insertAt_other _ _ _ hj

theorem Tile.elem_f32 (x : Tile) (r c : Nat) : x.elem false r c = (x.word (64 * r + c)).toNat := rfl

theorem Tile.elem_lt (x : Tile) (r c : Nat) : x.elem false r c < 2 ^ 32 := (x.word (64 * r + c)).isLt

/-- The words of an F32 view are numbered by their row and their column below 64. -/
theorem Tile.elem_setWord (h : x.Keyed) {r c r' c' : Nat} (hc : c < 64) (hc' : c' < 64) (w : W32) :
    (x.setWord (64 * r + c) w).elem false r' c' = if r' = r ∧ c' = c then w.toNat else x.elem false r' c' := by
  have hi : 64 * r' + c' = 64 * r + c ↔ r' = r ∧ c' = c := by omega
  rw [elem_f32, elem_f32, word_setWord h, apply_ite BitVec.toNat, if_congr hi rfl rfl]

theorem Tile.elem_setElem (h : x.Keyed) {r c r' c' v : Nat} (hc : c < 64) (hc' : c' < 64) (hv : v < 2 ^ 32) :
    (x.setElem false r c v).elem false r' c' = if r' = r ∧ c' = c then v else x.elem false r' c' := by
  rw [setElem, if_neg (by simp), elem_setWord h hc hc', BitVec.toNat_ofNat, Nat.mod_eq_of_lt hv]

/-! ### Folds over the elements (R268, R274, R275) -/

/-- A change that sets each element of the F32 view to a function of the element itself, and changes no other. -/
def SetsElement (f : Tile → Nat → Nat → Tile) (g : Nat → Nat → Nat → Nat) : Prop :=
  ∀ (x : Tile) (r c : Nat), x.Keyed → c < 64 → (f x r c).Keyed ∧ ∀ r' c', c' < 64 →
    (f x r c).elem false r' c' = if r' = r ∧ c' = c then g r c (x.elem false r c) else x.elem false r' c'

variable {f : Tile → Nat → Nat → Tile} {g : Nat → Nat → Nat → Nat}

theorem SetsElement.row (hf : SetsElement f g) (r : Nat) {cols : List Nat} (hn : cols.Nodup) (hc : ∀ c ∈ cols, c < 64)
    (hx : x.Keyed) : (cols.foldl (fun x c => f x r c) x).Keyed ∧ ∀ r' c', c' < 64 →
      (cols.foldl (fun x c => f x r c) x).elem false r' c' =
        if r' = r ∧ c' ∈ cols then g r c' (x.elem false r c') else x.elem false r' c' := by
  induction cols generalizing x with
  | nil => exact ⟨hx, fun _ _ _ => by simp⟩
  | cons c rest ih =>
    obtain ⟨hnot, hrest⟩ := List.nodup_cons.1 hn
    obtain ⟨hkey, helem⟩ := hf x r c hx (hc c (by simp))
    obtain ⟨hk, he⟩ := ih hrest (fun d hd => hc d (by simp [hd])) hkey
    refine ⟨hk, fun r' c' hc' => ?_⟩
    rw [List.foldl_cons, he r' c' hc', helem r c' hc', helem r' c' hc']
    by_cases hr : r' = r
    · by_cases heq : c' = c
      · subst hr heq
        simp [hnot]
      · simp [hr, heq]
    · simp [hr]

/-- A fold over elements sets each of them once. -/
theorem SetsElement.overElems (hf : SetsElement f g) {rows cols : List Nat} (hrows : rows.Nodup) (hcols : cols.Nodup)
    (hc : ∀ c ∈ cols, c < 64) (hx : x.Keyed) :
    (overElems f rows cols x).Keyed ∧ ∀ r' c', c' < 64 → (overElems f rows cols x).elem false r' c' =
      if r' ∈ rows ∧ c' ∈ cols then g r' c' (x.elem false r' c') else x.elem false r' c' := by
  induction rows generalizing x with
  | nil => exact ⟨hx, fun _ _ _ => by simp [Machine.overElems]⟩
  | cons r rest ih =>
    obtain ⟨hnot, hrest⟩ := List.nodup_cons.1 hrows
    obtain ⟨hkey, helem⟩ := hf.row r hcols hc hx
    obtain ⟨hk, he⟩ := ih hrest hkey
    refine ⟨hk, fun r' c' hc' => ?_⟩
    have hfold : Machine.overElems f (r :: rest) cols x =
        Machine.overElems f rest cols (cols.foldl (fun x c => f x r c) x) := rfl
    rw [hfold, he r' c' hc', helem r' c' hc']
    by_cases hr : r' = r
    · subst hr
      simp [hnot]
    · simp [hr]

theorem setsElement_of_setElem (hf : ∀ x r c, f x r c = x.setElem false r c (g r c (x.elem false r c)))
    (hg : ∀ r c e, g r c e < 2 ^ 32) : SetsElement f g := by
  intro x r c hx hc
  rw [hf]
  refine ⟨?_, fun r' c' hc' => Tile.elem_setElem hx hc hc' (hg r c _)⟩
  rw [Tile.setElem, if_neg (by simp)]
  exact hx.setWord _ _

end Sys2Proof.Machine
end

section
/-! SUPPORT for O58. What rounding answers fits its format, and what each step of a matrix operation writes (R77, R268,
R274, R275); and the second part of the obligation. -/

namespace Sys2Proof.Machine

/-! ### Encodings fit their format -/

/-- No fraction reaches the power of two above its exponent. -/
theorem lt_ilog2 {n d : Nat} (hd : 0 < d) : (n : ℚ) < d * 2 ^ (ilog2 n d + 1) := by
  have hn : (n : ℚ) < 2 ^ ((n.log2 : Int) + 1) := by
    have h : n < 2 ^ (n.log2 + 1) := Nat.lt_log2_self
    exact_mod_cast h
  have hlog : (2 : ℚ) ^ (d.log2 : Int) ≤ d := by
    have h : 2 ^ d.log2 ≤ d := Nat.log2_self_le hd.ne'
    exact_mod_cast h
  have hbound : (n : ℚ) < d * 2 ^ ((n.log2 : Int) - d.log2 + 1) := by
    calc (n : ℚ) < 2 ^ ((n.log2 : Int) + 1) := hn
      _ = 2 ^ (d.log2 : Int) * 2 ^ ((n.log2 : Int) - d.log2 + 1) := by
        rw [← zpow_add₀ (by norm_num)]
        congr 1
        omega
      _ ≤ d * 2 ^ ((n.log2 : Int) - d.log2 + 1) := by gcongr
  unfold ilog2
  dsimp only
  split_ifs with hk hlt hlt
  · rw [sub_add_cancel, ← Int.toNat_of_nonneg hk]
    exact_mod_cast hlt
  · exact hbound
  · rw [sub_add_cancel]
    have h : (n : ℚ) * 2 ^ (-((n.log2 : Int) - d.log2)) < d := by
      rw [← Int.toNat_of_nonneg (a := -((n.log2 : Int) - d.log2)) (by omega)]
      exact_mod_cast hlt
    rw [zpow_neg, ← div_eq_mul_inv, div_lt_iff₀ (by positivity)] at h
    exact h
  · exact hbound

/-- The significand of a magnitude at or above its exponent has no more than its bits. -/
theorem significand_lt {n d w : Nat} {e : Int} (h : ilog2 n d ≤ e) : (significand n d (e - w)).1 < 2 ^ (w + 1) := by
  rcases Nat.eq_zero_or_pos d with rfl | hd
  · simp [significand]
  have hlt : (n : ℚ) < d * 2 ^ (e + 1) := (lt_ilog2 hd).trans_le (by gcongr; norm_num)
  unfold significand
  dsimp only
  split_ifs with hq
  · rw [Nat.div_lt_iff_lt_mul (by positivity)]
    have hpow : (2 : ℚ) ^ (e + 1) = 2 ^ (e - w).toNat * 2 ^ (w + 1) := by
      rw [← pow_add, ← zpow_natCast]
      congr 1
      omega
    rw [hpow] at hlt
    have : n < d * (2 ^ (e - w).toNat * 2 ^ (w + 1)) := by exact_mod_cast hlt
    linarith
  · rw [Nat.div_lt_iff_lt_mul hd]
    have hpow : (2 : ℚ) ^ (e + 1) * 2 ^ (-(e - w)).toNat = 2 ^ (w + 1) := by
      rw [← zpow_natCast, ← zpow_natCast, ← zpow_add₀ (by norm_num)]
      congr 1
      omega
    have hmul : (n : ℚ) * 2 ^ (-(e - w)).toNat < 2 ^ (w + 1) * d := by
      calc (n : ℚ) * 2 ^ (-(e - w)).toNat < d * 2 ^ (e + 1) * 2 ^ (-(e - w)).toNat := by gcongr
        _ = 2 ^ (w + 1) * d := by rw [mul_assoc, hpow, mul_comm]
    exact_mod_cast hmul

variable {f : Fmt}

theorem Fmt.infinity_lt (neg : Bool) : f.infinity neg < 2 * 2 ^ (f.ew + f.fw) := by
  have h : (2 ^ f.ew - 1) * 2 ^ f.fw < 2 ^ (f.ew + f.fw) := by
    rw [Nat.pow_add]
    exact Nat.mul_lt_mul_of_pos_right (by have := Nat.two_pow_pos f.ew; omega) (by positivity)
  unfold infinity
  split <;> omega

theorem Fmt.zero_lt (neg : Bool) : f.zero neg < 2 * 2 ^ (f.ew + f.fw) := by
  have := Nat.two_pow_pos (f.ew + f.fw)
  unfold zero
  split <;> omega

theorem Fmt.canonicalNan_lt : f.canonicalNan < 2 * 2 ^ (f.ew + f.fw) := by
  have h : f.infinity false < 2 ^ (f.ew + f.fw) := by
    have := f.infinity_lt true
    simp only [infinity, if_true, Bool.false_eq_true, if_false] at this ⊢
    omega
  have hle : 2 ^ (f.fw - 1) ≤ 2 ^ (f.ew + f.fw) := Nat.pow_le_pow_right (by norm_num) (by omega)
  unfold canonicalNan
  omega

theorem overflowBits_lt (neg : Bool) (rnd : Nat) : overflowBits f neg rnd < 2 * 2 ^ (f.ew + f.fw) := by
  have h := f.infinity_lt
  have hl : ∀ neg, f.largest neg < 2 * 2 ^ (f.ew + f.fw) := fun neg => (Nat.sub_le _ _).trans_lt (h neg)
  unfold overflowBits
  split
  · exact hl _
  · cases neg
    · exact hl _
    · exact h _
  · cases neg
    · exact h _
    · exact hl _
  · exact h _

/-- The encoding put together from an exponent in range and a significand. -/
theorem Fmt.fields_lt (hw : 2 ≤ f.ew) (neg : Bool) {e : Int} {m : Nat} (he : e ≤ f.bias) (hm : m ≤ 2 ^ (f.fw + 1)) :
    f.zero neg + ((e + f.bias - 1).toNat * 2 ^ f.fw + m) < 2 * 2 ^ (f.ew + f.fw) := by
  have hbias := f.two_bias (by omega)
  have hpow : 2 ^ 2 ≤ 2 ^ f.ew := Nat.pow_le_pow_right (by norm_num) hw
  have hpos : 0 < 2 ^ f.fw := by positivity
  have hexp : (e + f.bias - 1).toNat * 2 ^ f.fw ≤ (2 * f.bias - 1) * 2 ^ f.fw := Nat.mul_le_mul_right _ (by omega)
  have htop : (2 * f.bias - 1) * 2 ^ f.fw + 2 ^ (f.fw + 1) + 2 ^ f.fw = 2 ^ (f.ew + f.fw) := by
    rw [Nat.pow_add 2 f.ew, ← hbias, Nat.pow_succ]
    obtain ⟨b, hb⟩ : ∃ b, f.bias = b + 1 := ⟨f.bias - 1, by omega⟩
    rw [hb, show 2 * (b + 1) - 1 = 2 * b + 1 by omega]
    ring
  have hzero : f.zero neg ≤ 2 ^ (f.ew + f.fw) := by
    unfold zero
    split <;> omega
  omega

/-- What saturation and flushing make of an encoding (R70, R71). -/
theorem flushed_lt {raw : Nat} (z : Rounding) (neg : Bool) (h : raw < 2 * 2 ^ (f.ew + f.fw)) :
    (let y := if raw = f.infinity neg && z.sat then f.largest neg else raw
     if z.dnz && f.isSubnormal y then f.zero neg else y) < 2 * 2 ^ (f.ew + f.fw) := by
  have hlargest : f.largest neg < 2 * 2 ^ (f.ew + f.fw) := (Nat.sub_le _ _).trans_lt (f.infinity_lt _)
  have hy : (if (decide (raw = f.infinity neg) && z.sat) = true then f.largest neg else raw) <
      2 * 2 ^ (f.ew + f.fw) := by
    split
    · exact hlargest
    · exact h
  dsimp only
  generalize (if (decide (raw = f.infinity neg) && z.sat) = true then f.largest neg else raw) = y at hy ⊢
  split
  · exact f.zero_lt _
  · exact hy

theorem roundFinite_lt (hw : 2 ≤ f.ew) (z : Rounding) (num : Int) (den : Nat) :
    roundFinite f z num den < 2 * 2 ^ (f.ew + f.fw) := by
  have hbias := f.two_bias (by omega)
  have hpow : 2 ^ 2 ≤ 2 ^ f.ew := Nat.pow_le_pow_right (by norm_num) hw
  have hsig : ∀ b : Bool, (if b then (significand num.natAbs den
      (max (ilog2 num.natAbs den) (1 - (f.bias : Int)) - f.fw)).1 + 1 else (significand num.natAbs den
      (max (ilog2 num.natAbs den) (1 - (f.bias : Int)) - f.fw)).1) ≤ 2 ^ (f.fw + 1) := by
    intro b
    have := significand_lt (w := f.fw) (le_max_left (ilog2 num.natAbs den) (1 - (f.bias : Int)))
    split <;> omega
  refine flushed_lt z _ ?_
  split_ifs with hover
  · exact overflowBits_lt _ _
  · exact Fmt.fields_lt hw _ (by omega) (hsig _)

theorem roundFmt_lt (hw : 2 ≤ f.ew) (z : Rounding) (x : XReal) : roundFmt f z x < 2 * 2 ^ (f.ew + f.fw) := by
  cases x with
  | nan => exact Fmt.canonicalNan_lt
  | inf neg => exact Fmt.infinity_lt neg
  | zero neg => exact Fmt.zero_lt neg
  | fin n d => exact roundFinite_lt hw z n d

/-! ### The steps of an operation -/

variable {o : MatOp} {m : Memory} {x : Tile} {j : Nat}

theorem MatOp.nodup_rows (o : MatOp) : o.rows.Nodup := List.nodup_range.filter _

theorem MatOp.kl_eq_range (hk : o.kind ≠ .mmas) (m : Memory) : o.kl m = List.range o.d.k := by
  unfold kl
  rw [List.filter_eq_self]
  intro k _
  simp [live, hk]

/-- The pair of a step: the values of k whose half is the step's number (R268). -/
theorem take_drop_range (n j : Nat) :
    ((List.range n).drop (2 * j)).take 2 = (List.range n).filter fun k => k / 2 == j := by
  induction n with
  | zero => simp
  | succ n ih =>
    rw [List.range_succ, List.filter_append, ← ih, List.drop_append, List.length_range, List.take_append,
      List.length_drop, List.length_range]
    congr 1
    by_cases hj : n / 2 = j
    · have hd : 2 * j - n = 0 := by omega
      have ht : 2 - (n - 2 * j) = 1 ∨ 2 - (n - 2 * j) = 2 := by omega
      rcases ht with ht | ht <;> simp [hd, ht, hj]
    · have : 2 - (n - 2 * j) = 0 ∨ 1 ≤ 2 * j - n := by omega
      rcases this with h | h
      · simp [h, hj]
      · obtain ⟨i, hi⟩ : ∃ i, 2 * j - n = i + 1 := ⟨2 * j - n - 1, by omega⟩
        simp [hi, hj]

theorem f32_lt (z : Rounding) (v : XReal) : roundFmt .f32 z v < 2 ^ 32 := roundFmt_lt (by decide) z v

/-- The value that a pair of k leaves in an element of the F32 view (R268). -/
def MatOp.pairValue (o : MatOp) (m : Memory) (ks : List Nat) (r c old : Nat) : Nat :=
  if ks.isEmpty then old
  else roundFmt .f32 o.rounding (sumExact (o.rnd == 2) (Fmt.f32.decode false old :: ks.map (o.term m r c)))

theorem setsElement_id : SetsElement (fun x _ _ => x) fun _ _ old => old :=
  fun x r c hx _ => ⟨hx, fun r' c' _ => by split <;> simp_all⟩

theorem MatDesc.f64_false {d : MatDesc} (h : d.fmt ≠ 3) : d.f64 = false := by simpa [f64] using h

theorem MatOp.updateElem_sets (hk : o.kind ≠ .mmas) (hf : o.d.fmt ≤ 1) (ks : List Nat) :
    SetsElement (o.updateElem m ks) (o.pairValue m ks) := by
  have hf64 : o.d.f64 = false := MatDesc.f64_false (by omega)
  have hall : ∀ r c, ks.filter (fun k => o.present m r k c) = ks := fun r c =>
    List.filter_eq_self.2 fun k _ => by simp [present, hk]
  cases hks : ks.isEmpty
  · refine setsElement_of_setElem (fun x r c => ?_) fun r c e => ?_
    · simp [updateElem, pairValue, hall, hks, hf64, MatDesc.accFormat]
    · simp only [pairValue, hks, Bool.false_eq_true, if_false]
      exact f32_lt _ _
  · have hid : o.updateElem m ks = fun x _ _ => x := by
      funext x r c
      simp [updateElem, hall, hks]
    have hval : o.pairValue m ks = fun _ _ old => old := by
      funext r c old
      simp [pairValue, hks]
    rw [hid, hval]
    exact setsElement_id

/-- What a step of a 16-bit multiply without bitmaps leaves in an element (R268, R269). -/
theorem MatOp.elem_pairStep (hk : o.kind ≠ .mmas) (hf : o.d.fmt ≤ 1) (hn : o.d.n ≤ 64) (hx : x.Keyed) {r c : Nat}
    (hc : c < 64) :
    (o.pairStep m x j).elem false r c = if r ∈ o.rows ∧ c < o.d.n then
      o.pairValue m ((List.range o.d.k).filter fun k => k / 2 == j) r c (x.elem false r c) else x.elem false r c := by
  have hstep : o.pairStep m x j = overElems (o.updateElem m ((List.range o.d.k).filter fun k => k / 2 == j)) o.rows
      (List.range o.d.n) x := by
    simp only [pairStep, share, if_pos hf, kl_eq_range hk, take_drop_range]
  obtain ⟨-, helem⟩ := (updateElem_sets (m := m) hk hf ((List.range o.d.k).filter fun k => k / 2 == j)).overElems
    o.nodup_rows List.nodup_range (fun c hc => (List.mem_range.1 hc).trans_le hn) hx
  rw [hstep, helem r c hc]
  simp only [List.mem_range]

/-- A pair of k lies below the depth exactly where its first value does. -/
theorem filter_pair_isEmpty (n j : Nat) : ((List.range n).filter fun k => k / 2 == j).isEmpty = decide (n ≤ 2 * j) := by
  rw [Bool.eq_iff_iff, List.isEmpty_iff, List.filter_eq_nil_iff, decide_eq_true_eq]
  simp only [List.mem_range, beq_iff_eq]
  exact ⟨fun h => by_contra fun hlt => h (2 * j) (by omega) (by omega), fun h k hk => by omega⟩

/-- The product of a 16-bit MMA for one value of k (R266, R268). -/
theorem MatOp.term_mma (hk : o.kind = .mma) (hf : o.d.fmt ≤ 1) (r c : Nat) :
    o.term m r c = fun k => (o.d.format.decode false (m.read (o.scrBase + o.d.aoff + r * o.d.astr + 2 * k) 2)).mul
      (o.d.format.decode false (m.read (o.scrBase + o.d.boff + k * o.d.bstr + 2 * c) 2)) := by
  funext k
  simp only [term, read, MatDesc.aAt, MatDesc.bAt, hk, MatDesc.esz, if_pos hf, Nat.mul_comm _ 2, Nat.add_assoc]

theorem leNat_lt (l : List Byte) : leNat l < 256 ^ l.length := by
  induction l with
  | nil => simp [leNat]
  | cons b rest ih =>
    have := b.isLt
    rw [leNat, List.length_cons, Nat.pow_succ]
    omega

theorem Memory.read_lt (m : Memory) (a n : Nat) : m.read a n < 256 ^ n := by
  rw [read]
  exact (leNat_lt _).trans_eq (by rw [length_bytes])

theorem MatOp.loadElem_sets (hf : o.d.fmt = 2) :
    SetsElement (o.loadElem m) fun r c _ => m.read (o.scrBase + o.d.aoff + r * o.d.astr + 4 * c) 4 := by
  have hf64 : o.d.f64 = false := MatDesc.f64_false (by omega)
  have h1 : ¬o.d.fmt ≤ 1 := by omega
  refine setsElement_of_setElem (fun x r c => ?_) fun _ _ _ => Memory.read_lt _ _ 4
  simp only [loadElem, if_neg h1, hf64, read, MatDesc.aAt, MatDesc.esz, if_pos hf, Nat.mul_comm _ 4, Nat.add_assoc]

theorem setsElement_zero : SetsElement (fun x r c => x.setWord (64 * r + c) 0#32) fun _ _ _ => 0 :=
  setsElement_of_setElem (fun x r c => by simp [Tile.setElem]) fun _ _ _ => by norm_num

/-! ### The rows that MSTA stores -/

/-- Element (r, c) stored in F32. -/
def MatOp.storeAt (o : MatOp) (x : Tile) (r : Nat) (m : Memory) (c : Nat) : Memory :=
  m.setBytes (o.scrBase + o.d.aAt .msta [] r c) (o.storeElem x r c)

theorem MatOp.storeRow_eq (r : Nat) : o.storeRow x r m = (List.range o.d.n).foldl (o.storeAt x r) m := rfl

theorem MatOp.storeElem_f32 (hf : o.d.fmt = 2) (r c : Nat) : o.storeElem x r c = leBytes 4 (x.elem false r c) := by
  have hf64 : o.d.f64 = false := MatDesc.f64_false (by omega)
  simp [storeElem, hf, hf64, MatDesc.esz]

theorem MatOp.read_storeAt_self (hf : o.d.fmt = 2) (hm : m.wf = true) (r c : Nat) :
    (o.storeAt x r m c).read (o.scrBase + o.d.aAt .msta [] r c) 4 = x.elem false r c := by
  rw [storeAt, storeElem_f32 hf]
  exact (Memory.read_write_self _ 4 _ hm).trans (Nat.mod_eq_of_lt (x.elem_lt r c))

theorem MatOp.read_storeAt_other (hf : o.d.fmt = 2) {r c c' : Nat} (h : c ≠ c') :
    (o.storeAt x r m c').read (o.scrBase + o.d.aAt .msta [] r c) 4 = m.read (o.scrBase + o.d.aAt .msta [] r c) 4 := by
  refine Memory.read_setBytes_other ?_
  rw [storeElem_f32 hf, length_leBytes]
  simp only [MatDesc.aAt, MatDesc.esz, hf]
  norm_num
  omega

theorem MatOp.read_storeCols_other (hf : o.d.fmt = 2) {cols : List Nat} {r c : Nat} (h : c ∉ cols) :
    (cols.foldl (o.storeAt x r) m).read (o.scrBase + o.d.aAt .msta [] r c) 4 =
      m.read (o.scrBase + o.d.aAt .msta [] r c) 4 := by
  induction cols generalizing m with
  | nil => rfl
  | cons d rest ih =>
    obtain ⟨hd, hrest⟩ := not_or.1 (List.mem_cons.not.1 h)
    rw [List.foldl_cons, ih hrest, read_storeAt_other hf hd]

theorem MatOp.read_storeCols (hf : o.d.fmt = 2) (hm : m.wf = true) {cols : List Nat} {r c : Nat} (hn : cols.Nodup)
    (hc : c ∈ cols) :
    (cols.foldl (o.storeAt x r) m).read (o.scrBase + o.d.aAt .msta [] r c) 4 = x.elem false r c := by
  induction cols generalizing m with
  | nil => simp at hc
  | cons d rest ih =>
    obtain ⟨hnot, hrest⟩ := List.nodup_cons.1 hn
    rw [List.foldl_cons]
    rcases List.mem_cons.1 hc with rfl | hmem
    · rw [read_storeCols_other hf hnot, read_storeAt_self hf hm]
    · exact ih (Memory.wf_setBytes _ _ hm) hrest hmem

theorem MatOp.rows_getD {r : Nat} (h : o.rows[j]? = some r) : o.rows.getD j 0 = r := by simp [h]

/-! ### The second part of O58 -/

/-- A step of a 16-bit MMA (R268). -/
theorem MatOp.elem_mma (hk : o.kind = .mma) (hf : o.d.fmt ≤ 1) (hn : o.d.n ≤ 64) (hx : x.Keyed) {r c : Nat}
    (hc : c < 64) :
    (o.doStep m x j).2.elem false r c = if r ∈ o.rows ∧ c < o.d.n ∧ 2 * j < o.d.k then
      roundFmt .f32 o.rounding (sumExact (o.rnd == 2) (Fmt.f32.decode false (x.elem false r c) ::
        ((List.range o.d.k).filter fun k => k / 2 == j).map (o.term m r c))) else x.elem false r c := by
  have hstep : (o.doStep m x j).2 = o.pairStep m x j := by simp [doStep, hk]
  rw [hstep, elem_pairStep (by simp [hk]) hf hn hx hc, pairValue, filter_pair_isEmpty]
  by_cases hin : r ∈ o.rows ∧ c < o.d.n
  · by_cases hp : 2 * j < o.d.k
    · rw [if_pos hin, if_neg (by simpa using hp), if_pos ⟨hin.1, hin.2, hp⟩]
    · rw [if_pos hin, if_pos (by simpa using hp), if_neg fun h => hp h.2.2]
  · rw [if_neg hin, if_neg fun h => hin ⟨h.1, h.2.1⟩]

/-- The one step of MZERO (R275). -/
theorem MatOp.elem_mzero (hk : o.kind = .mzero) (hx : x.Keyed) {r c : Nat} (hc : c < 64) :
    (o.doStep m x j).2.elem false r c = if r ∈ o.rows then 0 else x.elem false r c := by
  have hstep : (o.doStep m x j).2 = overElems (fun x r c => x.setWord (64 * r + c) 0#32) o.rows (List.range 64) x := by
    simp [doStep, hk]
  rw [hstep, (setsElement_zero.overElems o.nodup_rows List.nodup_range (by simp) hx).2 r c hc]
  simp [hc]

/-- A step of MLDA without a conversion (R274). -/
theorem MatOp.elem_mlda (hk : o.kind = .mlda) (hf : o.d.fmt = 2) (hj : j < o.rows.length) (hn : o.d.n ≤ 64)
    (hx : x.Keyed) {r c : Nat} (hc : c < 64) :
    (o.doStep m x j).2.elem false r c = if o.rows[j]? = some r ∧ c < o.d.n then
      m.read (o.scrBase + o.d.aoff + r * o.d.astr + 4 * c) 4 else x.elem false r c := by
  have hstep : (o.doStep m x j).2 = overElems (o.loadElem m) [o.rows.getD j 0] (List.range o.d.n) x := by
    simp [doStep, hk]
  rw [hstep, ((loadElem_sets hf).overElems (by simp) List.nodup_range
    (fun c hc => (List.mem_range.1 hc).trans_le hn) hx).2 r c hc]
  simp [List.getElem?_eq_getElem hj, eq_comm]

/-- A step of MSTA without a conversion (R274). -/
theorem MatOp.read_msta (hk : o.kind = .msta) (hf : o.d.fmt = 2) (hm : m.wf = true) {r c : Nat}
    (hr : o.rows[j]? = some r) (hc : c < o.d.n) :
    (o.doStep m x j).1.read (o.scrBase + o.d.aoff + r * o.d.astr + 4 * c) 4 = x.elem false r c := by
  have hstep : (o.doStep m x j).1 = (List.range o.d.n).foldl (o.storeAt x r) m := by
    simp only [doStep, hk, rows_getD hr, storeRow_eq]
  have haddr : o.scrBase + o.d.aoff + r * o.d.astr + 4 * c = o.scrBase + o.d.aAt .msta [] r c := by
    simp only [MatDesc.aAt, MatDesc.esz, hf]
    norm_num
    omega
  rw [hstep, haddr, read_storeCols hf hm List.nodup_range (List.mem_range.2 hc)]

/-- The second part of O58: the matrix engine. -/
theorem matricesRun : MatricesRun := by
  refine ⟨fun s o before rest n => ?_, fun o m x j hn hx => ⟨fun hk hf r c _ hc => ?_,
    fun hk r c _ hc => MatOp.elem_mzero hk hx hc, fun hk hf hj r c _ hc => MatOp.elem_mlda hk hf hj hn hx hc,
    fun hk hf hm r c hr hc => MatOp.read_msta hk hf hm hr hc⟩⟩
  case refine_2 => rw [MatOp.elem_mma hk hf hn hx hc, MatOp.term_mma hk hf]
  intro c scratch hhead
  refine ⟨fun hs hn hf => event_next.2 (State.matStart_eq hhead hs hn hf), fun t ht hs hn => ?_, fun hn hs hf r => ?_,
    fun hn hs => ?_⟩
  · refine ⟨fun p hp => event_next.2 (State.matStep_bad hhead ht hs hn hp), fun hb => ?_⟩
    have hstep := State.matStep_sound hhead ht hs hn hb
    exact ⟨fun hk => event_next.2 (hstep.trans (congrArg some (if_neg hk))),
      fun hk => event_next.2 (hstep.trans (congrArg some (if_pos hk)))⟩
  · intro h
    exact absurd (event_next.1 h) (by rw [State.matComplete_none hhead (.inr ⟨hs, hf⟩)]; simp)
  · exact ⟨_, event_next.2 (State.matComplete_eq hhead hn hs), State.matEnd_leaves⟩

end Sys2Proof.Machine
end

section
/-! SUPPORT for O58. No access of a copy operation changes which operations wait in a core (R186, R237). -/

namespace Sys2Proof.Machine

/-- Every core holds the copy operations that it held in `s`. -/
def State.KeepsCopies (s r : State) : Prop := ∀ c, (r.core c).copies = (s.core c).copies

/-- A state answered with something else holds the copy operations of `s`. -/
def State.KeepsCopiesFst {α : Type} (s : State) (p : State × α) : Prop := s.KeepsCopies p.1

variable {s r : State}

namespace State.KeepsCopies

theorem refl (s : State) : s.KeepsCopies s := fun _ => rfl

/-- A home's work is done at the dies. -/
theorem home {r' : State} (h : s.KeepsCopies r) (hr : r.HomeFrame r') : s.KeepsCopies r' :=
  fun c => by rw [hr.core, h c]

theorem modDie {d : Nat} {f : Die → Die} (h : s.KeepsCopies r) : s.KeepsCopies (r.modDie d f) :=
  fun c => by rw [core_modDie, h c]

theorem modCore {c : Nat} {f : Core → Core} (h : s.KeepsCopies r) (hf : ∀ k : Core, (f k).copies = k.copies) :
    s.KeepsCopies (r.modCore c f) := by
  intro x
  by_cases hx : x = c
  · rw [hx, core_modCore, hf, h c]
  · rw [core_modCore_other _ _ hx, h x]

theorem ite {a b : State} {p : Prop} [Decidable p] (ha : s.KeepsCopies a) (hb : s.KeepsCopies b) :
    s.KeepsCopies (if p then a else b) := by
  split
  · exact ha
  · exact hb

/-! ### Translation and the region cache -/

theorem tableRead {who d a : Nat} (h : s.KeepsCopies r) : Ends s.KeepsCopiesFst (r.tableRead who d a) := by
  unfold State.tableRead
  exact .ite .error (.ite .error (.ok (home (r' := r.homeRead who d (lineOf a) false) h ((HomeFrame.refl r).homeRead _ _ _ _))))

theorem walkFrom {w : Walker} {va : Word} {levels : List (Nat × Nat)} {a : Nat} (h : s.KeepsCopies r) :
    Ends s.KeepsCopiesFst (r.walkFrom w va levels a) := by
  induction levels generalizing r a with
  | nil => exact .bind h.tableRead fun _ hx => .pure hx
  | cons l rest ih => exact .bind h.tableRead fun _ hx => .ite .raise (.ite .raise (ih hx))

theorem leafOf {w : Walker} {va : Word} (h : s.KeepsCopies r) : Ends s.KeepsCopiesFst (r.leafOf w va) := by
  unfold State.leafOf
  dsimp only
  split
  · exact .ok h
  · exact .ite .raise (.bind h.walkFrom fun _ hx => .pure hx)

theorem fillTlb {w : Walker} {va leaf : Word} {a : Nat} (h : s.KeepsCopies r) :
    s.KeepsCopies (r.fillTlb w va leaf a) := by
  unfold State.fillTlb
  split
  · exact h.modCore fun _ => rfl
  · exact h

theorem translate {w : Walker} {va : Word} {kind : Access} {locs : List Nat} (h : s.KeepsCopies r) :
    Ends s.KeepsCopiesFst (r.translate w va kind locs) := by
  refine .ite .raise (.bind h.leafOf fun x hx => ?_)
  refine .ite .raise (.ite .raise (.ite .raise (.ite (.pure hx) ?_)))
  split
  · exact .raise
  · exact .pure (.ite hx (fillTlb hx))

theorem translateResident {w : Walker} {va : Word} {kind : Access} {locs : List Nat} (h : s.KeepsCopies r) :
    Ends s.KeepsCopiesFst (r.translateResident w va kind locs) :=
  .bind h.translate fun _ hx => .ite (.pure hx) .raise

theorem readRegions {who d n a : Nat} (h : s.KeepsCopies r) : Ends s.KeepsCopiesFst (r.readRegions who d n a) := by
  induction n generalizing r a with
  | zero => exact .ok h
  | succ n ih =>
    refine .bind h.tableRead fun _ h0 => .bind (tableRead h0) fun _ h1 => .bind (tableRead h1) fun _ h2 => ?_
    exact .bind (tableRead h2) fun _ h3 => .bind (ih h3) fun _ hx => .pure hx

theorem regionsOf {c ctx : Nat} (h : s.KeepsCopies r) : Ends s.KeepsCopiesFst (r.regionsOf c ctx) := by
  unfold State.regionsOf
  split
  · exact .ok h
  · split
    · exact .ok h
    · exact .bind h.readRegions fun _ hx => .pure (modCore hx fun _ => rfl)

theorem learnFx {c ctx : Nat} {va : Word} {p : Phys} (h : s.KeepsCopies r) :
    s.KeepsCopies (r.learnFx c ctx va p) := by
  unfold State.learnFx
  refine .ite h ?_
  dsimp only
  split
  · exact h
  case h_2 s' es he =>
    have hs : s.KeepsCopies s' := h.regionsOf _ he
    split
    · exact hs.modDie
    · exact .ite hs.modDie hs.modDie

end State.KeepsCopies

/-! ### The accesses of an operation -/

/-- The state that an operation has reached holds the copy operations of `s`. -/
def State.MoveKeeps (s : State) (v : Move) : Prop := s.KeepsCopies v.st

/-- An operation's progress with a further answer. -/
def State.MoveKeepsFst {α : Type} (s : State) (p : Move × α) : Prop := s.MoveKeeps p.1

namespace State.MoveKeeps

variable {v : Move} {c : Nat} {o : CopyOp}

theorem readLock (d page : Nat) : r.HomeFrame (r.readLock d page).1 := (HomeFrame.refl r).reachHome _ _ _

theorem writeLock (d page e : Nat) : r.HomeFrame (r.writeLock d page e) := (HomeFrame.refl r).lineWrite _ _ _

theorem pin {d page : Nat} (h : s.MoveKeeps v) : Ends s.MoveKeeps (v.pin d page) :=
  .ite (.ok h) <| .ite .error <| .ite .error <| .ite .error <|
    .ok (KeepsCopies.home (KeepsCopies.home h (readLock d page)) (writeLock _ _ _))

theorem ready {va : Word} {m : Mapped} (h : s.MoveKeeps v) : Ends s.MoveKeeps (v.ready c va m) := by
  have hf : s.KeepsCopiesFst (v.st.fabricPort (c / 64) m.phys.unit) :=
    KeepsCopies.home h ((HomeFrame.refl v.st).reachHome _ _ _)
  unfold Move.ready
  dsimp only
  split
  · split
    · exact .raise
    · split
      · exact .ite .error (.ok hf)
      · exact .ite .error .raise
  · exact .ite .error (.ok h)
  · exact .ite .error (.ite h.pin (.ok h))

theorem mapParts {ctx : Nat} {kind : Access} {locs : List Nat} {ps : List (Word × Nat)} (h : s.MoveKeeps v) :
    Ends s.MoveKeepsFst (v.mapParts c ctx kind locs ps) := by
  induction ps generalizing v with
  | nil => exact .ok h
  | cons p rest ih =>
    refine .bind (KeepsCopies.translateResident h) fun x hs => ?_
    refine .ite (.check fun _ => ?_) ?_ <;>
      exact .bind (ready hs) fun v hv => .bind (ih hv) fun _ hv => .pure hv

theorem map {space rank n : Nat} {a : Word} {kind : Access} {locs : List Nat} (h : s.MoveKeeps v) :
    Ends s.MoveKeepsFst (v.map c o space rank a n kind locs) := by
  refine .ite h.mapParts (.ite (.ite .raise (.ok h)) ?_)
  dsimp only
  split
  · exact .ite .raise (.ite .raise (.ok h))
  · exact .raise

theorem read {ps : List (CopyLoc × Nat)} (h : s.MoveKeeps v) : Ends s.MoveKeepsFst (v.read c ps) := by
  induction ps generalizing v with
  | nil => exact .ok h
  | cons p rest ih =>
    match p with
    | (.scr _ _, _) => exact .check fun _ => .bind (ih h) fun _ hv => .pure hv
    | (.mem _ m, _) =>
      have hr : ∀ {b : Bool}, s.KeepsCopies (if b then v.st.homeRead (copyRequester c) m.phys.unit
          (lineOf m.phys.addr) false else v.st) :=
        .ite (KeepsCopies.home h ((HomeFrame.refl v.st).homeRead _ _ _ _)) h
      exact .ite .error (.bind (ih hr) fun _ hv => .pure hv)

theorem source {a : Word} {n : Nat} (h : s.MoveKeeps v) : Ends s.MoveKeepsFst (v.source c o a n) := h.map

theorem dest {a : Word} {n : Nat} (h : s.MoveKeeps v) : Ends s.MoveKeepsFst (v.dest c o a n) := h.map

theorem writeMem {ctx : Nat} {va : Word} {p : Phys} {bytes : List Byte} (h : s.MoveKeeps v) :
    s.MoveKeeps (v.writeMem c ctx va p bytes) := by
  unfold Move.writeMem
  split
  · exact KeepsCopies.home (KeepsCopies.learnFx h) ((HomeFrame.refl _).homeStore _ _ _ _)
  · exact KeepsCopies.home (KeepsCopies.modDie h) ((HomeFrame.refl _).fireLine _ _ _)
  · exact h
  · exact h

theorem write {ctx : Nat} {ps : List (CopyLoc × Nat)} {bytes : List Byte} (h : s.MoveKeeps v) :
    s.MoveKeeps (v.write c ctx ps bytes) := by
  induction ps generalizing v bytes with
  | nil => exact h
  | cons p rest ih =>
    match p with
    | (.scr _ _, _) => exact ih (KeepsCopies.modCore h fun _ => rfl)
    | (.mem _ _, _) => exact ih h.writeMem

/-! ### Rows -/

theorem writeRow {f : Nat} {ps : List (CopyLoc × Nat)} {x : Nat → Nat} (h : s.MoveKeeps v) :
    Ends s.MoveKeeps (v.writeRow c o f ps x) :=
  .ite (.bind h.read fun _ hv => .pure (write hv)) (.bind (Q := s.MoveKeeps) (.ok (P := s.MoveKeepsFst) h)
    fun _ hv => .pure (write hv))

theorem plainRow {n : Nat} {src : List (CopyLoc × Nat)} (h : s.MoveKeeps v) :
    Ends s.MoveKeeps (v.plainRow c o n src) :=
  .bind h.dest fun _ hv => .bind (read hv) fun _ hv => writeRow hv

theorem expandRow {n : Nat} (h : s.MoveKeeps v) : Ends s.MoveKeeps (v.expandRow c o n) := by
  refine .bind h.source fun _ hv => ?_
  refine .ite (.bind (.ok (P := s.MoveKeepsFst) hv) ?_) (.bind (source hv) ?_) <;>
    exact fun _ hv => .bind (dest hv) fun _ hv => .bind (read hv) fun _ hv => .bind (read hv) fun _ hv => writeRow hv

theorem quantRow {n : Nat} (h : s.MoveKeeps v) : Ends s.MoveKeeps (v.quantRow c o n) :=
  .bind h.source fun _ hv => .bind (dest hv) fun _ hv => .bind (dest hv) fun _ hv => .bind (read hv) fun _ hv =>
    .bind (writeRow hv) fun _ hv => .pure (write hv)

theorem addRow {n : Nat} (h : s.MoveKeeps v) : Ends s.MoveKeeps (v.addRow c o n) :=
  .bind h.source fun _ hv => .bind (map hv) fun _ hv => .bind (read hv) fun _ hv => .bind (read hv) fun _ hv =>
    writeRow hv

theorem walkRow {n : Nat} (h : s.MoveKeeps v) : Ends s.MoveKeeps (v.walkRow c o n) :=
  .bind h.source fun _ hv => .bind (dest hv) fun _ hv => .bind (read hv) fun _ hv => writeRow hv

theorem faulting {x : Except Stop Move} (hx : Ends s.MoveKeeps x) : Ends s.MoveKeeps (faulting x) := by
  cases x with
  | error e => exact .error
  | ok v => exact .ok (hx v rfl)

theorem rows {row : Move → Nat → Except CopyEnd Move} {i n : Nat}
    (hr : ∀ v r, s.MoveKeeps v → Ends s.MoveKeeps (row v r)) (h : s.MoveKeeps v) :
    s.MoveKeepsFst (Move.rows row n i v) := by
  induction n generalizing v i with
  | zero => exact h
  | succ n ih =>
    unfold Move.rows
    split
    case h_1 v' he => exact ih (hr v i h v' he)
    case h_2 => exact h

theorem gatherRow {j : Nat} (h : s.MoveKeeps v) : Ends s.MoveKeeps (v.gatherRow c o j) := by
  unfold Move.gatherRow
  dsimp only
  split
  · exact .error
  · split
    · exact .error
    · exact .error
    case h_3 v' src he => exact faulting (plainRow (h.source (v', src) he : s.MoveKeeps v'))

theorem tileRow {n pos : Nat} (h : s.MoveKeeps v) : Ends s.MoveKeepsFst (v.tileRow c o n pos) := by
  unfold Move.tileRow
  dsimp only
  split
  · exact .error
  case h_2 v1 src h1 =>
    have hv1 : s.MoveKeeps v1 := h.source (v1, src) h1
    split
    · exact .error
    case h_2 v2 bs h2 =>
      have hv2 : s.MoveKeeps v2 := hv1.read (v2, bs) h2
      refine .ite .error ?_
      split
      · exact .error
      case h_2 v3 dst h3 =>
        have hv3 : s.MoveKeeps v3 := hv2.dest (v3, dst) h3
        split
        · exact .error
        case h_2 v4 entry h4 => exact .ok (write (write (hv3.dest (v4, entry) h4 : s.MoveKeeps v4)))

theorem tileRows {n i pos : Nat} (h : s.MoveKeeps v) : s.MoveKeepsFst (Move.tileRows c o n i pos v) := by
  induction n generalizing v i pos with
  | zero => exact h
  | succ n ih =>
    unfold Move.tileRows
    split
    case h_1 v' pos' he => exact ih (h.tileRow (v', pos') he : s.MoveKeeps v')
    case h_2 => exact h

/-! ### Lines (R250, R251) -/

theorem discardLine (d line : Nat) : r.KeepsCopies (r.discardLine d line) := by
  unfold State.discardLine
  dsimp only
  have hbase : r.KeepsCopies (r.modDie d fun k => { k with
      bins := k.bins.filter fun b => b.line != line
      mem := if (r.die d).dirty.contains line then k.mem.copyRange k.dram line 128 else k.mem
      dirty := k.dirty.filter fun a => a != line }.evict line) := (KeepsCopies.refl r).modDie
  refine KeepsCopies.home ?_ ((HomeFrame.refl _).fireLine _ _ _)
  split
  · exact KeepsCopies.home hbase ((((HomeFrame.refl _).touchLine _ _).foldl fun _ _ hr =>
      hr.establish _ _ _ _ _).markDirty _ _)
  · exact hbase

theorem lineOp {kind : Access} {va : Word} (h : s.MoveKeeps v) : Ends s.MoveKeeps (v.lineOp c o kind va) := by
  unfold Move.lineOp
  split
  · exact .ok h
  · exact .error
  case h_3 x m he =>
    have hs : s.KeepsCopies x := KeepsCopies.translateResident h _ he
    refine .ite (.ok hs) ?_
    refine .ite (.check fun _ => ?_) ?_ <;>
      refine .bind (ready hs) fun v hv => .ite (.pure (KeepsCopies.modDie hv)) (.ite (.pure fun c => ?_)
        (.pure (KeepsCopies.home hv ((HomeFrame.refl _).reachHome _ _ _))))
    all_goals exact (discardLine _ _ c).trans (KeepsCopies.modDie (KeepsCopies.learnFx hv) c)

theorem lineOps {kind : Access} {vas : List Word} (h : s.MoveKeeps v) :
    Ends s.MoveKeeps (Move.lineOps c o kind vas v) := by
  induction vas generalizing v with
  | nil => exact .ok h
  | cons va rest ih => exact .bind h.lineOp fun _ hv => ih hv

/-- All the accesses of an operation. -/
theorem run (h : s.MoveKeeps v) : s.MoveKeepsFst (v.run c o) := by
  have hrows {n : Nat} {f : Move → Nat → Except Stop Move} (hf : ∀ v r, s.MoveKeeps v → Ends s.MoveKeeps (f v r)) :
      s.MoveKeepsFst (Move.rows (fun v r => Machine.faulting (f v r)) n 0 v) :=
    rows (fun v r hv => faulting (hf v r hv)) h
  have hlines (kind : Access) : s.MoveKeepsFst (match Move.lineOps c o kind o.lines v with
      | .ok v => (v, o.shape.rows, none)
      | .error e => (v, 0, some (CopyEnd.fault e))) := by
    split
    case h_1 v' he => exact h.lineOps v' he
    case h_2 => exact h
  unfold Move.run
  dsimp only
  split
  · exact hrows fun v r hv => .bind hv.source fun _ hv => plainRow hv
  · exact rows (fun v r hv => hv.gatherRow) h
  · exact hrows fun v r hv => hv.expandRow
  · exact hrows fun v r hv => hv.quantRow
  · exact h.tileRows
  · exact hrows fun v r hv => hv.addRow
  · exact hrows fun v r hv => hv.walkRow
  · exact hlines .write
  · exact hlines .read

end State.MoveKeeps

end Sys2Proof.Machine
end

section
/-! SUPPORT for O58. The start and the end of a copy operation (R186, R235, R238); and the obligation. -/

namespace Sys2Proof.Machine

variable {s r : State} {c : Nat} {o : CopyOp}

/-! ### The start -/

/-- An operation's result as its start leaves it (R235). -/
def State.copyResult (s : State) (c : Nat) (o : CopyOp) (v : Move) (n code : Nat) : CopyResult :=
  { ndone := n, ecode := code, rflag := o.kind == .cpyq && o.shape.rot && n != 0, g := v.g, far := v.far,
    until_ := if v.fab then (s.die (c / 64)).windowEnd else 0 }

/-- An operation with its result and the pages that it has pinned. -/
def CopyOp.ended (o : CopyOp) (y : CopyResult) (pins : List Nat) : CopyOp := { o with result := some y, pins := pins }

/-- The state in which an operation's start leaves its result. -/
def State.copyEnded (s : State) (c : Nat) (o : CopyOp) (v : Move) (n code : Nat) : State :=
  (s.putCopy c (o.ended (s.copyResult c o v n code) v.pins)).taskGwct o.task o.wave o.ctx v.g

@[simp] theorem State.core_taskGwct (s : State) (task : Phys) (wave : Bool) (ctx g n : Nat) :
    (s.taskGwct task wave ctx g).core n = s.core n := by
  unfold taskGwct
  cases wave <;> dsimp only <;> split <;> rfl

theorem mem_mapWhere {α : Type} {p : α → Bool} {f : α → α} {l : List α} {x : α} (hx : x ∈ l) (hp : p x = true) :
    f x ∈ mapWhere p f l := by
  rw [mapWhere_eq_map]
  exact List.mem_map.2 ⟨x, hx, by simp [hp]⟩

/-- Where the operation still waits in its core, its end is noted there. -/
theorem State.copyEnded_notes {v : Move} {n code : Nat} (h : o ∈ (r.core c).copies) :
    ∃ x ∈ ((r.copyEnded c o v n code).core c).copies, x.id = o.id ∧ x.pins = v.pins ∧
      ∃ y, x.result = some y ∧ y.ndone = n ∧ y.ecode = code ∧ y.g = v.g ∧ y.far = v.far := by
  let y := r.copyResult c o v n code
  refine ⟨o.ended y v.pins, ?_, rfl, rfl, y, rfl, rfl, rfl, rfl, rfl⟩
  rw [copyEnded, core_taskGwct, putCopy, core_modCore]
  exact mem_mapWhere (p := fun x => x.id == o.id) (f := fun _ => o.ended y v.pins) h (beq_self_eq_true o.id)

variable {v : Move} {id n : Nat} {stop : Option CopyEnd}

/-- What an operation starts from. -/
def State.copyMove (s : State) (o : CopyOp) : Move :=
  { st := s.asClass o.ctx, g := 0, far := false, fab := false, pins := [] }

section Start

variable (hfind : (s.core c).copies.find? (fun x => x.id == id) = some o) (hres : o.result = none)
  (hfork : s.forkHolds o.uid = true) (hrun : (s.copyMove o).run c o = (v, n, stop))
include hfind hres hfork hrun

theorem State.copyStart_done (h : stop = none ∨ stop = some .short) :
    s.copyStart c id = some (v.st.copyEnded c o v n 0) := by
  unfold copyStart
  rw [copyMove] at hrun
  simp only [hfind, hres, hfork, hrun]
  rcases h with rfl | rfl <;> rfl

/-- A trap is noted with its code; one at a cluster peer has a record of its own (R403). -/
theorem State.copyStart_trap {t : Trap} (h : stop = some (.fault (.trap t))) :
    ∃ r, v.st.HomeFrame r ∧ s.copyStart c id = some (r.copyEnded c o v n t.code) := by
  unfold copyStart
  rw [copyMove] at hrun
  simp only [hfind, hres, hfork, hrun]
  subst h
  exact ⟨_, .ite ((HomeFrame.refl v.st).report _) (.refl _), rfl⟩

theorem State.copyStart_check {struct code a : Nat} (h : stop = some (.fault (.check struct code a))) :
    ∃ r, v.st.HomeFrame r ∧ s.copyStart c id = some (r.copyEnded c o v n 32) := by
  unfold copyStart
  rw [copyMove] at hrun
  simp only [hfind, hres, hfork, hrun]
  subst h
  exact ⟨_, (HomeFrame.refl v.st).haltCtx _ _, rfl⟩

omit hres hfork in
theorem State.mem_copies_run : o ∈ (v.st.core c).copies := by
  have hkeep : s.MoveKeepsFst ((s.copyMove o).run c o) := MoveKeeps.run (KeepsCopies.refl s)
  rw [hrun] at hkeep
  rw [hkeep c]
  exact List.mem_of_find?_eq_some hfind

end Start

/-! ### The end -/

/-- The core once an operation has left it, its record written (R235). -/
def Core.copyLeft (k : Core) (o : CopyOp) (x : CopyResult) (id : Nat) : Core :=
  { k with copies := eraseFirst (fun y => y.id == id) k.copies }.putScratch (o.scrBase + o.recAt + 0x30)
    (leBytes 8 (x.ndone + 2 ^ 32 * (x.ecode + if x.rflag then 256 else 0)))

/-- The state before the decrement of an operation's counter. -/
def State.copyLeft (s : State) (c : Nat) (o : CopyOp) (x : CopyResult) (id : Nat) : State :=
  o.pins.foldl (fun s p => s.unpin (c / 64) p)
    ((s.asClass o.ctx).modCore c fun k => k.copyLeft o x id)

theorem State.copyComplete_eq {x : CopyResult} (hfind : (s.core c).copies.find? (fun y => y.id == id) = some o)
    (hres : o.result = some x)
    (hpins : ∀ p ∈ o.pins, (s.die (c / 64)).migrates (lineOf ((s.die (c / 64)).lockEntry p)) = false)
    (hg : x.g = 0 ∨ x.g + (if x.far then 8 else 2) ≤ s.time (c / 64)) (hu : x.until_ ≤ s.time (c / 64)) :
    s.copyComplete c id = some ((s.copyLeft c o x id).decCounter c o.ctr 0 o.ctx) := by
  have hgo : ¬(decide (s.time (c / 64) < x.g + (if x.far then 8 else 2)) && x.g != 0 ||
      decide (s.time (c / 64) < x.until_) || o.pins.any fun p =>
        (s.die (c / 64)).migrates (lineOf ((s.die (c / 64)).lockEntry p))) = true := by
    have hany : (o.pins.any fun p => (s.die (c / 64)).migrates (lineOf ((s.die (c / 64)).lockEntry p))) = false :=
      List.any_eq_false.2 fun p hp => by simp [hpins p hp]
    rcases hg with hg | hg <;> simp [hg, hany, Nat.not_lt.2 hu]
  unfold copyComplete
  simp only [hfind, hres]
  exact (if_neg hgo)

theorem State.HomeFrame.unpin (d page : Nat) (h : s.HomeFrame r) : s.HomeFrame (r.unpin d page) :=
  (h.reachHome _ _ _).lineWrite _ _ _

theorem State.core_copyLeft {x : CopyResult} : (s.copyLeft c o x id).core c = (s.core c).copyLeft o x id := by
  rw [copyLeft, ((HomeFrame.refl _).foldl fun _ p hr => hr.unpin _ p).core, core_modCore]
  rfl

/-- The first part of O58: the copy engine. -/
theorem copiesRun : CopiesRun := by
  intro s o c hfind
  refine ⟨fun hres hfork v n stop hrun => ?_, fun x hres hwf hpins hg hu => ?_⟩
  · intro ends
    have hmem := State.mem_copies_run hfind hrun
    have hnoted : ∀ (r : State) (code : Nat), v.st.HomeFrame r →
        s.copyStart c s.arg.n = some (r.copyEnded c o v n code) → ends code := fun r code hr he =>
      ⟨_, event_next.2 he, State.copyEnded_notes (by rw [hr.core]; exact hmem)⟩
    refine ⟨fun hstop => hnoted _ _ (.refl _) (State.copyStart_done hfind hres hfork hrun hstop), fun t hstop => ?_,
      fun struct code a hstop => ?_⟩
    · obtain ⟨r, hr, he⟩ := State.copyStart_trap hfind hres hfork hrun hstop
      exact hnoted r _ hr he
    · obtain ⟨r, hr, he⟩ := State.copyStart_check hfind hres hfork hrun hstop
      exact hnoted r _ hr he
  · refine ⟨_, event_next.2 (State.copyComplete_eq hfind hres hpins hg hu), ?_, ?_, fun h0 => ?_, fun h0 => ?_⟩
    · rw [State.core_decCounter Core.scratch fun _ _ => rfl, State.core_copyLeft]
      exact (Memory.read_write_self _ 8 _ (State.Canon.core hwf c).scratch).trans (by norm_num)
    · rw [State.core_decCounter Core.copies fun _ _ => rfl, State.core_copyLeft]
      rfl
    all_goals
      have hcount : (s.copyLeft c o x s.arg.n).counter c o.ctr = s.counter c o.ctr := by
        rw [State.counter, State.core_copyLeft]
        rfl
      rw [State.counter_decCounter, hcount]
    · rw [if_neg h0]
    · rw [if_pos h0]

/-- Settles O58: the steps of the copy, matrix and transform engines, each from what it leaves. -/
theorem engineStepsComplete : Obligations.EngineStepsComplete := ⟨copiesRun, matricesRun, transformsRun⟩

end Sys2Proof.Machine
end

section
/-! SUPPORT for O55. The requests that a home serves (R177, R179, R180, R190, R197, R216). -/

namespace Sys2Proof.Machine

variable {s r : State}

/-! ### The mesh while bins that are not of an FXADD region are applied (R229, R231) -/

theorem Die.mesh_writeBack (k : Die) (line : Nat) : (k.writeBack line).mesh = k.mesh := by
  unfold writeBack
  split <;> rfl

theorem Die.mesh_touch (k : Die) (line c : Nat) : (k.touch line c).mesh = k.mesh := by
  unfold touch
  split
  · rfl
  · split
    · rfl
    · exact k.mesh_writeBack _
    · rfl

theorem Die.mesh_markDirty (k : Die) (line : Nat) : (k.markDirty line).mesh = k.mesh := by
  unfold markDirty
  split <;> rfl

theorem Die.mesh_raiseExp (k : Die) (line e : Nat) : (k.raiseExp line e).mesh = k.mesh := by
  unfold raiseExp
  split <;> rfl

theorem State.mesh_modDie {f : Die → Die} (hf : ∀ k : Die, (f k).mesh = k.mesh) (d x : Nat) :
    ((s.modDie d f).die x).mesh = (s.die x).mesh := by
  rw [die_modDie_eq]
  split
  · exact hf _
  · rfl

theorem State.mesh_applyWords {b : Bin} (hb : b.op ≠ 9) (d x : Nat) (l : List BinWord) :
    ((l.foldl (fun s w => s.applyWord d b w) s).die x).mesh = (s.die x).mesh := by
  induction l generalizing s with
  | nil => rfl
  | cons w rest ih =>
    rw [List.foldl_cons, ih, applyWord, if_neg hb]
    refine mesh_modDie (fun k => ?_) d x
    rfl

theorem State.mesh_applyBin {b : Bin} (hb : b.op ≠ 9) (d x : Nat) : ((s.applyBin d b).die x).mesh = (s.die x).mesh := by
  rw [applyBin, die_fireLine, markDirty, mesh_modDie (fun k => k.mesh_markDirty _), mesh_applyWords hb]
  refine mesh_modDie (fun k => ?_) d x
  rw [Die.mesh_touch]

/-- No bin of a line holds pairs of an FXADD region. -/
def State.NoFx (s : State) (d line : Nat) : Prop := ∀ b ∈ (s.die d).bins, b.line = line → b.op ≠ 9

theorem State.mesh_recallLine (who d line x : Nat) : ((s.recallLine who d line).die x).mesh = (s.die x).mesh :=
  mesh_modDie (f := fun k => { k with wleases := k.wleases.filter fun w => w.line != line || w.core == who })
    (fun _ => rfl) d x

theorem State.mesh_noteRequest (d line c x : Nat) : ((s.noteRequest d line c).die x).mesh = (s.die x).mesh := by
  unfold noteRequest
  refine mesh_modDie (fun k => ?_) d x
  rfl

theorem State.NoFx.mesh_reachHome {who d line : Nat} (h : s.NoFx d line) (x : Nat) :
    ((s.reachHome who d line).die x).mesh = (s.die x).mesh := by
  have hbins : ((s.recallLine who d line).die d).bins = (s.die d).bins := by rw [recallLine, die_modDie]
  rw [reachHome, touchLine, mesh_modDie (fun k => k.mesh_touch _ _), mesh_noteRequest, applyLine]
  split
  next b hb =>
    have hline : b.line = line := by simpa using List.find?_some hb
    rw [mesh_applyBin (h b (hbins ▸ List.mem_of_find?_eq_some hb) hline), mesh_recallLine]
  · exact mesh_recallLine who d line x

theorem State.NoFx.mesh_homeRead {who d line : Nat} {lease : Bool} (h : s.NoFx d line) (x : Nat) :
    ((s.homeRead who d line lease).die x).mesh = (s.die x).mesh := by
  unfold homeRead
  dsimp only
  split
  · rw [mesh_modDie (fun k => k.mesh_raiseExp _ _), h.mesh_reachHome]
  · exact h.mesh_reachHome x

/-! ### Serving a request -/

section Serve

variable {d : Nat} {q : MeshReq} {before after : List MeshReq}

/-- The state in which a request is served: it has left the mesh. -/
def State.served (s : State) (d : Nat) (q : MeshReq) (before after : List MeshReq) : State :=
  (s.asClass q.ctx).modDie d fun k => { k with mesh := before ++ after }

theorem State.request_eq (h : (s.die d).mesh = before ++ q :: after) :
    s.request d before.length = some (q, before, after) := by
  simp [request, h]

variable (hmesh : (s.die d).mesh = before ++ q :: after) (hbusy : s.busyAt q.core q.loc = false)
  (hfirst : ∀ x ∈ before, homeKey x.loc ≠ homeKey q.loc)
  (holder : (s.die q.loc.unit).olderHeld (homeKey q.loc) q.seq = false)
  {f : State → MeshReq → Option State}
include hmesh hbusy hfirst holder

omit hmesh in
theorem State.canServe_eq : s.canServe q before = true := by
  have hany : (before.any fun x => homeKey x.loc == homeKey q.loc) = false := by simpa using hfirst
  simp [canServe, hbusy, hany, holder]

/-- A request of the kind that a step takes is served where its line is sound, or where it does not read it. -/
theorem State.serve_sound (hf : f (s.served d q before after) q = some r)
    (hsound : q.reads = false ∨ s.poisoned q.loc = false) : s.serve d before.length f = some r := by
  have hread : (q.reads && s.poisoned q.loc) = false := by rcases hsound with h | h <;> simp [h]
  rw [served] at hf
  simp [serve, request_eq hmesh, canServe_eq hbusy hfirst holder, hf, hread]

/-- A read of an uncorrectable line is a machine check (R365). -/
theorem State.serve_poisoned {t : Team} (hf : f (s.served d q before after) q = some r) (hreads : q.reads = true)
    (hbad : s.poisoned q.loc = true) (ht : s.team? q.uid = some t) :
    s.serve d before.length f = some ((s.served d q before after).takeStop t (s.poisonStop q.loc)) := by
  rw [served] at hf
  simp [serve, request_eq hmesh, canServe_eq hbusy hfirst holder, hf, hreads, hbad, ht, served]

end Serve

/-! ### Loads -/

/-- The home's part of a load. -/
def State.loadAtHome (s : State) (q : MeshReq) : State :=
  if q.loc.space == .gddr then
    s.homeRead q.core q.loc.unit (lineOf q.loc.addr) (q.loc.space == .gddr && !q.nc)
  else s.noteRequest q.loc.unit (homeKey q.loc) q.core

theorem State.homeFrame_loadAtHome (q : MeshReq) : s.HomeFrame (s.loadAtHome q) :=
  .ite ((HomeFrame.refl s).homeRead _ _ _ _) ((HomeFrame.refl s).noteRequest _ _ _)

theorem State.NoFx.mesh_loadAtHome {q : MeshReq} (h : s.NoFx q.loc.unit (lineOf q.loc.addr)) (x : Nat) :
    ((s.loadAtHome q).die x).mesh = (s.die x).mesh := by
  unfold loadAtHome
  split
  · exact h.mesh_homeRead x
  · exact mesh_noteRequest _ _ _ x

/-- A load sends the line as it then stands at its home to the core. -/
theorem State.serveRead_load {q : MeshReq} {dest n : Nat} (hk : q.kind = .load dest n) (s : State) :
    ∃ p r, s.serveRead q = some r ∧ (∀ x, r.die x = (s.loadAtHome q).die x) ∧
      (r.core q.core).replies = (s.core q.core).replies ++ [p] ∧ p.uid = q.uid ∧ p.d = dest ∧ p.n = n ∧
      p.loc = q.loc ∧ p.nc = q.nc ∧ p.data = (r.space q.loc.space q.loc.unit).slice (lineOf q.loc.addr) 128 ∧
      (p.fills = true ↔ q.loc.space = .gddr ∧ q.nc = false) := by
  let a := (s.loadAtHome q).sendNumber
  let p : LoadReply :=
    { uid := q.uid, d := dest, n := n, loc := q.loc, nc := q.nc
      data := (a.2.space q.loc.space q.loc.unit).slice (lineOf q.loc.addr) 128
      exp := if q.loc.space == .gddr && !q.nc then
        a.2.homeTime q.loc.unit (lineOf q.loc.addr) + (a.2.die q.loc.unit).leaseLength else 0
      fills := q.loc.space == .gddr && !q.nc, sent := a.1 }
  refine ⟨p, a.2.modCore q.core fun k => { k with replies := k.replies ++ [p] }, ?_, fun _ => rfl, ?_, rfl, rfl, rfl, rfl,
    rfl, rfl, ?_⟩
  · unfold serveRead
    rw [hk]
    rfl
  · have hcore : a.2.core q.core = s.core q.core := (homeFrame_loadAtHome q).core q.core
    rw [core_modCore, hcore]
  · simp [p]

theorem State.core_served (d : Nat) (q : MeshReq) (before after : List MeshReq) (c : Nat) :
    (s.served d q before after).core c = s.core c := core_modDie _ _ _ _

theorem State.mesh_served (d : Nat) (q : MeshReq) (before after : List MeshReq) :
    ((s.served d q before after).die d).mesh = before ++ after := by
  rw [served, die_modDie]

theorem State.bins_served (d : Nat) (q : MeshReq) (before after : List MeshReq) (x : Nat) :
    ((s.served d q before after).die x).bins = (s.die x).bins := by
  rw [served, die_modDie_eq]
  split <;> rfl

/-- A load that is served: the mesh without it, and the reply behind those on their way to its core. -/
theorem State.serveRead_sends {d dest n : Nat} {q : MeshReq} {before after : List MeshReq}
    (hk : q.kind = .load dest n) :
    ∃ r, (s.served d q before after).serveRead q = some r ∧
      (∃ held, (r.die d).mesh = before ++ after ++ held ∧
        ((∀ b ∈ (s.die q.loc.unit).bins, b.line = lineOf q.loc.addr → b.op ≠ 9) → held = [])) ∧
      ∃ p, (r.core q.core).replies = (s.core q.core).replies ++ [p] ∧ p.uid = q.uid ∧ p.d = dest ∧ p.n = n ∧
        p.loc = q.loc ∧ p.nc = q.nc ∧ p.data = (r.space q.loc.space q.loc.unit).slice (lineOf q.loc.addr) 128 ∧
        (p.fills = true ↔ q.loc.space = .gddr ∧ q.nc = false) := by
  obtain ⟨p, r, hr, hdie, hreplies, hp⟩ := serveRead_load hk (s.served d q before after)
  obtain ⟨held, hheld⟩ := ((homeFrame_loadAtHome (s := s.served d q before after) q).die d).mesh
  rw [mesh_served, ← hdie] at hheld
  rw [core_served] at hreplies
  refine ⟨r, hr, ⟨held, hheld, fun hfx => ?_⟩, p, hreplies, hp⟩
  have hno : (s.served d q before after).NoFx q.loc.unit (lineOf q.loc.addr) := by
    unfold NoFx
    rwa [bins_served]
  have hsame := hno.mesh_loadAtHome d
  rw [← hdie, hheld, mesh_served] at hsame
  exact List.append_right_eq_self.1 hsame

/-- A team's store that is served: its bytes at the home, and its GWCT on the way back (R177). -/
theorem State.serveStore_team {q : MeshReq} {bytes : List Byte} (hk : q.kind = .store bytes) (hu : q.uid ≠ 0)
    (s : State) :
    let a := match q.loc.space with
      | .gddr =>
        let h := s.homeStore q.core q.loc.unit q.loc.addr bytes
        (h.1.refreshL1 q.core q.loc.unit q.loc.addr bytes.length, h.2)
      | _ => (s.noteRequest q.loc.unit (homeKey q.loc) q.core).dsmStore q.loc.unit q.loc.addr bytes
    s.serveStore q = some (a.1.sendNumber.2.modDie q.loc.unit fun k => { k with
      acks := k.acks ++ [{ uid := q.uid, core := q.core, loc := q.loc, gwct := a.2, sent := a.1.sendNumber.1 }] }) := by
  unfold serveStore
  rw [hk]
  dsimp only
  refine (if_neg hu).trans ?_
  cases q.loc.space <;> rfl

/-- The first part of O55: what a home serves. -/
theorem requestsServed : RequestsServed := by
  intro s q before after d hmesh hn hbusy hfirst holder taken finish sound
  have hserve {f : State → MeshReq → Option State} {r : State} (hf : f (s.served d q before after) q = some r)
      (hsound : q.reads = false ∨ s.poisoned q.loc = false) : s.serve s.arg.die s.arg.n f = some r :=
    hn ▸ State.serve_sound hmesh hbusy hfirst holder hf hsound
  refine ⟨fun dest n hk hs => ?_, fun dest n t hk hbad ht => ?_, fun bytes hk hu => ?_, fun bytes hk hu => ?_,
    fun bytes hk => ?_, fun bytes hk => ?_, fun hk hs => ?_, fun op n b c dest hk hs => ⟨fun hr => ?_, fun hr => ?_⟩,
    fun mode target dest hk hs => ?_⟩
  · obtain ⟨r, hr, hleaves⟩ := State.serveRead_sends (s := s) (d := d) (before := before) (after := after) hk
    exact ⟨r, event_next.2 (hserve hr (.inr hs)), hleaves⟩
  · obtain ⟨r, hr, -⟩ := State.serveRead_sends (s := s) (d := d) (before := before) (after := after) hk
    exact event_next.2 (hn ▸ State.serve_poisoned hmesh hbusy hfirst holder hr (by simp [MeshReq.reads, hk]) hbad ht)
  · exact event_next.2 (hserve (State.serveStore_team hk hu _) (.inl (by simp [MeshReq.reads, hk])))
  · refine event_next.2 (hserve ?_ (.inl (by simp [MeshReq.reads, hk])))
    simp only [State.serveStore, hk, hu, if_true]
    rfl
  · refine event_next.2 (hserve ?_ (.inl (by simp [MeshReq.reads, hk])))
    simp only [State.serveStore, hk]
    rfl
  · refine event_next.2 (hserve ?_ (.inl (by simp [MeshReq.reads, hk])))
    simp only [State.serveStore, hk]
    rfl
  · refine event_next.2 (hserve ?_ (.inr hs))
    simp only [State.serveRead, hk]
    rfl
  · refine event_next.2 (hserve ?_ (.inr hs))
    unfold State.serveAtomic
    rw [hk]
    exact if_pos hr
  · refine event_next.2 (hserve ?_ (.inr hs))
    unfold State.serveGrant
    rw [hk]
    exact if_neg (Bool.eq_false_iff.1 hr)
  · refine event_next.2 (hserve ?_ (.inr hs))
    unfold State.serveArrival
    rw [hk]
    rfl

end Sys2Proof.Machine
end

section
/-! SUPPORT for O55. What comes back to a core: the replies to loads, the GWCTs of stores and the operations of DSM
elements (R39, R177, R180, R211, R217, R325). -/

namespace Sys2Proof.Machine

variable {s : State} {t : Team}

/-! ### Loads -/

theorem State.core_fillL1 (s : State) (c : Nat) (new : L1Line) :
    ∃ l, (s.fillL1 c new).core c = { s.core c with l1 := new :: l } := by
  unfold fillL1
  dsimp only
  split
  · exact ⟨_, core_modCore _ _ _⟩
  · exact ⟨_, core_modCore _ _ _⟩

theorem State.core_fillL1_other {c x : Nat} (new : L1Line) (h : x ≠ c) : (s.fillL1 c new).core x = s.core x := by
  unfold fillL1
  dsimp only
  split
  · exact core_modCore_other _ _ h
  · exact core_modCore_other _ _ h

theorem State.team_fillL1 (c : Nat) (new : L1Line) (n : Nat) : (s.fillL1 c new).team? n = s.team? n := by
  unfold fillL1
  dsimp only
  split <;> rfl

/-- The line that a reply brings into the L1. -/
def LoadReply.fill (p : LoadReply) : L1Line :=
  { die := p.loc.unit, line := lineOf p.loc.addr, data := p.data, exp := p.exp }

/-- The state in which a reply has reached its core: it is no longer on its way, and its line is in the L1. -/
def State.replyTaken (s : State) (c : Nat) (p : LoadReply) (left : List LoadReply) : State :=
  let r := s.modCore c fun k => { k with replies := left }
  if p.fills then r.fillL1 c p.fill else r

/-- A reply changes nothing of a core but what waits for it and its L1. -/
theorem State.core_replyTaken {α : Type} (f : Core → α)
    (hf : ∀ (k : Core) (l : List L1Line) (q : List LoadReply), f { k with l1 := l, replies := q } = f k)
    (c : Nat) (p : LoadReply) (left : List LoadReply) (x : Nat) :
    f ((s.replyTaken c p left).core x) = f (s.core x) := by
  have hmod : f ((s.modCore c fun k => { k with replies := left }).core x) = f (s.core x) := by
    by_cases hx : x = c
    · rw [hx, core_modCore]
      exact hf _ _ _
    · rw [core_modCore_other _ _ hx]
  unfold replyTaken
  dsimp only
  split
  · by_cases hx : x = c
    · obtain ⟨l, hl⟩ := core_fillL1 (s.modCore c fun k => { k with replies := left }) c p.fill
      rw [hx] at hmod ⊢
      rw [hl, ← hmod]
      exact hf _ _ _
    · rw [core_fillL1_other _ hx, hmod]
  · exact hmod

theorem State.replies_replyTaken (c : Nat) (p : LoadReply) (left : List LoadReply) :
    ((s.replyTaken c p left).core c).replies = left := by
  unfold replyTaken
  dsimp only
  split
  · obtain ⟨l, hl⟩ := core_fillL1 (s.modCore c fun k => { k with replies := left }) c p.fill
    rw [hl, core_modCore]
  · rw [core_modCore]

theorem State.l1_replyTaken {c : Nat} {p : LoadReply} (h : p.fills = true) (left : List LoadReply) :
    ∃ l ∈ ((s.replyTaken c p left).core c).l1,
      l.die = p.loc.unit ∧ l.line = lineOf p.loc.addr ∧ l.data = p.data ∧ l.exp = p.exp := by
  obtain ⟨l, hl⟩ := core_fillL1 (s.modCore c fun k => { k with replies := left }) c p.fill
  refine ⟨p.fill, ?_, rfl, rfl, rfl, rfl⟩
  rw [replyTaken, if_pos h, hl]
  exact List.mem_cons_self

theorem State.team_replyTaken (c : Nat) (p : LoadReply) (left : List LoadReply) (n : Nat) :
    (s.replyTaken c p left).team? n = s.team? n := by
  unfold replyTaken
  dsimp only
  split
  · rw [team_fillL1]
    rfl
  · rfl

@[simp] theorem State.core_resumed (before : State) (n c : Nat) : (s.resumed before n).core c = s.core c := by
  unfold resumed
  split
  · split
    · exact core_released _ _ _
    · rfl
  · rfl

/-- What a load does to its team (R177). -/
def Team.loaded (t : Team) (p : LoadReply) : Team :=
  { t.setS p.d (BitVec.ofNat 64 (p.data.read p.loc.addr p.n)) with pend := none }

theorem Team.loaded_uid (t : Team) (p : LoadReply) : (t.loaded p).uid = t.uid := setS_uid t _ _

theorem Team.loaded_coreId (t : Team) (p : LoadReply) : (t.loaded p).coreId = t.coreId := by
  unfold loaded setS coreId
  split <;> rfl

/-- A team whose reply has come is ready from now on, unless it has gone on while it waited (R42, R182). -/
theorem State.team_resumed {before : State} {n : Nat} {u : Team} (ht : before.team? n = some t)
    (hu : s.team? n = some u) :
    ∃ since, (s.resumed before n).team? n = some { u with readySince := since } ∧
      (t.goesOn = false → since = (s.core u.coreId).cycles) := by
  unfold resumed
  rw [ht]
  dsimp only
  split
  next hgo =>
    obtain ⟨since, hs⟩ := team_released (before := before) hu
    exact ⟨since, hs, fun h => by simp [h] at hgo⟩
  · exact ⟨_, team_modTeam s (fun _ => rfl) hu, fun _ => rfl⟩

theorem State.loadReply_eq {c : Nat} {p : LoadReply} {before after : List LoadReply}
    (h : (s.core c).replies = before ++ p :: after) (hfirst : s.replyBefore c p.loc p.sent = false) :
    s.loadReply c before.length =
      some (((s.replyTaken c p (before ++ after)).modTeam p.uid (Team.loaded · p)).resumed s p.uid) := by
  have hdrop : (s.core c).replies.drop before.length = p :: after := by simp [h]
  have htake : (s.core c).replies.take before.length = before := by simp [h]
  have hmod : (s.modCore c fun k => { k with replies := k.replies.take before.length ++ after }) =
      s.modCore c fun k => { k with replies := before ++ after } := by simp only [modCore, htake]
  unfold loadReply
  rw [hdrop]
  dsimp only
  rw [hmod, if_neg (Bool.eq_false_iff.1 hfirst)]
  rfl

/-- What a reply that reaches its core leaves. -/
theorem State.loadReply_leaves (c : Nat) (p : LoadReply) (left : List LoadReply) :
    let r := ((s.replyTaken c p left).modTeam p.uid (Team.loaded · p)).resumed s p.uid
    (r.core c).replies = left ∧
      (p.fills = true → ∃ l ∈ (r.core c).l1,
        l.die = p.loc.unit ∧ l.line = lineOf p.loc.addr ∧ l.data = p.data ∧ l.exp = p.exp) ∧
      ∀ t, s.team? p.uid = some t → ∃ since, r.team? p.uid = some { t.loaded p with readySince := since } ∧
        (t.goesOn = false → since = (s.core t.coreId).cycles) := by
  intro r
  have hcore : ∀ x, r.core x = (s.replyTaken c p left).core x := fun x => core_resumed _ _ _
  refine ⟨by rw [hcore, replies_replyTaken], fun hf => ?_, fun t ht => ?_⟩
  · rw [hcore]
    exact l1_replyTaken hf left
  · have hu : ((s.replyTaken c p left).modTeam p.uid (Team.loaded · p)).team? p.uid = some (t.loaded p) :=
      team_modTeam (s.replyTaken c p left) (fun u => u.loaded_uid p) ((team_replyTaken c p left p.uid).trans ht)
    obtain ⟨since, hs, hsince⟩ := team_resumed ht hu
    refine ⟨since, hs, fun h => ?_⟩
    rw [hsince h, t.loaded_coreId, core_modTeam]
    exact core_replyTaken Core.cycles (fun _ _ _ => rfl) c p left t.coreId

/-! ### Stores -/

@[simp] theorem modDie_leftovers (d : Nat) (f : Die → Die) : (s.modDie d f).leftovers = s.leftovers := by
  simp only [State.modDie, State.setDie]
  split <;> rfl

@[simp] theorem State.team_modDie (d n : Nat) (f : Die → Die) : (s.modDie d f).team? n = s.team? n := by
  rw [team?, modDie_teams]
  rfl

theorem State.teams_taskGwct (task : Phys) (wave : Bool) (ctx g : Nat) : (s.taskGwct task wave ctx g).teams = s.teams := by
  unfold taskGwct
  cases wave <;> dsimp only <;> split <;> rfl

/-- A store's GWCT joins its team, which then awaits one reply less. -/
theorem State.team_acknowledge {n : Nat} (g : Nat) (h : s.team? n = some t) :
    (s.acknowledge n g).team? n = some { t with gwct := max t.gwct g, outstanding := t.outstanding - 1 } := by
  have hjoin : (s.joinGwct n g).team? n = some { t with gwct := max t.gwct g } := by
    rw [joinGwct, h]
    dsimp only
    rw [team?, teams_taskGwct]
    exact team_modTeam s (fun _ => rfl) h
  exact find?_mapWhere (p := fun t : Team => t.uid == n) (f := fun t => { t with outstanding := t.outstanding - 1 })
    (fun _ hy => hy) hjoin

theorem State.die_acknowledge (n g d : Nat) : (s.acknowledge n g).die d = s.die d := State.die_joinGwct _ _ _

/-- The GWCT of a store of a team that has exited joins the team's task (R39). -/
theorem State.tasks_acknowledge {n g : Nat} {x : Leftover} {k : TaskState} (hn : s.team? n = none)
    (hx : s.leftovers.find? (fun x => x.uid == n) = some x) (hw : x.wave = false) (hk : k ∈ s.tasks)
    (hloc : k.loc = x.task) : { k with gwct := max k.gwct g } ∈ (s.acknowledge n g).tasks := by
  have htasks : (s.acknowledge n g).tasks = mapWhere (fun k => k.loc == x.task)
      (fun k => { k with gwct := max k.gwct g }) s.tasks := by
    simp only [acknowledge, joinGwct, hn, hx, replied, taskGwct, hw, Bool.false_eq_true, if_false, Bool.false_or]
    split <;> rfl
  rw [htasks]
  exact mem_mapWhere (f := fun k : TaskState => { k with gwct := max k.gwct g }) hk (by simp [hloc])

theorem State.storeAck_eq {d : Nat} {a : Ack} {before after : List Ack} (h : (s.die d).acks = before ++ a :: after)
    (hfirst : s.replyBefore a.core a.loc a.sent = false) :
    s.storeAck d before.length =
      some ((s.modDie d fun k => { k with acks := before ++ after }).acknowledge a.uid a.gwct) := by
  have hdrop : (s.die d).acks.drop before.length = a :: after := by simp [h]
  have htake : (s.die d).acks.take before.length = before := by simp [h]
  have hmod : (s.modDie d fun k => { k with acks := k.acks.take before.length ++ after }) =
      s.modDie d fun k => { k with acks := before ++ after } := by simp only [modDie, htake]
  unfold storeAck
  rw [hdrop]
  dsimp only
  rw [hmod, if_neg (Bool.eq_false_iff.1 hfirst)]

/-! ### DSM elements -/

/-- The state in which a DSM operation has reached its bank. -/
def State.dsmTaken (s : State) (d : Nat) (left : List DsmReq) : State := s.modDie d fun k => { k with dsmQ := left }

/-- The combined word, and its state. -/
def State.dsmCombined (s : State) (q : DsmReq) : W32 :=
  dsmCombine q.etype q.op q.rounding (BitVec.ofNat 32 ((s.die q.die).dsm.read q.addr 4)) q.val

theorem State.dsmElement_eq {d : Nat} {q : DsmReq} {before after : List DsmReq}
    (h : (s.die d).dsmQ = before ++ q :: after) (hfirst : ∀ x ∈ before, ¬(x.uid = q.uid ∧ x.addr = q.addr))
    (hsound : q.op = 0 ∨ s.poisoned { space := .dsm, unit := q.die, addr := q.addr } = false) :
    ∃ core, s.dsmElement d before.length = some
      (let a := ((s.dsmTaken d (before ++ after)).noteRequest q.die
        (homeKey { space := .dsm, unit := q.die, addr := q.addr }) core).dsmStore q.die q.addr
          (leBytes 4 (s.dsmCombined q).toNat)
      a.1.acknowledge q.uid a.2) := by
  have hdrop : (s.die d).dsmQ.drop before.length = q :: after := by simp [h]
  have htake : (s.die d).dsmQ.take before.length = before := by simp [h]
  have hany : (before.any fun x => x.uid == q.uid && x.addr == q.addr) = false := by simpa using hfirst
  have hpoison : (s.dsmTaken d (before ++ after)).poisoned { space := .dsm, unit := q.die, addr := q.addr } =
      s.poisoned { space := .dsm, unit := q.die, addr := q.addr } := by
    simp only [poisoned, dsmTaken, die_modDie_eq]
    split <;> rfl
  have hgo : ¬(q.op != 0 && (s.dsmTaken d (before ++ after)).poisoned
      { space := .dsm, unit := q.die, addr := q.addr }) = true := by
    rw [hpoison]
    rcases hsound with h | h <;> simp [h]
  rw [dsmTaken] at hgo
  unfold dsmElement
  dsimp only
  rw [hdrop]
  dsimp only
  rw [htake, hany, if_neg (by simp), if_neg hgo]
  exact ⟨_, rfl⟩

theorem State.team_dsmStore {n : Nat} (d a : Nat) (bytes : List Byte) (h : s.team? n = some t) :
    ∃ w e, (s.dsmStore d a bytes).1.team? n = some (t.tested w e) := by
  unfold dsmStore
  exact team_fireWaits ((team_modDie _ _ _).trans h)

theorem State.team_noteRequest (d line c n : Nat) : (s.noteRequest d line c).team? n = s.team? n := by
  unfold noteRequest
  exact team_modDie _ _ _

/-- A DSM operation that is acknowledged: out of its queue, its word in the bank, and one reply less awaited. -/
theorem State.dsmElement_leaves (d core : Nat) (q : DsmReq) (left : List DsmReq) (hw : s.Canon)
    (hsize : q.addr + 4 ≤ (s.die q.die).dsmSize) :
    let a := ((s.dsmTaken d left).noteRequest q.die (homeKey { space := .dsm, unit := q.die, addr := q.addr })
      core).dsmStore q.die q.addr (leBytes 4 (s.dsmCombined q).toNat)
    let r := a.1.acknowledge q.uid a.2
    (r.die d).dsmQ = left ∧ (r.die q.die).dsm.read q.addr 4 = (s.dsmCombined q).toNat ∧
      ∀ t, s.team? q.uid = some t → ∃ u, r.team? q.uid = some u ∧ u.outstanding = t.outstanding - 1 := by
  intro a r
  have hdie : ∀ x, r.die x = a.1.die x := fun x => die_acknowledge _ _ _
  refine ⟨?_, ?_, fun t ht => ?_⟩
  · have hq : (a.1.die d).dsmQ = ((s.dsmTaken d left).die d).dsmQ := by
      simp only [a, dsmStore, die_fireLine, noteRequest, die_modDie_eq]
      split <;> rfl
    rw [hdie, hq, dsmTaken, die_modDie]
  · have hbase : ((s.dsmTaken d left).die q.die).dsm = (s.die q.die).dsm ∧
        ((s.dsmTaken d left).die q.die).dsmSize = (s.die q.die).dsmSize := by
      rw [dsmTaken, die_modDie_eq]
      split <;> exact ⟨rfl, rfl⟩
    have hnote : ∀ r : State, ((r.noteRequest q.die (homeKey { space := .dsm, unit := q.die, addr := q.addr })
        core).die q.die).dsm = (r.die q.die).dsm ∧
        ((r.noteRequest q.die (homeKey { space := .dsm, unit := q.die, addr := q.addr }) core).die q.die).dsmSize =
          (r.die q.die).dsmSize := fun r => by
      rw [noteRequest, die_modDie]
      exact ⟨rfl, rfl⟩
    have hstored : (a.1.die q.die).dsm = (s.die q.die).dsm.setBytes q.addr (leBytes 4 (s.dsmCombined q).toNat) := by
      simp only [a]
      rw [die_dsmStore, (hnote _).1, (hnote _).2, hbase.1, hbase.2, length_leBytes, if_neg (by omega)]
    rw [hdie, hstored]
    exact (Memory.read_write_self _ 4 _ (hw.die q.die).dsm).trans (Nat.mod_eq_of_lt (s.dsmCombined q).isLt)
  · have htaken : (s.dsmTaken d left).team? q.uid = some t := (team_modDie _ _ _).trans ht
    obtain ⟨w, e, hstore⟩ := team_dsmStore q.die q.addr (leBytes 4 (s.dsmCombined q).toNat)
      ((team_noteRequest q.die (homeKey { space := .dsm, unit := q.die, addr := q.addr }) core q.uid).trans htaken)
    exact ⟨_, team_acknowledge _ hstore, rfl⟩

/-- The second part of O55: what comes back to a core. -/
theorem repliesArrive : RepliesArrive := by
  intro s
  refine ⟨fun before after p h hn hfirst => ?_, fun before after a h hn hfirst => ?_,
    fun before after q h hn hfirst hw hsound hsize => ?_⟩
  · exact ⟨_, event_next.2 (hn ▸ State.loadReply_eq h hfirst), State.loadReply_leaves _ _ _⟩
  · refine ⟨_, event_next.2 (hn ▸ State.storeAck_eq h hfirst), ?_, fun t ht => ?_, fun x hnone hx hwave k hk hloc => ?_⟩
    · rw [State.die_acknowledge, die_modDie]
    · exact ⟨_, State.team_acknowledge a.gwct ((State.team_modDie _ _ _).trans ht), rfl, rfl⟩
    · exact State.tasks_acknowledge ((State.team_modDie _ _ _).trans hnone) (by rwa [modDie_leftovers]) hwave
        (by rwa [modDie_tasks]) hloc
  · obtain ⟨core, he⟩ := State.dsmElement_eq h hfirst hsound
    exact ⟨_, event_next.2 (hn ▸ he), State.dsmElement_leaves _ core q _ hw hsize⟩

end Sys2Proof.Machine
end

section
/-! SUPPORT for O55. The accesses of cluster peers (R209, R325, R403 to R405). -/

namespace Sys2Proof.Machine

variable {s : State} {t : Team} {c : Nat}

/-! ### What the target core answers -/

/-- The answer to an access that fails. -/
def PeerReq.refused (q : PeerReq) (c code : Nat) : PeerReply :=
  { uid := q.uid, from_ := c, since := q.since, word := 0#32, failed := true,
    syndrome := peerSyndrome c code q.write.isSome }

/-- The answer to an access that reads a word. -/
def PeerReq.answered (q : PeerReq) (c : Nat) (w : W32) : PeerReply :=
  { uid := q.uid, from_ := c, since := q.since, word := w, failed := false, syndrome := 0#64 }

/-- The team that an access names, as its core looks it up. -/
def State.peerOf (s : State) (q : PeerReq) : Option Team := s.peerTeam? q.wave q.ctx q.task q.cluster q.rank

/-- The scratchpad of a core where an access writes. -/
def State.peerWrite (s : State) (c a : Nat) (w : Option W32) : State :=
  match w with
  | some v => s.modCore c fun k => k.putScratch a (leBytes 4 v.toNat)
  | none => s

variable {q : PeerReq}

theorem State.peerServe_none (h : s.peerOf q = none) :
    s.peerServe c q = (s.reportPeer q.ctx c 10 q.offset q.write.isSome, q.refused c 10) := by
  rw [peerOf] at h
  unfold peerServe
  rw [h]
  rfl

theorem State.peerServe_elsewhere (h : s.peerOf q = some t)
    (hno : ¬(t.coreId = c ∧ q.offset < 4096 * t.ident.scrG)) :
    s.peerServe c q = (s.reportPeer q.ctx c 10 q.offset q.write.isSome, q.refused c 10) := by
  have hout : t.coreId ≠ c ∨ 4096 * t.ident.scrG ≤ q.offset := by
    by_contra hin
    exact hno ⟨by_contra fun hne => hin (.inl hne), Nat.lt_of_not_le fun hle => hin (.inr hle)⟩
  rw [peerOf] at h
  unfold peerServe
  rw [h]
  exact if_pos hout

theorem State.peerServe_bad (h : s.peerOf q = some t) (hin : t.coreId = c ∧ q.offset < 4096 * t.ident.scrG)
    (hbad : (s.core c).badAt (t.ident.scrBase + q.offset) 4 = true) :
    s.peerServe c q = (s.reportPeer q.ctx c 32 q.offset q.write.isSome, q.refused c 32) := by
  have hout : ¬(t.coreId ≠ c ∨ 4096 * t.ident.scrG ≤ q.offset) := by
    rintro (hne | hle)
    · exact hne hin.1
    · omega
  rw [peerOf] at h
  unfold peerServe
  rw [h]
  exact (if_neg hout).trans (if_pos hbad)

theorem State.peerServe_sound (h : s.peerOf q = some t) (hin : t.coreId = c ∧ q.offset < 4096 * t.ident.scrG)
    (hbad : (s.core c).badAt (t.ident.scrBase + q.offset) 4 = false) :
    s.peerServe c q = (s.peerWrite c (t.ident.scrBase + q.offset) q.write,
      q.answered c (BitVec.ofNat 32 ((s.core c).scratch.read (t.ident.scrBase + q.offset) 4))) := by
  have hout : ¬(t.coreId ≠ c ∨ 4096 * t.ident.scrG ≤ q.offset) := by
    rintro (hne | hle)
    · exact hne hin.1
    · omega
  rw [peerOf] at h
  unfold peerServe
  rw [h]
  refine (if_neg hout).trans ((if_neg (Bool.eq_false_iff.1 hbad)).trans ?_)
  cases q.write <;> rfl

/-- A part of a core beside its scratchpad. -/
def BesideScratch {α : Type} (f : Core → α) : Prop :=
  ∀ (k : Core) (m : Memory) (l : List Nat), f { k with scratch := m, badScratch := l } = f k

theorem BesideScratch.putScratch {α : Type} {f : Core → α} (hf : BesideScratch f) (k : Core) (a : Nat)
    (bytes : List Byte) : f (k.putScratch a bytes) = f k :=
  hf k (k.scratch.setBytes a bytes) (k.badScratch.filter fun w => !(decide (a ≤ w) && decide (w + 4 ≤ a + bytes.length)))

/-- An access writes at most to the scratchpad of the target core. -/
theorem State.peerServe_cases (s : State) (c : Nat) (q : PeerReq) :
    (∃ code, s.HomeFrame (s.peerServe c q).1 ∧ (s.peerServe c q).2 = q.refused c code) ∨
      ∃ a w, (s.peerServe c q).1 = s.peerWrite c a q.write ∧ (s.peerServe c q).2 = q.answered c w := by
  have hframe : ∀ code, s.HomeFrame (s.reportPeer q.ctx c code q.offset q.write.isSome) :=
    fun code => (HomeFrame.refl s).report _
  cases ht : s.peerOf q with
  | none => exact .inl ⟨10, by rw [peerServe_none ht]; exact hframe 10, by rw [peerServe_none ht]⟩
  | some t =>
    by_cases hin : t.coreId = c ∧ q.offset < 4096 * t.ident.scrG
    · cases hbad : (s.core c).badAt (t.ident.scrBase + q.offset) 4
      · exact .inr ⟨_, _, by rw [peerServe_sound ht hin hbad], by rw [peerServe_sound ht hin hbad]⟩
      · exact .inl ⟨32, by rw [peerServe_bad ht hin hbad]; exact hframe 32, by rw [peerServe_bad ht hin hbad]⟩
    · exact .inl ⟨10, by rw [peerServe_elsewhere ht hin]; exact hframe 10, by rw [peerServe_elsewhere ht hin]⟩

theorem State.core_peerServe {α : Type} {f : Core → α} (hf : BesideScratch f) (c : Nat) (q : PeerReq) (x : Nat) :
    f ((s.peerServe c q).1.core x) = f (s.core x) := by
  rcases s.peerServe_cases c q with ⟨_, h, -⟩ | ⟨a, w, h, -⟩
  · rw [h.core]
  · rw [h]
    unfold peerWrite
    split
    · by_cases hx : x = c
      · rw [hx, core_modCore, hf.putScratch]
      · rw [core_modCore_other _ _ hx]
    · rfl

theorem State.peerServe_names (s : State) (c : Nat) (q : PeerReq) :
    (s.peerServe c q).2.uid = q.uid ∧ (s.peerServe c q).2.since = q.since ∧ (s.peerServe c q).2.from_ = c := by
  rcases s.peerServe_cases c q with ⟨code, -, h⟩ | ⟨a, w, -, h⟩ <;> rw [h] <;> exact ⟨rfl, rfl, rfl⟩

/-! ### The access at its target -/

/-- The state in which an access has reached its target, and the one in which its answer is on its way. -/
def State.inboundTaken (s : State) (c : Nat) (left : List PeerReq) : State :=
  s.modCore c fun k => { k with inbound := left }

def State.answerSent (s : State) (c : Nat) (q : PeerReq) : State :=
  (s.peerServe c q).1.modCore q.back fun k => { k with peerReplies := k.peerReplies ++ [(s.peerServe c q).2] }

theorem State.inboundPeer_eq {before after : List PeerReq} (h : (s.core c).inbound = before ++ q :: after)
    (hfirst : ∀ x ∈ before, x.back ≠ q.back) :
    s.inboundPeer c before.length = some ((s.inboundTaken c (before ++ after)).answerSent c q) := by
  have hdrop : (s.core c).inbound.drop before.length = q :: after := by simp [h]
  have htake : (s.core c).inbound.take before.length = before := by simp [h]
  have hany : (before.any fun x => x.back == q.back) = false := by simpa using hfirst
  unfold inboundPeer
  dsimp only
  rw [hdrop]
  dsimp only
  rw [htake, hany]
  rfl

theorem State.core_answerSent {α : Type} {f : Core → α}
    (hf : ∀ (k : Core) (l : List PeerReply), f { k with peerReplies := l } = f k) (c : Nat) (q : PeerReq) (x : Nat) :
    f ((s.answerSent c q).core x) = f ((s.peerServe c q).1.core x) := by
  unfold answerSent
  by_cases hx : x = q.back
  · rw [hx, core_modCore, hf]
  · rw [core_modCore_other _ _ hx]

theorem State.core_inboundTaken {α : Type} {f : Core → α}
    (hf : ∀ (k : Core) (l : List PeerReq), f { k with inbound := l } = f k) (c : Nat) (left : List PeerReq) (x : Nat) :
    f ((s.inboundTaken c left).core x) = f (s.core x) := by
  unfold inboundTaken
  by_cases hx : x = c
  · rw [hx, core_modCore, hf]
  · rw [core_modCore_other _ _ hx]

theorem State.inbound_answerSent (left : List PeerReq) :
    (((s.inboundTaken c left).answerSent c q).core c).inbound = left := by
  rw [core_answerSent (f := Core.inbound) fun _ _ => rfl, core_peerServe (f := Core.inbound) fun _ _ _ => rfl,
    inboundTaken, core_modCore]

theorem State.peerReplies_answerSent (left : List PeerReq) :
    (((s.inboundTaken c left).answerSent c q).core q.back).peerReplies =
      (s.core q.back).peerReplies ++ [((s.inboundTaken c left).peerServe c q).2] := by
  rw [answerSent, core_modCore]
  dsimp only
  rw [core_peerServe (f := Core.peerReplies) fun _ _ _ => rfl,
    core_inboundTaken (f := Core.peerReplies) fun _ _ => rfl]

theorem State.scratch_answerSent (left : List PeerReq) :
    (((s.inboundTaken c left).answerSent c q).core c).scratch =
      (((s.inboundTaken c left).peerServe c q).1.core c).scratch :=
  core_answerSent (f := Core.scratch) (fun _ _ => rfl) c q c

/-- An access that fails leaves the scratchpad. -/
theorem State.refused_leaves {left : List PeerReq} {code : Nat}
    (h : (s.inboundTaken c left).peerServe c q = ((s.inboundTaken c left).reportPeer q.ctx c code q.offset q.write.isSome,
      q.refused c code)) :
    ((s.inboundTaken c left).peerServe c q).2.failed = true ∧
      ((s.inboundTaken c left).peerServe c q).2.syndrome = peerSyndrome c code q.write.isSome ∧
      (((s.inboundTaken c left).answerSent c q).core c).scratch = (s.core c).scratch := by
  have hframe : (s.inboundTaken c left).HomeFrame ((s.inboundTaken c left).peerServe c q).1 := by
    rw [h]
    exact (HomeFrame.refl _).report _
  refine ⟨by rw [h]; rfl, by rw [h]; rfl, ?_⟩
  rw [scratch_answerSent, hframe.core, core_inboundTaken (f := Core.scratch) fun _ _ => rfl]

theorem State.scratch_peerWrite (c a : Nat) (w : Option W32) :
    (∀ v, w = some v → ((s.peerWrite c a w).core c).scratch = (s.core c).scratch.setBytes a (leBytes 4 v.toNat)) ∧
      (w = none → ((s.peerWrite c a w).core c).scratch = (s.core c).scratch) := by
  cases w with
  | none => exact ⟨fun _ hv => (nomatch hv), fun _ => rfl⟩
  | some w =>
    refine ⟨fun v hv => ?_, fun h => (nomatch h)⟩
    obtain rfl : w = v := Option.some.inj hv
    rw [peerWrite, core_modCore]
    rfl

/-! ### The reply and the timeout -/

/-- The state in which a reply has reached its core. -/
def State.peerTaken (s : State) (c : Nat) (left : List PeerReply) : State :=
  s.modCore c fun k => { k with peerReplies := left }

theorem State.cycles_peerTaken (c : Nat) (left : List PeerReply) (x : Nat) :
    ((s.peerTaken c left).core x).cycles = (s.core x).cycles := by
  unfold peerTaken
  by_cases hx : x = c
  · rw [hx, core_modCore]
  · rw [core_modCore_other _ _ hx]

variable {p : PeerReply} {before after : List PeerReply}

section Reply

variable (h : (s.core c).peerReplies = before ++ p :: after) (hfirst : ∀ x ∈ before, x.from_ ≠ p.from_)
include h hfirst

theorem State.peerReply_late (ht : s.team? p.uid = none) :
    s.peerReply c before.length = some (s.peerTaken c (before ++ after)) := by
  have hdrop : (s.core c).peerReplies.drop before.length = p :: after := by simp [h]
  have htake : (s.core c).peerReplies.take before.length = before := by simp [h]
  have hany : (before.any fun x => x.from_ == p.from_) = false := by simpa using hfirst
  have hnone : (s.peerTaken c (before ++ after)).team? p.uid = none := ht
  rw [peerTaken] at hnone
  unfold peerReply
  dsimp only
  rw [hdrop]
  dsimp only
  rw [htake, hany, if_neg (by simp), hnone]
  rfl

theorem State.peerReply_done {dest : Option Nat} {rank offset core : Nat} (ht : s.team? p.uid = some t)
    (hp : t.pend = some (.peer dest rank offset core p.since)) :
    s.peerReply c before.length = some ((s.peerTaken c (before ++ after)).peerDone t dest offset p) := by
  have hdrop : (s.core c).peerReplies.drop before.length = p :: after := by simp [h]
  have htake : (s.core c).peerReplies.take before.length = before := by simp [h]
  have hany : (before.any fun x => x.from_ == p.from_) = false := by simpa using hfirst
  have hteam : (s.peerTaken c (before ++ after)).team? p.uid = some t := ht
  rw [peerTaken] at hteam
  unfold peerReply
  dsimp only
  rw [hdrop]
  dsimp only
  rw [htake, hany, if_neg (by simp), hteam]
  dsimp only
  rw [hp]
  exact if_pos rfl

end Reply

/-- A team whose peer access has ended at this time (R42). -/
def Team.peerEnded (t : Team) (since : Nat) : Team := { t with pend := none, readySince := since }

theorem State.peerDone_failed (hf : p.failed = true) (t : Team) (dest : Option Nat) (offset : Nat) :
    s.peerDone t dest offset p = s.takeTrap (t.peerEnded (s.core t.coreId).cycles)
      { code := 18, taddr := BitVec.ofNat 64 offset, tinfo := p.syndrome } := if_pos hf

theorem State.peerDone_word (hf : p.failed = false) (t : Team) (dest : Option Nat) (offset : Nat) :
    s.peerDone t dest offset p = s.putTeam (Team.advance (match dest with
      | some n => (t.peerEnded (s.core t.coreId).cycles).setS n (p.word.setWidth 64)
      | none => t.peerEnded (s.core t.coreId).cycles)) := by
  have hno : ¬p.failed = true := Bool.eq_false_iff.1 hf
  refine (if_neg hno).trans ?_
  cases dest <;> rfl

theorem State.peerTimeout_eq {n offset core since rank : Nat} {dest : Option Nat} (ht : s.team? n = some t)
    (hp : t.pend = some (.peer dest rank offset core since)) (hdue : since + s.host.peerTimeout ≤ s.time t.ident.die) :
    s.peerTimeout n =
      let info := BitVec.ofNat 64 (core % 64 + 2 ^ 6 * (core / 64))
      some ((s.takeTrap (t.peerEnded (s.core t.coreId).cycles)
        { code := 19, taddr := BitVec.ofNat 64 offset, tinfo := info }).report
          { kind := 4, code := 19, ctx := t.ctx, die := t.ident.die, unit := t.ident.core,
            addr := BitVec.ofNat 64 offset, info := info }) := by
  unfold peerTimeout
  rw [ht]
  dsimp only
  rw [hp]
  exact if_neg (Nat.not_lt.2 hdue)

/-- The third part of O55: peer accesses. -/
theorem peersAnswer : PeersAnswer := by
  intro s c
  refine ⟨fun before after q h hn hfirst => ?_, fun before after p h hn hfirst => ?_,
    fun t dest rank offset core since ht hp hdue => ?_⟩
  · refine ⟨_, event_next.2 (hn ▸ State.inboundPeer_eq h hfirst), State.inbound_answerSent _, ?_⟩
    have hnames := (s.inboundTaken c (before ++ after)).peerServe_names c q
    have hteam : ∀ t, s.peerTeam? q.wave q.ctx q.task q.cluster q.rank = t →
        (s.inboundTaken c (before ++ after)).peerOf q = t := fun t ht => ht
    have hbad : ∀ a, ((s.inboundTaken c (before ++ after)).core c).badAt a 4 = (s.core c).badAt a 4 := fun a =>
      State.core_inboundTaken (f := fun k => k.badAt a 4) (fun _ _ => rfl) c _ c
    have hscratch : ((s.inboundTaken c (before ++ after)).core c).scratch = (s.core c).scratch :=
      State.core_inboundTaken (f := Core.scratch) (fun _ _ => rfl) c _ c
    obtain ⟨huid, hsince, hfrom⟩ := hnames
    refine ⟨_, State.peerReplies_answerSent _, huid, hsince, hfrom, fun hnone => ?_, fun t ht => ?_⟩
    · exact State.refused_leaves (State.peerServe_none (hteam _ hnone))
    · refine ⟨fun hno => State.refused_leaves (State.peerServe_elsewhere (hteam _ ht) hno), fun hin hb => ?_,
        fun hin hb => ?_⟩
      · exact State.refused_leaves (State.peerServe_bad (hteam _ ht) hin ((hbad _).trans hb))
      · have hserve := State.peerServe_sound (hteam _ ht) hin ((hbad _).trans hb)
        obtain ⟨hwrite, hread⟩ := State.scratch_peerWrite (s := s.inboundTaken c (before ++ after)) c
          (t.ident.scrBase + q.offset) q.write
        rw [State.scratch_answerSent, hserve, ← hscratch]
        exact ⟨rfl, rfl, hwrite, hread⟩
  · intro taken
    refine ⟨fun hnone => event_next.2 (hn ▸ State.peerReply_late h hfirst hnone), fun t dest rank offset core ht hp => ?_⟩
    have he := State.peerReply_done h hfirst ht hp
    have hcycles := s.cycles_peerTaken c (before ++ after) t.coreId
    refine ⟨fun hf => event_next.2 (hn ▸ he.trans ?_), fun hf => event_next.2 (hn ▸ he.trans ?_)⟩
    · rw [State.peerDone_failed hf, hcycles]
      rfl
    · rw [State.peerDone_word hf, hcycles]
      cases dest <;> rfl
  · exact event_next.2 (State.peerTimeout_eq ht hp hdue)

end Sys2Proof.Machine
end

section
/-! SUPPORT for O55. Write leases, the accesses of the host and of the fabric, and write-backs (R167, R190, R197, R250,
R398). -/

namespace Sys2Proof.Machine

variable {s : State}

/-! ### Accesses from outside (R190) -/

variable {kind : ReqKind} {who d a : Nat} {f : State → State}

/-- The state in which an access waits in the mesh. -/
def State.meshed (s : State) (kind : ReqKind) (who d a : Nat) : State :=
  s.modDie d fun k => { k with mesh := k.mesh ++ [deviceReq kind 0xFFFF who d a k.time] }

theorem State.outside_held (h : (s.die d).deviceHeld (lineOf a) = true) :
    s.outside kind who d a f = some (s.meshed kind who d a) := if_pos h

theorem State.outside_free (h : (s.die d).deviceHeld (lineOf a) = false) (hb : s.homeBusy who d (lineOf a) = false) :
    s.outside kind who d a f = some (f s) :=
  (if_neg (Bool.eq_false_iff.1 h)).trans (if_neg (Bool.eq_false_iff.1 hb))

theorem State.hostRead_eq (hd : d < s.nDies) (ha : a < s.gddrSize) (hr : s.hostReaches d a = true) :
    s.hostRead d a = s.outside .read (edgeRequester 0) d a fun s => s.homeRead (edgeRequester 0) d (lineOf a) false := by
  have hgo : ¬(decide (s.nDies ≤ d) || decide (s.gddrSize ≤ a) || !s.hostReaches d a) = true := by simp [hd, ha, hr]
  exact if_neg hgo

variable {bytes : List Byte}

theorem State.inLine_eq (hd : d < s.nDies) (ha : a + bytes.length ≤ s.gddrSize) (hl : a % 128 + bytes.length ≤ 128) :
    s.inLine d a bytes = true := by simp [inLine, hd, ha, hl]

theorem State.hostWrite_own (ho : s.hostOrdered = true) :
    s.hostWrite true d a bytes = some { s with host := { s.host with mem := s.host.mem.setBytes a bytes } } := by
  have hgo : ¬(!s.hostOrdered) = true := by simp [ho]
  exact (if_neg hgo).trans (if_pos rfl)

theorem State.hostOrdered_of_reaches (h : s.hostReaches d a = true) : s.hostOrdered = true := by
  simp only [hostReaches, Bool.and_eq_true] at h
  exact h.1.1.2

theorem State.hostWrite_line (hl : s.inLine d a bytes = true) (hr : s.hostReaches d a = true) :
    s.hostWrite false d a bytes =
      s.outside (.host bytes) (edgeRequester 0) d a fun s => s.hostStore d a bytes := by
  have hgo : ¬(!s.hostOrdered) = true := by simp [hostOrdered_of_reaches hr]
  have hline : ¬(!s.inLine d a bytes || !s.hostReaches d a) = true := by simp [hl, hr]
  exact (if_neg hgo).trans ((if_neg (by simp)).trans (if_neg hline))

theorem State.fabricWrite_eq {e : EventArg} (hl : s.inLine e.die e.n e.bytes = true) (hf : s.host.fwok = true)
    (hp : s.portCut e.die e.core e.die e.n = false) :
    s.fabricWrite e = (s.outside (.store e.bytes) (edgeRequester e.die) e.die e.n fun s =>
      (s.homeStore (edgeRequester e.die) e.die e.n e.bytes).1).map fun s =>
        s.reportWindow e.die e.core e.n e.m e.k := by
  have hgo : ¬(!s.host.fwok || !s.inLine e.die e.n e.bytes || s.portCut e.die e.core e.die e.n) = true := by
    simp [hl, hf, hp]
  exact if_neg hgo

/-! ### Write-backs (R250) -/

theorem Memory.byte_copyRange {m src : Memory} {a n x : Nat} (hm : m.wf = true) :
    (m.copyRange src a n).byte x = if a ≤ x ∧ x < a + n then src.byte x else m.byte x := by
  induction n generalizing m a with
  | zero => rw [copyRange, if_neg (by omega)]
  | succ n ih =>
    rw [copyRange, ih (wf_setByte _ _ hm)]
    by_cases hx : x = a
    · subst hx
      rw [if_neg (by omega), if_pos (by omega), byte_setByte_self hm]
    · rw [byte_setByte_other hx]
      exact if_congr (by omega) rfl rfl

variable {k : Die} {n : Nat}

theorem Die.writeBack_dirty (h : n ∈ k.dirty) : k.writeBack n = { k with
    dram := k.dram.copyRange k.mem n 128
    dirty := k.dirty.filter fun l => l != n
    dramPoison := if k.poison.contains n && !k.dramPoison.contains n then n :: k.dramPoison else k.dramPoison } :=
  if_pos (by simpa using h)

/-- A dirty line that is written back: GDDR7 holds it as the shared cache does, an uncorrectable copy with it. -/
theorem Die.writeBack_leaves (h : n ∈ k.dirty) :
    n ∉ (k.writeBack n).dirty ∧ (k.writeBack n).mem = k.mem ∧ (n ∈ k.poison → n ∈ (k.writeBack n).dramPoison) ∧
      (k.dram.wf = true → ∀ a, (n ≤ a ∧ a < n + 128 → (k.writeBack n).dram.byte a = k.mem.byte a) ∧
        (a < n ∨ n + 128 ≤ a → (k.writeBack n).dram.byte a = k.dram.byte a)) := by
  rw [writeBack_dirty h]
  refine ⟨by simp, rfl, fun hp => ?_, fun hw a => ?_⟩
  · dsimp only
    split
    · exact List.mem_cons_self
    · simp_all
  · dsimp only
    rw [Memory.byte_copyRange hw]
    exact ⟨fun ha => if_pos ha, fun ha => if_neg (by omega)⟩

theorem State.writeBack_eq (h : n ∈ (s.die d).dirty) : s.writeBack d n = some (s.modDie d fun k => k.writeBack n) :=
  if_pos (by simpa using h)

theorem State.writeBack_leaves (h : n ∈ (s.die d).dirty) :
    let r := s.modDie d fun k => k.writeBack n
    n ∉ (r.die d).dirty ∧ (r.die d).mem = (s.die d).mem ∧ (n ∈ (s.die d).poison → n ∈ (r.die d).dramPoison) ∧
      ((s.die d).dram.wf = true → ∀ a, (n ≤ a ∧ a < n + 128 → (r.die d).dram.byte a = (s.die d).mem.byte a) ∧
        (a < n ∨ n + 128 ≤ a → (r.die d).dram.byte a = (s.die d).dram.byte a)) := by
  intro r
  have hr : r.die d = (s.die d).writeBack n := die_modDie s d _
  rw [hr]
  exact Die.writeBack_leaves h

/-! ### Write leases (R197) -/

theorem State.leaseRecall_eq (h : ∃ w ∈ (s.die d).wleases, w.line = n) :
    s.leaseRecall d n = some (s.endLease d n) := if_pos (by simpa using h)

theorem State.leaseExpiry_eq (h : ∃ w ∈ (s.die d).wleases, w.line = n ∧ w.expiry ≤ (s.die d).time) :
    s.leaseExpiry d n = some (s.endLease d n) := if_pos (by simpa using h)

/-- The fourth part of O55: lines at their homes. -/
theorem linesAtTheirHomes : LinesAtTheirHomes := by
  intro s d n k bytes ended inLine held waits hostGoes port window
  refine ⟨fun hw => event_next.2 (State.leaseRecall_eq hw), fun hw => event_next.2 (State.leaseExpiry_eq hw),
    fun hd ha hr => ?_, fun hok ho => ?_, fun hok hl hr => ?_, fun hl hp => ?_,
    fun hn => ⟨_, event_next.2 (State.writeBack_eq hn), State.writeBack_leaves hn⟩⟩
  · have he := State.hostRead_eq hd ha hr
    exact ⟨fun hh => event_next.2 (he.trans (State.outside_held hh)),
      fun hh hg => event_next.2 (he.trans (State.outside_free hh hg))⟩
  · have he := State.hostWrite_own (d := d) (a := n) (bytes := bytes) ho
    rw [← hok] at he
    exact event_next.2 he
  · obtain ⟨hd, ha, hlen⟩ := hl
    have he := State.hostWrite_line (State.inLine_eq hd ha hlen) hr
    rw [← hok] at he
    exact ⟨fun hh => event_next.2 (he.trans (State.outside_held hh)),
      fun hh hg => event_next.2 (he.trans (State.outside_free hh hg))⟩
  · obtain ⟨hd, ha, hlen⟩ := hl
    obtain ⟨hfw, hport⟩ := hp
    have he := State.fabricWrite_eq (e := s.arg) (State.inLine_eq hd ha hlen) hfw hport
    exact ⟨fun hh => event_next.2 (he.trans (congrArg (Option.map _) (State.outside_held hh))),
      fun hh hg => event_next.2 (he.trans (congrArg (Option.map _) (State.outside_free hh hg)))⟩

end Sys2Proof.Machine
end

section
/-! SUPPORT for O55. Pairs on their way to their homes, and the bins that are applied (R223, R228, R229, R231). -/

namespace Sys2Proof.Machine

variable {s : State}

/-! ### Injection (R228, R305) -/

theorem Core.streams_enterPairs (k : Core) (sched time : Nat) (pairs : List Pair) :
    lookup [] sched (k.enterPairs sched time pairs).streams = lookup [] sched k.streams ++ pairs :=
  lookup_insertAt_self _ _ _ _

theorem Core.streams_enterGroups (k : Core) (sched time : Nat) :
    ∃ entered, lookup [] sched (k.enterGroups sched time).streams = lookup [] sched k.streams ++ entered := by
  unfold enterGroups
  split
  · exact ⟨[], (List.append_nil _).symm⟩
  · exact ⟨_, streams_enterPairs _ _ _ _⟩

theorem Core.enterGroups_none {k : Core} {sched : Nat} (h : ∀ e ∈ k.entering, e.sched ≠ sched) (time : Nat) :
    k.enterGroups sched time = k := by
  have hnone : k.entering.find? (fun e => e.sched == sched) = none := List.find?_eq_none.2 fun e he => by simp [h e he]
  unfold enterGroups
  rw [hnone]

/-- The core that a pair has left. -/
def Core.injected (k : Core) (sched time : Nat) (rest : List Pair) : Core :=
  { k with streams := insertAt sched rest k.streams, streamSince := insertAt sched time k.streamSince }.enterGroups
    sched time

theorem Core.streams_injected (k : Core) (sched time : Nat) (rest : List Pair) :
    (∃ entered, lookup [] sched (k.injected sched time rest).streams = rest ++ entered) ∧
      ((∀ e ∈ k.entering, e.sched ≠ sched) → lookup [] sched (k.injected sched time rest).streams = rest) := by
  have hbase : lookup [] sched (insertAt sched rest k.streams) = rest := lookup_insertAt_self _ _ _ _
  constructor
  · obtain ⟨entered, he⟩ := Core.streams_enterGroups
      { k with streams := insertAt sched rest k.streams, streamSince := insertAt sched time k.streamSince } sched time
    rw [hbase] at he
    exact ⟨entered, he⟩
  · intro hnone
    rw [injected, enterGroups_none (by exact hnone)]
    exact hbase

/-- The state in which a pair is in flight to its home. -/
def State.pairSent (s : State) (c sched : Nat) (p : Pair) (rest : List Pair) : State :=
  (s.modCore c fun k => k.injected sched (s.time (c / 64)) rest).modDie p.die fun k => { k with
    flight := k.flight ++ [{ p with seq := k.arrival { space := .gddr, unit := p.die, addr := p.addr } }] }

theorem State.pairInject_eq {c sched : Nat} {p : Pair} {rest : List Pair}
    (h : lookup [] sched (s.core c).streams = p :: rest)
    (hroom : ((s.die p.die).flight.filter fun x => homeSlice x.addr == homeSlice p.addr).length < 256)
    (hlink : c / 64 = p.die ∨ s.linkWorks = true) :
    ∃ r, s.pairInject c sched = some r ∧ (∀ d, r.die d = (s.pairSent c sched p rest).die d) ∧
      ∀ x, r.core x = (s.pairSent c sched p rest).core x := by
  have hgo : ¬(decide (256 ≤ ((s.die p.die).flight.filter fun x => homeSlice x.addr == homeSlice p.addr).length) ||
      (c / 64 != p.die && !s.linkWorks)) = true := by
    rcases hlink with hl | hl <;> simp [hl, Nat.not_le.2 hroom]
  unfold pairInject
  rw [h]
  dsimp only
  rw [if_neg hgo]
  refine ⟨_, rfl, ?_, ?_⟩
  · intro d
    split
    · exact die_released _ _ _
    · rfl
  · intro x
    split
    · exact core_released _ _ _
    · rfl

theorem State.homeAcceptPair_eq {d : Nat} {p : Pair} {before after : List Pair}
    (h : (s.die d).flight = before ++ p :: after) (hw : s.pairWaits p before = false) :
    s.homeAcceptPair d before.length =
      some ((s.modDie d fun k => { k with flight := before ++ after }).acceptPair p) := by
  have hdrop : (s.die d).flight.drop before.length = p :: after := by simp [h]
  have htake : (s.die d).flight.take before.length = before := by simp [h]
  unfold homeAcceptPair
  dsimp only
  rw [hdrop]
  dsimp only
  rw [htake]
  exact if_neg (Bool.eq_false_iff.1 hw)

/-! ### Bins (R223, R231) -/

/-- A memory with the contributions of one word of a bin applied. -/
def Bin.applyTo (b : Bin) (m : Memory) (w : BinWord) : Memory :=
  m.write (b.line + 4 * w.idx) 4
    (regionApply b.op (BitVec.ofNat 32 (m.read (b.line + 4 * w.idx) 4)) w.vals).toNat

theorem State.mem_applyWords {b : Bin} (hb : b.op ≠ 9) (d : Nat) (l : List BinWord) :
    ((l.foldl (fun s w => s.applyWord d b w) s).die d).mem = l.foldl b.applyTo (s.die d).mem := by
  induction l generalizing s with
  | nil => rfl
  | cons w rest ih =>
    rw [List.foldl_cons, ih, applyWord, if_neg hb, List.foldl_cons]
    dsimp only
    rw [die_modDie]
    rfl

theorem State.mem_applyBin {b : Bin} (hb : b.op ≠ 9) (d : Nat) :
    ((s.applyBin d b).die d).mem = b.words.foldl b.applyTo (s.die d).mem := by
  rw [applyBin, die_fireLine, markDirty, die_modDie, Die.mem_markDirty, mem_applyWords hb, die_modDie, Die.mem_touch]

variable {b : Bin} {m : Memory}

theorem Bin.byte_applyTo {w : BinWord} {a : Nat} (h : a < b.line + 4 * w.idx ∨ b.line + 4 * w.idx + 4 ≤ a) :
    (b.applyTo m w).byte a = m.byte a :=
  Memory.byte_setBytes_other (by rwa [length_leBytes])

theorem Bin.byte_applyAll {l : List BinWord} {a : Nat}
    (h : ∀ w ∈ l, a < b.line + 4 * w.idx ∨ b.line + 4 * w.idx + 4 ≤ a) :
    (l.foldl b.applyTo m).byte a = m.byte a := by
  induction l generalizing m with
  | nil => rfl
  | cons w rest ih => rw [List.foldl_cons, ih fun x hx => h x (by simp [hx]), byte_applyTo (h w (by simp))]

/-- Words that lie elsewhere in the line leave a word. -/
theorem Bin.read_applyAll_other {l : List BinWord} {i : Nat} (h : ∀ w ∈ l, w.idx ≠ i) :
    (l.foldl b.applyTo m).read (b.line + 4 * i) 4 = m.read (b.line + 4 * i) 4 := by
  refine congrArg leNat (Memory.bytes_eq fun x h1 h2 => byte_applyAll fun w hw => ?_)
  have := h w hw
  omega

theorem Bin.read_applyAll {l : List BinWord} {w : BinWord} (hm : m.wf = true) (hn : (l.map BinWord.idx).Nodup)
    (hw : w ∈ l) : (l.foldl b.applyTo m).read (b.line + 4 * w.idx) 4 =
      (regionApply b.op (BitVec.ofNat 32 (m.read (b.line + 4 * w.idx) 4)) w.vals).toNat := by
  induction l generalizing m with
  | nil => simp at hw
  | cons v rest ih =>
    obtain ⟨hv, hrest⟩ := List.nodup_cons.1 (List.map_cons ▸ hn)
    have hne : ∀ x ∈ rest, x.idx ≠ v.idx := fun x hx he => hv (List.mem_map.2 ⟨x, hx, he⟩)
    rw [List.foldl_cons]
    rcases List.mem_cons.1 hw with rfl | hmem
    · rw [read_applyAll_other hne]
      exact (Memory.read_write_self _ 4 _ hm).trans (Nat.mod_eq_of_lt (BitVec.isLt _))
    · have hother : (b.applyTo m v).read (b.line + 4 * w.idx) 4 = m.read (b.line + 4 * w.idx) 4 :=
        Memory.read_write_other _ _ _ (by have := hne w hmem; omega)
      have hwf : (b.applyTo m v).wf = true := Memory.wf_write _ _ _ hm
      rw [ih hwf hrest hmem, hother]

theorem State.binApply_eq {d line : Nat} (h : (s.die d).bins.find? (fun b => b.line == line) = some b) :
    s.binApply d line = some (s.applyBin d b) := by
  unfold binApply
  rw [h]

/-- The fifth part of O55: pairs and bins. -/
theorem pairsReachMemory : PairsReachMemory := by
  intro s d
  refine ⟨fun p rest h hroom hlink => ?_, fun before p after h hn hw => event_next.2 (hn ▸ State.homeAcceptPair_eq h hw),
    fun b hb => ⟨_, event_next.2 (State.binApply_eq hb), fun hop hw hn => ⟨fun w hmem => ?_, fun a ha => ?_⟩⟩⟩
  · obtain ⟨r, hr, hdie, hcore⟩ := State.pairInject_eq h hroom hlink
    refine ⟨r, event_next.2 hr, ?_, ?_⟩
    · rw [hdie, State.pairSent, die_modDie]
      rfl
    · rw [hcore, State.pairSent, core_modDie, core_modCore]
      exact Core.streams_injected _ _ _ _
  · exact (congrArg (Memory.read · _ 4) (State.mem_applyBin hop d)).trans (Bin.read_applyAll hw hn hmem)
  · exact (congrArg (Memory.byte · a) (State.mem_applyBin hop d)).trans (Bin.byte_applyAll ha)

end Sys2Proof.Machine
end

section
/-! SUPPORT for O55. The steps of a migration and of its shootdown (R189 to R191, R327, R391, R397); and the
obligation. -/

namespace Sys2Proof.Machine

variable {s r : State} {d : Nat}

theorem bitOf_eq_getLsbD (x : Word) (i : Nat) : bitOf x.toNat i = x.getLsbD i :=
  (Nat.testBit_eq_decide_div_mod_eq ..).symm

/-! ### The start (R189) -/

/-- The state in which the engine has read the leaf, its status busy. -/
def State.migRead (s : State) (d a : Nat) : State := (s.migReach d a).modDie d fun k => k.migStatus 1

/-- The leaf that the engine has read. -/
def State.migLeaf (s : State) (d a : Nat) : Word := BitVec.ofNat 64 (((s.migRead d a).die d).mem.read a 8)

/-- The state in which it has read the lock entry of the leaf's page, and the entry. -/
def State.migLocked (s : State) (d a : Nat) : State × Nat := (s.migRead d a).readLock d (leafPfn (s.migLeaf d a))

theorem State.gddrSize_migLocked (a : Nat) : (s.migLocked d a).1.gddrSize = s.gddrSize := by
  have hsize {x y : State} (h : x.HomeFrame y) : y.gddrSize = x.gddrSize := h.part State.gddrSize fun _ => rfl
  have hmod : (s.migRead d a).gddrSize = (s.migReach d a).gddrSize := by
    rw [migRead, modDie, setDie]
    split <;> rfl
  exact (hsize (MoveKeeps.readLock d _)).trans (hmod.trans (hsize ((HomeFrame.refl s).reachHome _ _ _)))

theorem Die.aside_migStatus (k : Die) (n : Nat) : (k.migStatus n).aside = k.aside.migStatus n := by
  simp only [aside, migStatus]

theorem Die.Kept.migStatus {k k' : Die} (n : Nat) (h : k.Kept k') : (k.migStatus n).Kept (k'.migStatus n) :=
  ⟨by rw [Die.aside_migStatus, Die.aside_migStatus, h.aside], h.mesh⟩

theorem State.kept_migLocked (a : Nat) : ((s.die d).migStatus 1).Kept ((s.migLocked d a).1.die d) := by
  have hread : ((s.die d).migStatus 1).Kept ((s.migRead d a).die d) := by
    rw [migRead, die_modDie]
    exact (((HomeFrame.refl s).reachHome _ _ _).die d).migStatus 1
  exact hread.trans ((MoveKeeps.readLock d _).die d)

theorem State.HomeFrame.putLock (d page pins : Nat) (mig : Bool) : s.HomeFrame (s.putLock d page pins mig) :=
  (MoveKeeps.readLock d page).trans (MoveKeeps.writeLock _ _ _)

/-- The engine holds the page of a leaf. -/
def Die.holding (k : Die) (a : Nat) (leaf : Word) : Die :=
  { k.holdPage (leafPfn leaf) with
    migration := { step := .holding, since := k.time, leafAddr := a, leaf := leaf
                   srcPage := leafPfn leaf, dstPage := k.regs.migdst.toNat / 65536 } }

/-- A page is held with status 1 in the registers and what the registers name. -/
theorem Die.Kept.holding {k k' : Die} (h : (k.migStatus 1).Kept k') (a : Nat) (leaf : Word) :
    (k'.holding a leaf).regs.migctl = 2#64 ∧ (k'.holding a leaf).migration =
      { step := .holding, since := k.time, leafAddr := a, leaf := leaf
        srcPage := leafPfn leaf, dstPage := k.regs.migdst.toNat / 65536 } := by
  constructor
  · exact congrArg DieRegs.migctl h.regs
  · rw [Die.holding, h.regs, h.time]
    rfl

theorem State.migStart_eq {a : Nat} (hd : d < s.nDies) (hgo : (s.die d).regs.migctl.getLsbD 0 = true)
    (hidle : (s.die d).migration.step = .idle) (ha : (s.die d).regs.migpte.toNat = a) : s.migStart d =
      if s.gddrSize ≤ a || (s.migLocked d a).1.migRefused (s.migLeaf d a) (s.migLocked d a).2 then
        some ((s.migLocked d a).1.modDie d fun k => k.migStatus 3)
      else some (((s.migLocked d a).1.putLock d (leafPfn (s.migLeaf d a)) 1 true).modDie d fun k =>
        k.holding a (s.migLeaf d a)) := by
  have hsteps : ¬(decide (s.nDies ≤ d) || !bitOf (s.die d).regs.migctl.toNat 0 ||
      (s.die d).migration.step != .idle) = true := by
    simp [bitOf_eq_getLsbD, hgo, hidle, hd]
  subst ha
  rw [← State.gddrSize_migLocked (d := d) (s.die d).regs.migpte.toNat]
  unfold migStart
  exact if_neg hsteps

theorem State.migStart_leaves {a : Nat} (hd : d < s.nDies) (hgo : (s.die d).regs.migctl.getLsbD 0 = true)
    (hidle : (s.die d).migration.step = .idle) (ha : (s.die d).regs.migpte.toNat = a) :
    ∃ r, s.migStart d = some r ∧
      (s.gddrSize ≤ a ∨ (s.migLocked d a).1.migRefused (s.migLeaf d a) (s.migLocked d a).2 = true →
        (r.die d).regs.migctl = 6#64) ∧
      (a < s.gddrSize → (s.migLocked d a).1.migRefused (s.migLeaf d a) (s.migLocked d a).2 = false →
        (r.die d).regs.migctl = 2#64 ∧ (r.die d).migration =
          { step := .holding, since := (s.die d).time, leafAddr := a, leaf := s.migLeaf d a
            srcPage := leafPfn (s.migLeaf d a), dstPage := (s.die d).regs.migdst.toNat / 65536 }) := by
  have heq := State.migStart_eq hd hgo hidle ha
  by_cases href : s.gddrSize ≤ a ∨ (s.migLocked d a).1.migRefused (s.migLeaf d a) (s.migLocked d a).2 = true
  · rw [if_pos (by simpa using href)] at heq
    refine ⟨_, heq, fun _ => ?_, fun hin hno => ?_⟩
    · rw [die_modDie]
      rfl
    · exact absurd href (by simp [hno, hin])
  · rw [if_neg (by simpa using href)] at heq
    refine ⟨_, heq, fun h => absurd h href, fun _ _ => ?_⟩
    rw [die_modDie]
    exact ((kept_migLocked a).trans ((HomeFrame.putLock _ _ _ _).die d)).holding _ _

/-! ### The copy (R190, R191) -/

theorem Die.Kept.copyPage (k : Die) (src dst : Nat) : k.Kept (k.copyPage src dst) := by
  have hevict : ∀ (l : List CacheLine) (k' : Die), k.Kept k' → k.Kept (l.foldl (fun k x => k.evict x.line) k') := by
    intro l
    induction l with
    | nil => exact fun _ h => h
    | cons x rest ih => exact fun _ h => ih _ (h.evict _)
  unfold Die.copyPage
  exact (hevict _ _ (.refl k)).change (by simp only [Die.aside, Die.evictPage]) rfl

theorem State.HomeFrame.reportMoved (d src dst : Nat) (h : s.HomeFrame r) : s.HomeFrame (r.reportMoved d src dst) :=
  h.foldl fun _ _ hr => hr.report _

theorem State.HomeFrame.everyTile (h : s.HomeFrame r) : r.everyTile = s.everyTile :=
  h.part State.everyTile fun _ => rfl

/-- The multicast of a shootdown as its migration sends it. -/
def Migration.cast (m : Migration) (dests : List Nat) (d since : Nat) : Multicast :=
  { dests := dests, held := 0, leafDie := d, leafAddr := m.leafAddr, since := since }

theorem State.migCopy_eq {m : Migration} (hm : (s.die d).migration = m) (hstep : m.step = .holding)
    (hset : s.migSettled d m.srcPage = true) : ∃ r, s.HomeFrame r ∧
      s.migCopy d = some (r.modDie d fun k => { k with
        migration := { m with step := .shooting }
        multicasts := k.multicasts ++ [m.cast r.everyTile d (r.time d)] }) := by
  subst hm
  have hgo : ¬((s.die d).migration.step != .holding || !s.migSettled d (s.die d).migration.srcPage) = true := by
    simp [hstep, hset]
  have hlines := ((HomeFrame.refl s).foldl (l := pageLines (s.die d).migration.srcPage)
    fun (r : State) l (hr : s.HomeFrame r) => hr.applyLine d l).reportMoved d (s.die d).migration.srcPage
      (s.die d).migration.dstPage
  have hcopied := hlines.modDie (d := d) fun k => Die.Kept.copyPage k (s.die d).migration.srcPage
    (s.die d).migration.dstPage
  unfold migCopy
  exact ⟨_, (hcopied.reachHome _ _ _).lineWrite _ _ _, if_neg hgo⟩

/-! ### The shootdown (R327, R391) -/

/-- A multicast that the pair link does not stop takes its next landing slot where that is free, and lands when it holds
them all. -/
theorem State.multicast_eq {before after : List Multicast} {m : Multicast}
    (h : (s.die d).multicasts = before ++ m :: after) (hl : s.nDies = 2 → s.linkWorks = true) :
    (∀ x rest, m.dests.drop m.held = x :: rest → s.landing x = false →
      s.multicast d before.length = some (s.modDie d fun k => { k with
        multicasts := before ++ { m with held := m.held + 1 } :: after })) ∧
    (m.dests.drop m.held = [] → s.multicast d before.length = some (s.modDie d fun k => { k with
      multicasts := before ++ after
      shoot := k.shoot ++ m.dests.map fun c => (c, m.leafDie, m.leafAddr) })) := by
  have hdrop : (s.die d).multicasts.drop before.length = m :: after := by simp [h]
  have htake : (s.die d).multicasts.take before.length = before := by simp [h]
  have hlink : ¬(s.nDies == 2 && !s.linkWorks) = true := by
    intro hc
    simp_all
  unfold multicast
  dsimp only
  rw [hdrop]
  dsimp only
  rw [htake, if_neg hlink]
  refine ⟨fun x rest hx hland => ?_, fun hx => ?_⟩
  · rw [hx]
    exact if_neg (Bool.eq_false_iff.1 hland)
  · rw [hx]

theorem length_eraseFirst {α : Type} {p : α → Bool} {l : List α} {x : α} (hx : x ∈ l) (hp : p x = true) :
    (eraseFirst p l).length + 1 = l.length := by
  induction l with
  | nil => simp at hx
  | cons y rest ih =>
    by_cases hy : p y = true
    · simp [eraseFirst, hy]
    · obtain rfl | hrest := List.mem_cons.1 hx
      · exact absurd hp hy
      · simp [eraseFirst, hy, ih hrest]

/-- The core with no entry built from a leaf. -/
def Core.shot (k : Core) (ld la : Nat) : Core :=
  { k with tlb := k.tlb.filter fun e => !(e.leafDie == ld && e.leafAddr == la) }

theorem State.shootdown_eq {c ld la : Nat}
    (h : (s.die d).shoot.find? (fun x => x.1 == c) = some (c, ld, la))
    (hset : c < 128 → s.pageSettled c ld (s.die ld).migration.srcPage = true) :
    s.shootdown d c = some ((if 128 ≤ c then s else s.modCore c fun k => k.shot ld la).modDie d fun k =>
      { k with shoot := eraseFirst (fun x => x == (c, ld, la)) k.shoot }) := by
  have hgo : ¬(decide (c < 128) && !s.pageSettled c ld (s.die ld).migration.srcPage) = true := by
    intro hc
    simp_all
  unfold shootdown
  rw [h]
  exact if_neg hgo

/-! ### The end (R191) -/

theorem State.migFinish_eq {m : Migration} (hm : (s.die d).migration = m) (hstep : m.step = .shooting)
    (hcast : ∀ c ∈ (s.die d).multicasts, c.leafAddr ≠ m.leafAddr)
    (hshoot : ∀ x ∈ (s.die d).shoot, x.2.2 ≠ m.leafAddr) : ∃ r : State, s.migFinish d =
      some (r.modDie d fun k => { k.migStatus 2 with migration := { m with step := .idle } }) := by
  subst hm
  have hgo : ¬((s.die d).migration.step != .shooting ||
      (s.die d).multicasts.any (fun c => c.leafAddr == (s.die d).migration.leafAddr) ||
      (s.die d).shoot.any fun x => x.2.2 == (s.die d).migration.leafAddr) = true := by
    simpa [hstep] using ⟨hcast, fun _ _ hx => hshoot _ hx rfl⟩
  unfold migFinish
  exact ⟨_, if_neg hgo⟩

/-- The sixth part of O55: migrations. -/
theorem pagesMove : PagesMove := by
  intro s d k
  refine ⟨fun hd hgo hidle => ?_, fun hstep hset => ?_,
    fun before m after h hn hl => ⟨fun x rest hx hland => ?_, fun hx => ?_⟩,
    fun ld la hfind hset => ?_, fun hstep hcast hshoot => ?_⟩
  · obtain ⟨r, heq, hr⟩ := State.migStart_leaves hd hgo hidle rfl
    exact ⟨r, event_next.2 heq, hr⟩
  · obtain ⟨r, hr, heq⟩ := State.migCopy_eq rfl hstep hset
    refine ⟨_, event_next.2 heq, ?_, ?_⟩
    · rw [die_modDie]
    · rw [die_modDie, (hr.die d).multicasts, hr.everyTile, State.time, (hr.die d).time]
      rfl
  · exact event_next.2 (hn ▸ (State.multicast_eq h hl).1 x rest hx hland)
  · exact event_next.2 (hn ▸ (State.multicast_eq h hl).2 hx)
  · refine ⟨_, event_next.2 (State.shootdown_eq hfind hset), ?_, fun hc e he => ?_⟩
    · rw [die_modDie, apply_ite (State.die · d), die_modCore, ite_self]
      exact length_eraseFirst (List.mem_of_find?_eq_some hfind) (beq_self_eq_true _)
    · rw [core_modDie, if_neg (Nat.not_le.2 hc), core_modCore] at he
      simpa [imp_iff_not_or] using (List.mem_filter.1 he).2
  · obtain ⟨r, heq⟩ := State.migFinish_eq rfl hstep hcast hshoot
    refine ⟨_, event_next.2 heq, ?_, ?_⟩
    · rw [die_modDie]
    · rw [die_modDie]
      rfl

/-- Settles O55: the steps of the homes, of what travels to and from them, and of migrations, each from what it
leaves. -/
theorem homeStepsComplete : Obligations.HomeStepsComplete :=
  ⟨requestsServed, repliesArrive, peersAnswer, linesAtTheirHomes, pairsReachMemory, pagesMove⟩

end Sys2Proof.Machine
end

section
/-! SUPPORT for O26. What a scalar atomic does in each of its cases, and the obligation (R193, R196, R197, R326,
Table 8.3). -/

namespace Sys2Proof.Machine

variable {s : State} {t : Team} {i : Instr} {d a b : Field} {z : BitVec 1} {op : Nat}

/-- The model's atomics write over the old value what Table 8.3 says. -/
theorem atomicNew_of_mem_table83 : ∀ p ∈ table83, ∀ (n old b c : Nat), n = 4 ∨ n = 8 → old < 2 ^ (8 * n) →
    b < 2 ^ (8 * n) → atomicNew p.2.1 n old b c = p.2.2 (8 * n) old b c := by
  have signed {n old b : Nat} (hn : n = 4 ∨ n = 8) (ho : old < 2 ^ (8 * n)) (hb : b < 2 ^ (8 * n)) :
      signedOf (8 * n) old = sx (8 * n) old ∧ signedOf (8 * n) b = sx (8 * n) b :=
    ⟨signedOf_eq_sx (by omega) ho, signedOf_eq_sx (by omega) hb⟩
  simp only [table83, List.forall_mem_cons]
  refine ⟨fun _ _ _ _ _ _ _ => rfl, fun n old b c hn ho hb => ?min, fun n old b c hn ho hb => ?max,
    fun _ _ _ _ _ _ _ => rfl, fun _ _ _ _ _ _ _ => rfl, fun _ _ _ _ _ _ _ => rfl, fun _ _ _ _ _ _ _ => rfl,
    fun _ _ _ _ _ _ _ => rfl, fun _ _ _ _ _ _ _ => rfl, fun _ _ _ _ _ _ _ => rfl, List.forall_mem_nil _⟩
  all_goals
    obtain ⟨hso, hsb⟩ := signed hn ho hb
    simp only [atomicNew, hso, hsb]

/-- Every row of Table 8.3 runs as the atomic of its number. -/
theorem exec_table83 : ∀ p ∈ table83, ∀ (d a b : Field) (z : BitVec 1) (s : State),
    exec (p.1 d a b z) s = atomicForm (p.1 d a b z) p.2.1 d a b z s := by
  simp only [table83, List.forall_mem_cons]
  exact ⟨fun _ _ _ _ _ => rfl, fun _ _ _ _ _ => rfl, fun _ _ _ _ _ => rfl, fun _ _ _ _ _ => rfl,
    fun _ _ _ _ _ => rfl, fun _ _ _ _ _ => rfl, fun _ _ _ _ _ => rfl, fun _ _ _ _ _ => rfl, fun _ _ _ _ _ => rfl,
    fun _ _ _ _ _ => rfl, List.forall_mem_nil _⟩

/-- What the atomics share: the checks of the address, the order point, the queue at the home. -/
theorem atomicForm_says (hi : exec i s = atomicForm i op d a b z s) :
    let n := if z = 0#1 then 8 else 4
    let va := s.sread t a
    let x := (s.sread t b).toNat % 2 ^ (8 * n)
    let c := (t.sreg d).toNat % 2 ^ (8 * n)
    RefusesAccess s t i va n .both [0, 1, 3] ∧
    ∀ s1 m, ReachesStore s t va n .both [0, 1, 3] s1 m →
      let s2 := s1.learnFx t.coreId t.ctx va m.phys
      (s2.mustQueue t m.phys = false → s2.poisoned m.phys = false →
        let leased := (s2.ownLease? t.coreId m.phys.unit (lineOf m.phys.addr)).isSome
        let s3 := if s2.runsAtHome t.coreId m.phys m.nc || leased then s2
          else s2.grantLease t.coreId m.phys.unit (lineOf m.phys.addr)
        let r := s3.atomicAt t.coreId m.phys m.nc op n x c
        Does s t i ((r.1.joinGwct t.uid r.2.2).modTeam t.uid fun u =>
          (u.setD d (BitVec.ofNat 64 r.2.1)).advance)) ∧
      (s2.mustQueue t m.phys = true →
        (s2.hasCredit t.coreId m.phys = true → Does s t i
          ((s2.queueReq t m (.atomic op n (BitVec.ofNat 64 x) (BitVec.ofNat 64 c) d.toNat)).modTeam t.uid
            fun u => { u.advance with pend := some (.atomic d.toNat n m.phys) })) ∧
        (s2.hasCredit t.coreId m.phys = false → Held s t i)) := by
  dsimp only
  refine ⟨⟨fun h => .of_issue hi ?misaligned, fun r h hm => .of_issue hi ?unmapped⟩,
    fun s1 m h => ⟨fun hq hp => .of_issue hi ?served,
      fun hq => ⟨fun hc hissues => Does.of_issue hi ?sent hissues, fun hc => .of_issue hi ?held⟩⟩⟩
  case misaligned => simp only [needAligned_raise h, bind, Except.bind, raise]
  case unmapped => simp only [needAligned_ok h, scalarSpaces, hm, bind, Except.bind, raise]
  case served =>
    simp only [needAligned_ok h.aligned, scalarSpaces, h.mapped, State.ownPairs_ok h.settled, h.regions, hq, hp, bind,
      Except.bind]
    rfl
  case sent =>
    simp only [needAligned_ok h.aligned, scalarSpaces, h.mapped, State.ownPairs_ok h.settled, h.regions, hq,
      State.needCredit_ok hc hissues.settled, bind, Except.bind]
    rfl
  case held =>
    simp only [needAligned_ok h.aligned, scalarSpaces, h.mapped, State.ownPairs_ok h.settled, h.regions, hq,
      State.needCredit_hold (.inl hc), bind, Except.bind]
    rfl

/-- Settles O26: the values of Table 8.3, and each atomic in each of its cases. -/
theorem scalarAtomics : Obligations.ScalarAtomics :=
  ⟨atomicNew_of_mem_table83, fun p hp _ _ d a b z => atomicForm_says (exec_table83 p hp d a b z _)⟩

end Sys2Proof.Machine
end

section
/-! SUPPORT for O36. What DSMOP and DSMRED do in each of their cases, and the obligation (R128, R217, R218). -/

namespace Sys2Proof.Machine

variable {s s1 s2 : State} {t : Team} {d a b : Field}

/-- DSMOP's operation is reserved at 7 and beyond (R217). -/
theorem dsmopReserved_eq (v : Word) :
    (wordBits v 0 3 = 7 || wordBits v 3 61 != 0) = decide (7 ≤ v.toNat) := by
  have hlt := v.isLt
  rw [Bool.eq_iff_iff]
  simp only [Bool.or_eq_true, bne_iff_ne, decide_eq_true_eq]
  simp only [wordBits, bitsOf]
  omega

/-- DSMRED's operation is reserved at 0, and at 7 and beyond (R218). -/
theorem dsmredReserved_eq (v : Word) : (wordBits v 32 3 = 0 || wordBits v 32 3 = 7 || wordBits v 35 29 != 0) =
    decide (v.toNat / 2 ^ 32 = 0 ∨ 7 ≤ v.toNat / 2 ^ 32) := by
  have hlt := v.isLt
  rw [Bool.eq_iff_iff]
  simp only [Bool.or_eq_true, bne_iff_ne, decide_eq_true_eq]
  simp only [wordBits, bitsOf]
  omega


/-- DSMOP sends its operations where its elements are mapped and their banks take operations. -/
theorem dsmop_sends {ps : List (Nat × Phys)} (he : t.etype ∈ [0, 3, 4]) (hv : (s.sread t b).toNat < 7)
    (hmap : s.mapDsm t (fun n => s.sread t a + BitVec.ofNat 64 (4 * n)) (t.guarded (t.vread d).len) = .ok (s1, ps))
    (hbanks : s1.needBanks t ps = .ok ()) :
    Does s t (.dsmop d a b) ((s1.modDie t.ident.die fun k => { k with dsmQ := k.dsmQ ++ ps.map fun p =>
      { uid := t.uid, die := p.2.unit, addr := p.2.addr, op := (s.sread t b).toNat, etype := t.etype, mode := t.mode,
        val := (t.vread d).lane p.1 } }).putTeam (Team.advance { t with outstanding := t.outstanding + ps.length })) := by
  have hop : wordBits (s.sread t b) 0 3 = (s.sread t b).toNat := by
    simp only [wordBits, bitsOf]
    omega
  have hsound : (wordBits (s.sread t b) 0 3 = 7 || wordBits (s.sread t b) 3 61 != 0) = false :=
    (dsmopReserved_eq _).trans (decide_eq_false (not_le.2 hv))
  refine .of_issue rfl ((Team.needEtype_bind he).trans ((if_neg (Bool.eq_false_iff.1 hsound)).trans ?_))
  simp only [hmap, hbanks, hop, List.length_map, bind, Except.bind]
  rfl

/-- DSMRED leaves its reduction where its words are mapped, ready and read. -/
theorem dsmred_reduces {ps : List (Word × Nat × Mapped)} {bytes : List Byte} (he : t.etype ∈ [0, 3, 4])
    (hlo : 1 ≤ (s.sread t b).toNat / 2 ^ 32) (hhi : (s.sread t b).toNat / 2 ^ 32 ≤ 6)
    (ha : (s.sread t b).toNat % 2 ^ 32 = 0 ∨ (s.sread t a).toNat % 4 = 0)
    (hmap : s.mapParts t .read [3] (partsOf (s.sread t a) (4 * ((s.sread t b).toNat % 2 ^ 32))) = .ok (s1, ps))
    (hready : s1.needParts t ps = .ok ()) (hload : s1.loadParts t ps = .ok (s2, bytes)) :
    Does s t (.dsmred d a b) (s2.putTeam (t.setD d ((dsmReduce t.etype ((s.sread t b).toNat / 2 ^ 32) t.roundingNoDraw
      (words32 ((s.sread t b).toNat % 2 ^ 32) bytes)).setWidth 64)).advance) := by
  have hn : wordBits (s.sread t b) 0 32 = (s.sread t b).toNat % 2 ^ 32 := by simp [wordBits, bitsOf]
  have hop : wordBits (s.sread t b) 32 3 = (s.sread t b).toNat / 2 ^ 32 := by
    simp only [wordBits, bitsOf]
    omega
  have hno : ¬((s.sread t b).toNat / 2 ^ 32 = 0 ∨ 7 ≤ (s.sread t b).toNat / 2 ^ 32) := by omega
  have hsound := (dsmredReserved_eq (s.sread t b)).trans (decide_eq_false hno)
  have haligned (h : ((s.sread t b).toNat % 2 ^ 32 != 0) = true) : needAligned (s.sread t a) 4 = .ok () :=
    needAligned_ok (ha.resolve_left (by simpa using h))
  refine .of_issue rfl ((Team.needEtype_bind he).trans ((if_neg (Bool.eq_false_iff.1 hsound)).trans ?_))
  simp only [hn, hmap, hready, hload, hop, bind, Except.bind]
  split
  case isTrue h =>
    rw [haligned h]
    rfl
  case isFalse => rfl

/-- Settles O36: the checks of the element type and of the operation, and what the two instructions then do. -/
theorem dsmOperations : Obligations.DsmOperations := by
  unfold Obligations.DsmOperations
  intro s t d a b v base x
  refine ⟨.of_issue rfl rfl, .of_issue rfl rfl, fun he hv => .of_issue rfl ?opReserved,
    fun he hv s1 ps => dsmop_sends he hv, fun he hop => .of_issue rfl ?redReserved,
    fun he hlo hhi ha s1 ps s2 bytes => dsmred_reduces he hlo hhi ha⟩
  case opReserved =>
    exact (Team.needEtype_bind he).trans (if_pos ((dsmopReserved_eq v).trans (decide_eq_true hv)))
  case redReserved =>
    exact (Team.needEtype_bind he).trans (if_pos ((dsmredReserved_eq v).trans (decide_eq_true hop)))

end Sys2Proof.Machine
end

section
/-! SUPPORT for O35. What CBAR does in each of its cases, and what an arrival leaves in a barrier word of DSM (R183, R216,
R326, Table 8.8). -/

namespace Sys2Proof.Machine

variable {s s1 : State} {t : Team} {d a b : Field} {m : Mapped}

/-! ### CBAR -/

/-- CBAR's operand is reserved at mode 3 and with a bit set above the mode (R216). -/
theorem cbarReserved_eq (v : Word) : (wordBits v 32 2 = 3 || wordBits v 34 30 != 0) =
    decide (v.toNat / 2 ^ 32 % 4 = 3 ∨ 2 ^ 34 ≤ v.toNat) := by
  have hlt := v.isLt
  rw [Bool.eq_iff_iff]
  simp only [Bool.or_eq_true, bne_iff_ne, decide_eq_true_eq]
  simp only [wordBits, bitsOf]
  omega

theorem cbarMode_eq (v : Word) : wordBits v 32 2 = v.toNat / 2 ^ 32 % 4 := rfl

theorem State.needServed_ok {p : Phys} (h : s.blocked t p = false) : s.needServed t p = .ok () := by
  simp [needServed, h]

theorem State.needServed_hold {p : Phys} (h : s.blocked t p = true) : s.needServed t p = .error (.holdAt p) := by
  simp [needServed, h]

theorem HeldAt.of_issue {i : Instr} {p : Phys} {body : Team → Effect} (hi : exec i s = issue i s body)
    (hb : body t = .error (.holdAt p)) : HeldAt s t i p :=
  fun h => hi.trans (issue_stop h hb)

theorem cbar_sound {v : Word} (hv : v.toNat < 2 ^ 34) (hm : v.toNat / 2 ^ 32 % 4 < 3) :
    ¬(wordBits v 32 2 = 3 || wordBits v 34 30 != 0) = true := by
  rw [cbarReserved_eq, decide_eq_true_eq]
  omega

/-- What an arrival needs before it is counted or queued. -/
structure ArrivesAt (s : State) (t : Team) (a b : Field) (s1 : State) (m : Mapped) : Prop where
  fits : (s.sread t b).toNat < 2 ^ 34
  mode : (s.sread t b).toNat / 2 ^ 32 % 4 < 2
  reaches : Reaches s t (s.sread t a) 64 .both [0, 1, 3] s1 m
  fence : s1.fenceHolds t (if m.phys.unit = t.ident.die then 2 else 3) = true
  regions : s1.needRegions t.coreId t.ctx m.phys = .ok ()

theorem cbar_fenced {d a b : Field} (hv : (s.sread t b).toNat < 2 ^ 34) (hm : (s.sread t b).toNat / 2 ^ 32 % 4 < 2)
    (h : Reaches s t (s.sread t a) 64 .both [0, 1, 3] s1 m)
    (hf : s1.fenceHolds t (if m.phys.unit = t.ident.die then 2 else 3) = false) : Held s t (.cbar d a b) := by
  have hne : ¬wordBits (s.sread t b) 32 2 = 2 := by rw [cbarMode_eq]; omega
  refine .of_issue rfl ((if_neg (cbar_sound hv (by omega))).trans ?_)
  simp only [needAligned_ok h.aligned, scalarSpaces, hne, if_false, h.mapped, State.ownPairs_ok h.settled,
    State.needFence_hold hf, bind, Except.bind]

theorem cbar_queued {d a b : Field} (h : ArrivesAt s t a b s1 m)
    (hq : (s1.learnFx t.coreId t.ctx (s.sread t a) m.phys).mustQueue t m.phys = true) :
    let s2 := s1.learnFx t.coreId t.ctx (s.sread t a) m.phys
    (s2.hasCredit t.coreId m.phys = true → Does s t (.cbar d a b)
      ((s2.queueReq t m (.barrier ((s.sread t b).toNat / 2 ^ 32 % 4) ((s.sread t b).setWidth 32) d.toNat)).putTeam
        { t.advance with pend := some (.barrier d.toNat ((s.sread t b).toNat / 2 ^ 32 % 4) m.phys) })) ∧
    (s2.hasCredit t.coreId m.phys = false → Held s t (.cbar d a b)) := by
  obtain ⟨hv, hm, hr, hf, hreg⟩ := h
  have hne : ¬wordBits (s.sread t b) 32 2 = 2 := by rw [cbarMode_eq]; omega
  have hsound := cbar_sound hv (by omega)
  refine ⟨fun hc hissues => Does.of_issue rfl ((if_neg hsound).trans ?sent) hissues,
    fun hc => .of_issue rfl ((if_neg hsound).trans ?held)⟩
  case sent =>
    simp only [needAligned_ok hr.aligned, scalarSpaces, hne, if_false, hr.mapped, State.ownPairs_ok hr.settled,
      State.needFence_ok hf, hreg, hq, State.needCredit_ok hc hissues.settled, bind, Except.bind]
    rfl
  case held =>
    simp only [needAligned_ok hr.aligned, scalarSpaces, hne, if_false, hr.mapped, State.ownPairs_ok hr.settled,
      State.needFence_ok hf, hreg, hq, State.needCredit_hold (.inl hc), bind, Except.bind]
    rfl

theorem cbar_counted {d a b : Field} (h : ArrivesAt s t a b s1 m)
    (hq : (s1.learnFx t.coreId t.ctx (s.sread t a) m.phys).mustQueue t m.phys = false)
    (hp : (s1.learnFx t.coreId t.ctx (s.sread t a) m.phys).poisoned m.phys = false) :
    let r := (s1.learnFx t.coreId t.ctx (s.sread t a) m.phys).arrive t.coreId m.phys ((s.sread t b).setWidth 32)
    Does s t (.cbar d a b) (((r.1.joinGwct t.uid r.2.2).modTeam t.uid Team.advance).arrived t.uid d.toNat
      ((s.sread t b).toNat / 2 ^ 32 % 4) m.phys r.2.1) := by
  obtain ⟨hv, hm, hr, hf, hreg⟩ := h
  have hne : ¬wordBits (s.sread t b) 32 2 = 2 := by rw [cbarMode_eq]; omega
  refine .of_issue rfl ((if_neg (cbar_sound hv (by omega))).trans ?_)
  simp only [needAligned_ok hr.aligned, scalarSpaces, hne, if_false, hr.mapped, State.ownPairs_ok hr.settled,
    State.needFence_ok hf, hreg, hq, hp, bind, Except.bind]
  rfl

/-- The state in which the home has been asked for a word that a team waits on (R180, R216). -/
def State.asked (s : State) (c : Nat) (p : Phys) : State :=
  if p.space = .gddr then s.homeRead c p.unit (lineOf p.addr) false else s

theorem cbar_waits {d a b : Field} (hv : (s.sread t b).toNat < 2 ^ 34) (hm : (s.sread t b).toNat / 2 ^ 32 % 4 = 2)
    (h : Reaches s t (s.sread t a) 64 .read [0, 1, 3] s1 m) :
    let gen := (t.sreg d).setWidth 32
    (s1.blocked t m.phys = true → HeldAt s t (.cbar d a b) m.phys) ∧
    (s1.blocked t m.phys = false → s1.poisoned m.phys = false →
      let r := s1.asked t.coreId m.phys
      let found := r.peek { m.phys with addr := m.phys.addr + 4 } 4
      (found ≠ gen.toNat → Does s t (.cbar d a b) (r.putTeam t.advance)) ∧
      (found = gen.toNat → Does s t (.cbar d a b) (r.putTeam
        { t.advance with wait := some { kind := .barrier m.phys gen, fired := false } }))) := by
  have hmode : wordBits (s.sread t b) 32 2 = 2 := hm
  have hsound := cbar_sound hv (by omega)
  have hasked : (if (m.phys.space == .gddr) = true then
      s1.homeRead t.coreId m.phys.unit (lineOf m.phys.addr) false else s1) = s1.asked t.coreId m.phys := by
    simp only [State.asked, beq_iff_eq]
  refine ⟨fun hb => .of_issue rfl ((if_neg hsound).trans ?blocked), fun hb hp => ⟨fun hne => ?passes, fun heq => ?waits⟩⟩
  case blocked =>
    simp only [needAligned_ok h.aligned, scalarSpaces, hmode, if_true, h.mapped, State.ownPairs_ok h.settled,
      State.needServed_hold hb, bind, Except.bind]
  case passes =>
    refine .of_issue rfl ((if_neg hsound).trans ?_)
    simp only [needAligned_ok h.aligned, scalarSpaces, hmode, if_true, h.mapped, State.ownPairs_ok h.settled,
      State.needServed_ok hb, hp, hasked, State.waitHolds, bne_iff_ne.2 hne, bind, Except.bind]
    rfl
  case waits =>
    refine .of_issue rfl ((if_neg hsound).trans ?_)
    simp only [needAligned_ok h.aligned, scalarSpaces, hmode, if_true, h.mapped, State.ownPairs_ok h.settled,
      State.needServed_ok hb, hp, hasked, State.waitHolds, heq, bne_self_eq_false, bind, Except.bind]
    rfl

theorem clusterBarriers : ClusterBarriers := by
  intro s t d a b v va mode
  refine ⟨fun hr => .of_issue rfl (if_pos ((cbarReserved_eq v).trans (decide_eq_true hr))),
    fun hm hv ha => .of_issue rfl ((if_neg (cbar_sound hv hm)).trans ?_),
    fun hv hm s1 m h => ⟨cbar_fenced hv hm h, fun hf hreg hq => cbar_queued ⟨hv, hm, h, hf, hreg⟩ hq,
      fun hf hreg hq hp => cbar_counted ⟨hv, hm, h, hf, hreg⟩ hq hp⟩,
    fun hv hm s1 m h => cbar_waits hv hm h⟩
  exact (congrArg (· >>= _) (needAligned_raise ha)).trans rfl

/-! ### Arrivals (Table 8.8) -/

/-- What an arrival leaves in a barrier word: the next generation with no arrivals, or one arrival more. -/
def arrivedWord (gen count target : W32) : Nat :=
  if target.ule count then 2 ^ 32 * (gen + 1#32).toNat else 2 ^ 32 * gen.toNat + count.toNat

theorem arrivedWord_lt (gen count target : W32) : arrivedWord gen count target < 256 ^ 8 := by
  have h1 := (gen + 1#32).isLt
  have h2 := gen.isLt
  have h3 := count.isLt
  unfold arrivedWord
  split <;> omega

theorem State.dsmSize_noteRequest {d line c x : Nat} :
    ((s.noteRequest d line c).die x).dsmSize = (s.die x).dsmSize ∧
      ((s.noteRequest d line c).die x).dsm = (s.die x).dsm := by
  rw [noteRequest, die_modDie_eq]
  split <;> exact ⟨rfl, rfl⟩

/-- Bytes that a store leaves in DSM below its size stand at their place afterwards. -/
theorem State.peek_dsmStore {r : State} {p : Phys} {n v : Nat} (hp : p.space = .dsm) (hw : (r.die p.unit).dsm.wf = true)
    (hr : p.addr + n ≤ (r.die p.unit).dsmSize) :
    (r.dsmStore p.unit p.addr (leBytes n v)).1.peek p n = v % 256 ^ n := by
  have hin : ¬(r.die p.unit).dsmSize < p.addr + (leBytes n v).length := by
    rw [length_leBytes]
    omega
  simp only [peek, hp, space, die_dsmStore, if_neg hin]
  exact Memory.read_write_self p.addr n v hw

theorem State.arrive_dsm {core : Nat} {p : Phys} {target : W32} (hp : p.space = .dsm) :
    s.arrive core p target =
      let w := s.peek p 8
      let gen := BitVec.ofNat 32 (w / 2 ^ 32)
      let r := (s.noteRequest p.unit (homeKey p) core).dsmStore p.unit p.addr
        (leBytes 8 (arrivedWord gen (BitVec.ofNat 32 w + 1#32) target))
      (r.1, gen, r.2) := by
  have hgen (x : Nat) : BitVec.ofNat 32 (x % 2 ^ 32) = BitVec.ofNat 32 x :=
    BitVec.eq_of_toNat_eq (by simp)
  have hspace : (PhysSpace.dsm == PhysSpace.gddr) = false := rfl
  simp only [arrive, hp, hspace, bitsOf, pow_zero, Nat.div_one, hgen, arrivedWord]
  rfl

theorem barrierArrivals : BarrierArrivals := by
  refine ⟨fun s t d mode p gen ht hd => ?team, fun s core p target hp hw hr => ?word⟩
  case team =>
    refine (team_modTeam s (fun x => ?_) ht).trans (congrArg some ?_)
    · simp only [apply_ite Team.uid, waitFor_uid, setS_uid, ite_self]
    · simp only [Bool.and_eq_true, decide_eq_true_eq, beq_iff_eq]
      rfl
  case word =>
    have hwf : ((s.noteRequest p.unit (homeKey p) core).die p.unit).dsm.wf = true := by
      rw [State.dsmSize_noteRequest.2]
      exact (State.Canon.die (s := s) hw p.unit).dsm
    dsimp only
    generalize hgen : BitVec.ofNat 32 (s.peek p 8 / 2 ^ 32) = gen
    generalize hcount : BitVec.ofNat 32 (s.peek p 8) + 1#32 = count
    have hpeek : (s.arrive core p target).1.peek p 8 = arrivedWord gen count target := by
      simp only [State.arrive_dsm hp, hgen, hcount]
      rw [State.peek_dsmStore hp hwf (by rwa [State.dsmSize_noteRequest.1])]
      exact Nat.mod_eq_of_lt (arrivedWord_lt ..)
    refine ⟨hgen ▸ congrArg (fun x => x.2.1) (State.arrive_dsm hp), fun hle => ?_, fun hlt => ?_⟩
    · exact hpeek.trans (if_pos (by simpa [BitVec.ule] using hle))
    · exact hpeek.trans (if_neg (by simpa [BitVec.ule] using hlt))

/-- Settles O35: CBAR in each of its modes, and what an arrival leaves in a barrier word. -/
theorem barriers : Obligations.Barriers := ⟨clusterBarriers, barrierArrivals⟩

end Sys2Proof.Machine
end

section
/-! SUPPORT for O33. What UPD and UPDS send, and what becomes of a pair (R210, R211, R222, R401, Table 21.3). -/

namespace Sys2Proof.Machine

variable {s s1 s2 : State} {t : Team} {i : Instr} {a : Field} {lanes : List Nat} {index : Nat → Nat} {x : VReg}

/-! ### UPD and UPDS -/

/-- The pairs that an update emits. -/
def State.updatePairs (s : State) (t : Team) (a : Field) (lanes : List Nat) (index : Nat → Nat) (x : VReg) :
    List Emitted :=
  lanes.map fun n => { va := s.sread t a + BitVec.ofNat 64 (4 * index n), val := x.lane n, ray := none }

theorem State.update_misaligned (h : (s.sread t a).toNat % 4 ≠ 0) :
    s.update t a lanes index x = raise { code := 5, taddr := s.sread t a } := by
  simp only [update, needAligned_raise h, bind, Except.bind, raise]

theorem State.update_full (h : (s.sread t a).toNat % 4 = 0) (hfull : 1024 < (s.streamOf t).length + lanes.length) :
    s.update t a lanes index x = .error .hold := by
  simp only [update, needAligned_ok h, emit, List.length_map, hfull, if_true, bind, Except.bind]

theorem State.emit_ok {ps : List Emitted} {es : List RegionEntry} {pairs : List Pair} {drops : List Dropped}
    (hroom : (s.streamOf t).length + ps.length ≤ 1024) (hes : s.regionsOf t.coreId t.ctx = .ok (s1, es))
    (hfates : s1.pairFates t es ps = .ok (s2, pairs, drops)) :
    let s3 := [64, 65, 66, 67].foldl (fun (r : State) c => r.reportDrops t drops c) s2
    s.emit t ps = .ok (s3.modCore t.coreId fun k => { k with
        streams := insertAt t.ident.sched (s3.streamOf t ++ pairs) k.streams
        streamSince := if s3.streamOf t = [] then insertAt t.ident.sched (s3.time t.ident.die) k.streamSince
                       else k.streamSince }, pairs) := by
  simp only [emit, not_lt.2 hroom, if_false, fates, hes, hfates, bind, Except.bind, pure, Except.pure,
    State.modCore, Core.enterPairs, List.isEmpty_iff]
  rfl

theorem State.update_sends {es : List RegionEntry} {pairs : List Pair} {drops : List Dropped}
    (h : (s.sread t a).toNat % 4 = 0) (hroom : (s.streamOf t).length + lanes.length ≤ 1024)
    (hes : s.regionsOf t.coreId t.ctx = .ok (s1, es))
    (hfates : s1.pairFates t es (s.updatePairs t a lanes index x) = .ok (s2, pairs, drops)) :
    let s3 := [64, 65, 66, 67].foldl (fun (r : State) c => r.reportDrops t drops c) s2
    s.update t a lanes index x = .ok ((s3.modCore t.coreId fun k => { k with
        streams := insertAt t.ident.sched (s3.streamOf t ++ pairs) k.streams
        streamSince := if s3.streamOf t = [] then insertAt t.ident.sched (s3.time t.ident.die) k.streamSince
                       else k.streamSince }).putTeam t.advance) := by
  have hlen : (s.updatePairs t a lanes index x).length = lanes.length := List.length_map _
  have hemit := State.emit_ok (ps := s.updatePairs t a lanes index x) (by rw [hlen]; exact hroom) hes hfates
  simp only [updatePairs] at hemit
  simp only [update, needAligned_ok h, hemit, bind, Except.bind]
  rfl

/-! ### The fate of a pair (R222, Table 21.3) -/

/-- The covering entry is one that covers, and none before it does. -/
theorem coveringEntry_some {va : Word} {es : List RegionEntry} {k j : Nat} {r : RegionEntry}
    (h : coveringEntry va k es = some (j, r)) :
    ∃ n, j = k + n ∧ es[n]? = some r ∧ r.covers va = true ∧ ∀ m < n, ∀ q, es[m]? = some q → q.covers va = false := by
  induction es generalizing k with
  | nil => simp [coveringEntry] at h
  | cons e rest ih =>
    rw [coveringEntry] at h
    split at h
    case isTrue hc =>
      obtain ⟨rfl, rfl⟩ : k = j ∧ e = r := by simpa using h
      exact ⟨0, rfl, rfl, hc, fun m hm => absurd hm (Nat.not_lt_zero m)⟩
    case isFalse hc =>
      obtain ⟨n, rfl, hn, hr, hlow⟩ := ih h
      refine ⟨n + 1, by omega, hn, hr, fun m hm q hq => ?_⟩
      cases m with
      | zero =>
        obtain rfl : e = q := by simpa using hq
        simpa using hc
      | succ m => exact hlow m (by omega) q hq

theorem pairFates : PairFates := by
  intro s s' t es e m x
  refine ⟨fun h => ?none, fun j r h => ⟨?covers, fun hm => ?malformed, fun hm => ⟨fun ht => ?traps,
    fun ht => ⟨fun hr => ?absent, fun hr => ?sent⟩⟩⟩⟩
  case none => simp only [State.pairFate, h]
  case covers =>
    obtain ⟨n, rfl, hn, hr, hlow⟩ := coveringEntry_some h
    rw [Nat.zero_add]
    exact ⟨hn, hr, hlow⟩
  case malformed => simp only [State.pairFate, h, hm, if_true]
  case traps => simp only [State.pairFate, h, hm, ht, Bool.false_eq_true, if_false]
  case absent => simp only [State.pairFate, h, hm, ht, hr, Bool.false_eq_true, if_false, Bool.not_false, if_true]
  case sent =>
    simp only [State.pairFate, h, hm, ht, hr, Bool.false_eq_true, if_false, Bool.not_true]
    exact ⟨_, rfl, rfl, rfl, rfl, rfl, rfl⟩

end Sys2Proof.Machine
end

section
/-! SUPPORT for O33. That the bins of a range are gone once they are applied, whatever is reported meanwhile, and the
obligation (R212, R231). -/

namespace Sys2Proof.Machine

variable {s r : State} {t : Team}

/-! ### What leaves the bins as they are -/

@[simp] theorem Die.bins_markDirty (k : Die) (line : Nat) : (k.markDirty line).bins = k.bins := by
  unfold markDirty
  split <;> rfl

/-- The bins of the two states are the same. -/
def State.SameBins (s r : State) : Prop := ∀ d, (r.die d).bins = (s.die d).bins

namespace State.SameBins

theorem refl (s : State) : s.SameBins s := fun _ => rfl

theorem modDie {f : Die → Die} {d : Nat} (h : s.SameBins r) (hf : ∀ k : Die, (f k).bins = k.bins) :
    s.SameBins (r.modDie d f) := fun x => by
  rw [State.die_modDie_eq]
  split
  · rw [hf, h]
  · exact h x

theorem ite {p : Prop} [Decidable p] {u v : State} (hu : s.SameBins u) (hv : s.SameBins v) :
    s.SameBins (if p then u else v) := by
  split
  · exact hu
  · exact hv

theorem markDirty {d line : Nat} (h : s.SameBins r) : s.SameBins (r.markDirty d line) :=
  h.modDie fun k => k.bins_markDirty line

theorem deviceStore {d a : Nat} {bytes : List Byte} (h : s.SameBins r) : s.SameBins (r.deviceStore d a bytes) := by
  have hrecall : s.SameBins (r.recallLine (deviceRequester d) d (lineOf a)) := h.modDie fun _ => rfl
  exact modDie (hrecall.modDie fun k => k.bins_touch _ _) fun k => Die.bins_markDirty _ _

theorem deviceWrite {d a n v : Nat} (h : s.SameBins r) : s.SameBins (r.deviceWrite d a n v) :=
  .ite (h.modDie fun _ => rfl) h.deviceStore

theorem deviceWriteWords {d a : Nat} {ws : List Word} (h : s.SameBins r) : s.SameBins (r.deviceWriteWords d a ws) := by
  induction ws generalizing r a with
  | nil => exact h
  | cons w rest ih => exact ih h.deviceWrite

theorem appendWords {ws : List Word} (h : s.SameBins r) : s.SameBins (r.appendWords ws) := by
  unfold State.appendWords
  dsimp only
  refine .ite h (.ite h.deviceWrite ?_)
  exact h.deviceWriteWords.deviceWrite (d := 0)

theorem report {e : Report} (h : s.SameBins r) : s.SameBins (r.report e) := h.appendWords

theorem closeInterval {d : Nat} {j : Interval} (h : s.SameBins r) : s.SameBins (r.closeInterval d j) :=
  .ite (h.modDie fun _ => rfl) (appendWords (h.modDie fun _ => rfl))

theorem openInterval {e : Report} {counted : Bool} (h : s.SameBins r) : s.SameBins (r.openInterval e counted) :=
  h.report.modDie fun _ => rfl

theorem reportLimited {e : Report} {counted : Bool} (h : s.SameBins r) : s.SameBins (r.reportLimited e counted) := by
  unfold State.reportLimited
  dsimp only
  split
  · exact h.openInterval
  · exact .ite h.closeInterval.openInterval (h.modDie fun _ => rfl)

theorem haltCtx {n : Nat} {e : Report} (h : s.SameBins r) : s.SameBins (r.haltCtx n e) :=
  .ite h (report (r := r.modCtx n fun c => { c with halted := true }) h)

theorem homeChange {d line cls : Nat} {f : Memory → Memory} (h : s.SameBins r) :
    s.SameBins (r.homeChange d line cls f) :=
  h.modDie fun k => (Die.bins_markDirty _ _).trans (k.bins_touch line cls)

theorem applyFx {d : Nat} {b : Bin} {w : BinWord} (h : s.SameBins r) : s.SameBins (r.applyFx d b w) := by
  have hw (cls : Nat) (f : Memory → Memory) (g : Die → Memory) (line : Nat) :
      s.SameBins ((r.homeChange d line cls f).modDie d fun k => { k with mem := g k }) :=
    h.homeChange.modDie fun _ => rfl
  unfold State.applyFx
  dsimp only
  refine .ite h.haltCtx (.ite (reportLimited ?_) ?_)
  all_goals exact .ite (hw _ _ _ _).reportLimited (hw _ _ _ _)

theorem applyWord {d : Nat} {b : Bin} {w : BinWord} (h : s.SameBins r) : s.SameBins (r.applyWord d b w) :=
  .ite h.applyFx (h.modDie fun _ => rfl)

theorem applyWords {d : Nat} {b : Bin} {l : List BinWord} (h : s.SameBins r) :
    s.SameBins (l.foldl (fun s w => s.applyWord d b w) r) := by
  induction l generalizing r with
  | nil => exact h
  | cons w rest ih => exact ih h.applyWord

end State.SameBins

/-! ### Applying the bins of a range -/

/-- Applying a bin takes the first bin of its line away, and no other. -/
theorem State.bins_applyBin (d : Nat) (b : Bin) :
    ((s.applyBin d b).die d).bins = eraseFirst (fun x => x.line == b.line) (s.die d).bins := by
  let freed := s.modDie d fun k =>
    { k with bins := eraseFirst (fun x => x.line == b.line) k.bins }.touch b.line (s.classOf b.ctx)
  have hsame : freed.SameBins ((b.words.foldl (fun s w => s.applyWord d b w) freed).markDirty d b.line) :=
    (SameBins.refl freed).applyWords.markDirty
  refine (hsame d).trans ?_
  simp only [freed, die_modDie, Die.bins_touch]

theorem filter_eraseFirst {α : Type} {p q : α → Bool} {l : List α} (h : ∀ x, p x = true → q x = true) :
    (eraseFirst p l).filter q = eraseFirst p (l.filter q) := by
  induction l with
  | nil => rfl
  | cons x rest ih =>
    by_cases hp : p x = true
    · simp [eraseFirst, hp, h x hp]
    · by_cases hq : q x = true <;> simp [eraseFirst, hp, hq, ih]

/-- Whether a bin's line meets `n` bytes of a die. -/
def Bin.meets (a n : Nat) (b : Bin) : Bool := decide (a < b.line + 128) && decide (b.line < a + n)

/-- Once the bins of a range are applied in their order, none of them is left. -/
theorem State.filter_bins_applied {d a n uid : Nat} {l : List Bin} (h : (s.die d).bins.filter (Bin.meets a n) = l) :
    ((l.foldl (fun (s : State) b => (s.applyBin d b).joinGwct uid ((s.applyBin d b).gwctOf d b.line)) s).die d).bins.filter
      (Bin.meets a n) = [] := by
  induction l generalizing s with
  | nil => exact h
  | cons b rest ih =>
    refine ih ?_
    have hb : Bin.meets a n b = true := (List.mem_filter.1 (h ▸ List.mem_cons_self)).2
    have hline (x : Bin) (hx : (x.line == b.line) = true) : Bin.meets a n x = true := by
      rw [Bin.meets, beq_iff_eq.1 hx]
      exact hb
    rw [die_joinGwct, bins_applyBin, filter_eraseFirst hline, h]
    simp [eraseFirst]

theorem State.not_mem_bins_applyRange {p : Phys} {n : Nat} (hp : p.space = .gddr) :
    ∀ x ∈ ((s.applyRange t p n).die p.unit).bins, ¬(p.addr < x.line + 128 ∧ x.line < p.addr + n) := by
  intro x hx hmeets
  have hgone := State.filter_bins_applied (s := s) (d := p.unit) (a := p.addr) (n := n) (uid := t.uid) rfl
  rw [applyRange, hp] at hx
  have hmem := List.mem_filter.2 ⟨hx, (by simpa [Bin.meets] using hmeets : Bin.meets p.addr n x = true)⟩
  exact List.not_mem_nil (hgone ▸ hmem)

/-! ### The instructions -/

theorem updateStreams : UpdateStreams := by
  intro s t d a b base x sends
  have updates {i : Instr} {lanes : List Nat} {index : Nat → Nat} {body : Team → Effect}
      (hi : exec i s = issue i s body) (hb : body t = s.update t a lanes index x) : sends i lanes index :=
    ⟨fun h => .of_issue hi (hb.trans (State.update_misaligned h)),
      fun h hfull => .of_issue hi (hb.trans (State.update_full h hfull)),
      fun h hroom s1 es s2 pairs drops hes hfates =>
        .of_issue hi (hb.trans (State.update_sends h hroom hes hfates))⟩
  refine ⟨updates rfl rfl, updates rfl rfl, fun hs => .of_issue rfl ?held, fun hs hn => .of_issue rfl ?nothing,
    fun r hs hn hr => .of_issue rfl ?applied, fun p n hp => State.not_mem_bins_applyRange hp⟩
  case held => exact if_pos hs
  case nothing =>
    rw [if_neg (Bool.eq_false_iff.1 hs), if_pos hn]
    rfl
  case applied =>
    rw [if_neg (Bool.eq_false_iff.1 hs), if_neg hn]
    exact congrArg (· >>= _) hr

/-- Settles O33: what the three instructions do, and what becomes of a pair. -/
theorem updatePairs : Obligations.UpdatePairs := ⟨updateStreams, pairFates⟩

end Sys2Proof.Machine
end

section
/-! SUPPORT for O31. What the scratchpad loads and stores do once their offsets are checked, and the obligation (R166,
R204 to R207, R365). -/

namespace Sys2Proof.Machine

variable {s : State} {t : Team} {i : Instr} {d a b : Field} {c : BitVec 1} {body : Team → Effect} {o : Word}

/-! ### The checks of an offset (R166, R356) -/

theorem Team.needScr_misaligned {n : Nat} (h : o.toNat % n ≠ 0) : t.needScr o n 0 = raise { code := 5, taddr := o } := by
  simp only [needScr, bne_iff_ne.2 h, if_true]
  rfl

theorem Team.needScr_beyond {n : Nat} (h : o.toNat % n = 0) (hr : t.scrSize ≤ o.toNat) :
    t.needScr o n 0 = raise { code := 10, taddr := o } := by
  simp only [needScr, h, bne_self_eq_false, Bool.false_eq_true, if_false, hr, if_true]
  rfl

/-- A body that begins with the check of an offset refuses the offset. -/
theorem RefusesOffset.of_issue {n : Nat} {rest : Effect} (hi : exec i s = issue i s body)
    (hb : body t = t.needScr o n 0 >>= fun _ => rest) : RefusesOffset s t i o n := by
  refine ⟨fun h => .of_issue hi ?_, fun h hr => .of_issue hi ?_⟩
  · rw [hb, Team.needScr_misaligned h]
    rfl
  · rw [hb, Team.needScr_beyond h hr]
    rfl

/-- The offsets of some lanes are aligned and below SCRSIZE. -/
theorem Team.needLanes_ok {off : Nat → Word} {lanes : List Nat}
    (h : ∀ n ∈ lanes, (off n).toNat % 4 = 0 ∧ (off n).toNat < t.scrSize) : t.needLanes off lanes = .ok () := by
  induction lanes with
  | nil => rfl
  | cons n rest ih =>
    obtain ⟨ha, hr⟩ := h n List.mem_cons_self
    rw [needLanes, needScr_ok ha hr]
    exact ih fun m hm => h m (List.mem_cons_of_mem _ hm)

/-! ### Loads (R200, R206, R207) -/

theorem State.scrLoad_eq {xs : List VReg} {lanes : List Nat} {off : Nat → Word}
    (h : ∀ n ∈ lanes, (off n).toNat % 4 = 0 ∧ (off n).toNat < t.scrSize ∧
      (s.core t.coreId).badAt (t.ident.scrBase + (off n).toNat) 4 = false) :
    s.scrLoad t d c xs lanes off = s.vecWrite t [(d.toNat, (t.loadedRuns d (lanesMask lanes) xs fun n =>
      BitVec.ofNat 32 (s.scrRead t (off n).toNat 4)).asked c)] := by
  have hlanes : t.needLanes off lanes = .ok () := Team.needLanes_ok fun n hn => ⟨(h n hn).1, (h n hn).2.1⟩
  have hsound : checkAll (fun n => s.scrSound t (off n).toNat 4) lanes = .ok () :=
    checkAll_ok fun n hn => State.scrSound_ok (h n hn).2.2
  simp only [scrLoad, hlanes, hsound, bind, Except.bind]

/-! ### A context halt (R358) -/

/-- The teams and the contexts of the two states are the same. -/
structure State.SameTeams (s r : State) : Prop where
  teams : r.teams = s.teams
  ctxs : r.ctxs = s.ctxs

theorem State.SameTeams.ite {c : Prop} [Decidable c] {x y : State} (hx : s.SameTeams x) (hy : s.SameTeams y) :
    s.SameTeams (if c then x else y) := by
  split
  · exact hx
  · exact hy

theorem State.SameTeams.deviceWrite {r : State} {d a n v : Nat} (h : s.SameTeams r) :
    s.SameTeams (r.deviceWrite d a n v) := by
  unfold State.deviceWrite State.deviceStore touchLine recallLine
  refine .ite ⟨?_, ?_⟩ ⟨?_, ?_⟩ <;> simp [h.teams, h.ctxs]

theorem State.SameTeams.deviceWriteWords {r : State} {d a : Nat} {ws : List Word} (h : s.SameTeams r) :
    s.SameTeams (r.deviceWriteWords d a ws) := by
  induction ws generalizing r a with
  | nil => exact h
  | cons w rest ih => exact ih h.deviceWrite

theorem State.SameTeams.raiseMsix {r : State} {v : Nat} (h : s.SameTeams r) : s.SameTeams (r.raiseMsix v) :=
  ⟨h.teams, h.ctxs⟩

theorem State.SameTeams.appendWords {r : State} {ws : List Word} (h : s.SameTeams r) :
    s.SameTeams (r.appendWords ws) := by
  unfold State.appendWords
  dsimp only
  exact .ite ⟨h.teams, h.ctxs⟩ (.ite h.deviceWrite h.deviceWriteWords.deviceWrite.raiseMsix)

/-- A record of an error changes no team and no context. -/
theorem State.sameTeams_report (e : Report) : s.SameTeams (s.report e) :=
  State.SameTeams.appendWords ⟨rfl, rfl⟩

theorem State.teams_haltCtx (n : Nat) (e : Report) : (s.haltCtx n e).teams = s.teams := by
  unfold haltCtx
  split
  · rfl
  · exact (State.sameTeams_report e).teams

/-- A halt leaves its context halted. -/
theorem State.ctx_haltCtx {n : Nat} {e : Report} {x : Ctx} (h : s.ctx? n = some x) :
    ∃ x', (s.haltCtx n e).ctx? n = some x' ∧ x'.halted = true := by
  unfold haltCtx
  split
  case isTrue hh => exact ⟨x, h, by simpa [h] using hh⟩
  case isFalse =>
    have hmod := ctx_modCtx s (f := fun c => { c with halted := true }) (fun _ => rfl) h
    refine ⟨{ x with halted := true }, ?_, rfl⟩
    rw [← hmod, ctx?, (State.sameTeams_report e).ctxs]
    rfl

/-- A team that issues has its context. -/
theorem Issues.ctx (h : Issues s t i) : ∃ x, s.ctx? t.ctx = some x := by
  have hcan := h.can
  cases hx : s.ctx? t.ctx with
  | some x => exact ⟨x, rfl⟩
  | none => simp [State.canIssue, State.waitsTurn, State.ctxRuns, hx] at hcan

/-- An instruction that meets an error of a memory halts its context and leaves its team as it was. -/
theorem Completes.of_check {st code at_ : Nat} (h : Issues s t i) (hi : exec i s = issue i s body)
    (hb : body t = .error (.check st code at_)) :
    Completes s i fun r u => u = t ∧ ∃ x, r.ctx? t.ctx = some x ∧ x.halted = true := by
  obtain ⟨x, hx⟩ := h.ctx
  refine ⟨_, t, hi.trans (issue_stop h hb), ?_, rfl, State.ctx_haltCtx hx⟩
  rw [State.team?, State.takeStop, State.teams_haltCtx]
  exact h.cur

/-! ### Stores (R204, R206) -/

theorem leBytes_mod (n v : Nat) : leBytes n (v % 256 ^ n) = leBytes n v := by
  induction n generalizing v with
  | zero => rfl
  | succ n ih =>
    have hlow : v % 256 ^ (n + 1) % 256 = v % 256 :=
      Nat.mod_mod_of_dvd v (Dvd.intro_left _ (Nat.pow_succ 256 n).symm)
    have hhigh : v % 256 ^ (n + 1) / 256 = v / 256 % 256 ^ n := by
      rw [Nat.pow_succ, Nat.mul_comm, Nat.mod_mul_right_div_self]
    have hbyte : BitVec.ofNat 8 (v % 256 ^ (n + 1)) = BitVec.ofNat 8 v := BitVec.eq_of_toNat_eq hlow
    simp only [leBytes, hhigh, ih, hbyte]

/-- A word that is stored in a scratchpad is its low 32 bits, and it is sound afterwards. -/
theorem Core.putScratch_word (k : Core) (x : Nat) (v : Word) : k.putScratch x (leBytes 4 v.toNat) =
    { k with scratch := k.scratch.write x 4 (v.setWidth 32).toNat
             badScratch := k.badScratch.filter fun w => decide (w ≠ x) } := by
  have hbytes : leBytes 4 (v.setWidth 32).toNat = leBytes 4 v.toNat := by
    rw [BitVec.toNat_setWidth]
    exact leBytes_mod 4 v.toNat
  have hmend (w : Nat) : (!(decide (x ≤ w) && decide (w + 4 ≤ x + 4))) = decide (w ≠ x) := by
    rw [Bool.eq_iff_iff]
    simp only [Bool.not_eq_true', Bool.and_eq_false_iff, decide_eq_false_iff_not, decide_eq_true_eq]
    omega
  simp only [putScratch, mend, length_leBytes, hmend, Memory.write, hbytes]

theorem sst_stores (ha : (s.sread t a + s.sread t b).toNat % 4 = 0)
    (hr : (s.sread t a + s.sread t b).toNat < t.scrSize) :
    Does s t (.sst d a b) ((s.modCore t.coreId fun k =>
      { k with scratch := k.scratch.write (t.ident.scrBase + (s.sread t a + s.sread t b).toNat) 4
                 ((s.sread t d).setWidth 32).toNat
               badScratch := k.badScratch.filter fun w =>
                 decide (w ≠ t.ident.scrBase + (s.sread t a + s.sread t b).toNat) }).putTeam t.advance) := by
  refine .of_issue rfl ?_
  simp only [State.address, Team.needScr_ok ha hr, State.scrWrite, Core.putScratch_word, bind, Except.bind]
  rfl

theorem sld_loads (ha : (s.sread t a + s.sread t b).toNat % 4 = 0)
    (hr : (s.sread t a + s.sread t b).toNat < t.scrSize)
    (hs : (s.core t.coreId).badAt (t.ident.scrBase + (s.sread t a + s.sread t b).toNat) 4 = false) :
    Does s t (.sld d a b) (s.putTeam (t.setD d (BitVec.ofNat 64 ((s.core t.coreId).scratch.read
      (t.ident.scrBase + (s.sread t a + s.sread t b).toNat) 4))).advance) := by
  refine .of_issue rfl ?_
  simp only [State.address, Team.needScr_ok ha hr, State.scrSound_ok hs, bind, Except.bind]
  rfl

theorem sld_halts (h : Issues s t (.sld d a b)) (ha : (s.sread t a + s.sread t b).toNat % 4 = 0)
    (hr : (s.sread t a + s.sread t b).toNat < t.scrSize)
    (hs : (s.core t.coreId).badAt (t.ident.scrBase + (s.sread t a + s.sread t b).toNat) 4 = true) :
    Completes s (.sld d a b) fun r u => u = t ∧ ∃ x, r.ctx? t.ctx = some x ∧ x.halted = true := by
  refine .of_check h rfl (st := 5) (code := 0) (at_ := t.ident.scrBase + (s.sread t a + s.sread t b).toNat) ?_
  have hcheck : s.scrSound t (s.sread t a + s.sread t b).toNat 4 =
      .error (.check 5 0 (t.ident.scrBase + (s.sread t a + s.sread t b).toNat)) := if_pos hs
  simp only [State.address, Team.needScr_ok ha hr, hcheck, bind, Except.bind]

theorem State.scratch_scrWrite (x : Nat) (v : W32) : ((s.scrWrite t x (leBytes 4 v.toNat)).core t.coreId).scratch =
    (s.core t.coreId).scratch.write (t.ident.scrBase + x) 4 v.toNat := by
  rw [scrWrite, core_modCore]
  rfl

/-- The state with the words of some lanes stored in a team's scratchpad, in the order of the lanes. -/
def State.scattered (s : State) (t : Team) (off : Nat → Nat) (w : Nat → W32) (lanes : List Nat) : State :=
  lanes.foldl (fun (r : State) n => r.scrWrite t (off n) (leBytes 4 (w n).toNat)) s

/-- Words stored one after the other stand in the scratchpad as if written one after the other. -/
theorem State.scratch_scattered {off : Nat → Nat} {w : Nat → W32} {lanes : List Nat} :
    ((s.scattered t off w lanes).core t.coreId).scratch =
      lanes.foldl (fun m n => m.write (t.ident.scrBase + off n) 4 (w n).toNat) (s.core t.coreId).scratch := by
  induction lanes generalizing s with
  | nil => rfl
  | cons n rest ih =>
    rw [List.foldl_cons, ← scratch_scrWrite]
    exact ih

theorem State.teams_scattered {off : Nat → Nat} {w : Nat → W32} {lanes : List Nat} :
    (s.scattered t off w lanes).teams = s.teams := by
  induction lanes generalizing s with
  | nil => rfl
  | cons n rest ih => exact ih

/-- SSCAT stores its guarded lanes in ascending order. -/
theorem sscat_stores (h : Issues s t (.sscat d a b))
    (hoff : ∀ n ∈ t.guarded (t.vread a).len, (s.sread t b + ((t.vread a).lane n).setWidth 64).toNat % 4 = 0 ∧
      (s.sread t b + ((t.vread a).lane n).setWidth 64).toNat < t.scrSize) :
    Completes s (.sscat d a b) fun r u => u.pc = t.advance.pc ∧ (r.core t.coreId).scratch =
      (t.guarded (t.vread a).len).foldl (fun m n => m.write (t.ident.scrBase +
        (s.sread t b + ((t.vread a).lane n).setWidth 64).toNat) 4 ((t.vread d).lane n).toNat)
        (s.core t.coreId).scratch := by
  refine Completes.of_putTeam (r := s.scattered t (fun n => (s.sread t b + ((t.vread a).lane n).setWidth 64).toNat)
    (fun n => (t.vread d).lane n) (t.guarded (t.vread a).len)) h State.teams_scattered (advance_uid t) (issue_ok h ?_)
    ⟨rfl, ?_⟩
  · simp only [Team.needLanes_ok hoff, bind, Except.bind]
    rfl
  · rw [State.core_countReads, core_putTeam]
    exact State.scratch_scattered

/-- Settles O31: the checks of offsets and strides, the loads, and the stores. -/
theorem scratchpadAccess : Obligations.ScratchpadAccess := by
  unfold Obligations.ScratchpadAccess
  intro s t d a b c size at_ put bad o asked x gathers
  have hgathers {i : Instr} {xs : List VReg} {lanes : List Nat} {off : Nat → Word} {body : Team → Effect}
      (hi : exec i s = issue i s body) (hb : body t = s.scrLoad t d c xs lanes off) : gathers i xs lanes off :=
    fun h => WritesV.of_vecWrite hi (hb.trans (State.scrLoad_eq h))
  refine ⟨.of_issue rfl rfl, .of_issue rfl rfl, fun ha hr => ⟨sld_loads ha hr, fun hs h => sld_halts h ha hr hs,
    sst_stores ha hr⟩, hgathers rfl rfl, fun ha => .of_issue rfl ?base, fun ha hb => .of_issue rfl ?stride,
    fun ha hb => hgathers rfl ?sldt, fun hoff h => sscat_stores h hoff⟩
  case base => simp only [needStride_raise ha, bind, Except.bind, raise]
  case stride => simp only [needStride_ok ha, needStride_raise hb, bind, Except.bind, raise]
  case sldt => simp only [needStride_ok ha, needStride_ok hb, bind, Except.bind]

end Sys2Proof.Machine
end

section
/-! SUPPORT for O45 and O51. What most operations leave: a relation of two states that differ in nothing that the frames
of instructions speak of. -/

namespace Sys2Proof.Machine

/-! ### Parts of the state -/

/-- What the frames speak of in a die. -/
def Die.shown (k : Die) : DieRegs × Memory × Memory × List Bin × List (Nat × Nat × Nat × Nat) :=
  (k.regs, k.mem, k.dsm, k.bins, k.fxLines)

/-- What the frames speak of in a context, and its number. -/
def Ctx.named (c : Ctx) : Nat × CtxRegs × Word × Word := (c.id, c.regs, c.tvec, c.ctxctl)

/-- The same, with the registers in effect. -/
def Ctx.shown (c : Ctx) : (Nat × CtxRegs × Word × Word) × CtxRegs := (c.named, c.eff)

/-- A team with what the frames do not speak of put aside. -/
def Team.aside (t : Team) : Team :=
  { t with place := .left, gwct := 0, outstanding := 0, wait := none, pend := none, yielded := false, binding := none,
           granted := 0, placed := [], donated := false, donationOver := false, timeReads := 0, marks := 0,
           savedMat := none, savedXf := [], frame := none, stepBase := 0 }

theorem map_mapWhere_same {α β : Type} {p : α → Bool} {f : α → α} {g : α → β} {l : List α} (h : ∀ x, g (f x) = g x) :
    (mapWhere p f l).map g = l.map g := by
  rw [mapWhere_eq_map, List.map_map]
  refine List.map_congr_left fun x _ => ?_
  by_cases hp : p x <;> simp [hp, h]

theorem State.team_aside (s : State) (n : Nat) :
    (s.team? n).map Team.aside = (s.teams.map Team.aside).find? fun t => t.uid == n := by
  rw [List.find?_map]
  rfl

theorem State.ctx_shown (s : State) (n : Nat) :
    (s.ctx? n).map Ctx.shown = (s.ctxs.map Ctx.shown).find? fun c => c.1.1 == n := by
  rw [List.find?_map]
  rfl

/-- No die holds a bin or knows an FXADD line. -/
def State.Calm (s : State) : Prop := ∀ d, (s.die d).bins = [] ∧ (s.die d).fxLines = []

theorem State.calm_of_dies {s : State} (h0 : s.die0.bins = []) (h1 : s.die1.bins = []) (h2 : s.die0.fxLines = [])
    (h3 : s.die1.fxLines = []) : s.Calm := by
  intro d
  unfold State.die
  split
  · exact ⟨h1, h3⟩
  · exact ⟨h0, h2⟩

theorem State.Calm.noBins {s : State} (h : s.Calm) : s.NoBins := s.noBins_of_dies (h 0).1 (h 1).1

theorem Die.shown_writeBack (k : Die) (line : Nat) : (k.writeBack line).shown = k.shown := by
  unfold writeBack shown
  split <;> rfl

theorem Die.shown_touch (k : Die) (line c : Nat) : (k.touch line c).shown = k.shown := by
  unfold touch
  split
  · rfl
  · split
    · rfl
    · exact k.shown_writeBack _
    · rfl

theorem Die.shown_markDirty (k : Die) (line : Nat) : (k.markDirty line).shown = k.shown := by
  unfold markDirty shown
  split <;> rfl

/-- A core has no entry of a context's region table, and the context has none. -/
structure State.Bare (s : State) (c x : Nat) : Prop where
  cached : ∀ e ∈ (s.core c).regions, e.1 = x → e.2 = []
  counted : ∀ k, s.ctx? x = some k → k.eff.rgncnt = 0#64

/-! ### The relation -/

/-- The states `s` and `r` differ in nothing that the frames of instructions speak of, and `r` is calm. A core
that had no entry of a region table, where there is none, has read none meanwhile. -/
structure State.Alike (s r : State) : Prop where
  calm : r.Calm
  die : ∀ d, (r.die d).shown = (s.die d).shown
  scratch : ∀ c, (r.core c).scratch = (s.core c).scratch
  regions : ∀ c x, s.Bare c x → ∀ e ∈ (r.core c).regions, e.1 = x → e.2 = []
  ctxs : r.ctxs.map Ctx.shown = s.ctxs.map Ctx.shown
  teams : r.teams.map Team.aside = s.teams.map Team.aside
  host : r.host.mem = s.host.mem
  fabric : r.fabric = s.fabric

namespace State.Alike

variable {s r r' : State}

theorem refl (h : s.Calm) : s.Alike s :=
  ⟨h, fun _ => rfl, fun _ => rfl, fun _ _ hb => hb.cached, rfl, rfl, rfl, rfl⟩

theorem ctx (h : s.Alike r) (n : Nat) : (r.ctx? n).map Ctx.shown = (s.ctx? n).map Ctx.shown := by
  rw [State.ctx_shown, h.ctxs, State.ctx_shown]

theorem bare {c x : Nat} (h : s.Alike r) (hb : s.Bare c x) : r.Bare c x where
  cached := h.regions c x hb
  counted k hk := by
    have hctx := h.ctx x
    rw [hk] at hctx
    obtain ⟨k', hk', hshown⟩ := Option.map_eq_some_iff.1 hctx.symm
    have heff : k'.eff = k.eff := congrArg (·.2) hshown
    rw [← heff]
    exact hb.counted k' hk'

theorem mem (h : s.Alike r) (d : Nat) : (r.die d).mem = (s.die d).mem := congrArg (·.2.1) (h.die d)
theorem dsm (h : s.Alike r) (d : Nat) : (r.die d).dsm = (s.die d).dsm := congrArg (·.2.2.1) (h.die d)
theorem regs (h : s.Alike r) (d : Nat) : (r.die d).regs = (s.die d).regs := congrArg (·.1) (h.die d)

theorem peek (h : s.Alike r) (p : Phys) (n : Nat) : r.peek p n = s.peek p n := by
  have hspace : r.space p.space p.unit = s.space p.space p.unit := by
    cases p.space with
    | gddr => exact h.mem _
    | dsm => exact h.dsm _
    | host => exact h.host
    | fabric => simp only [State.space, h.fabric]
  rw [State.peek, State.peek, hspace]

theorem team (h : s.Alike r) (n : Nat) : (r.team? n).map Team.aside = (s.team? n).map Team.aside := by
  rw [State.team_aside, h.teams, State.team_aside]

theorem ite {c : Prop} [Decidable c] {x y : State} (hx : s.Alike x) (hy : s.Alike y) :
    s.Alike (if c then x else y) := by
  split
  · exact hx
  · exact hy

theorem foldl {α : Type} {f : State → α → State} {l : List α} (h : s.Alike r)
    (hf : ∀ r x, s.Alike r → s.Alike (f r x)) : s.Alike (l.foldl f r) := by
  induction l generalizing r with
  | nil => exact h
  | cons x rest ih => exact ih (hf r x h)

/-- A change beside the dies, the cores, the contexts, the teams and the memories. -/
theorem beside (h : s.Alike r) (h0 : r'.die0 = r.die0) (h1 : r'.die1 = r.die1)
    (hc : ∀ c, r'.core c = r.core c) (hx : r'.ctxs = r.ctxs) (ht : r'.teams = r.teams) (hm : r'.host.mem = r.host.mem)
    (hf : r'.fabric = r.fabric) : s.Alike r' := by
  have hdie d : r'.die d = r.die d := by rw [State.die, State.die, h0, h1]
  refine ⟨fun d => ?_, fun d => ?_, fun c => ?_, fun c => ?_, ?_, ?_, ?_, ?_⟩
  · rw [hdie]
    exact h.calm d
  · rw [hdie]
    exact h.die d
  · rw [hc]
    exact h.scratch c
  · rw [hc]
    exact h.regions c
  · rw [hx]
    exact h.ctxs
  · rw [ht]
    exact h.teams
  · rw [hm]
    exact h.host
  · rw [hf]
    exact h.fabric

/-- A change to a die that shows where it holds a bin or knows an FXADD line. -/
theorem modCalm {d : Nat} {f : Die → Die} (h : s.Alike r)
    (hf : ∀ k : Die, k.bins = [] → k.fxLines = [] → (f k).shown = k.shown) : s.Alike (r.modDie d f) := by
  have hdie x : ((r.modDie d f).die x).shown = (r.die x).shown := by
    rw [State.die_modDie_eq]
    split
    · exact hf _ (h.calm x).1 (h.calm x).2
    · rfl
  refine ⟨fun x => ?_, fun x => (hdie x).trans (h.die x), fun c => ?_, fun c => ?_, ?_, ?_, ?_, ?_⟩
  · obtain ⟨hb, hx⟩ := h.calm x
    exact ⟨(congrArg (·.2.2.2.1) (hdie x)).trans hb, (congrArg (·.2.2.2.2) (hdie x)).trans hx⟩
  · rw [core_modDie]
    exact h.scratch c
  · rw [core_modDie]
    exact h.regions c
  · rw [modDie_ctxs]
    exact h.ctxs
  · rw [modDie_teams]
    exact h.teams
  · rw [modDie_host]
    exact h.host
  · rw [modDie_fabric]
    exact h.fabric

theorem modDie {d : Nat} {f : Die → Die} (h : s.Alike r) (hf : ∀ k : Die, (f k).shown = k.shown) :
    s.Alike (r.modDie d f) := h.modCalm fun k _ _ => hf k

theorem modCore {c : Nat} {f : Core → Core} (h : s.Alike r) (hs : ∀ k : Core, (f k).scratch = k.scratch)
    (hr : ∀ x, s.Bare c x → ∀ e ∈ (f (r.core c)).regions, e.1 = x → e.2 = []) : s.Alike (r.modCore c f) := by
  refine ⟨h.calm, h.die, fun x => ?_, fun x n hb => ?_, h.ctxs, h.teams, h.host, h.fabric⟩
  · by_cases hx : x = c
    · rw [hx, core_modCore, hs]
      exact h.scratch c
    · rw [core_modCore_other r f hx]
      exact h.scratch x
  · by_cases hx : x = c
    · rw [hx] at hb ⊢
      rw [core_modCore]
      exact hr n hb
    · rw [core_modCore_other r f hx]
      exact h.regions x n hb

/-- A change to a core that touches neither its scratchpad nor its region tables. -/
theorem inCore {c : Nat} {f : Core → Core} (h : s.Alike r) (hs : ∀ k : Core, (f k).scratch = k.scratch)
    (hr : ∀ k : Core, (f k).regions = k.regions) : s.Alike (r.modCore c f) :=
  h.modCore hs fun x hb => hr (r.core c) ▸ h.regions c x hb

theorem mapTeams {p : Team → Bool} {f : Team → Team} (h : s.Alike r) (hf : ∀ u : Team, (f u).aside = u.aside) :
    s.Alike { r with teams := mapWhere p f r.teams } :=
  ⟨h.calm, h.die, h.scratch, h.regions, h.ctxs, (map_mapWhere_same hf).trans h.teams, h.host, h.fabric⟩

theorem modTeam {n : Nat} {f : Team → Team} (h : s.Alike r) (hf : ∀ u : Team, (f u).aside = u.aside) :
    s.Alike (r.modTeam n f) := h.mapTeams hf

theorem modCtx {n : Nat} {f : Ctx → Ctx} (h : s.Alike r) (hf : ∀ c : Ctx, (f c).shown = c.shown) :
    s.Alike (r.modCtx n f) :=
  ⟨h.calm, h.die, h.scratch, h.regions, (map_mapWhere_same hf).trans h.ctxs, h.teams, h.host, h.fabric⟩

theorem takeFree (h : s.Alike r) : s.Alike r.takeFree.2 := h.beside rfl rfl (fun _ => rfl) rfl rfl rfl rfl

theorem countReads {m n : Nat} (h : s.Alike r) : s.Alike (r.countReads m n) :=
  .ite h (h.modTeam fun _ => rfl)

theorem fireWaits {p : Team → WaitKind → Bool} (h : s.Alike r) : s.Alike (r.fireWaits p) :=
  h.mapTeams fun _ => rfl

/-! ### At the home of a line (R177, R179, R188) -/

theorem touchLine {d line : Nat} (h : s.Alike r) : s.Alike (r.touchLine d line) :=
  h.modDie fun k => k.shown_touch _ _

theorem markDirty {d line : Nat} (h : s.Alike r) : s.Alike (r.markDirty d line) :=
  h.modDie fun k => k.shown_markDirty _

theorem recallLine {who d line : Nat} (h : s.Alike r) : s.Alike (r.recallLine who d line) := h.modDie fun _ => rfl

theorem noteRequest {who d line : Nat} (h : s.Alike r) : s.Alike (r.noteRequest d line who) := h.modDie fun _ => rfl

theorem applyLine {d line : Nat} (h : s.Alike r) : s.Alike (r.applyLine d line) := by
  rw [h.calm.noBins.applyLine]
  exact h

theorem reachHome {who d line : Nat} (h : s.Alike r) : s.Alike (r.reachHome who d line) :=
  h.recallLine.applyLine.noteRequest.touchLine

theorem homeRead {c d line : Nat} {lease : Bool} (h : s.Alike r) : s.Alike (r.homeRead c d line lease) := by
  refine .ite (h.reachHome.modDie fun k => ?_) h.reachHome
  unfold Die.raiseExp
  split <;> rfl

/-! ### Translation (R168 to R171) -/

theorem tableRead {who d a : Nat} (h : s.Alike r) : Ends (fun x => s.Alike x.1) (r.tableRead who d a) := by
  unfold State.tableRead
  refine .ite .error (.ite .error (.ok ?_))
  exact homeRead h (c := who) (d := d) (line := lineOf a) (lease := false)

theorem walkFrom {w : Walker} {va : Word} {levels : List (Nat × Nat)} {a : Nat} (h : s.Alike r) :
    Ends (fun x => s.Alike x.1) (r.walkFrom w va levels a) := by
  induction levels generalizing r a with
  | nil => exact .bind h.tableRead fun _ hx => .pure hx
  | cons l rest ih => exact .bind h.tableRead fun _ hx => .ite .raise (.ite .raise (ih hx))

theorem leafOf {w : Walker} {va : Word} (h : s.Alike r) : Ends (fun x => s.Alike x.1) (r.leafOf w va) := by
  unfold State.leafOf
  dsimp only
  split
  · exact .ok h
  · exact .ite .raise (.bind h.walkFrom fun _ hx => .pure hx)

theorem fillTlb {w : Walker} {va leaf : Word} {a : Nat} (h : s.Alike r) : s.Alike (r.fillTlb w va leaf a) := by
  unfold State.fillTlb
  split
  · exact h.inCore (fun _ => rfl) fun _ => rfl
  · exact h

theorem translate {w : Walker} {va : Word} {kind : Access} {locs : List Nat} (h : s.Alike r) :
    Ends (fun x => s.Alike x.1) (r.translate w va kind locs) := by
  refine .ite .raise (.bind h.leafOf fun x hx => ?_)
  refine .ite .raise (.ite .raise (.ite .raise (.ite (.pure hx) ?_)))
  split
  · exact .raise
  · exact .pure (.ite hx hx.fillTlb)

theorem translateResident {w : Walker} {va : Word} {kind : Access} {locs : List Nat} (h : s.Alike r) :
    Ends (fun x => s.Alike x.1) (r.translateResident w va kind locs) :=
  .bind h.translate fun _ hx => .ite (.pure hx) .raise

theorem mapParts {t : Team} {kind : Access} {locs : List Nat} {ps : List (Word × Nat)} (h : s.Alike r) :
    Ends (fun x => s.Alike x.1) (r.mapParts t kind locs ps) := by
  induction ps generalizing r with
  | nil => exact .ok h
  | cons p rest ih => exact .bind h.translateResident fun _ hx => .bind (ih hx) fun _ hy => .pure hy

theorem mapLanes {t : Team} {kind : Access} {addr : Nat → Word} {lanes : List Nat} (h : s.Alike r) :
    Ends (fun x => s.Alike x.1) (r.mapLanes t kind addr lanes) := by
  induction lanes generalizing r with
  | nil => exact .ok h
  | cons n rest ih =>
    refine .ite .raise ?_
    split
    · exact .error
    next x m hm => exact .bind (ih (h.translate _ hm)) fun _ hy => .pure hy

/-! ### Loads and requests (R177, R178, R190) -/

theorem overtake {c : Nat} {p : Nat → Nat → Bool} (h : s.Alike r) : s.Alike (r.overtake c p) :=
  h.inCore (fun _ => rfl) fun _ => rfl

theorem fillL1 {c : Nat} {l : L1Line} (h : s.Alike r) : s.Alike (r.fillL1 c l) :=
  .ite (h.inCore (fun _ => rfl) fun _ => rfl) (h.takeFree.inCore (fun _ => rfl) fun _ => rfl)

theorem loadLine {c d line : Nat} {nc : Bool} (h : s.Alike r) : s.Alike (r.loadLine c d line nc).1 := by
  unfold State.loadLine
  split
  · exact homeRead h (c := c) (d := d) (line := line) (lease := false)
  · split
    · exact h
    · exact h
    · exact h.homeRead.overtake.fillL1

theorem teamLoad {t : Team} {m : Mapped} {n : Nat} (h : s.Alike r) :
    Ends (fun x => s.Alike x.1) (r.teamLoad t m n) := by
  unfold State.teamLoad
  refine .ite .error ?_
  split
  · exact .ok h.loadLine
  · exact .ok h.noteRequest

theorem loadParts {t : Team} {ps : List (Word × Nat × Mapped)} (h : s.Alike r) :
    Ends (fun x => s.Alike x.1) (r.loadParts t ps) := by
  induction ps generalizing r with
  | nil => exact .ok h
  | cons p rest ih => exact .bind h.teamLoad fun _ hx => .bind (ih hx) fun _ hy => .pure hy

theorem loadElements {t : Team} {es : List Element} (h : s.Alike r) :
    Ends (fun x => s.Alike x.1) (r.loadElements t es) := by
  induction es generalizing r with
  | nil => exact .ok h
  | cons e rest ih => exact .bind h.teamLoad fun _ hx => .bind (ih hx) fun _ hy => .pure hy

theorem queueReq {t : Team} {m : Mapped} {k : ReqKind} (h : s.Alike r) : s.Alike (r.queueReq t m k) :=
  h.modDie fun _ => rfl

/-! ### Completion times (R39, R177, R287) -/

theorem taskGwct {p : Phys} {wave : Bool} {c g : Nat} (h : s.Alike r) : s.Alike (r.taskGwct p wave c g) := by
  have htasks : s.Alike (if wave then r else { r with
      tasks := mapWhere (fun k => k.loc == p) (fun k => { k with gwct := max k.gwct g }) r.tasks
      succQ := mapWhere (fun x => x.loc == p) (fun x => { x with gwct := max x.gwct g }) r.succQ }) :=
    .ite h (h.beside rfl rfl (fun _ => rfl) rfl rfl rfl rfl)
  exact .ite (htasks.modCtx fun _ => rfl) htasks

theorem joinGwct {n g : Nat} (h : s.Alike r) : s.Alike (r.joinGwct n g) := by
  unfold State.joinGwct
  split
  · refine taskGwct (h.modTeam ?_)
    exact fun _ => rfl
  · split
    · exact h.taskGwct
    · exact h

/-- A core's copy of a line takes what was stored. -/
theorem refreshL1 {c d a n : Nat} (h : s.Alike r) : s.Alike (r.refreshL1 c d a n) := by
  unfold State.refreshL1
  dsimp only
  exact inCore h.overtake (fun _ => rfl) fun _ => rfl

theorem train {c pa : Nat} {cont : Bool} (h : s.Alike r) : s.Alike (r.train c pa cont) := by
  unfold State.train
  dsimp only
  exact h.inCore (fun _ => rfl) fun _ => rfl

theorem grantLease {c d line : Nat} (h : s.Alike r) : s.Alike (r.grantLease c d line) := by
  refine train (h.reachHome.modDie ?_)
  exact fun _ => rfl

/-! ### Region tables (R220, R232) -/

theorem readRegions {who d n a : Nat} (h : s.Alike r) :
    Ends (fun x => s.Alike x.1 ∧ (n = 0 → x.2 = [])) (r.readRegions who d n a) := by
  induction n generalizing r a with
  | zero => exact .ok ⟨h, fun _ => rfl⟩
  | succ n ih =>
    refine .bind h.tableRead fun _ h0 => .bind h0.tableRead fun _ h1 => .bind h1.tableRead fun _ h2 =>
      .bind h2.tableRead fun _ h3 => .bind (ih h3) fun _ h4 => .pure ⟨h4.1, nofun⟩

/-- A core reads no entry where a context has none. -/
theorem regionsOf {c x : Nat} (h : s.Alike r) :
    Ends (fun y => s.Alike y.1 ∧ (s.Bare c x → y.2 = [])) (r.regionsOf c x) := by
  unfold State.regionsOf
  split
  case h_1 es hes =>
    refine .ok ⟨h, fun hb => (h.bare hb).cached _ (List.mem_of_find?_eq_some hes) ?_⟩
    simpa using List.find?_some hes
  case h_2 =>
    split
    · exact .ok ⟨h, fun _ => rfl⟩
    case h_2 k hk =>
      refine .bind h.readRegions fun y hy => ?_
      have hnone (hb : s.Bare c x) : y.2 = [] := hy.2 (by simp [(h.bare hb).counted k hk, wordBits, bitsOf])
      refine .pure ⟨?_, hnone⟩
      dsimp only
      refine hy.1.modCore ?_ fun n hn e he hx => ?_
      · exact fun _ => rfl
      · rcases List.mem_cons.1 he with rfl | he
        · have hx : x = n := hx
          exact hnone (hx ▸ hn)
        · exact hy.1.regions c n hn e he hx

/-- Where a context has no region, a store teaches the home nothing. -/
theorem learnFx {c x : Nat} {va : Word} {p : Phys} (h : s.Alike r) (hb : s.Bare c x) :
    s.Alike (r.learnFx c x va p) := by
  unfold State.learnFx
  refine .ite h ?_
  dsimp only
  split
  · exact h
  next y es hes =>
    obtain ⟨hy, hnone⟩ := h.regionsOf _ hes
    rw [show es = [] from hnone hb]
    exact hy.modCalm fun k _ hx => by simp [Die.shown, hx, removeAt]

end State.Alike

end Sys2Proof.Machine
end

section
/-! SUPPORT for O45 and O51. What an instruction may change of its team, and of the state, when it goes on. -/

namespace Sys2Proof.Machine

/-! ### The team that issues -/

/-- The team `u` is `t` but for what an instruction of the frames names: the scalar and vector registers and the masks
that it writes, and what its own kind of instruction changes. -/
structure KeptBut (i : Instr) (ms : List Nat) (t u : Team) : Prop where
  uid : u.uid = t.uid
  ident : u.ident = t.ident
  scalars : ∀ n < 64, n ∉ scalarsWritten i → (i = .eret → n < 60) → u.getS n = t.getS n
  vectors : ∀ n, n ∉ vectorsWritten i → u.vregs[n]? = t.vregs[n]?
  masks : ms = [] → u.masks = t.masks
  mask : ∀ n, n ∉ ms → u.mask n = t.mask n
  status : i ≠ .eret → u.cc = t.cc ∧ u.mode = t.mode ∧ u.inHandler = t.inHandler
  stack : i ≠ .exit → i ≠ .epend → u.stack = t.stack
  generator : u.key = t.key ∧ u.ctr = t.ctr
  budget : u.budget = t.budget
  loops : t.active = [] → u.loops = t.loops ∧ u.active = []
  tiles : (∀ d a, i ≠ .malloc d a) → u.tiles = t.tiles
  trap : (∀ r k, i ≠ .csrw r k) → u.trap = t.trap ∧ u.nlog = t.nlog ∧ u.nlend = t.nlend
  rays : (∀ d a, i ≠ .trace d a ∧ i ≠ .defer d a ∧ i ≠ .retire d a) → i ≠ .exit → i ≠ .epend → u.rays = t.rays

namespace KeptBut

variable {i : Instr} {ms : List Nat} {t u v : Team}

theorem refl (i : Instr) (ms : List Nat) (t : Team) : KeptBut i ms t t := by
  constructor <;> simp

theorem moves (h : KeptBut i ms t v) (hm : MovesTo v u) : KeptBut i ms t u := by
  rw [hm.others]
  exact { h with
    loops := fun ha => by
      obtain ⟨hl, hv⟩ := h.loops ha
      exact ⟨(hm.loops hv).1.trans hl, (hm.loops hv).2⟩ }

theorem advance (h : KeptBut i ms t u) : KeptBut i ms t u.advance := h.moves (u.movesTo_goTo _)

theorem advanceX (h : KeptBut i ms t u) : KeptBut i ms t u.advanceX := h.moves (u.movesTo_goTo _)

/-- What is put aside is not spoken of. -/
theorem aside (h : KeptBut i ms t v) (ha : u.aside = v.aside) : KeptBut i ms t u where
  uid := (congrArg Team.uid ha :).trans h.uid
  ident := (congrArg Team.ident ha :).trans h.ident
  scalars n hn hw hi := (congrArg (Team.getS · n) ha :).trans (h.scalars n hn hw hi)
  vectors n hn := (congrArg (fun x : Team => x.vregs[n]?) ha :).trans (h.vectors n hn)
  masks hm := (congrArg Team.masks ha :).trans (h.masks hm)
  mask n hn := (congrArg (Team.mask · n) ha :).trans (h.mask n hn)
  status hi := by
    obtain ⟨hcc, hmode, hin⟩ := h.status hi
    exact ⟨(congrArg Team.cc ha :).trans hcc, (congrArg Team.mode ha :).trans hmode,
      (congrArg Team.inHandler ha :).trans hin⟩
  stack hx hp := (congrArg Team.stack ha :).trans (h.stack hx hp)
  generator := ⟨(congrArg Team.key ha :).trans h.generator.1, (congrArg Team.ctr ha :).trans h.generator.2⟩
  budget := (congrArg Team.budget ha :).trans h.budget
  loops hl := ⟨(congrArg Team.loops ha :).trans (h.loops hl).1, (congrArg Team.active ha :).trans (h.loops hl).2⟩
  tiles hi := (congrArg Team.tiles ha :).trans (h.tiles hi)
  trap hi := by
    obtain ⟨htrap, hlog, hend⟩ := h.trap hi
    exact ⟨(congrArg Team.trap ha :).trans htrap, (congrArg Team.nlog ha :).trans hlog,
      (congrArg Team.nlend ha :).trans hend⟩
  rays hi hx hp := (congrArg Team.rays ha :).trans (h.rays hi hx hp)

theorem setD {d : Field} {x : Word} (h : KeptBut i ms t u) (hd : d.toNat ∈ scalarsWritten i) :
    KeptBut i ms t (u.setD d x) := by
  rw [Team.setD, Team.setS]
  split
  case isTrue hlt =>
    refine { h with scalars := fun k hk hw hi => (?_ : _ = u.getS k).trans (h.scalars k hk hw hi) }
    have hne : d.toNat ≠ k := fun he => hw (he ▸ hd)
    simp [Team.getS, hk, hne]
  case isFalse => exact h

theorem setVs {n : Nat} {x : VReg} (h : KeptBut i ms t u) (hn : n ∈ vectorsWritten i) :
    KeptBut i ms t (u.setVs [(n, x)]) :=
  { h with
    vectors := fun k hk => by
      have hne : n ≠ k := fun he => hk (he ▸ hn)
      rw [← h.vectors k hk]
      exact List.getElem?_set_ne hne }

theorem setMask {n : Nat} {m : Mask} (h : KeptBut i ms t u) (hn : n ∈ ms) : KeptBut i ms t (u.setMask n m) := by
  have hm (k : Nat) (hk : k ∉ ms) : (u.setMask n m).mask k = u.mask k :=
    Team.mask_setMask_other (.inr fun he => hk (he ▸ hn))
  revert hm
  rw [Team.setMask]
  split_ifs
  · exact fun _ => h
  · exact fun hm => { h with
      masks := fun he => absurd hn (by simp [he])
      mask := fun k hk => (hm k hk).trans (h.mask k hk) }
  · exact fun _ => h

theorem clearAbsent {b : Field} {es : List Element} (h : KeptBut i ms t u) (hb : b.toNat ∈ ms) :
    KeptBut i ms t (u.clearAbsent b es) := by
  unfold Team.clearAbsent
  dsimp only
  split
  · exact h
  · exact h.setMask hb

end KeptBut

/-! ### The state -/

/-- What an instruction names: itself and its team, the masks that it writes, the bytes of the memories and of the
scratchpads that it stores, and whether it stores through a region table. -/
structure Scope where
  instr : Instr
  masks : List Nat
  team : Team
  bytes : Phys → Prop
  scratch : Nat → Nat → Prop
  regions : Prop

/-- The bytes that an instruction names cover `n` bytes of a memory. -/
def Scope.Covers (W : Scope) (p : Phys) (n : Nat) : Prop :=
  ∀ q : Phys, q.space = p.space → (q.unit = 1 ↔ p.unit = 1) → p.addr ≤ q.addr → q.addr < p.addr + n → W.bytes q

/-- The state `r` is `s` but for what an instruction names. -/
structure State.Keeps (W : Scope) (s r : State) : Prop where
  calm : r.Calm
  bytes : ∀ p, ¬W.bytes p → r.peek p 1 = s.peek p 1
  scratch : ∀ c x, ¬W.scratch c x → (r.core c).scratch.byte x = (s.core c).scratch.byte x
  regs : (∀ a k, W.instr ≠ .csrw a k) → ∀ d, (r.die d).regs = (s.die d).regs
  ctxs : (∀ a k, W.instr ≠ .csrw a k) → ∀ n, (r.ctx? n).map Ctx.named = (s.ctx? n).map Ctx.named
  bare : W.regions → r.Bare W.team.coreId W.team.ctx
  others : ∀ n, n ≠ W.team.uid → (r.team? n).map Team.aside = (s.team? n).map Team.aside
  own : ∃ v, r.team? W.team.uid = some v ∧ KeptBut W.instr W.masks W.team v

namespace State.Keeps

variable {W : Scope} {s r r' : State}

/-- What changes nothing that the frames speak of keeps what is kept. -/
theorem alike (h : s.Keeps W r) (k : r.Alike r') : s.Keeps W r' where
  calm := k.calm
  bytes p hp := (k.peek p 1).trans (h.bytes p hp)
  scratch c x hx := (congrArg (Memory.byte · x) (k.scratch c)).trans (h.scratch c x hx)
  regs hi d := (k.regs d).trans (h.regs hi d)
  ctxs hi n := by
    have hnamed (o : Option Ctx) : o.map Ctx.named = (o.map Ctx.shown).map Prod.fst := by
      rw [Option.map_map]
      rfl
    rw [← h.ctxs hi n, hnamed, hnamed, k.ctx n]
  bare hw := k.bare (h.bare hw)
  others n hn := (k.team n).trans (h.others n hn)
  own := by
    obtain ⟨v, hv, hkept⟩ := h.own
    have hteam := k.team W.team.uid
    rw [hv] at hteam
    obtain ⟨u, hu, ha⟩ := Option.map_eq_some_iff.1 hteam
    exact ⟨u, hu, hkept.aside ha⟩

/-- A change beside the teams. -/
theorem changes (h : s.Keeps W r) (hc : r'.Calm) (hp : ∀ p, ¬W.bytes p → r'.peek p 1 = r.peek p 1)
    (hk : ∀ c x, ¬W.scratch c x → (r'.core c).scratch.byte x = (r.core c).scratch.byte x)
    (hr : (∀ a k, W.instr ≠ .csrw a k) → ∀ d, (r'.die d).regs = (r.die d).regs)
    (hx : (∀ a k, W.instr ≠ .csrw a k) → ∀ n, (r'.ctx? n).map Ctx.named = (r.ctx? n).map Ctx.named)
    (hb : W.regions → r'.Bare W.team.coreId W.team.ctx) (ht : r'.teams = r.teams) : s.Keeps W r' where
  calm := hc
  bytes p hq := (hp p hq).trans (h.bytes p hq)
  scratch c x hq := (hk c x hq).trans (h.scratch c x hq)
  regs hi d := (hr hi d).trans (h.regs hi d)
  ctxs hi n := (hx hi n).trans (h.ctxs hi n)
  bare := hb
  others n hn := by
    rw [State.team?, ht]
    exact h.others n hn
  own := by
    rw [State.team?, ht]
    exact h.own

/-- A change to a die's memories at bytes that the instruction names, or to its registers by CSRW. -/
theorem modDie {d : Nat} {f : Die → Die} (h : s.Keeps W r)
    (hr : (∀ a k, W.instr ≠ .csrw a k) → ∀ k : Die, (f k).regs = k.regs)
    (hf : ∀ k : Die, (f k).bins = k.bins ∧ (f k).fxLines = k.fxLines)
    (hm : ∀ (k : Die) (p : Phys), p.space = .gddr → (p.unit = 1 ↔ d = 1) → ¬W.bytes p →
      (f k).mem.byte p.addr = k.mem.byte p.addr)
    (hd : ∀ (k : Die) (p : Phys), p.space = .dsm → (p.unit = 1 ↔ d = 1) → ¬W.bytes p →
      (f k).dsm.byte p.addr = k.dsm.byte p.addr) : s.Keeps W (r.modDie d f) := by
  refine h.changes (fun x => ?_) (fun p hp => ?_) (fun c x _ => by rw [core_modDie]) (fun hi x => ?_)
    (fun _ n => by rw [State.ctx?, modDie_ctxs, ← State.ctx?])
    (fun hw => ⟨core_modDie r d _ f ▸ (h.bare hw).cached, ?_⟩) (modDie_teams ..)
  · rw [State.die_modDie_eq]
    split
    · obtain ⟨hb, hx⟩ := hf (r.die x)
      rw [hb, hx]
      exact h.calm x
    · exact h.calm x
  · suffices hbyte : ((r.modDie d f).space p.space p.unit).byte p.addr = (r.space p.space p.unit).byte p.addr by
      simp only [State.peek, Memory.read, Memory.bytes, hbyte]
    cases hs : p.space with
    | gddr =>
      simp only [State.space, State.die_modDie_eq]
      split
      next hu => exact hm _ p hs (by simpa using hu) hp
      · rfl
    | dsm =>
      simp only [State.space, State.die_modDie_eq]
      split
      next hu => exact hd _ p hs (by simpa using hu) hp
      · rfl
    | host => simp only [State.space, modDie_host]
    | fabric => simp only [State.space, modDie_fabric]
  · rw [State.die_modDie_eq]
    split
    · exact hr hi _
    · rfl
  · rw [State.ctx?, modDie_ctxs]
    exact (h.bare hw).counted

end State.Keeps

end Sys2Proof.Machine
end

section
/-! SUPPORT for O45 and O51. Stores at the home, at bytes that the instruction names (R177, R178, R231, R232). -/

namespace Sys2Proof.Machine

theorem Ends.found {ε α : Type} {P : α → Prop} {x : Except ε α} (h : Ends P x) : Ends (fun a => x = .ok a ∧ P a) x :=
  fun a ha => ⟨ha, h a ha⟩

/-- A check between two stages. -/
theorem Ends.after {ε α β : Type} {Q : β → Prop} {x : Except ε α} {y : Except ε β} (hy : Ends Q y) :
    Ends Q (x >>= fun _ => y) := .check fun _ => hy

/-- What is found by a test that the changed elements fail before and after is found as before. -/
theorem find?_mapWhere_others {α : Type} {p q : α → Bool} {f : α → α} {l : List α}
    (h : ∀ x, p x = true → q x = false ∧ q (f x) = false) : (mapWhere p f l).find? q = l.find? q := by
  induction l with
  | nil => rfl
  | cons x rest ih =>
    by_cases hp : p x = true
    · simp [mapWhere, hp, (h x hp).1, (h x hp).2, ih, -mapWhere_eq_map]
    · simp [mapWhere, hp, List.find?_cons, ih, -mapWhere_eq_map]

namespace State.Keeps

variable {W : Scope} {s r r' : State} {t : Team} {p : Phys}

/-- What keeps what the frames speak of comes after what stores. -/
theorem after (h : s.Keeps W r) (f : r.Alike r → r.Alike r') : s.Keeps W r' := h.alike (f (.refl h.calm))

theorem ite {c : Prop} [Decidable c] {x y : State} (hx : s.Keeps W x) (hy : s.Keeps W y) :
    s.Keeps W (if c then x else y) := by
  split
  · exact hx
  · exact hy

theorem lineWrite {d a : Nat} {bytes : List Byte} (h : s.Keeps W r)
    (hb : W.Covers { space := .gddr, unit := d, addr := a } bytes.length) : s.Keeps W (r.lineWrite d a bytes) := by
  have hreach : s.Keeps W ((r.applyLine d (lineOf a)).touchLine d (lineOf a)) := h.after fun k => k.applyLine.touchLine
  have hbytes : s.Keeps W (((r.applyLine d (lineOf a)).touchLine d (lineOf a)).modDie d fun k =>
      { k with mem := k.mem.setBytes a bytes }) := by
    refine hreach.modDie (fun _ _ => rfl) (fun _ => ⟨rfl, rfl⟩) (fun k q hs hu hq => ?_) fun _ _ _ _ _ => rfl
    refine Memory.byte_setBytes_other ?_
    by_contra hn
    exact hq (hb q hs hu (by dsimp only; omega) (by dsimp only; omega))
  unfold State.lineWrite
  dsimp only
  split
  next hx => simp [(hreach.calm d).2] at hx
  next => exact hbytes.after fun k => k.markDirty.fireWaits

theorem homeStore {c d a : Nat} {bytes : List Byte} (h : s.Keeps W r)
    (hb : W.Covers { space := .gddr, unit := d, addr := a } bytes.length) :
    s.Keeps W (r.homeStore c d a bytes).1 :=
  lineWrite (h.after fun k => k.reachHome) hb

theorem dsmStore {d a : Nat} {bytes : List Byte} (h : s.Keeps W r)
    (hb : W.Covers { space := .dsm, unit := d, addr := a } bytes.length) : s.Keeps W (r.dsmStore d a bytes).1 := by
  have hbytes : s.Keeps W (r.modDie d fun k => { k with
      dsm := if k.dsmSize < a + bytes.length then k.dsm else k.dsm.setBytes a bytes }) := by
    refine h.modDie (fun _ _ => rfl) (fun _ => ⟨rfl, rfl⟩) (fun _ _ _ _ _ => rfl) fun k q hs hu hq => ?_
    dsimp only
    split
    · rfl
    · refine Memory.byte_setBytes_other ?_
      by_contra hn
      exact hq (hb q hs hu (by dsimp only; omega) (by dsimp only; omega))
  unfold State.dsmStore
  dsimp only
  exact hbytes.after fun k => k.fireWaits

theorem teamStore {va : Word} {bytes : List Byte} (h : s.Keeps W r) (ht : W.team = t) (hw : W.regions)
    (hb : W.Covers p bytes.length) : s.Keeps W (r.teamStore t va p bytes) := by
  subst ht
  unfold State.teamStore
  split
  next hs =>
    have hlearn : s.Keeps W (r.learnFx W.team.coreId W.team.ctx va p) := h.after fun k => k.learnFx (h.bare hw)
    have hcovers : W.Covers { space := .gddr, unit := p.unit, addr := p.addr } bytes.length := hs ▸ hb
    dsimp only
    split
    · exact (hlearn.lineWrite hcovers).after fun k => k.refreshL1.joinGwct
    · exact (hlearn.homeStore hcovers).after fun k => k.refreshL1.joinGwct
  next hs =>
    have hcovers : W.Covers { space := .dsm, unit := p.unit, addr := p.addr } bytes.length := hs ▸ hb
    have hnoted : s.Keeps W (r.noteRequest p.unit (homeKey p) W.team.coreId) := h.after fun k => k.noteRequest
    exact (hnoted.dsmStore hcovers).after fun k => k.joinGwct
  next => exact h

theorem storeParts {ps : List (Word × Nat × Mapped)} {bytes : List Byte} (h : s.Keeps W r) (ht : W.team = t)
    (hw : W.regions) (hb : ∀ q ∈ ps, W.Covers q.2.2.phys q.2.1) : s.Keeps W (r.storeParts t ps bytes) := by
  induction ps generalizing r bytes with
  | nil => exact h
  | cons q rest ih =>
    refine ih (h.teamStore ht hw fun x hs hu hl hx => ?_) fun x hx => hb x (List.mem_cons_of_mem _ hx)
    refine hb q List.mem_cons_self x hs hu hl (hx.trans_le ?_)
    simp

theorem storeElements {x : VReg} {es : List Element} (h : s.Keeps W r) (ht : W.team = t)
    (hw : W.regions) (hb : ∀ e ∈ es, W.Covers e.at_.phys 4) : s.Keeps W (r.storeElements t x es) := by
  induction es generalizing r with
  | nil => exact h
  | cons e rest ih =>
    refine ih (h.teamStore ht hw ?_) fun y hy => hb y (List.mem_cons_of_mem _ hy)
    rw [length_leBytes]
    exact hb e List.mem_cons_self

/-- A read-modify-write at its order point (R196). -/
theorem atomicAt {c op n b x : Nat} {nc : Bool} (h : s.Keeps W r) (hb : W.Covers p n)
    (hp : p.space = .gddr ∨ p.space = .dsm) : s.Keeps W (r.atomicAt c p nc op n b x).1 := by
  have hbytes v : W.Covers p (leBytes n v).length := by
    rw [length_leBytes]
    exact hb
  unfold State.atomicAt
  split
  next hs =>
    have hcovers v : W.Covers { space := .gddr, unit := p.unit, addr := p.addr } (leBytes n v).length := hs ▸ hbytes v
    extract_lets line lease cont recalled reached old written refreshed
    have hrecall : s.Keeps W recalled := .ite (h.after fun k => k.recallLine) h
    have hreach : s.Keeps W reached := .ite (hrecall.after fun k => k.applyLine) (hrecall.after fun k => k.reachHome)
    have hwritten : s.Keeps W written := by
      unfold written
      split
      · exact hreach.lineWrite (hcovers _)
      · exact hreach
    have hrefresh : s.Keeps W refreshed := hwritten.after fun k => k.refreshL1
    unfold lease
    split
    · exact hrefresh
    · exact hrefresh.after fun k => k.train
  next hs =>
    have hcovers v : W.Covers { space := .dsm, unit := p.unit, addr := p.addr } (leBytes n v).length :=
      hp.resolve_left hs ▸ hbytes v
    extract_lets old cont trained
    have htrained : s.Keeps W trained := h.after fun k => k.noteRequest.train
    split
    · exact htrained.dsmStore (hcovers _)
    · exact htrained

/-! ### The end of an instruction -/

theorem putTeam {u : Team} (h : s.Keeps W r) (hu : KeptBut W.instr W.masks W.team u) : s.Keeps W (r.putTeam u) where
  calm := h.calm
  bytes := h.bytes
  scratch := h.scratch
  regs := h.regs
  ctxs := h.ctxs
  bare hw := ⟨(h.bare hw).cached, (h.bare hw).counted⟩
  others n hn := by
    rw [← h.others n hn, State.team?, State.putTeam, find?_mapWhere_others, ← State.team?]
    intro x hx
    simp only [beq_iff_eq, hu.uid] at hx ⊢
    simp [hx, hn.symm]
  own := by
    obtain ⟨v, hv, -⟩ := h.own
    rw [← hu.uid] at hv ⊢
    exact ⟨u, team_putTeam r hv, hu⟩

theorem modTeam {f : Team → Team} (h : s.Keeps W r)
    (hf : ∀ t v, KeptBut W.instr W.masks t v → KeptBut W.instr W.masks t (f v)) :
    s.Keeps W (r.modTeam W.team.uid f) where
  calm := h.calm
  bytes := h.bytes
  scratch := h.scratch
  regs := h.regs
  ctxs := h.ctxs
  bare hw := ⟨(h.bare hw).cached, (h.bare hw).counted⟩
  others n hn := by
    rw [← h.others n hn, State.team?, State.modTeam, find?_mapWhere_others, ← State.team?]
    intro x hx
    have huid : (f x).uid = x.uid := (hf x x (.refl _ _ x)).uid
    simp only [beq_iff_eq] at hx
    simp [huid, hx, hn.symm]
  own := by
    obtain ⟨v, hv, hkept⟩ := h.own
    exact ⟨f v, team_modTeam r (fun u => (hf u u (.refl _ _ u)).uid) hv, hf _ _ hkept⟩

end State.Keeps

end Sys2Proof.Machine
end

section
/-! SUPPORT for O51. The frame of the loads and stores: what each of their bodies leaves, and the obligation (R193,
R195, R196, R200, R201). -/

namespace Sys2Proof.Machine

variable {W : Scope} {s s' r : State} {t : Team} {i : Instr} {body : Team → Effect}

/-! ### How an instruction starts and ends -/

theorem State.Keeps.refl (hc : s.Calm) (hb : W.regions → s.Bare W.team.coreId W.team.ctx)
    (ht : s.team? W.team.uid = some W.team) : s.Keeps W s :=
  ⟨hc, fun _ _ => rfl, fun _ _ _ => rfl, fun _ _ => rfl, fun _ _ => rfl, hb, fun _ _ => rfl, W.team, ht, .refl ..⟩

/-- An instruction that goes on stops as a whole, or keeps what its body keeps. -/
theorem Issues.keeps (h : Issues s t i) (hk : Ends (s.Keeps W) (body t)) (hn : issue i s body = .next s') :
    (∃ e, s' = s.takeStop t e) ∨ s.Keeps W s' := by
  rw [issue_of_issues h] at hn
  split at hn
  next r hr =>
    cases hn
    exact .inr ((hk r hr).after fun k => k.countReads)
  next e he =>
    cases hn
    exact .inl ⟨e, rfl⟩

/-! ### Where scalar accesses go (R193) -/

theorem physOf_scalar {w : Walker} {leaf va : Word} (h : scalarSpaces.contains (leafLoc leaf) = true) :
    (physOf w leaf va).space = .gddr ∨ (physOf w leaf va).space = .dsm := by
  have hloc : leafLoc leaf = 0 ∨ leafLoc leaf = 1 ∨ leafLoc leaf = 3 := by simpa [scalarSpaces] using h
  unfold physOf
  rcases hloc with hl | hl | hl <;> simp [hl]

theorem State.translate_scalar {w : Walker} {va : Word} {kind : Access} :
    Ends (fun x => x.2.phys.space = .gddr ∨ x.2.phys.space = .dsm) (s.translate w va kind scalarSpaces) := by
  refine .ite .raise (.check fun x => ?_)
  refine .ite .raise (.ite .raise ?_)
  split
  · exact .raise
  next hl =>
    have hspace := physOf_scalar (w := w) (va := va) (by simpa using hl : scalarSpaces.contains (leafLoc x.2.1) = true)
    refine .ite (.pure hspace) ?_
    split
    · exact .raise
    · exact .pure hspace

theorem State.translateResident_scalar {w : Walker} {va : Word} {kind : Access} :
    Ends (fun x => x.2.phys.space = .gddr ∨ x.2.phys.space = .dsm) (s.translateResident w va kind scalarSpaces) :=
  .bind State.translate_scalar fun _ hx => .ite (.pure hx) .raise

/-! ### The scalar forms (R195, R196) -/

/-- What an instruction does to its team, whatever it was before, changes only what is named. -/
def Scope.Permits (W : Scope) (f : Team → Team) : Prop :=
  ∀ t v, KeptBut W.instr W.masks t v → KeptBut W.instr W.masks t (f v)

theorem Scope.permits_advance : W.Permits Team.advance := fun _ _ k => k.advance

theorem Scope.permits_advanceX : W.Permits Team.advanceX := fun _ _ k => k.advanceX

theorem State.Keeps.scalarLoad {d : Field} {va : Word} {n : Nat} {acquire : Bool} {next : Team → Team}
    (h : s.Keeps W s) (ht : W.team = t) (hd : d.toNat ∈ scalarsWritten W.instr) (hnext : W.Permits next) :
    Ends (s.Keeps W) (s.scalarLoad t d va n acquire next) := by
  subst ht
  refine .after (.bind (State.Alike.refl h.calm).translateResident fun x hx => .after ?_)
  refine .ite (.after (.pure ?_)) (.bind hx.teamLoad fun y hy => .pure ?_)
  · exact (h.alike hx.queueReq).modTeam fun t v k => (hnext t v k).aside rfl
  · exact (h.alike hy).modTeam fun t v k => hnext t _ (k.setD hd)

theorem State.Keeps.scalarStore {va v : Word} {n : Nat} {ready : Except Stop Unit} (h : s.Keeps W s) (ht : W.team = t)
    (hw : W.regions)
    (hb : ∀ s1 m, s.translateResident t.walker va .write scalarSpaces = .ok (s1, m) → W.Covers m.phys n) :
    Ends (s.Keeps W) (s.scalarStore t va n v ready) := by
  subst ht
  refine .after (.bind (State.Alike.refl h.calm).translateResident.found fun x hx => .after (.after (.after ?_)))
  obtain ⟨hm, hx⟩ := hx
  refine .ite (.after (.pure ?_)) (.pure ?_)
  · have hlearn : s.Alike (x.1.learnFx W.team.coreId W.team.ctx va x.2.phys) := hx.learnFx (h.bare hw)
    exact (h.alike hlearn.queueReq).modTeam fun t v k =>
      (k.aside (u := { v with outstanding := v.outstanding + 1 }) rfl).advance
  · have hcovers : W.Covers x.2.phys (leBytes n v.toNat).length := by
      rw [length_leBytes]
      exact hb _ _ hm
    exact ((h.alike hx).teamStore rfl hw hcovers).modTeam Scope.permits_advance

theorem State.Keeps.atomicForm {op : Nat} {d a b : Field} {z : BitVec 1} (hi : Issues s t i) (ht : W.team = t)
    (h : s.Keeps W s) (hw : W.regions) (hd : d.toNat ∈ scalarsWritten W.instr)
    (hb : ∀ s1 m, s.translateResident t.walker (s.sread t a) .both scalarSpaces = .ok (s1, m) →
      W.Covers m.phys (if z = 0#1 then 8 else 4))
    (hn : Machine.atomicForm i op d a b z s = .next s') :
    (∃ e, s' = s.takeStop t e) ∨ s.Keeps W s' := by
  subst ht
  refine hi.keeps (.after (.bind (State.Alike.refl h.calm).translateResident.found fun x hx =>
    .after (.after ?_))) hn
  obtain ⟨hm, hx⟩ := hx
  have hlearn : s.Alike (x.1.learnFx W.team.coreId W.team.ctx (s.sread W.team a) x.2.phys) := hx.learnFx (h.bare hw)
  refine .ite (.after (.pure ?_)) (.ite .error (.pure ?_))
  · exact (h.alike hlearn.queueReq).modTeam fun t v k => (k.advance).aside rfl
  · refine modTeam (after (atomicAt (h.alike (.ite hlearn ?_)) (hb _ _ hm) (State.translateResident_scalar _ hm))
      fun k => k.joinGwct) fun t v k => (k.setD hd).advance
    exact hlearn.grantLease

/-! ### The vector forms (R200, R201) -/

theorem State.writeVs_ends {ws : List (Nat × VReg)} : Ends (fun u => u = t.setVs ws) (s.writeVs t ws) :=
  .ite .raise (.ok rfl)

theorem State.Keeps.vectorLoad {d b : Field} {c : BitVec 1} {addr : Nat → Word} (h : s.Keeps W s) (ht : W.team = t)
    (hd : d.toNat ∈ vectorsWritten W.instr) (hb : b.toNat ∈ W.masks) :
    Ends (s.Keeps W) (s.vectorLoad t d b c addr) := by
  subst ht
  refine .bind (State.Alike.refl h.calm).mapLanes fun x hx => .after (.bind hx.loadElements fun y hy => ?_)
  refine .bind State.writeVs_ends fun u hu => .pure ?_
  subst hu
  exact (h.alike hy).putTeam (((KeptBut.refl ..).setVs hd).clearAbsent hb).advance

theorem State.Keeps.vectorStore {d b : Field} {addr : Nat → Word} (h : s.Keeps W s) (ht : W.team = t)
    (hw : W.regions) (hm : b.toNat ∈ W.masks)
    (hb : ∀ s1 es, s.mapLanes t .write addr (t.guarded (t.vread d).len) = .ok (s1, es) →
      ∀ e ∈ es, e.at_.resident = true → W.Covers e.at_.phys 4) :
    Ends (s.Keeps W) (s.vectorStore t d b addr) := by
  subst ht
  refine .bind (State.Alike.refl h.calm).mapLanes.found fun x hx => .after (.after (.pure ?_))
  obtain ⟨hes, hx⟩ := hx
  refine ((h.alike hx).storeElements rfl hw fun e he => ?_).modTeam fun t v k => (k.clearAbsent hm).advance
  obtain ⟨he, hr⟩ := List.mem_filter.1 he
  exact hb _ _ hes e he hr

theorem State.Keeps.vldb {d a b : Field} {c : BitVec 1} (hi : Issues s t (.vldb d a b c)) (ht : W.team = t)
    (h : s.Keeps W s) (hd : d.toNat ∈ vectorsWritten W.instr) (hb : b.toNat ∈ W.masks)
    (hn : exec (.vldb d a b c) s = .next s') : (∃ e, s' = s.takeStop t e) ∨ s.Keeps W s' := by
  subst ht
  refine hi.keeps ?_ hn
  dsimp only
  split
  · exact .error
  next x es hes =>
    have hx : s.Alike x := (State.Alike.refl h.calm).mapLanes _ hes
    refine .after (.bind hx.loadElements fun y hy => .bind State.writeVs_ends fun u hu => .pure ?_)
    subst hu
    exact (h.alike hy).putTeam (((KeptBut.refl ..).setVs hd).clearAbsent hb).advance

/-! ### The obligation -/

/-- What a load or a store names. -/
def memoryScope (t : Team) (f : Instr × (Phys → Prop) × List Nat) : Scope :=
  { instr := f.1, masks := f.2.2, team := t, bytes := f.2.1, scratch := fun _ _ => False, regions := True }

/-- The bytes that a scalar store names are those where its address lies. -/
theorem covers_scalarStored {va : Word} {n : Nat} {kind : Access} {m : Mapped}
    (hm : s.translateResident t.walker va kind scalarSpaces = .ok (r, m)) :
    (memoryScope t (i, scalarStored s t va n kind, [])).Covers m.phys n :=
  fun _ hs hu hl hn => ⟨r, m, hm, hs, hu, hl, hn⟩

/-- The words that a vector store names are those where its present elements lie. -/
theorem covers_lanesStored {d : Field} {addr : Nat → Word} {ms : List Nat} {es : List Element}
    (hes : s.mapLanes t .write addr (t.guarded (t.vread d).len) = .ok (r, es)) (e : Element) (he : e ∈ es)
    (hr : e.at_.resident = true) :
    (memoryScope t (i, lanesStored s t d addr, ms)).Covers e.at_.phys 4 :=
  fun _ hs hu hl hn => ⟨r, es, hes, e, he, hr, hs, hu, hl, hn⟩

theorem memoryForms_keep (hc : s.Calm) (hb : s.Bare t.coreId t.ctx) (d a b : Field) (z : BitVec 2) (q c : BitVec 1)
    (lit : W32) : ∀ f ∈ memoryForms s t d a b z q c lit, Issues s t f.1 → exec f.1 s = .next s' →
      (∃ e, s' = s.takeStop t e) ∨ s.Keeps (memoryScope t f) s' := by
  have hs (f) (hi : Issues s t f.1) : s.Keeps (memoryScope t f) s := .refl hc (fun _ => hb) (hi.uid ▸ hi.cur)
  unfold memoryForms
  simp only [List.forall_mem_cons]
  have hatomic {i : Instr} {op : Nat} (hd : d.toNat ∈ scalarsWritten i) (hi : Issues s t i)
      (hn : Machine.atomicForm i op d a b q s = .next s') :
      (∃ e, s' = s.takeStop t e) ∨
        s.Keeps (memoryScope t (i, scalarStored s t (s.sread t a) (if q = 0#1 then 8 else 4) .both, [])) s' :=
    State.Keeps.atomicForm hi rfl (hs _ hi) trivial hd (fun _ _ => covers_scalarStored) hn
  refine ⟨?ld, ?lda, ?ldx, ?vld, ?vlds, ?vldb, ?st, ?stl, ?atadd, ?atmin, ?atmax, ?atminn, ?atmaxn, ?atand, ?ator,
    ?atxor, ?atxch, ?atcas, ?vst, ?vsts, nofun⟩
  case ld => exact fun hi => hi.keeps ((hs _ hi).scalarLoad rfl (.head _) Scope.permits_advance)
  case lda => exact fun hi => hi.keeps ((hs _ hi).scalarLoad rfl (.head _) Scope.permits_advance)
  case ldx => exact fun hi => hi.keeps (.after ((hs _ hi).scalarLoad rfl (.head _) Scope.permits_advanceX))
  case vld => exact fun hi => hi.keeps ((hs _ hi).vectorLoad rfl (.head _) (.head _))
  case vlds => exact fun hi => hi.keeps (.after ((hs _ hi).vectorLoad rfl (.head _) (.head _)))
  case vldb => exact fun hi => (hs _ hi).vldb hi rfl (.head _) (.head _)
  case st => exact fun hi => hi.keeps ((hs _ hi).scalarStore rfl trivial fun _ _ => covers_scalarStored)
  case stl => exact fun hi => hi.keeps ((hs _ hi).scalarStore rfl trivial fun _ _ => covers_scalarStored)
  case vst => exact fun hi => hi.keeps ((hs _ hi).vectorStore rfl trivial (.head _) fun _ _ => covers_lanesStored)
  case vsts =>
    exact fun hi => hi.keeps (.after ((hs _ hi).vectorStore rfl trivial (.head _) fun _ _ => covers_lanesStored))
  all_goals exact hatomic (.head _)

theorem State.Keeps.other {x : Team} (h : s.Keeps W r) (hx : x.uid ≠ W.team.uid) (hs : s.team? x.uid = some x) :
    ∃ y, r.team? x.uid = some y ∧ y.aside = x.aside := by
  have hteam := h.others x.uid hx
  rw [hs] at hteam
  obtain ⟨y, hy, ha⟩ := Option.map_eq_some_iff.1 hteam
  exact ⟨y, hy, ha⟩

/-- None of the loads and stores is one whose frame names more of its team. -/
theorem memoryForms_plain (d a b : Field) (z : BitVec 2) (q c : BitVec 1) (lit : W32) :
    ∀ f ∈ memoryForms s t d a b z q c lit, f.1 ≠ .eret ∧ f.1 ≠ .exit ∧ f.1 ≠ .epend ∧ (∀ d a, f.1 ≠ .malloc d a) ∧
      (∀ r k, f.1 ≠ .csrw r k) ∧ ∀ d a, f.1 ≠ .trace d a ∧ f.1 ≠ .defer d a ∧ f.1 ≠ .retire d a := by
  unfold memoryForms
  simp

/-- Settles O51: from a state with no bin, no FXADD line and no region of the context, the loads and stores keep all
that they do not name. -/
theorem frameOfMemoryInstructions : Obligations.FrameOfMemoryInstructions := by
  intro s s' t d a b z q c lit f hf hi hb0 hb1 hx0 hx1 hcached hcount hn
  have hbare : s.Bare t.coreId t.ctx := ⟨by simp [hcached], hcount⟩
  obtain ⟨heret, hexit, hepend, hmalloc, hcsrw, hrays⟩ := memoryForms_plain d a b z q c lit f hf
  refine (memoryForms_keep (State.calm_of_dies hb0 hb1 hx0 hx1) hbare d a b z q c lit f hf hi hn).imp_right fun h => ?_
  obtain ⟨u, hu, hkept⟩ := h.own
  obtain ⟨hcc, hmode, hin⟩ := hkept.status heret
  refine ⟨h.bytes, fun x hx hs => ?_, u, hu, fun n hlt hw => hkept.scalars n hlt hw fun he => absurd he heret,
    hkept.vectors, hkept.mask, hcc, hmode, hkept.stack hexit hepend, hkept.generator.1, hkept.generator.2, hkept.budget,
    hkept.tiles hmalloc, (hkept.trap hcsrw).1, hin, hkept.rays hrays hexit hepend, hkept.ident⟩
  obtain ⟨y, hy, ha⟩ := h.other hx hs
  exact ⟨y, hy, (congrArg Team.sregs ha :), (congrArg Team.vregs ha :), (congrArg Team.masks ha :)⟩

end Sys2Proof.Machine
end

section
/-! SUPPORT for O45. What the operations of the ray pool, of pages, records of errors, counters and pairs leave (R199,
R210, R215, R284 to R287, R359). -/

namespace Sys2Proof.Machine

/-- What waits to enter a stream buffer touches neither the scratchpad nor the region tables. -/
theorem Core.shown_enterGroups (k : Core) (sched time : Nat) :
    (k.enterGroups sched time).scratch = k.scratch ∧ (k.enterGroups sched time).regions = k.regions := by
  unfold Core.enterGroups
  split
  · exact ⟨rfl, rfl⟩
  · exact ⟨rfl, rfl⟩

namespace State.Alike

variable {s r r' : State} {t : Team}

theorem setNextUid {n : Nat} (h : s.Alike r) : s.Alike { r with nextUid := n } :=
  h.beside rfl rfl (fun _ => rfl) rfl rfl rfl rfl

theorem setDepQ {l : List DepOp} (h : s.Alike r) : s.Alike { r with depQ := l } :=
  h.beside rfl rfl (fun _ => rfl) rfl rfl rfl rfl

theorem raiseMsix {n : Nat} (h : s.Alike r) : s.Alike (r.raiseMsix n) :=
  h.beside rfl rfl (fun _ => rfl) rfl rfl rfl rfl

theorem queueXf {o : XfOp} (h : s.Alike r) : s.Alike (r.queueXf t o) := h.inCore (fun _ => rfl) fun _ => rfl

/-! ### The ray pool (R284 to R287, R413) -/

theorem dropLrc {d c n : Nat} (h : s.Alike r) : s.Alike (r.dropLrc d c n) := h.modCtx fun _ => rfl

theorem modRay {d n : Nat} {f : Ray → Ray} (h : s.Alike r) : s.Alike (r.modRay d n f) := h.modDie fun _ => rfl

theorem freeRay {d n : Nat} (h : s.Alike r) : s.Alike (r.freeRay d n) := by
  unfold State.freeRay
  split
  · exact h
  · refine dropLrc (h.modDie ?_)
    exact fun _ => rfl

theorem freeHeld (h : s.Alike r) : s.Alike (r.freeHeld t) := h.foldl fun _ _ hr => hr.freeRay

theorem newRay {d c : Nat} {words : List W32} {st : RayState} {src : Option Nat} (h : s.Alike r) :
    s.Alike (r.newRay d c words st src) := h.modDie fun _ => rfl

theorem placeRay {words : List W32} (h : s.Alike r) : s.Alike (r.placeRay t words) := h.newRay

theorem reserveRays {n : Nat} (h : s.Alike r) : s.Alike (r.reserveRays t n).1 := by
  induction n generalizing r with
  | zero => exact h
  | succ n ih => exact ih h.newRay

theorem taskHold (h : s.Alike r) : s.Alike (r.taskHold t) := by
  unfold State.taskHold
  dsimp only
  split
  · refine .ite h (modCtx (h.beside rfl rfl (fun _ => rfl) rfl rfl rfl rfl) ?_)
    exact fun _ => rfl
  · exact h

theorem countRays {n : Nat} (h : s.Alike r) : s.Alike (r.countRays t n) := h.taskHold.modCtx fun _ => rfl

theorem resumeWaiter {n : Nat} (h : s.Alike r) : s.Alike (r.resumeWaiter t n) := by
  have hw : s.Alike (r.modDie t.ident.die fun k => { k with
      waiters := k.waiters.filter (fun u => u != t.uid)
      waiterSince := removeAt t.uid k.waiterSince }) := h.modDie fun _ => rfl
  refine modTeam (reserveRays (.ite hw hw.countRays)) ?_
  exact fun _ => rfl

theorem grantHead {d : Nat} (h : s.Alike r) : Gives s.Alike (r.grantHead d) := by
  have try_ (waves : Bool) : Gives s.Alike (match r.poolHead d waves with
      | some t => if r.poolGrants t t.poolAsk then some (r.resumeWaiter t t.poolAsk) else none
      | none => none) := by
    split
    · exact .ite (.some h.resumeWaiter) .none
    · exact .none
  unfold State.grantHead
  dsimp only
  split
  next x hx => exact .some (try_ true x hx)
  next => exact try_ false

theorem grantHeads {d n : Nat} (h : s.Alike r) : s.Alike (r.grantHeads d n) := by
  induction n generalizing r with
  | zero => exact h
  | succ n ih =>
    unfold State.grantHeads
    split
    next x hx => exact ih (h.grantHead x hx)
    next => exact h

theorem testPool {d : Nat} (h : s.Alike r) : s.Alike (r.testPool d) := h.grantHeads

theorem poolChanged {d : Nat} (h : s.Alike r) : s.Alike (r.poolChanged d) :=
  testPool (h.foldl fun _ _ hr => .ite hr.resumeWaiter hr)

/-! ### Treelets and hints (R285, R348) -/

theorem dropTreelets {d : Nat} (h : s.Alike r) : s.Alike (r.dropTreelets d) := h.modDie fun _ => rfl

theorem emptyHints (h : s.Alike r) : s.Alike r.emptyHints := by
  have hdie d : (r.emptyHints.die d).shown = (r.die d).shown := by
    unfold State.die State.emptyHints
    split <;> rfl
  refine ⟨fun d => ?_, fun d => (hdie d).trans (h.die d), h.scratch, h.regions, h.ctxs, h.teams, h.host, h.fabric⟩
  exact ⟨(congrArg (·.2.2.2.1) (hdie d)).trans (h.calm d).1, (congrArg (·.2.2.2.2) (hdie d)).trans (h.calm d).2⟩

/-! ### Bins (R230, R231) -/

/-- Where no die holds a bin, none is spilled. -/
theorem spillAll {d : Nat} (h : s.Alike r) : s.Alike (r.spillAll d) := by
  refine h.foldl fun x slice hx => ?_
  have hnone : (x.die d).sliceBins slice = [] := by simp [Die.sliceBins, (hx.calm d).1]
  rw [State.makeRoom, hnone]
  exact hx

theorem applyRange {p : Phys} {n : Nat} (h : s.Alike r) : s.Alike (r.applyRange t p n) := by
  unfold State.applyRange
  simp only [(h.calm p.unit).1, List.filter_nil, List.foldl_nil, ite_self]
  exact h

/-! ### Pages (R199, R212) -/

theorem dropLines {c : Nat} {p : Nat → Nat → Bool} (h : s.Alike r) : s.Alike (r.dropLines c p) := by
  have hends {d : Nat} {x : State} (hx : s.Alike x) : s.Alike (x.modDie d fun k => { k with
      wleases := k.wleases.filter fun w => !(w.core == c && p d w.line) }) := hx.modDie fun _ => rfl
  refine hends (hends (inCore h.overtake ?_ ?_))
  all_goals exact fun _ => rfl

theorem endLeases {c n : Nat} {p : Phys} (h : s.Alike r) : s.Alike (r.endLeases c p n) := .ite h h.dropLines

theorem pageAt {va : Word} (h : s.Alike r) : Ends (fun x => s.Alike x.1) (r.pageAt t va) := by
  unfold State.pageAt
  split
  · exact h.translateResident
  · exact h.translateResident

/-- What goes over the pages of a range leaves what each page's step leaves. -/
theorem eachPage {a n : Nat} {f : State → Phys → Nat → State} {pages : List Nat}
    (hf : ∀ x p k, s.Alike x → s.Alike (f x p k)) (h : s.Alike r) : Ends s.Alike (r.eachPage t a n f pages) := by
  induction pages generalizing r with
  | nil => exact .ok h
  | cons page rest ih =>
    unfold State.eachPage
    dsimp only
    split
    · exact .bind (.pure h) fun _ hx => ih hx
    · split
      next x m hm => exact .bind (.pure (hf _ _ _ (h.pageAt _ hm))) fun _ hx => ih hx
      · exact .bind (.pure h) fun _ hx => ih hx
      · exact .error

/-! ### Counters and records of errors (R215, R358, R359) -/

theorem setCounter {c k : Nat} {v : W32} (h : s.Alike r) : s.Alike (r.setCounter c k v) := by
  unfold State.setCounter State.fireCounter
  refine fireWaits (h.inCore ?_ ?_)
  all_goals exact fun _ => rfl

/-- Where there is no error ring, a record is counted alone. -/
theorem report {e : Report} (h : s.Alike r) (he : s.die0.regs.errring = 0#64) : s.Alike (r.report e) := by
  have hring : r.die0.regs.errring = 0#64 := by
    rw [← he]
    exact congrArg DieRegs.errring (h.regs 0)
  rw [State.report, State.appendWords, if_pos hring]
  exact h.beside rfl rfl (fun _ => rfl) rfl rfl rfl rfl

theorem haltCtx {n : Nat} {e : Report} (h : s.Alike r) (he : s.die0.regs.errring = 0#64) :
    s.Alike (r.haltCtx n e) := by
  refine .ite h (report (h.modCtx ?_) he)
  exact fun _ => rfl

/-- Where a context does not record, nothing is appended to its log. -/
theorem appendLog {c d type : Nat} {payload : List Word} (h : s.Alike r) (hl : r.logs c = false) :
    Ends s.Alike (r.appendLog c d type payload) := by
  unfold State.appendLog
  split
  · exact .ok h
  next x hx =>
    have hrec : x.recording = false := by
      simp only [State.logs, hx, Bool.or_eq_false_iff] at hl
      exact hl.1
    rw [hrec]
    exact .ok h

/-! ### Update pairs (R210, R222, R401) -/

theorem pairFate {es : List RegionEntry} {e : Emitted} (h : s.Alike r) :
    Ends (fun x => s.Alike x.1) (r.pairFate t es e) := by
  unfold State.pairFate
  split
  · exact .ok h
  · refine .ite (.ok h) ?_
    split
    · exact .ok h
    · exact .error
    next x m hm =>
      have hx : s.Alike x := h.translate _ hm
      exact .ite (.ok hx) (.ok hx)

theorem pairFates {es : List RegionEntry} {ps : List Emitted} (h : s.Alike r) :
    Ends (fun x => s.Alike x.1) (r.pairFates t es ps) := by
  induction ps generalizing r with
  | nil => exact .ok h
  | cons e rest ih =>
    refine .bind h.pairFate fun x hx => .bind (ih hx) fun y hy => ?_
    dsimp only
    split
    · exact .pure hy
    · exact .pure hy

theorem reportDrops {ds : List Dropped} {code : Nat} (h : s.Alike r) (he : s.die0.regs.errring = 0#64) :
    s.Alike (r.reportDrops t ds code) := by
  unfold State.reportDrops
  dsimp only
  split
  · exact h
  · exact h.report he

theorem fates {ps : List Emitted} (h : s.Alike r) (he : s.die0.regs.errring = 0#64) :
    Ends (fun x => s.Alike x.1) (r.fates t ps) :=
  .bind h.regionsOf fun _ hx => .bind hx.1.pairFates fun _ hy => .pure (hy.foldl fun _ _ hr => hr.reportDrops he)

theorem emit {ps : List Emitted} (h : s.Alike r) (he : s.die0.regs.errring = 0#64) :
    Ends (fun x => s.Alike x.1) (r.emit t ps) := by
  refine .ite .error (.bind (h.fates he) fun x hx => .pure ?_)
  dsimp only
  refine hx.inCore ?_ ?_
  all_goals exact fun _ => rfl

theorem mapDsm {addr : Nat → Word} {lanes : List Nat} (h : s.Alike r) :
    Ends (fun x => s.Alike x.1) (r.mapDsm t addr lanes) := by
  induction lanes generalizing r with
  | nil => exact .ok h
  | cons n rest ih =>
    refine .ite .raise ?_
    split
    · exact .error
    next x m hm => exact .bind (ih (h.translateResident _ hm)) fun _ hy => .pure hy

/-! ### Rays (R303 to R305) -/

theorem handRay {mask : Nat} {defer : Bool} {l : Nat × Nat} (h : s.Alike r) : s.Alike (r.handRay t mask defer l) := by
  unfold State.handRay
  split
  · exact h
  · exact .ite h.freeRay h.modRay

theorem retireRay {d n : Nat} {ps : List Pair} (h : s.Alike r) : s.Alike (r.retireRay d ps n) := .ite h.freeRay h.modRay

theorem retireEnter {groups : List (List Pair)} (h : s.Alike r) : s.Alike (r.retireEnter t groups) := by
  refine .ite h (h.inCore (fun k => ?_) fun k => ?_)
  · exact (Core.shown_enterGroups { k with entering := _ } _ _).1
  · exact (Core.shown_enterGroups { k with entering := _ } _ _).2

theorem writePlaced {l : List (List W32)} (h : s.Alike r) : s.Alike (r.writePlaced t l) :=
  h.foldl fun _ _ hr => hr.modRay

end State.Alike

end Sys2Proof.Machine
end

section
/-! SUPPORT for O45. What each kind of the other instructions changes of its team and of the state: scratchpads, barrier
words, the host's memory and the control registers (R203, R204, R216, R220, R354, R367, R368). -/

namespace Sys2Proof.Machine

variable {W : Scope} {s s' r : State} {t u v : Team} {i : Instr}

/-- What an instruction of O45 names. -/
def otherScope (s : State) (t : Team) (i : Instr) : Scope :=
  { instr := i, masks := [], team := t, bytes := storedElsewhere s t i
    scratch := fun c x => c = t.coreId ∧ storedInScratch s t i x
    regions := ∃ d a b, i = .rsave d a b ∨ i = .cbar d a b }

/-- The body of an instruction keeps, where there is no error ring, what the instruction does not name. -/
def FrameKept (s : State) (t : Team) (i : Instr) : Prop :=
  s.Keeps (otherScope s t i) s → s.die0.regs.errring = 0#64 →
    ∃ body, exec i s = issue i s body ∧ Ends (s.Keeps (otherScope s t i)) (body t)

namespace KeptBut

variable {ms : List Nat}

theorem waitFor {k : WaitKind} (h : KeptBut i ms t u) : KeptBut i ms t (u.waitFor k) := h.aside rfl

theorem ite {c : Prop} [Decidable c] (hu : KeptBut i ms t u) (hv : KeptBut i ms t v) :
    KeptBut i ms t (if c then u else v) := by
  split
  · exact hu
  · exact hv

/-- A team that has reached its end (R38, R306). -/
theorem ended (hi : i = .exit ∨ i = .epend) :
    KeptBut i ms t { t with place := .exiting, stack := [], active := [], rays := [] } :=
  { KeptBut.refl i ms t with
    stack := fun hx hp => (hi.elim hx hp).elim
    loops := fun _ => ⟨rfl, rfl⟩
    rays := fun _ hx hp => (hi.elim hx hp).elim }

theorem withTiles {l : List (Nat × List (Nat × W32))} (hi : ∃ d a, i = .malloc d a) :
    KeptBut i ms t { t with tiles := l } :=
  { KeptBut.refl i ms t with
    tiles := fun hn => by
      obtain ⟨d, a, hda⟩ := hi
      exact absurd hda (hn d a) }

theorem loseRays {lanes : List (Nat × Nat)} (hi : ∃ d a, i = .trace d a ∨ i = .defer d a ∨ i = .retire d a) :
    KeptBut i ms t (t.loseRays lanes) :=
  { KeptBut.refl i ms t with
    rays := fun hn => by
      obtain ⟨d, a, h | h | h⟩ := hi
      · exact absurd h (hn d a).1
      · exact absurd h (hn d a).2.1
      · exact absurd h (hn d a).2.2 }

theorem setCsr {n : Nat} {x : Word} (hi : ∃ d k, i = .csrw d k) : KeptBut i ms t (t.setCsr n x) := by
  have htrap (y : TrapRegs) (l e : Word) : KeptBut i ms t { t with trap := y, nlog := l, nlend := e } :=
    { KeptBut.refl i ms t with
      trap := fun hn => by
        obtain ⟨d, k, hdk⟩ := hi
        exact absurd hdk (hn d k) }
  unfold Team.setCsr
  split <;> exact htrap _ _ _

/-- What comes back from the trap registers (R354). -/
theorem eret : KeptBut .eret ms t t.eret := by
  refine { KeptBut.refl .eret ms t with
    scalars := fun n hn _ hlow => ?_, status := fun hi => absurd rfl hi, mask := fun _ _ => rfl }
  have hlow : n < 60 := hlow rfl
  have hne : 60 ≠ n ∧ 61 ≠ n ∧ 62 ≠ n ∧ 63 ≠ n := by omega
  simp [Team.eret, Team.setS, Team.getS, hn, hne]

end KeptBut

/-- A change of the values of a table that leaves a part of them leaves that part of what is found. -/
theorem lookup_map_same {α β : Type} {f : α → α} {g : α → β} {d : α} {k : Nat} {l : List (Nat × α)}
    (h : ∀ x, g (f x) = g x) : g (lookup d k (l.map fun c => (c.1, f c.2))) = g (lookup d k l) := by
  induction l with
  | nil => rfl
  | cons c rest ih =>
    simp only [List.map_cons, lookup]
    split
    · exact h c.2
    · exact ih

theorem Memory.byte_write_other {m : Memory} {a n x y : Nat} (h : y < a ∨ a + n ≤ y) :
    (m.write a n x).byte y = m.byte y :=
  byte_setBytes_other (by rwa [length_leBytes])

theorem Memory.byte_writeWords_other {m : Memory} {a y : Nat} {l : List Nat} (h : y < a ∨ a + 8 * l.length ≤ y) :
    (m.writeWords a l).byte y = m.byte y := by
  induction l generalizing m a with
  | nil => rfl
  | cons x rest ih =>
    rw [List.length_cons] at h
    exact (ih (by omega)).trans (byte_write_other (by omega))

namespace State.Keeps

/-- Bytes of the team's scratchpad that the instruction names. -/
theorem scrWrite {o : Nat} {bytes : List Byte} (h : s.Keeps W r)
    (hb : ∀ x, t.ident.scrBase + o ≤ x → x < t.ident.scrBase + o + bytes.length → W.scratch t.coreId x) :
    s.Keeps W (r.scrWrite t o bytes) := by
  have hcore (k : Core) : (k.putScratch (t.ident.scrBase + o) bytes).regions = k.regions := rfl
  refine h.changes h.calm (fun _ _ => rfl) (fun c x hx => ?_) (fun _ _ => rfl) (fun _ _ => rfl) (fun hw => ?_) rfl
  · by_cases hc : c = t.coreId
    · subst hc
      rw [State.scrWrite, core_modCore]
      refine Memory.byte_setBytes_other ?_
      by_contra hn
      exact hx (hb x (by omega) (by omega))
    · rw [State.scrWrite, core_modCore_other _ _ hc]
  · obtain ⟨hcached, hcount⟩ := h.bare hw
    refine ⟨?_, hcount⟩
    by_cases hc : W.team.coreId = t.coreId
    · rw [hc] at hcached ⊢
      rw [State.scrWrite, core_modCore]
      exact hcached
    · rw [State.scrWrite, core_modCore_other _ _ hc]
      exact hcached

/-- A register write as a whole, under the check of R63. -/
theorem vecWrite {n : Nat} {x : VReg} (h : s.Keeps W r) (ht : W.team = t) (hn : n ∈ vectorsWritten W.instr) :
    Ends (s.Keeps W) (r.vecWrite t [(n, x)]) := by
  subst ht
  refine .bind State.writeVs_ends fun u hu => .pure ?_
  subst hu
  exact h.putTeam ((KeptBut.refl ..).setVs hn).advance

theorem scrLoad {d : Field} {c : BitVec 1} {xs : List VReg} {lanes : List Nat} {off : Nat → Word} (h : s.Keeps W r)
    (ht : W.team = t) (hd : d.toNat ∈ vectorsWritten W.instr) :
    Ends (s.Keeps W) (r.scrLoad t d c xs lanes off) := .after (.after (h.vecWrite ht hd))

/-- An arrival at a barrier word (R216). -/
theorem arrive {c : Nat} {p : Phys} {target : W32} (h : s.Keeps W r) (hb : W.Covers p 8)
    (hp : p.space = .gddr ∨ p.space = .dsm) : s.Keeps W (r.arrive c p target).1 := by
  have hbytes (n : Nat) : W.Covers p (leBytes 8 n).length := by
    rw [length_leBytes]
    exact hb
  unfold State.arrive
  extract_lets reached w gen count done new
  have hreach : s.Keeps W reached := .ite (h.after fun k => k.applyLine) h
  split
  next hs =>
    have hcovers : W.Covers { space := .gddr, unit := p.unit, addr := p.addr } (leBytes 8 new).length := hs ▸ hbytes _
    exact (hreach.homeStore hcovers).after fun k => k.refreshL1
  next hs =>
    have hcovers : W.Covers { space := .dsm, unit := p.unit, addr := p.addr } (leBytes 8 new).length :=
      hp.resolve_left hs ▸ hbytes _
    exact (hreach.after fun k => k.noteRequest).dsmStore hcovers

theorem arrived {d : Field} {mode : Nat} {p : Phys} {gen : W32} (h : s.Keeps W r)
    (hd : d.toNat ∈ scalarsWritten W.instr) : s.Keeps W (r.arrived W.team.uid d.toNat mode p gen) :=
  h.modTeam fun _ _ k => .ite (k.setD hd).waitFor (k.setD hd)

theorem foldl {α : Type} {f : State → α → State} {l : List α} (h : s.Keeps W r)
    (hf : ∀ r, ∀ x ∈ l, s.Keeps W r → s.Keeps W (f r x)) : s.Keeps W (l.foldl f r) := by
  induction l generalizing r with
  | nil => exact h
  | cons x rest ih =>
    exact ih (hf r x List.mem_cons_self h) fun r y hy => hf r y (List.mem_cons_of_mem _ hy)

/-- A store into the host's memory. -/
theorem hostStore {m : Memory} (h : s.Keeps W r)
    (hm : ∀ p : Phys, p.space = .host → ¬W.bytes p → m.byte p.addr = r.host.mem.byte p.addr) :
    s.Keeps W { r with host := { r.host with mem := m } } := by
  refine h.changes h.calm (fun p hp => ?_) (fun _ _ _ => rfl) (fun _ _ => rfl) (fun _ _ => rfl)
    (fun hw => ⟨(h.bare hw).cached, (h.bare hw).counted⟩) rfl
  rcases p with ⟨space, unit, a⟩
  cases space with
  | host => simp only [State.peek, State.space, Memory.read, Memory.bytes, hm _ rfl hp]
  | gddr | dsm | fabric => rfl

/-- A transform instruction enters the pipe, or its team stays at it (R380). -/
theorem enterPipe {o : XfOp} {l : Nat} (h : s.Keeps W r) (ht : W.team = t) : s.Keeps W (r.enterPipe t o l) := by
  subst ht
  exact .ite (h.after fun k => k.queueXf) (putTeam (h.after fun k => k.queueXf) (KeptBut.refl ..).advance)

/-! ### CSRW and TLBINV (R220, R367, R368) -/

theorem modCtx {n : Nat} {f : Ctx → Ctx} (h : s.Keeps W r)
    (hf : (∀ a k, W.instr ≠ .csrw a k) → ∀ c : Ctx, (f c).named = c.named) (hw : ¬W.regions) :
    s.Keeps W (r.modCtx n f) := by
  refine h.changes h.calm (fun _ _ => rfl) (fun _ _ _ => rfl) (fun _ _ => rfl) (fun hi m => ?_) (absurd · hw) rfl
  have hnamed (x : State) : (x.ctx? m).map Ctx.named = (x.ctxs.map Ctx.named).find? fun c => c.1 == m := by
    rw [List.find?_map]
    rfl
  rw [hnamed, hnamed, State.modCtx, map_mapWhere_same (hf hi)]

theorem writeCtx {d n k : Nat} {v : Word} (h : s.Keeps W r) (hi : ∃ a k, W.instr = .csrw a k) (hw : ¬W.regions) :
    s.Keeps W (r.writeCtx d n k v) := by
  obtain ⟨a, j, hi⟩ := hi
  have hctx : s.Keeps W (r.modCtx n fun c => c.setCsr k v) := h.modCtx (fun hn => absurd hi (hn a j)) hw
  exact .ite (hctx.after fun k => k.dropTreelets.emptyHints) hctx

theorem writeDie {d n : Nat} {v : Word} (h : s.Keeps W r) (hi : ∃ a k, W.instr = .csrw a k) :
    s.Keeps W (r.writeDie d n v) := by
  obtain ⟨a, j, hi⟩ := hi
  have hset (f : DieRegs → DieRegs) : s.Keeps W (r.modDie d fun k => { k with regs := f k.regs }) :=
    h.modDie (fun hn => absurd hi (hn a j)) (fun _ => ⟨rfl, rfl⟩) (fun _ _ _ _ _ => rfl) fun _ _ _ _ _ => rfl
  have hpending (f : Die → Option Word) : s.Keeps W (r.modDie d fun k => { k with pendSlice := f k }) :=
    h.after fun k => k.modDie fun _ => rfl
  have hstitch (f : Die → List (Nat × Word)) : s.Keeps W (r.modDie d fun k => { k with pendStitch := f k }) :=
    h.after fun k => k.modDie fun _ => rfl
  unfold State.writeDie
  dsimp only
  refine .ite (.ite h (hpending fun _ => some v)) (.ite (.ite h (hset fun x => { x with migctl := x.migctl ||| 1#64 }))
    (.ite (.ite h (hstitch fun k => insertAt (n - 0x210) v k.pendStitch)) ?_))
  have hreg := hset fun x => x.set n v
  exact .ite (hreg.after fun k => k.spillAll) (.ite (hreg.after fun k => k.poolChanged) hreg)

/-- TLBINV drops translations, region tables and what the homes know of a context, and puts its registers in force. -/
theorem tlbinv {n : Nat} {p : Nat → Bool} (h : s.Keeps W r) (hw : ¬W.regions) : s.Keeps W (r.tlbinv n p) := by
  refine modCtx (h.changes (fun d => ?_) (fun q _ => ?_) (fun c x _ => ?_) (fun _ d => ?_) (fun _ _ => rfl)
    (absurd · hw) rfl) (fun _ _ => rfl) hw
  · have hforget {k : Die} {f : Nat × Nat × Nat × Nat → Bool} (hk : k.bins = [] ∧ k.fxLines = []) :
        k.bins = [] ∧ k.fxLines.filter f = [] := ⟨hk.1, by rw [hk.2, List.filter_nil]⟩
    by_cases hd : d = 1
    · subst hd
      exact hforget (h.calm 1)
    · rw [State.die, if_neg hd]
      exact hforget (h.calm 0)
  · suffices hspace : ∀ u, State.space _ q.space u = r.space q.space u by
      rw [State.peek, State.peek, hspace]
    intro u
    cases q.space with
    | gddr | dsm =>
      simp only [State.space, State.die]
      split <;> rfl
    | host => rfl
    | fabric => rfl
  · exact congrArg (Memory.byte · x) (lookup_map_same (g := Core.scratch) (f := fun k : Core => { k with
      tlb := k.tlb.filter (fun e => !(e.ctx == n && p e.vpn)), regions := removeAt n k.regions }) fun _ => rfl)
  · unfold State.die
    split <;> rfl

end State.Keeps

end Sys2Proof.Machine
end

section
/-! SUPPORT for O45. The frame of each of the other instructions: waits and ends, the scratchpad, streams, copies, the
matrix and transform engines, rays and the system. -/

namespace Sys2Proof.Machine

variable {s s' : State} {t : Team} {i : Instr}

namespace FrameKept

theorem of {body : Team → Effect} (hb : exec i s = issue i s body)
    (hk : s.Keeps (otherScope s t i) s → s.die0.regs.errring = 0#64 → Ends (s.Keeps (otherScope s t i)) (body t)) :
    FrameKept s t i := fun h he => ⟨body, hb, hk h he⟩

/-- An instruction that changes its team alone. -/
theorem team {f : Team → Team} (hb : exec i s = issueTeam i s f) (hf : KeptBut i [] t (f t)) : FrameKept s t i :=
  .of hb fun h _ => .ok (h.putTeam hf)

/-! ### Waits and ends (R121, R122, R306) -/

theorem watch (a b : Field) : FrameKept s t (.watch a b) := by
  refine .of rfl fun h _ => .after (.bind (State.Alike.refl h.calm).translateResident fun x hx => ?_)
  refine .ite .error (.ite .error (.pure ?_))
  exact (h.alike (.ite hx.homeRead hx)).putTeam (.ite (KeptBut.refl ..).advance (KeptBut.refl ..).advance.waitFor)

theorem endTeam (hi : i = .exit ∨ i = .epend) (hb : exec i s = issue i s fun t => .ok (s.endTeam t)) :
    FrameKept s t i :=
  .of hb fun h _ => .ok (((h.after fun k => k.freeHeld).putTeam (.ended hi)).after fun k => k.testPool)

/-! ### Memory (R155, R198, R199, R203) -/

theorem rsave (d a b : Field) : FrameKept s t (.rsave d a b) := by
  refine .of rfl fun h _ => .after (.bind (State.Alike.refl h.calm).mapParts.found fun x hx =>
    .after (.after (.pure ?_)))
  obtain ⟨hps, hx⟩ := hx
  refine ((h.alike hx).storeParts rfl ⟨d, a, b, .inl rfl⟩ fun q hq p hs hu hl hn => ?_).modTeam
    fun _ _ k => (k.setD (.head _)).advance
  exact ⟨x.1, x.2, hps, q, hq, hs, hu, hl, hn⟩

theorem rload (d a : Field) (c : BitVec 1) : FrameKept s t (.rload d a c) := by
  refine .of rfl fun h _ => .after (.bind (State.Alike.refl h.calm).mapParts fun x hx => .after
    (.bind hx.loadParts fun y hy => .ite .raise ?_))
  refine .bind hy.mapParts fun z hz => .after (.bind hz.loadParts fun w hw => .ite .raise ?_)
  exact (h.alike hw).vecWrite rfl (.head _)

theorem fence (k : Field) : FrameKept s t (.fence k) :=
  .of rfl fun h _ => .after (.pure (h.putTeam (KeptBut.refl ..).advance))

theorem linv (a b : Field) : FrameKept s t (.linv a b) := by
  refine .of rfl fun h _ => ?_
  have hs : s.Alike s := .refl h.calm
  have hdone (x : State) (hx : s.Alike x) :
      Ends (s.Keeps (otherScope s t (.linv a b))) (.ok (x.modTeam t.uid Team.advance) : Effect) :=
    .ok ((h.alike hx).modTeam Scope.permits_advance)
  refine .ite (.bind (.pure hs) hdone) (.ite (.bind (.pure hs.dropLines) hdone) (.bind ?_ hdone))
  exact hs.eachPage fun _ _ _ hy => hy.endLeases

theorem uflush (a b : Field) : FrameKept s t (.uflush a b) := by
  refine .of rfl fun h _ => .ite .error ?_
  have hs : s.Alike s := .refl h.calm
  have hdone (x : State) (hx : s.Alike x) :
      Ends (s.Keeps (otherScope s t (.uflush a b))) (.ok (x.modTeam t.uid Team.advance) : Effect) :=
    .ok ((h.alike hx).modTeam Scope.permits_advance)
  refine .ite (.bind (.pure hs) hdone) (.bind ?_ hdone)
  exact hs.eachPage fun _ _ _ hy => hy.applyRange

theorem preq (d a b : Field) : FrameKept s t (.preq d a b) := by
  refine .of rfl fun h _ => ?_
  dsimp only
  split
  · exact .error
  next c hc =>
    refine .ite (.ok (h.putTeam (KeptBut.refl ..).advance)) (.ite .error (.ok ?_))
    refine State.Keeps.putTeam (State.Keeps.after (h.hostStore fun p hs hp => ?_) fun k => k.raiseMsix)
      (KeptBut.refl ..).advance
    have hout (x y : Nat) (hxy : ¬(x ≤ p.addr ∧ p.addr < y)) : p.addr < x ∨ y ≤ p.addr := by omega
    refine (Memory.byte_write_other (hout _ _ fun hr => hp ⟨hs, c, hc, .inl hr⟩)).trans
      (Memory.byte_writeWords_other (hout _ _ fun hr => hp ⟨hs, c, hc, .inr hr⟩))

/-! ### The scratchpad (R204 to R209) -/

theorem sld (d a b : Field) : FrameKept s t (.sld d a b) :=
  .of rfl fun h _ => .after (.after (.pure (h.putTeam ((KeptBut.refl ..).setD (.head _)).advance)))

theorem sst (d a b : Field) : FrameKept s t (.sst d a b) := by
  refine .of rfl fun h _ => .after (.pure ?_)
  refine (h.scrWrite fun x hl hx => ⟨rfl, hl, ?_⟩).putTeam (KeptBut.refl ..).advance
  rwa [length_leBytes] at hx

theorem sgath (d a b : Field) (c : BitVec 1) : FrameKept s t (.sgath d a b c) :=
  .of rfl fun h _ => h.scrLoad rfl (.head _)

theorem sldt (d a b : Field) (c : BitVec 1) : FrameKept s t (.sldt d a b c) :=
  .of rfl fun h _ => .after (.after (h.scrLoad rfl (.head _)))

theorem sldc (d a : Field) (c : BitVec 1) : FrameKept s t (.sldc d a c) :=
  .of rfl fun h _ => .after (.after (.ite .raise (.after (.after (.ite .raise (h.vecWrite rfl (.head _)))))))

theorem sstc (d a b : Field) : FrameKept s t (.sstc d a b) := by
  refine .of rfl fun h _ => .after (.after (.pure ?_))
  exact (h.scrWrite fun x hl hx => ⟨rfl, hl, hx⟩).putTeam ((KeptBut.refl ..).setD (.head _)).advance

theorem sscat (d a b : Field) : FrameKept s t (.sscat d a b) := by
  refine .of rfl fun h _ => .after (.pure ?_)
  refine State.Keeps.putTeam (h.foldl fun r n hn hr => hr.scrWrite fun x hl hx => ⟨rfl, n, hn, hl, ?_⟩)
    (KeptBut.refl ..).advance
  rwa [length_leBytes] at hx

theorem peerAccess {a b : Field} {dest : Option Nat} {write : Option W32} (h : s.Keeps (otherScope s t i) s) :
    Ends (s.Keeps (otherScope s t i)) (s.peerAccess t a b dest write) := by
  refine .ite .raise (.ite .raise (.ok ?_))
  refine State.Keeps.putTeam (h.after fun k => k.inCore ?_ ?_) ((KeptBut.refl ..).aside rfl)
  all_goals exact fun _ => rfl

theorem clds (d a b : Field) : FrameKept s t (.clds d a b) := .of rfl fun h _ => peerAccess h

theorem csts (d a b : Field) : FrameKept s t (.csts d a b) := .of rfl fun h _ => peerAccess h

/-! ### Streams, tasks, counters and barriers (R210 to R218) -/

theorem update {a : Field} {lanes : List Nat} {index : Nat → Nat} {x : VReg} (h : s.Keeps (otherScope s t i) s)
    (he : s.die0.regs.errring = 0#64) : Ends (s.Keeps (otherScope s t i)) (s.update t a lanes index x) :=
  .after (.bind ((State.Alike.refl h.calm).emit he) fun _ hy =>
    .pure ((h.alike hy).putTeam (KeptBut.refl ..).advance))

theorem upd (d a b : Field) : FrameKept s t (.upd d a b) := .of rfl fun h he => update h he

theorem upds (d a : Field) : FrameKept s t (.upds d a) := .of rfl fun h he => update h he

theorem taskForm {kind : DepKind} {a : Field} (hb : exec i s = Machine.taskForm i kind a s) : FrameKept s t i := by
  refine .of hb fun h _ => .after (.bind (State.Alike.refl h.calm).translateResident fun x hx => .after (.pure ?_))
  exact State.Keeps.putTeam (h.alike hx.setDepQ) (KeptBut.refl ..).advance

theorem cset (a b : Field) : FrameKept s t (.cset a b) :=
  .of rfl fun h _ => .after (.pure ((h.after fun k => k.setCounter).modTeam Scope.permits_advance))

theorem cadd (a b : Field) : FrameKept s t (.cadd a b) :=
  .of rfl fun h _ => .after (.pure ((h.after fun k => k.setCounter).modTeam Scope.permits_advance))

theorem cbar (d a b : Field) : FrameKept s t (.cbar d a b) := by
  refine .of rfl fun h _ => ?_
  dsimp only
  split
  · exact .raise
  next hvalid =>
    have hbits : wordBits (s.sread t b) 32 2 = (s.sread t b).toNat / 2 ^ 32 % 4 := rfl
    have hmode : wordBits (s.sread t b) 32 2 ≠ 3 := fun hm => hvalid (by rw [hm]; rfl)
    refine .after (.bind (State.Alike.refl h.calm).translateResident.found fun x hx => .after ?_)
    obtain ⟨hm, hx⟩ := hx
    split
    · refine .after (.ite .error (.pure ?_))
      exact (h.alike (.ite hx.homeRead hx)).putTeam (.ite (KeptBut.refl ..).advance (KeptBut.refl ..).advance.waitFor)
    next h2 =>
      rw [if_neg h2] at hm
      have hcovers : (otherScope s t (.cbar d a b)).Covers x.2.phys 8 := fun q hs hu hl hn =>
        ⟨by omega, x.1, x.2, hm, hs, hu, hl, hn⟩
      have hlearn : s.Keeps (otherScope s t (.cbar d a b)) (x.1.learnFx t.coreId t.ctx (s.sread t a) x.2.phys) :=
        h.alike (hx.learnFx (h.bare ⟨d, a, b, .inr rfl⟩))
      refine .after (.after (.ite (.after (.pure ?_)) (.ite .error (.pure ?_))))
      · refine State.Keeps.putTeam (hlearn.after fun k => k.queueReq) (KeptBut.aside (KeptBut.advance (.refl ..)) ?_)
        rfl
      · have harrive := hlearn.arrive (c := t.coreId) (target := (s.sread t b).setWidth 32) hcovers
          (State.translateResident_scalar _ hm)
        exact ((harrive.after fun k => k.joinGwct).modTeam Scope.permits_advance).arrived (.head _)

theorem dsmop (d a b : Field) : FrameKept s t (.dsmop d a b) := by
  refine .of rfl fun h _ => .after (.ite .raise (.bind (State.Alike.refl h.calm).mapDsm fun x hx => .after (.pure ?_)))
  refine (h.alike (hx.modDie ?_)).putTeam (KeptBut.advance (KeptBut.aside (KeptBut.refl ..) ?_))
  · exact fun _ => rfl
  · rfl

theorem dsmred (d a b : Field) : FrameKept s t (.dsmred d a b) := by
  refine .of rfl fun h _ => .after (.ite .raise (.ite (.after ?_) (.after ?_)))
  all_goals
    refine .bind (State.Alike.refl h.calm).mapParts fun x hx => .after (.bind hx.loadParts fun y hy => .pure ?_)
    exact (h.alike hy).putTeam ((KeptBut.refl ..).setD (.head _)).advance

/-! ### Copies and matrices (R234, R266, R271, R276 to R278) -/

theorem copyForm {k : CopyKind} {d a b : Field} (hb : exec i s = Machine.copyForm i k d a b s) : FrameKept s t i := by
  refine .of hb fun h _ => .ite .error (.after (.after (.ite .raise (.after (.after (.pure ?_))))))
  refine State.Keeps.putTeam (h.after fun k => .setNextUid (k.inCore ?_ ?_)) (KeptBut.refl ..).advance
  all_goals exact fun _ => rfl

theorem queueMat {o : MatOp} (h : s.Keeps (otherScope s t i) s) :
    Ends (s.Keeps (otherScope s t i)) (s.queueMat t o) := by
  refine .ite .error (.ok ?_)
  refine State.Keeps.putTeam (h.after fun k => k.inCore ?_ ?_) (KeptBut.refl ..).advance
  all_goals exact fun _ => rfl

theorem matrixForm {k : MatKind} {d a : Field} {f : Team → MatOp → MatOp}
    (hb : exec i s = Machine.matrixForm i k d a f s) : FrameKept s t i := by
  refine .of hb fun h _ => .ite .error (.after (.ite .raise (.ite .raise (.after (.after ?_)))))
  exact .ite (.after (queueMat h)) (.after (queueMat h))

theorem mzero (d a : Field) : FrameKept s t (.mzero d a) :=
  .of rfl fun h _ => .ite .error (.after (.ite .raise (queueMat h)))

theorem mcfg (d a b : Field) : FrameKept s t (.mcfg d a b) :=
  .of rfl fun h _ => .ite .raise (.ite .raise (.ok (h.putTeam ((KeptBut.refl ..).setD (.head _)).advance)))

theorem mtov (d a b : Field) (c : BitVec 1) : FrameKept s t (.mtov d a b c) :=
  .of rfl fun h _ => .after (.ite .raise (.ite (.pure (h.putTeam (KeptBut.refl ..).advance))
    (h.vecWrite rfl (.head _))))

theorem malloc (d a : Field) : FrameKept s t (.malloc d a) := by
  refine .of rfl fun h _ => .ite .raise (.ok ?_)
  have hdue : s.Keeps (otherScope s t (.malloc d a)) (s.modDie t.ident.die fun k => { k with placeDue := true }) :=
    h.after fun k => k.modDie fun _ => rfl
  exact (State.Keeps.ite hdue h).putTeam ((KeptBut.withTiles ⟨d, a, rfl⟩).setD (.head _)).advance

/-! ### Transforms (R253, R258, R380) -/

theorem transformForm {k : XfKind} {etypes : List Nat} {d a : Field} {b : Option Field} {c : BitVec 1}
    (hb : exec i s = Machine.transformForm i k etypes d a b c s) : FrameKept s t i := by
  refine .of hb fun h _ => .after (.after (.ite .raise ?_))
  split
  · exact .error
  · exact .pure (h.enterPipe rfl)

theorem xtld (a k : Field) : FrameKept s t (.xtld a k) := by
  refine .of rfl fun h _ => .after (.ite .error (.after (.after (.ite .error (.ite ?_ (.pure ?_))))))
  · exact .pure (h.putTeam (KeptBut.refl ..).waitFor)
  · exact State.Keeps.putTeam (h.after fun k => k.queueXf) (KeptBut.refl ..).advance

theorem xtbind (k : Field) : FrameKept s t (.xtbind k) := by
  refine .of rfl fun h _ => .after (.ite .error (.pure ?_))
  exact State.Keeps.putTeam (h.after fun k => k.queueXf) (KeptBut.refl ..).advance

/-! ### Rays (R303 to R307) -/

theorem rayForm {defer : Bool} {d a : Field} (hi : ∃ d a, i = .trace d a ∨ i = .defer d a ∨ i = .retire d a)
    (hd : d.toNat ∈ scalarsWritten i) (hb : exec i s = Machine.rayForm i defer d a s) : FrameKept s t i := by
  refine .of hb fun h _ => .after (.pure ?_)
  have hrays (mask : Nat) : s.Keeps (otherScope s t i)
      (t.heldLanes.foldl (fun (s : State) l => s.handRay t mask defer l) s) :=
    h.after fun k => k.foldl fun _ _ hr => hr.handRay
  exact ((hrays _).putTeam ((KeptBut.loseRays hi).setD hd).advance).after fun k => k.testPool

theorem spawn (d a b : Field) : FrameKept s t (.spawn d a b) := by
  refine .of rfl fun h _ => .ite .raise (.ite ?_ (.ite (.pure ?_) (.pure ?_)))
  · exact .pure (h.putTeam ((KeptBut.refl ..).setD (.head _)).advance)
  · refine State.Keeps.putTeam (h.after fun k => k.modDie ?_) (KeptBut.refl ..).waitFor
    exact fun _ => rfl
  · refine State.Keeps.putTeam (.ite (h.after fun k => k.writePlaced) (h.after fun k => ?_)) ?_
    · exact k.countRays.foldl fun _ _ hr => hr.placeRay
    · refine KeptBut.advance (KeptBut.setD (KeptBut.aside (KeptBut.refl ..) ?_) (.head _))
      rfl

theorem retire (d a : Field) : FrameKept s t (.retire d a) := by
  refine .of rfl fun h he => .after (.after (.ite (.after ?_) ?_))
  all_goals
    refine .bind ((State.Alike.refl h.calm).fates he) fun x hx => .pure ?_
    have hrays : s.Alike (t.heldLanes.foldl (fun (r : State) l => r.retireRay t.ident.die x.2 l.2)
        (x.1.retireEnter t (t.laneGroups t.heldLanes x.2))) := hx.retireEnter.foldl fun _ _ hr => hr.retireRay
    exact ((h.alike hrays).putTeam (KeptBut.loseRays ⟨d, a, .inr (.inr rfl)⟩).advance).after fun k => k.testPool

theorem poolq (d k : Field) : FrameKept s t (.poolq d k) :=
  .of rfl fun h _ => .ok (h.putTeam ((KeptBut.refl ..).setD (.head _)).advance)

/-! ### The system (R354, R366 to R371) -/

theorem csrw (d : Field) (k : BitVec 16) : FrameKept s t (.csrw d k) := by
  refine .of rfl fun h _ => .ite .raise (.ok ?_)
  have hi : ∃ a j, (otherScope s t (.csrw d k)).instr = .csrw a j := ⟨d, k, rfl⟩
  have hw : ¬(otherScope s t (.csrw d k)).regions := by simp [otherScope]
  have hnext : s.Keeps (otherScope s t (.csrw d k)) (s.putTeam t.advance) := h.putTeam (KeptBut.refl ..).advance
  refine .ite (.ite (h.putTeam (KeptBut.setCsr hi).advance) hnext) (.ite (.ite ?_ hnext) (.ite ?_ hnext))
  · exact hnext.writeCtx hi hw
  · exact hnext.writeDie hi

theorem eret : FrameKept s t .eret := .of rfl fun h _ => .ite .error (.ite .error (.ok (h.putTeam .eret)))

theorem tlbinv (a b : Field) : FrameKept s t (.tlbinv a b) := by
  refine .of rfl fun h _ => .after (.ite .error (.pure ?_))
  have hw : ¬(otherScope s t (.tlbinv a b)).regions := by simp [otherScope]
  have hnext : s.Keeps (otherScope s t (.tlbinv a b)) (s.putTeam t.advance) := h.putTeam (KeptBut.refl ..).advance
  exact (hnext.tlbinv hw).after fun k => k.dropTreelets

theorem halt (a : Field) : FrameKept s t (.halt a) :=
  .of rfl fun h he => .ok ((h.putTeam (KeptBut.refl ..).advance).after fun k => k.haltCtx he)

theorem monr (d a b : Field) : FrameKept s t (.monr d a b) :=
  .of rfl fun h _ => .ite .raise (.ite .raise (.ok (h.putTeam ((KeptBut.refl ..).setD (.head _)).advance)))

theorem mark (k : BitVec 16) (hl : s.logs t.ctx = false) : FrameKept s t (.mark k) := by
  refine .of rfl fun h _ => .after (.bind ((State.Alike.refl h.calm).appendLog hl) fun x hx => .pure ?_)
  exact (h.alike hx).modTeam fun _ v k => k.advance.aside rfl

theorem bkpt (k : BitVec 16) : FrameKept s t (.bkpt k) :=
  .of rfl fun h _ => .ite .raise (.ok (h.putTeam (KeptBut.refl ..).advance))

end FrameKept

/-! ### Every other instruction -/

theorem frameKept_of_elsewhere (hi : elsewhere i = true) (hm : ∀ k, i = .mark k → s.logs t.ctx = false) :
    FrameKept s t i := by
  cases i with
  | watch a b => exact .watch a b
  | exit => exact .endTeam (.inl rfl) rfl
  | epend => exact .endTeam (.inr rfl) rfl
  | rsave d a b => exact .rsave d a b
  | rload d a c => exact .rload d a c
  | fence k => exact .fence k
  | linv a b => exact .linv a b
  | uflush a b => exact .uflush a b
  | preq d a b => exact .preq d a b
  | sld d a b => exact .sld d a b
  | sst d a b => exact .sst d a b
  | sgath d a b c => exact .sgath d a b c
  | sscat d a b => exact .sscat d a b
  | sldt d a b c => exact .sldt d a b c
  | sldc d a c => exact .sldc d a c
  | sstc d a b => exact .sstc d a b
  | clds d a b => exact .clds d a b
  | csts d a b => exact .csts d a b
  | upd d a b => exact .upd d a b
  | upds d a => exact .upds d a
  | tdec | tinc | tspawn => exact .taskForm rfl
  | cset a b => exact .cset a b
  | cadd a b => exact .cadd a b
  | cget | csrr => exact .team rfl (KeptBut.advance (KeptBut.setD (.refl ..) (.head _)))
  | cbar d a b => exact .cbar d a b
  | dsmop d a b => exact .dsmop d a b
  | dsmred d a b => exact .dsmred d a b
  | cpy | cpyg | cpyx | cpyq | cpyt | discard | prefetch | cpya | cwalk => exact .copyForm rfl
  | mcfg d a b => exact .mcfg d a b
  | mzero d a => exact .mzero d a
  | mma | mmag | mmas | mmad | mlda | msta => exact .matrixForm (by unfold exec; rfl)
  | mtov d a b c => exact .mtov d a b c
  | malloc d a => exact .malloc d a
  | xhad | xqnt | xact | xtopk | xtrn | xsort => exact .transformForm rfl
  | xtld a k => exact .xtld a k
  | xtbind k => exact .xtbind k
  | trace d a => exact .rayForm ⟨d, a, .inl rfl⟩ (.head _) rfl
  | defer d a => exact .rayForm ⟨d, a, .inr (.inl rfl)⟩ (.head _) rfl
  | spawn d a b => exact .spawn d a b
  | retire d a => exact .retire d a
  | poolq d k => exact .poolq d k
  | csrw d k => exact .csrw d k
  | eret => exact .eret
  | tlbinv a b => exact .tlbinv a b
  | halt a => exact .halt a
  | monr d a b => exact .monr d a b
  | mark k => exact .mark k (hm k rfl)
  | bkpt k => exact .bkpt k
  | _ => cases hi

/-- Settles O45: from a state with no bin, no FXADD line and no error ring, the body of every instruction that the other
frames do not name keeps all that the instruction does not name. -/
theorem frameOfOtherInstructions : Obligations.FrameOfOtherInstructions := by
  intro s s' t i hi he hb0 hb1 hx0 hx1 hring hlog hbare hn
  have hstart : s.Keeps (otherScope s t i) s := by
    refine .refl (State.calm_of_dies hb0 hb1 hx0 hx1) (fun hw => ?_) (hi.uid ▸ hi.cur)
    obtain ⟨hcached, hcount⟩ := hbare hw
    exact ⟨by simp [otherScope, hcached], hcount⟩
  obtain ⟨body, hbody, hkeeps⟩ := frameKept_of_elsewhere he hlog hstart hring
  refine (hi.keeps hkeeps (hbody ▸ hn)).imp_right fun h => ?_
  obtain ⟨u, hu, hkept⟩ := h.own
  refine ⟨h.bytes, h.scratch, fun hc => ⟨h.regs hc, fun n c hs => ?_⟩, fun x hx hs => ?_, u, hu, hkept.scalars,
    hkept.vectors, hkept.masks rfl, hkept.status, hkept.stack, hkept.generator.1, hkept.generator.2, hkept.budget,
    hkept.loops, hkept.tiles, hkept.trap, hkept.rays, hkept.ident⟩
  · have hctx := h.ctxs hc n
    rw [hs] at hctx
    obtain ⟨e, he, hnamed⟩ := Option.map_eq_some_iff.1 hctx
    exact ⟨e, he, (congrArg (·.2.1) hnamed :), (congrArg (·.2.2.1) hnamed :), (congrArg (·.2.2.2) hnamed :)⟩
  · obtain ⟨y, hy, ha⟩ := h.other hx hs
    exact ⟨y, hy, (congrArg Team.sregs ha :), (congrArg Team.vregs ha :), (congrArg Team.masks ha :),
      (congrArg Team.pc ha :)⟩

end Sys2Proof.Machine
end
